-- ==== Sys2Proof/Word.lean ====
section
/-! DEFINITION. The word types of the SG4-512: bytes, 32-bit words, 64-bit registers and 128-bit m slots (R3, R51, R148). -/

namespace Sys2Proof

abbrev Byte := BitVec 8
abbrev Half := BitVec 16
abbrev Word32 := BitVec 32
abbrev Word := BitVec 64
abbrev Quad := BitVec 128

end Sys2Proof
end

