-- ==== Sys2Proof/Machine/Bits.lean ====
section
/-! DEFINITION. Bit fields, byte order and small integer helpers shared by the decoder and the machine (R3, R7, R8). -/

namespace Sys2Proof.Machine

/-- bits(v, h, l) of R8, as a vector of the stated width n = h - l + 1. -/
abbrev fld {w : Nat} (v : BitVec w) (lo n : Nat) : BitVec n := v.extractLsb' lo n

/-- bits(v, h, l) of R8 as an unsigned integer. -/
def fldN {w : Nat} (v : BitVec w) (lo n : Nat) : Nat := (v.extractLsb' lo n).toNat

/-- One bit of a word as a Bool. -/
def bit {w : Nat} (v : BitVec w) (i : Nat) : Bool := v.getLsbD i

/-- The integer n placed in a word of w bits at bit position lo. -/
def put {w : Nat} (n lo : Nat) : BitVec w := BitVec.ofNat w (n * 2 ^ lo)

/-- A Bool as the integer 0 or 1. -/
def b2n (b : Bool) : Nat := if b then 1 else 0

/-- sext(v, n) of R8 on an integer already reduced to n bits. -/
def sextN (v n : Nat) : Int :=
  let u := v % 2 ^ n
  if u < 2 ^ (n - 1) then (u : Int) else (u : Int) - 2 ^ n

/-- sat(x, lo, hi) of R8. -/
def satI (x lo hi : Int) : Int := if x < lo then lo else if hi < x then hi else x

/-- The n bytes of v, lowest first (R3). -/
def leBytes : Nat → Nat → List Byte
  | 0, _ => []
  | n + 1, v => BitVec.ofNat 8 (v % 256) :: leBytes n (v / 256)

/-- The unsigned integer that bytes hold, lowest first (R3). -/
def ofLe : List Byte → Nat
  | [] => 0
  | b :: bs => b.toNat + 256 * ofLe bs

/-- Element j of a sequence of elements of w bits packed densely in bytes (R39). -/
def packedElem (bs : List Byte) (w j : Nat) : Nat := ofLe bs / 2 ^ (w * j) % 2 ^ w

/-- The bytes of a sequence of elements of w bits packed densely (R39). -/
def packElems (w : Nat) (es : List Nat) : List Byte :=
  leBytes ((es.length * w + 7) / 8) (es.foldr (fun e acc => e % 2 ^ w + 2 ^ w * acc) 0)

/-- Number of one bits of v below position n. -/
def popcountN : Nat → Nat → Nat
  | 0, _ => 0
  | n + 1, v => v % 2 + popcountN n (v / 2)

/-- Number of one bits of a word. -/
def popcount {w : Nat} (v : BitVec w) : Nat := popcountN w v.toNat

/-- Leading zero bits of v read as n bits: n when v is 0 (R87, R181). -/
def clzN (n v : Nat) : Nat := if v = 0 then n else n - 1 - Nat.log2 v

/-- Trailing zero bits of v among its low n bits: n when none is set (R87). -/
def ctzN : Nat → Nat → Nat
  | 0, _ => 0
  | n + 1, v => if v % 2 = 1 then 0 else 1 + ctzN n (v / 2)

/-- ceil(a / b). -/
def ceilDiv (a b : Nat) : Nat := (a + b - 1) / b

/-- The bit numbers below n that are set in v, ascending. -/
def setBits (n v : Nat) : List Nat := (List.range n).filter (fun i => v.testBit i)

/-- The exclusive OR of the n groups of w bits of v (R253). -/
def xorGroups : Nat → Nat → Nat → Nat
  | 0, _, _ => 0
  | n + 1, w, v => (v % 2 ^ w) ^^^ xorGroups n w (v / 2 ^ w)

end Sys2Proof.Machine
end

