-- ==== Sys2Proof/Machine/Tab.lean ====
section
/-! DEFINITION. Sparse tables: plain lists of index and value in one canonical form. Every register file, memory and
set of like units of the machine is one. -/

namespace Sys2Proof.Machine

/-- A table from numbers to values; an index that is not listed holds the table's default value. -/
abbrev Tab (α : Type) := List (Nat × α)

/-- The value at index k, or d where k is not listed. -/
def Tab.get {α : Type} (d : α) : Tab α → Nat → α
  | [], _ => d
  | (i, v) :: t, k => if i = k then v else Tab.get d t k

/-- The table without index k. -/
def Tab.erase {α : Type} : Tab α → Nat → Tab α
  | [], _ => []
  | (i, v) :: t, k => if i = k then Tab.erase t k else (i, v) :: Tab.erase t k

/-- Index k with value v put in its place among rising indices. -/
def Tab.insert {α : Type} : Tab α → Nat → α → Tab α
  | [], k, v => [(k, v)]
  | (i, w) :: t, k, v => if k < i then (k, v) :: (i, w) :: t else (i, w) :: Tab.insert t k v

/-- Writes v at index k. A value equal to the default is not listed. -/
def Tab.set {α : Type} [DecidableEq α] (d : α) (t : Tab α) (k : Nat) (v : α) : Tab α :=
  if v = d then Tab.erase t k else Tab.insert (Tab.erase t k) k v

/-- Canonical form: indices strictly rise and no listed value equals the default. -/
def Tab.wf {α : Type} [DecidableEq α] (d : α) : Tab α → Bool
  | [] => true
  | [(_, v)] => decide (v ≠ d)
  | (i, v) :: (j, w) :: t => decide (v ≠ d) && decide (i < j) && Tab.wf d ((j, w) :: t)

/-- Memory: address and byte pairs, in the canonical form of tables. -/
abbrev Memory := List Host.Cell

/-- What a byte of memory that nothing has written reads as. The spec gives no contents. DESIGN CHOICE, unsafe (log 3). -/
def Memory.blank : Byte := 0

/-- One byte of memory. -/
def Memory.get (m : Memory) (a : Nat) : Byte := Tab.get Memory.blank m a

/-- Writes one byte of memory. -/
def Memory.set (m : Memory) (a : Nat) (v : Byte) : Memory := Tab.set Memory.blank m a v

/-- The canonical form of memory. -/
def Memory.wf (m : Memory) : Bool := Tab.wf Memory.blank m

/-- n bytes from address a, lowest first. -/
def Memory.read (m : Memory) (a : Nat) : Nat → List Byte
  | 0 => []
  | n + 1 => m.get a :: Memory.read m (a + 1) n

/-- Writes bytes from address a upward. -/
def Memory.write (m : Memory) (a : Nat) : List Byte → Memory
  | [] => m
  | b :: bs => Memory.write (m.set a b) (a + 1) bs

/-- n bytes from address a as an unsigned little-endian integer (R3). -/
def Memory.readN (m : Memory) (a n : Nat) : Nat :=
  match n with
  | 0 => 0
  | k + 1 => (m.get a).toNat + 256 * Memory.readN m (a + 1) k

end Sys2Proof.Machine
end

