-- ==== Sys2Proof/Syntax.lean ====
section
/-! DEFINITION. The instruction set as syntax: one constructor per row of the opcode table (control-processor
words, kernel slot words, and the events that the engines and the host cause). -/

namespace Sys2Proof

/-- The guard of an instruction word (R61, R155): predicate GP, inverted when GN is set. -/
structure Guard where
  gp : BitVec 4
  gn : Bool
  deriving DecidableEq, Repr

/-- A request that a home controller performs as a plain access (R254): one of a control processor, by its
number, or record r of the scoreboard entry e of core c. -/
inductive HomeReq where
  | cp (r : Nat)
  | stream (c e r : Nat)
  deriving DecidableEq, Repr

/-- A flit group that a port of a package receives (R308): the port, and the group by its channel and counter. -/
structure FlitGroup where
  port : Nat
  grp : Nat
  deriving DecidableEq, Repr

/-- Where a command to the service processor of a package comes from (R387, R390): none, a write of the host; else a message of the service
port, and whether it came inside an SPDM secured session. -/
structure SvcCmd where
  pkg : Nat
  msg : Option Bool
  deriving DecidableEq, Repr

/-- An access to a die's management region (R383): offset, and size in bytes. -/
structure BarAt where
  off : Nat
  n : Nat
  deriving DecidableEq, Repr

/-- One constructor per row of the opcode table. Control-processor words carry the fields of R62, kernel slot
words those of R156 and R234 to R242. An event names its agents by number: x a context, c a core, d a die,
p a package, e a scoreboard entry, k a packet, v a verb, r a request. Instructions with an encoding stand before the events. -/
inductive Instr where
  /-- R64. The all-zero control-processor word does nothing. -/
  | nop
  /-- R87. Writes the 64-bit sum of xa and xb to xd. -/
  | add (g : Guard) (d : BitVec 5) (a : BitVec 5) (b : BitVec 5)
  /-- R87. Writes xa minus xb, modulo 2^64, to xd. -/
  | sub (g : Guard) (d : BitVec 5) (a : BitVec 5) (b : BitVec 5)
  /-- R87. Writes the bitwise AND of xa and xb to xd. -/
  | and (g : Guard) (d : BitVec 5) (a : BitVec 5) (b : BitVec 5)
  /-- R87. Writes the bitwise OR of xa and xb to xd. -/
  | or (g : Guard) (d : BitVec 5) (a : BitVec 5) (b : BitVec 5)
  /-- R87. Writes the bitwise XOR of xa and xb to xd. -/
  | xor (g : Guard) (d : BitVec 5) (a : BitVec 5) (b : BitVec 5)
  /-- R87. Writes xa AND NOT xb to xd. -/
  | andn (g : Guard) (d : BitVec 5) (a : BitVec 5) (b : BitVec 5)
  /-- R87. Shifts xa left by the low six bits of xb. -/
  | shl (g : Guard) (d : BitVec 5) (a : BitVec 5) (b : BitVec 5)
  /-- R87. Shifts xa right logically by the low six bits of xb. -/
  | shr (g : Guard) (d : BitVec 5) (a : BitVec 5) (b : BitVec 5)
  /-- R87. Shifts xa right arithmetically by the low six bits of xb. -/
  | sar (g : Guard) (d : BitVec 5) (a : BitVec 5) (b : BitVec 5)
  /-- R87. Rotates xa right by the low six bits of xb. -/
  | ror (g : Guard) (d : BitVec 5) (a : BitVec 5) (b : BitVec 5)
  /-- R87. Writes the low 64 bits of the product of xa and xb. -/
  | mul (g : Guard) (d : BitVec 5) (a : BitVec 5) (b : BitVec 5)
  /-- R87. Writes the high 64 bits of the unsigned product. -/
  | mulhu (g : Guard) (d : BitVec 5) (a : BitVec 5) (b : BitVec 5)
  /-- R87. Writes the high 64 bits of the signed product. -/
  | mulhs (g : Guard) (d : BitVec 5) (a : BitVec 5) (b : BitVec 5)
  /-- R87. Writes the operand with the smaller signed value. -/
  | min (g : Guard) (d : BitVec 5) (a : BitVec 5) (b : BitVec 5)
  /-- R87. Writes the operand with the larger signed value. -/
  | max (g : Guard) (d : BitVec 5) (a : BitVec 5) (b : BitVec 5)
  /-- R87. Writes the operand with the smaller unsigned value. -/
  | minu (g : Guard) (d : BitVec 5) (a : BitVec 5) (b : BitVec 5)
  /-- R87. Writes the operand with the larger unsigned value. -/
  | maxu (g : Guard) (d : BitVec 5) (a : BitVec 5) (b : BitVec 5)
  /-- R87. Writes the count of leading zero bits of xa. -/
  | clz (g : Guard) (d : BitVec 5) (a : BitVec 5)
  /-- R87. Writes the count of trailing zero bits of xa. -/
  | ctz (g : Guard) (d : BitVec 5) (a : BitVec 5)
  /-- R87. Writes the count of one bits of xa. -/
  | popc (g : Guard) (d : BitVec 5) (a : BitVec 5)
  /-- R88. Adds a sign-extended 12-bit immediate to xa. -/
  | addi (g : Guard) (d : BitVec 5) (a : BitVec 5) (i : BitVec 12)
  /-- R88. ANDs xa with a sign-extended 12-bit immediate. -/
  | andi (g : Guard) (d : BitVec 5) (a : BitVec 5) (i : BitVec 12)
  /-- R88. ORs xa with a sign-extended 12-bit immediate. -/
  | ori (g : Guard) (d : BitVec 5) (a : BitVec 5) (i : BitVec 12)
  /-- R88. XORs xa with a sign-extended 12-bit immediate. -/
  | xori (g : Guard) (d : BitVec 5) (a : BitVec 5) (i : BitVec 12)
  /-- R89. Shifts xa left by an immediate count. -/
  | shli (g : Guard) (d : BitVec 5) (a : BitVec 5) (s : BitVec 6)
  /-- R89. Shifts xa right logically by an immediate count. -/
  | shri (g : Guard) (d : BitVec 5) (a : BitVec 5) (s : BitVec 6)
  /-- R89. Shifts xa right arithmetically by an immediate count. -/
  | sari (g : Guard) (d : BitVec 5) (a : BitVec 5) (s : BitVec 6)
  /-- R89. Rotates xa right by an immediate count. -/
  | rori (g : Guard) (d : BitVec 5) (a : BitVec 5) (s : BitVec 6)
  /-- R90. Writes a sign-extended 17-bit immediate to xd. -/
  | movi (g : Guard) (d : BitVec 5) (i : BitVec 17)
  /-- R91. Sets gd when xa equals xb. -/
  | cmpeq (g : Guard) (p : BitVec 4) (a : BitVec 5) (b : BitVec 5)
  /-- R91. Sets gd when xa differs from xb. -/
  | cmpne (g : Guard) (p : BitVec 4) (a : BitVec 5) (b : BitVec 5)
  /-- R91. Sets gd when xa is signed-less than xb. -/
  | cmplt (g : Guard) (p : BitVec 4) (a : BitVec 5) (b : BitVec 5)
  /-- R91. Sets gd when xa is signed-greater or equal to xb. -/
  | cmpge (g : Guard) (p : BitVec 4) (a : BitVec 5) (b : BitVec 5)
  /-- R91. Sets gd when xa is unsigned-less than xb. -/
  | cmpltu (g : Guard) (p : BitVec 4) (a : BitVec 5) (b : BitVec 5)
  /-- R91. Sets gd when xa is unsigned-greater or equal to xb. -/
  | cmpgeu (g : Guard) (p : BitVec 4) (a : BitVec 5) (b : BitVec 5)
  /-- R91. Sets gd when xa AND xb is nonzero. -/
  | cmptst (g : Guard) (p : BitVec 4) (a : BitVec 5) (b : BitVec 5)
  /-- R91. Sets gd when xa equals a sign-extended 9-bit immediate. -/
  | cmpeqi (g : Guard) (p : BitVec 4) (a : BitVec 5) (i : BitVec 9)
  /-- R91. Sets gd when xa differs from the immediate. -/
  | cmpnei (g : Guard) (p : BitVec 4) (a : BitVec 5) (i : BitVec 9)
  /-- R91. Sets gd when xa is signed-less than the immediate. -/
  | cmplti (g : Guard) (p : BitVec 4) (a : BitVec 5) (i : BitVec 9)
  /-- R91. Sets gd when xa is signed-greater or equal to the immediate. -/
  | cmpgei (g : Guard) (p : BitVec 4) (a : BitVec 5) (i : BitVec 9)
  /-- R91. Sets gd when xa is unsigned-less than the immediate. -/
  | cmpltui (g : Guard) (p : BitVec 4) (a : BitVec 5) (i : BitVec 9)
  /-- R91. Sets gd when xa is unsigned-greater or equal to the immediate. -/
  | cmpgeui (g : Guard) (p : BitVec 4) (a : BitVec 5) (i : BitVec 9)
  /-- R91. Sets gd when xa AND the immediate is nonzero. -/
  | cmptsti (g : Guard) (p : BitVec 4) (a : BitVec 5) (i : BitVec 9)
  /-- R92. Writes xa or xb to xd according to predicate gs. -/
  | sel (g : Guard) (d : BitVec 5) (a : BitVec 5) (b : BitVec 5) (s : BitVec 4)
  /-- R94. Extracts an unsigned bit field of xa. -/
  | bfx (g : Guard) (d : BitVec 5) (a : BitVec 5) (p : BitVec 6) (l : BitVec 6)
  /-- R94. Extracts a sign-extended bit field of xa. -/
  | bfxs (g : Guard) (d : BitVec 5) (a : BitVec 5) (p : BitVec 6) (l : BitVec 6)
  /-- R95. Inserts the low bits of xa into a field of xd. -/
  | bfi (g : Guard) (d : BitVec 5) (a : BitVec 5) (p : BitVec 6) (l : BitVec 6)
  /-- R93. Sets gd to ga AND gb. -/
  | pand (g : Guard) (p : BitVec 4) (a : BitVec 4) (b : BitVec 4)
  /-- R93. Sets gd to ga OR gb. -/
  | por (g : Guard) (p : BitVec 4) (a : BitVec 4) (b : BitVec 4)
  /-- R93. Sets gd to ga XOR gb. -/
  | pxor (g : Guard) (p : BitVec 4) (a : BitVec 4) (b : BitVec 4)
  /-- R93. Sets gd to ga AND NOT gb. -/
  | pandn (g : Guard) (p : BitVec 4) (a : BitVec 4) (b : BitVec 4)
  /-- R93. Sets gd to NOT ga. -/
  | pnot (g : Guard) (p : BitVec 4) (a : BitVec 4)
  /-- R98. Branches to a PC-relative target after checking it. -/
  | br (g : Guard) (o : BitVec 22)
  /-- R98. Branches to a PC-relative target and links x31. -/
  | call (g : Guard) (o : BitVec 22)
  /-- R98. Branches to the address in xa after checking it. -/
  | brr (g : Guard) (a : BitVec 5)
  /-- R98. Branches to the address in xa and links x31. -/
  | callr (g : Guard) (a : BitVec 5)
  /-- R108. Raises fault 0x01 with the immediate after the other slots of its bundle. -/
  | trap (g : Guard) (i : BitVec 16)
  /-- R77. Leaves the trap handler, reissuing unperformed slots or resuming at EPC. -/
  | eret (g : Guard)
  /-- R108. Makes the context not ready until the other ready contexts have issued or 16 cycles pass. -/
  | yield (g : Guard)
  /-- R109. Reads a system register into xd. -/
  | mfs (g : Guard) (d : BitVec 5) (s : BitVec 12)
  /-- R109. Writes a system register field by field from xs. -/
  | mts (g : Guard) (d : BitVec 5) (s : BitVec 12)
  /-- R109. Reads the die cycle counter into xd. -/
  | rdtick (g : Guard) (d : BitVec 5)
  /-- R99. Loads a zero-extended byte. -/
  | ldub (g : Guard) (d : BitVec 5) (a : BitVec 5) (o : BitVec 10)
  /-- R99. Loads a zero-extended halfword. -/
  | lduh (g : Guard) (d : BitVec 5) (a : BitVec 5) (o : BitVec 10)
  /-- R99. Loads a zero-extended word. -/
  | lduw (g : Guard) (d : BitVec 5) (a : BitVec 5) (o : BitVec 10)
  /-- R99. Loads a doubleword. -/
  | ldd (g : Guard) (d : BitVec 5) (a : BitVec 5) (o : BitVec 10)
  /-- R99. Loads a sign-extended byte. -/
  | ldsb (g : Guard) (d : BitVec 5) (a : BitVec 5) (o : BitVec 10)
  /-- R99. Loads a sign-extended halfword. -/
  | ldsh (g : Guard) (d : BitVec 5) (a : BitVec 5) (o : BitVec 10)
  /-- R99. Loads a sign-extended word. -/
  | ldsw (g : Guard) (d : BitVec 5) (a : BitVec 5) (o : BitVec 10)
  /-- R99. Stores the low byte of xs. -/
  | stb (g : Guard) (d : BitVec 5) (a : BitVec 5) (o : BitVec 10)
  /-- R99. Stores the low halfword of xs. -/
  | sth (g : Guard) (d : BitVec 5) (a : BitVec 5) (o : BitVec 10)
  /-- R99. Stores the low word of xs. -/
  | stw (g : Guard) (d : BitVec 5) (a : BitVec 5) (o : BitVec 10)
  /-- R99. Stores the doubleword xs. -/
  | std (g : Guard) (d : BitVec 5) (a : BitVec 5) (o : BitVec 10)
  /-- R102. Reads a byte of a parameter window at an immediate offset. -/
  | ldpb (g : Guard) (d : BitVec 5) (w : BitVec 3) (o : BitVec 12)
  /-- R102. Reads a halfword of a parameter window at an immediate offset. -/
  | ldph (g : Guard) (d : BitVec 5) (w : BitVec 3) (o : BitVec 12)
  /-- R102. Reads a word of a parameter window at an immediate offset. -/
  | ldpw (g : Guard) (d : BitVec 5) (w : BitVec 3) (o : BitVec 12)
  /-- R102. Reads a doubleword of a parameter window at an immediate offset. -/
  | ldpd (g : Guard) (d : BitVec 5) (w : BitVec 3) (o : BitVec 12)
  /-- R102. Reads a byte of a parameter window at a register offset. -/
  | ldprb (g : Guard) (d : BitVec 5) (w : BitVec 3) (b : BitVec 5)
  /-- R102. Reads a halfword of a parameter window at a register offset. -/
  | ldprh (g : Guard) (d : BitVec 5) (w : BitVec 3) (b : BitVec 5)
  /-- R102. Reads a word of a parameter window at a register offset. -/
  | ldprw (g : Guard) (d : BitVec 5) (w : BitVec 3) (b : BitVec 5)
  /-- R102. Reads a doubleword of a parameter window at a register offset. -/
  | ldprd (g : Guard) (d : BitVec 5) (w : BitVec 3) (b : BitVec 5)
  /-- R103. Performs every earlier access of the context at a scope before any later one. -/
  | fence (g : Guard) (s : BitVec 3)
  /-- R105. Waits for the scoreboard, then arrives at a barrier word atomically at its home. -/
  | bar (g : Guard) (s : BitVec 3) (o : BitVec 2) (a : BitVec 5)
  /-- R140. Loads 4 bytes from a stall through the window port. -/
  | lds4 (g : Guard) (d : BitVec 5) (h : BitVec 5) (b : BitVec 5)
  /-- R140. Loads 8 bytes from a stall through the window port. -/
  | lds8 (g : Guard) (d : BitVec 5) (h : BitVec 5) (b : BitVec 5)
  /-- R140. Stores 4 bytes into a stall through the window port. -/
  | sts4 (g : Guard) (d : BitVec 5) (h : BitVec 5) (b : BitVec 5)
  /-- R140. Stores 8 bytes into a stall through the window port. -/
  | sts8 (g : Guard) (d : BitVec 5) (h : BitVec 5) (b : BitVec 5)
  /-- R141. Atomically adds to a stall word and returns the old word. -/
  | saadd (g : Guard) (d : BitVec 5) (h : BitVec 5) (b : BitVec 5)
  /-- R141. Atomically adds FP32 to a stall word and returns the old word. -/
  | safadd (g : Guard) (d : BitVec 5) (h : BitVec 5) (b : BitVec 5)
  /-- R141. Atomically takes the signed minimum in a stall word. -/
  | samin (g : Guard) (d : BitVec 5) (h : BitVec 5) (b : BitVec 5)
  /-- R141. Atomically takes the signed maximum in a stall word. -/
  | samax (g : Guard) (d : BitVec 5) (h : BitVec 5) (b : BitVec 5)
  /-- R141. Atomically exchanges a stall word. -/
  | saxchg (g : Guard) (d : BitVec 5) (h : BitVec 5) (b : BitVec 5)
  /-- R141. Atomically compares and swaps a stall word. -/
  | sacas (g : Guard) (d : BitVec 5) (h : BitVec 5) (b : BitVec 5)
  /-- R130. Places a stall by first fit or queries SCAP, leasing xd. -/
  | salloc (g : Guard) (d : BitVec 5) (h : BitVec 5) (a : BitVec 5)
  /-- R131. Clears the handle and takes an entry that frees the stall's granules. -/
  | sfree (g : Guard) (h : BitVec 5)
  /-- R133. Takes an entry that loads strided memory records into a stall. -/
  | sload (g : Guard) (h : BitVec 5) (a : BitVec 5) (b : BitVec 5)
  /-- R134. Takes an entry that loads and expands 2:4 sparse records into a stall. -/
  | sloadx (g : Guard) (h : BitVec 5) (a : BitVec 5) (b : BitVec 5)
  /-- R135. Takes an entry that stores stall records to strided memory. -/
  | sstore (g : Guard) (h : BitVec 5) (a : BitVec 5) (b : BitVec 5)
  /-- R136. Takes an entry that gathers table rows by index into a stall. -/
  | sgather (g : Guard) (h : BitVec 5) (i : BitVec 5) (a : BitVec 4)
  /-- R137. Takes an entry that sums bags of table rows into FP32 records. -/
  | sbag (g : Guard) (h : BitVec 5) (i : BitVec 5) (a : BitVec 4)
  /-- R137. Takes an entry that averages bags of table rows into FP32 records. -/
  | sbagm (g : Guard) (h : BitVec 5) (i : BitVec 5) (a : BitVec 4)
  /-- R138. Takes an entry that pulls records from a stall of another core of the stable. -/
  | scopy (g : Guard) (h : BitVec 5) (a : BitVec 5) (b : BitVec 5)
  /-- R138. Takes an entry that pushes records into a remote stall and advances its tag and push counter. -/
  | scopyp (g : Guard) (h : BitVec 5) (a : BitVec 5) (b : BitVec 5)
  /-- R138. Takes an entry that accounts for one push into the stall. -/
  | srecv (g : Guard) (h : BitVec 5)
  /-- R139. Waits until the named or all entries retire, then delivers any pending imprecise record. -/
  | swait (g : Guard) (h : BitVec 5)
  /-- R139. Waits until every entry of the context retires, then delivers any pending imprecise record. -/
  | swaitAll (g : Guard)
  /-- R165. Checks the loop record and port bindings and takes a scoreboard entry for a kernel invocation. -/
  | krun (g : Guard) (a : BitVec 5) (b : BitVec 5) (c : BitVec 5)
  /-- R111. Holds the bundle until the lease on xn, or all leases and answers, have ended. -/
  | lwait (g : Guard) (x : BitVec 5)
  /-- R181. Adds two d registers in each active cluster. -/
  | iadd (g : Guard) (d a b : BitVec 7)
  /-- R181. Subtracts two d registers. -/
  | isub (g : Guard) (d a b : BitVec 7)
  /-- R181. ANDs two d registers. -/
  | iand (g : Guard) (d a b : BitVec 7)
  /-- R181. ORs two d registers. -/
  | ior (g : Guard) (d a b : BitVec 7)
  /-- R181. XORs two d registers. -/
  | ixor (g : Guard) (d a b : BitVec 7)
  /-- R181. ANDs a d register with the complement of another. -/
  | iandn (g : Guard) (d a b : BitVec 7)
  /-- R181. Shifts a d register left. -/
  | ishl (g : Guard) (d a b : BitVec 7)
  /-- R181. Shifts a d register right logically. -/
  | ishr (g : Guard) (d a b : BitVec 7)
  /-- R181. Shifts a d register right arithmetically. -/
  | isar (g : Guard) (d a b : BitVec 7)
  /-- R181. Writes the low 32 bits of a product, landing at +3. -/
  | imul (g : Guard) (d a b : BitVec 7)
  /-- R181. Writes the high 32 bits of an unsigned product. -/
  | imulhu (g : Guard) (d a b : BitVec 7)
  /-- R181. Writes the high 32 bits of a signed product. -/
  | imulhs (g : Guard) (d a b : BitVec 7)
  /-- R181. Writes the signed minimum. -/
  | imin (g : Guard) (d a b : BitVec 7)
  /-- R181. Writes the signed maximum. -/
  | imax (g : Guard) (d a b : BitVec 7)
  /-- R181. Writes the unsigned minimum. -/
  | iminu (g : Guard) (d a b : BitVec 7)
  /-- R181. Writes the unsigned maximum. -/
  | imaxu (g : Guard) (d a b : BitVec 7)
  /-- R181. Counts leading zero bits of a d register. -/
  | iclz (g : Guard) (d a : BitVec 7)
  /-- R181. Counts one bits of a d register. -/
  | ipopc (g : Guard) (d a : BitVec 7)
  /-- R182. Adds a 32-bit immediate. -/
  | iaddi (g : Guard) (d a : BitVec 7) (imm : BitVec 32)
  /-- R182. ANDs with a 32-bit immediate. -/
  | iandi (g : Guard) (d a : BitVec 7) (imm : BitVec 32)
  /-- R182. ORs with a 32-bit immediate. -/
  | iori (g : Guard) (d a : BitVec 7) (imm : BitVec 32)
  /-- R182. XORs with a 32-bit immediate. -/
  | ixori (g : Guard) (d a : BitVec 7) (imm : BitVec 32)
  /-- R182. Shifts left by an immediate. -/
  | ishli (g : Guard) (d a : BitVec 7) (imm : BitVec 32)
  /-- R182. Shifts right logically by an immediate. -/
  | ishri (g : Guard) (d a : BitVec 7) (imm : BitVec 32)
  /-- R182. Shifts right arithmetically by an immediate. -/
  | isari (g : Guard) (d a : BitVec 7) (imm : BitVec 32)
  /-- R182. Multiplies by a 32-bit immediate. -/
  | imuli (g : Guard) (d a : BitVec 7) (imm : BitVec 32)
  /-- R183. Writes a 32-bit immediate to a d register in each active cluster. -/
  | moviKernel (g : Guard) (d : BitVec 7) (imm : BitVec 32)
  /-- R184. Sets a cluster predicate when two d registers are equal. -/
  | icmpeq (g : Guard) (p : BitVec 4) (a b : BitVec 7)
  /-- R184. Sets a cluster predicate when two d registers differ. -/
  | icmpne (g : Guard) (p : BitVec 4) (a b : BitVec 7)
  /-- R184. Sets a cluster predicate on signed less-than. -/
  | icmplt (g : Guard) (p : BitVec 4) (a b : BitVec 7)
  /-- R184. Sets a cluster predicate on signed greater-or-equal. -/
  | icmpge (g : Guard) (p : BitVec 4) (a b : BitVec 7)
  /-- R184. Sets a cluster predicate on unsigned less-than. -/
  | icmpltu (g : Guard) (p : BitVec 4) (a b : BitVec 7)
  /-- R184. Sets a cluster predicate on unsigned greater-or-equal. -/
  | icmpgeu (g : Guard) (p : BitVec 4) (a b : BitVec 7)
  /-- R184. Sets a cluster predicate when the AND is nonzero. -/
  | icmptst (g : Guard) (p : BitVec 4) (a b : BitVec 7)
  /-- R184. Sets a cluster predicate when a d register equals the immediate. -/
  | icmpeqi (g : Guard) (p : BitVec 4) (a : BitVec 7) (imm : BitVec 32)
  /-- R184. Sets a cluster predicate when a d register differs from the immediate. -/
  | icmpnei (g : Guard) (p : BitVec 4) (a : BitVec 7) (imm : BitVec 32)
  /-- R184. Sets a cluster predicate on signed less-than the immediate. -/
  | icmplti (g : Guard) (p : BitVec 4) (a : BitVec 7) (imm : BitVec 32)
  /-- R184. Sets a cluster predicate on signed greater-or-equal to the immediate. -/
  | icmpgei (g : Guard) (p : BitVec 4) (a : BitVec 7) (imm : BitVec 32)
  /-- R184. Sets a cluster predicate on unsigned less-than the immediate. -/
  | icmpltui (g : Guard) (p : BitVec 4) (a : BitVec 7) (imm : BitVec 32)
  /-- R184. Sets a cluster predicate on unsigned greater-or-equal to the immediate. -/
  | icmpgeui (g : Guard) (p : BitVec 4) (a : BitVec 7) (imm : BitVec 32)
  /-- R184. Sets a cluster predicate when the AND with the immediate is nonzero. -/
  | icmptsti (g : Guard) (p : BitVec 4) (a : BitVec 7) (imm : BitVec 32)
  /-- R185. Selects between two d registers by a cluster predicate. -/
  | selKernel (g : Guard) (d a b : BitVec 7) (q : BitVec 4)
  /-- R186. Sets a cluster predicate to ga AND gb. -/
  | gand (g : Guard) (p a b : BitVec 4)
  /-- R186. Sets a cluster predicate to ga OR gb. -/
  | gor (g : Guard) (p a b : BitVec 4)
  /-- R186. Sets a cluster predicate to ga XOR gb. -/
  | gxor (g : Guard) (p a b : BitVec 4)
  /-- R186. Sets a cluster predicate to ga AND NOT gb. -/
  | gandn (g : Guard) (p a b : BitVec 4)
  /-- R186. Sets a cluster predicate to NOT ga. -/
  | gnot (g : Guard) (p a : BitVec 4)
  /-- R188. Adds two FP32 values with one rounding. -/
  | fadd (g : Guard) (d a b : BitVec 7) (rm : BitVec 3)
  /-- R188. Subtracts two FP32 values with one rounding. -/
  | fsub (g : Guard) (d a b : BitVec 7) (rm : BitVec 3)
  /-- R188. Multiplies two FP32 values with one rounding. -/
  | fmul (g : Guard) (d a b : BitVec 7) (rm : BitVec 3)
  /-- R188. Returns the lesser FP32 operand. -/
  | fmin (g : Guard) (d a b : BitVec 7)
  /-- R188. Returns the greater FP32 operand. -/
  | fmax (g : Guard) (d a b : BitVec 7)
  /-- R188. Clears the sign bit of an FP32 value. -/
  | fabs (g : Guard) (d a : BitVec 7)
  /-- R188. Inverts the sign bit of an FP32 value. -/
  | fneg (g : Guard) (d a : BitVec 7)
  /-- R189. Computes a*b+c with one rounding. -/
  | ffma (g : Guard) (d a b c : BitVec 7) (rm : BitVec 3)
  /-- R189. Computes a*b-c with one rounding. -/
  | ffms (g : Guard) (d a b c : BitVec 7) (rm : BitVec 3)
  /-- R189. Computes -(a*b)+c with one rounding. -/
  | fnfma (g : Guard) (d a b c : BitVec 7) (rm : BitVec 3)
  /-- R189. Computes -(a*b)-c with one rounding. -/
  | fnfms (g : Guard) (d a b c : BitVec 7) (rm : BitVec 3)
  /-- R190. Sets a predicate when two FP32 values are equal. -/
  | fcmpeq (g : Guard) (p : BitVec 4) (a b : BitVec 7)
  /-- R190. Sets a predicate on FP32 less-than. -/
  | fcmplt (g : Guard) (p : BitVec 4) (a b : BitVec 7)
  /-- R190. Sets a predicate on FP32 less-or-equal. -/
  | fcmple (g : Guard) (p : BitVec 4) (a b : BitVec 7)
  /-- R190. Sets a predicate when either FP32 operand is a NaN. -/
  | fcmpun (g : Guard) (p : BitVec 4) (a b : BitVec 7)
  /-- R191. Adds packed FP16 pairs. -/
  | hadd (g : Guard) (d a b : BitVec 7) (rm : BitVec 3)
  /-- R191. Subtracts packed FP16 pairs. -/
  | hsub (g : Guard) (d a b : BitVec 7) (rm : BitVec 3)
  /-- R191. Multiplies packed FP16 pairs. -/
  | hmul (g : Guard) (d a b : BitVec 7) (rm : BitVec 3)
  /-- R191. Takes the packed FP16 minimum. -/
  | hmin (g : Guard) (d a b : BitVec 7)
  /-- R191. Takes the packed FP16 maximum. -/
  | hmax (g : Guard) (d a b : BitVec 7)
  /-- R191. Fused multiply-add on packed FP16 pairs. -/
  | hfma (g : Guard) (d a b c : BitVec 7) (rm : BitVec 3)
  /-- R191. Fused multiply-subtract on packed FP16 pairs. -/
  | hfms (g : Guard) (d a b c : BitVec 7) (rm : BitVec 3)
  /-- R192. Copies one word of an m register to a d register. -/
  | mvmw (g : Guard) (d a : BitVec 7) (w : BitVec 2)
  /-- R192. Copies a d register into one word of an m register. -/
  | mvwm (g : Guard) (d a : BitVec 7) (w : BitVec 2)
  /-- R193. Writes the reciprocal-square-root seed. -/
  | frsqs (g : Guard) (d a : BitVec 7)
  /-- R193. Writes the reciprocal seed. -/
  | frcps (g : Guard) (d a : BitVec 7)
  /-- R194. Writes the power-of-two divisor scale. -/
  | fdivs (g : Guard) (d a : BitVec 7)
  /-- R196. Converts FP32 to the format descriptor FD. -/
  | cvtto (g : Guard) (d a : BitVec 7) (fd : BitVec 16) (rm : BitVec 3)
  /-- R196. Converts a code of FD to FP32. -/
  | cvtfrom (g : Guard) (d a : BitVec 7) (fd : BitVec 16) (rm : BitVec 3)
  /-- R197. Converts the words of an m register and packs them into a d register. -/
  | cvtpack (g : Guard) (d a : BitVec 7) (fd : BitVec 16) (rm : BitVec 3)
  /-- R197. Unpacks elements of a d register into FP32 words of an m register. -/
  | cvtunpk (g : Guard) (d a : BitVec 7) (fd : BitVec 16) (rm : BitVec 3)
  /-- R198. Reads each cluster's bank through a read-bound stream port and advances the cursor. -/
  | srd (g : Guard) (r : BitVec 7) (port : BitVec 3) (quad : Bool)
  /-- R198. Writes each cluster's bank through a write-bound stream port and advances the cursor. -/
  | swr (g : Guard) (r : BitVec 7) (port : BitVec 3) (quad : Bool)
  /-- R201. Each cluster receives a d register from the cluster n below it. -/
  | xsend (g : Guard) (d a : BitVec 7) (cl : BitVec 4)
  /-- R201. Broadcasts one cluster's d register to all active clusters. -/
  | xbcast (g : Guard) (d a : BitVec 7) (cl : BitVec 4)
  /-- R201. Permutes a d register across clusters by a selector. -/
  | xperm (g : Guard) (d a b : BitVec 7)
  /-- R202. Integer tree reduction over active clusters. -/
  | xsum (g : Guard) (d a : BitVec 7)
  /-- R202. FP32 tree sum over active clusters. -/
  | xsumf (g : Guard) (d a : BitVec 7)
  /-- R202. FP32 tree maximum over active clusters. -/
  | xmaxf (g : Guard) (d a : BitVec 7)
  /-- R202. FP32 tree minimum over active clusters. -/
  | xminf (g : Guard) (d a : BitVec 7)
  /-- R203. Writes a vector into an active tile row. -/
  | trow (g : Guard) (d : BitVec 7) (tile : BitVec 3) (idx : BitVec 4)
  /-- R203. Reads an active tile row into a vector. -/
  | trowr (g : Guard) (d : BitVec 7) (tile : BitVec 3) (idx : BitVec 4)
  /-- R203. Reads an active tile column into a vector. -/
  | tcol (g : Guard) (d : BitVec 7) (tile : BitVec 3) (idx : BitVec 4)
  /-- R203. Writes a vector into an active tile column. -/
  | tcolr (g : Guard) (d : BitVec 7) (tile : BitVec 3) (idx : BitVec 4)
  /-- R204. Clears the tile columns of active clusters. -/
  | tzero (g : Guard) (tile : BitVec 3)
  /-- R204. Configures a tile's masks and sets V and D. -/
  | tcfg (tile : BitVec 3) (rmask cmask : BitVec 16)
  /-- R167. Ends a body pass, advancing k and the stage predicates or leaving the body. -/
  | loop
  /-- R167. Makes the sequencer issue nothing for n cycles. -/
  | wait (n : BitVec 16)
  /-- R235. Sets the pending format of A, B or C. -/
  | cfmt (g : Guard) (opd : BitVec 2) (fd : BitVec 16)
  /-- R236. Sets the C binding and the row maps. -/
  | cbind (g : Guard) (bind : BitVec 33)
  /-- R237. Sets a local plane source and starts the fetch of its plane 0. -/
  | clatch (g : Guard) (pl : Bool) (port : BitVec 3) (kc : BitVec 6) (ofg : BitVec 16) (psg : BitVec 12)
  /-- R237. Sets a remote plane source by reference word and starts the fetch of plane 0. -/
  | clatchr (g : Guard) (pl : Bool) (dr : BitVec 7) (kc : BitVec 6) (ofg : BitVec 16) (psg : BitVec 12)
  /-- R238. Checks operands and schedules the row steps of a cube run from its start point. -/
  | cube (g : Guard) (aport : BitVec 3) (sc : Bool) (dm ds : BitVec 7) (st : Bool) (zb : BitVec 11)
  /-- R239. Clears accumulator rows in active clusters. -/
  | czero (g : Guard) (dz : BitVec 7) (zo : BitVec 11) (n : BitVec 8)
  /-- R240. Moves a quarter accumulator row into an m register. -/
  | cmovzToM (g : Guard) (m dz : BitVec 7) (zo : BitVec 11) (q : BitVec 2)
  /-- R240. Moves an m register into a quarter accumulator row. -/
  | cmovzToZ (g : Guard) (m dz : BitVec 7) (zo : BitVec 11) (q : BitVec 2)
  /-- R241. Reads CSTS or CPROG into a d register, optionally clearing XS. -/
  | cstat (g : Guard) (d : BitVec 7) (sel : BitVec 2) (clr : Bool)
  /-- R242. Stops the running CUBE from issuing further steps. -/
  | cstop (g : Guard)
  /-- R260. Takes an entry that scatter-adds value rows into a table at the homes. -/
  | sscadd (g : Guard) (v : BitVec 5) (i : BitVec 5) (a : BitVec 4)
  /-- R264. Takes an entry that applies optimiser steps to indexed table rows at the homes. -/
  | srowupd (g : Guard) (v : BitVec 5) (i : BitVec 5) (a : BitVec 3)
  /-- R258. Sends an atomic add to the home. -/
  | aadd (g : Guard) (d : BitVec 5) (p : BitVec 4) (s : BitVec 3) (o : BitVec 2) (z : BitVec 1)
  /-- R258. Sends an atomic FP32 add to the home. -/
  | afadd (g : Guard) (d : BitVec 5) (p : BitVec 4) (s : BitVec 3) (o : BitVec 2)
  /-- R258. Sends an atomic signed minimum to the home. -/
  | amin (g : Guard) (d : BitVec 5) (p : BitVec 4) (s : BitVec 3) (o : BitVec 2) (z : BitVec 1)
  /-- R258. Sends an atomic signed maximum to the home. -/
  | amax (g : Guard) (d : BitVec 5) (p : BitVec 4) (s : BitVec 3) (o : BitVec 2) (z : BitVec 1)
  /-- R258. Sends an atomic AND to the home. -/
  | aand (g : Guard) (d : BitVec 5) (p : BitVec 4) (s : BitVec 3) (o : BitVec 2) (z : BitVec 1)
  /-- R258. Sends an atomic OR to the home. -/
  | aor (g : Guard) (d : BitVec 5) (p : BitVec 4) (s : BitVec 3) (o : BitVec 2) (z : BitVec 1)
  /-- R258. Sends an atomic XOR to the home. -/
  | axor (g : Guard) (d : BitVec 5) (p : BitVec 4) (s : BitVec 3) (o : BitVec 2) (z : BitVec 1)
  /-- R258. Sends an atomic exchange to the home. -/
  | axchg (g : Guard) (d : BitVec 5) (p : BitVec 4) (s : BitVec 3) (o : BitVec 2) (z : BitVec 1)
  /-- R258. Sends an atomic compare-and-swap to the home. -/
  | acas (g : Guard) (d : BitVec 5) (p : BitVec 4) (s : BitVec 3) (o : BitVec 2) (z : BitVec 1)
  /-- R269. Releases and sends a record push to a queue's home. -/
  | qpush (g : Guard) (d : BitVec 5) (a : BitVec 5) (r : BitVec 3) (s : BitVec 3)
  /-- R269. Sends a record pop to a queue's home, leasing the status and group registers. -/
  | qpop (g : Guard) (d : BitVec 5) (a : BitVec 5) (r : BitVec 3) (s : BitVec 3)
  /-- R298. Copies local bytes to another package's memory, optionally incrementing a signal word. -/
  | put (g : Guard) (d : BitVec 5) (q : BitVec 3) (o : BitVec 2)
  /-- R298. Copies another package's bytes to local memory. -/
  | get (g : Guard) (d : BitVec 5) (q : BitVec 3) (o : BitVec 2)
  /-- R299. After earlier verbs complete, releases and adds a value to a remote signal word. -/
  | signal (g : Guard) (d : BitVec 5) (q : BitVec 3)
  /-- R300. Performs an atomic at another package. -/
  | lamo (g : Guard) (d : BitVec 5) (q : BitVec 3) (f : BitVec 4) (o : BitVec 2) (z : BitVec 1)
  /-- R309. Proposes a counter value to every die of the package or system. -/
  | synct (g : Guard) (d : BitVec 5) (a : BitVec 5) (s : BitVec 1)
  /-- R338. Opens a group in the lowest free slot of the issuing core. -/
  | gopen (g : Guard) (d : BitVec 5) (a : BitVec 4)
  /-- R339. Sends one tagged store to a group. -/
  | gstore (g : Guard) (x : BitVec 5) (a : BitVec 5) (k : BitVec 5) (z : BitVec 1)
  /-- R340. Takes an entry that stores stall records as tagged stores. -/
  | sstoreg (g : Guard) (h : BitVec 5) (a : BitVec 3)
  /-- R340. Takes an entry that sends held scatter-add rows to a group. -/
  | sscaddg (g : Guard) (v : BitVec 5) (i : BitVec 5) (a : BitVec 3)
  /-- R341. Waits for the core's tagged stores, seals the source entry and reports to the originator. -/
  | gseal (g : Guard) (d : BitVec 5) (a : BitVec 4)
  /-- R342. Records COMMIT for a SEALED group and sends the commit packet. -/
  | gcommit (g : Guard) (d : BitVec 5) (k : BitVec 5)
  /-- R342. Aborts an OPEN or SEALED group with WHY 1. -/
  | gabort (g : Guard) (d : BitVec 5) (k : BitVec 5)
  /-- R342. Waits until the group settles and returns its state word. -/
  | gwait (g : Guard) (d : BitVec 5) (k : BitVec 5)
  /-- R343. Reads a staged word with the group's held entries applied, without changing anything. -/
  | gpeek (g : Guard) (d : BitVec 5) (a : BitVec 4)
  /-- R342. Hands an OPEN or SEALED group to a new committer. -/
  | gdeleg (g : Guard) (d : BitVec 5) (a : BitVec 4)
  /-- R344. Returns a group's state word. -/
  | gstat (g : Guard) (d : BitVec 5) (k : BitVec 5)
  /-- R105. The barrier word's generation changes and the waiting BAR departs, acquiring as ordered. -/
  | barDeparture (x : Nat)
  /-- R142. A window load or SRF atomic result lands once the yielding bank port serves it. -/
  | windowAnswer (x : Nat)
  /-- R130. SALLOC writes the handle and the reference or failure word at +6. -/
  | sallocAnswer (x : Nat)
  /-- R138. The remote core checks the referenced stall and serves a pull or takes a push. -/
  | remoteStallCopy (c e : Nat)
  /-- R125. An engine starts its oldest startable READY scoreboard entry. -/
  | entryStart (c e : Nat)
  /-- R126. A scoreboard entry's effect completes, advancing a written stall's tag and freeing the entry. -/
  | entryRetire (c e : Nat)
  /-- R166. Eighteen cycles after the start and tile moves the sequencer sets the start state and issues the first bundle. -/
  | invocationFirstBundle (c : Nat)
  /-- R154. The sequencer issues one kernel bundle with all eight slots in one cycle. -/
  | kernelBundleIssue (c : Nat)
  /-- R160. A cluster-array or caddy result lands at its fixed offset after issue. -/
  | writeLanding (c : Nat)
  /-- R169. At the next iteration boundary after a save request the sequencer logs owed writes and writes the kernel save area. -/
  | iterationBoundaryStop (c : Nat)
  /-- R172. A restored KRUN entry reloads its save area and replays owed writes before the first bundle at KER. -/
  | kernelReload (c : Nat)
  /-- R230. A scheduled cube row step issues, reading A rows once its block's planes are ready. -/
  | cubeStepIssue (c : Nat)
  /-- R229. A cube step's rounded partial is added into its accumulator row at +12. -/
  | cubeStepLanding (c : Nat)
  /-- R224. A plane fetch completes and writes its bank with its tag. -/
  | planeFetchReady (c b : Nat)
  /-- R233. A failed remote fetch is detected and stops the CUBE with WHY 3 or 4. -/
  | planeFetchFailure (c b : Nat)
  /-- R226. The source core checks the stall and its task's placement and serves a plane fetch. -/
  | remotePlaneRead (c b : Nat)
  /-- R254. A home controller performs a plain or stream load or store request in its single order. -/
  | homePlainAccess (q : HomeReq)
  /-- R295. A home performs a load, store or BAR arrival carried from another die and answers it. -/
  | convertedAccess (r : Nat)
  /-- R258. The home performs an atomic read-modify-write and returns the old value. -/
  | atomicAtHome (r : Nat)
  /-- R261. The home adds one scatter-add element atomically. -/
  | scatterAddAtHome (c e : Nat)
  /-- R265. The home applies one optimiser step to a table row atomically. -/
  | rowUpdateAtHome (c e : Nat)
  /-- R269. The home checks the queue block and appends a delta-coded entry or reports full. -/
  | qpushAtHome (r : Nat)
  /-- R269. The home checks the queue block and removes the head entry or reports empty. -/
  | qpopAtHome (r : Nat)
  /-- R72. An engine's result or fault reaches the context, ending the lease or outstanding answer. -/
  | leaseEnd (r : Nat)
  /-- R71. A missing load's value arrives from the home and lands in its register. -/
  | loadAnswer (r : Nat)
  /-- R272. Writes every cached counter word to the counter region. -/
  | hotctlFlush (d : Nat)
  /-- R272. Sets every counter word of the die to zero. -/
  | hotctlClear (d : Nat)
  /-- R282. A TLB miss takes a walk slot and reads page-table entries at their homes. -/
  | tableWalk (c : Nat) (va : BitVec 64) (kind : BitVec 4)
  /-- R22. The scanner checks an executable page before its first execute translation is used. -/
  | pageScan (c : Nat) (va : BitVec 64)
  /-- R289. Every 512 cycles the walker rereads a node entry with M set. -/
  | migrationLockReread (c n : Nat)
  /-- R288. A push to a full upcall queue is retried every 1024 cycles. -/
  | upcallRetry (d n : Nat)
  /-- R288. The dispatch engine pops an answer from RESQ and restores or fails the ticket's task. -/
  | pagerAnswer (d : Nat)
  /-- R284. Starts an invalidation of the entries covering VPN on the die. -/
  | tinvVpn (d : Nat) (vpn : BitVec 39)
  /-- R284. Starts an invalidation of every TLB and node-cache entry on the die. -/
  | tinvAll (d : Nat)
  /-- R284. BUSY clears once no dropped entry remains and its accesses are performed. -/
  | tinvComplete (d : Nat)
  /-- R291. Starts copying a page's lines from IDLE to COPYING. -/
  | migCopy (p : Nat) (old new : BitVec 28)
  /-- R291. Enters FINALISING from COPIED. -/
  | migFinalise (p : Nat)
  /-- R291. Ends redirects and returns from MOVED to IDLE. -/
  | migRelease (p : Nat)
  /-- R291. Abandons the new copy and returns to IDLE. -/
  | migCancel (p : Nat)
  /-- R291. An old home copies one line to the new home, entering COPIED after the last. -/
  | migrationLineCopy (p : Nat)
  /-- R291. Once no shed holds stores for the page, marked lines are recopied and the state becomes MOVED. -/
  | migrationMoved (p : Nat)
  /-- R291. A redirect answer makes the requester drop its TLB entry, walk again and resend. -/
  | migrationRedirect (r : Nat)
  /-- R309. If no die refuses, every reached die sets its counter at one frame tick. -/
  | synctAlign (x : Nat)
  /-- R298. The target link engine translates and performs a verb request once per sequence number. -/
  | verbAtTarget (v : Nat)
  /-- R301. A verb's answer or refusal returns and its status or fault reaches the context. -/
  | verbAnswer (v : Nat)
  /-- R298. When every PUT byte is performed, the signal word is incremented atomically. -/
  | putSignalAdd (v : Nat)
  /-- R306. A port engine redirects a request and the origin routes and resends it. -/
  | routeRedirect (v : Nat)
  /-- R311. A verb with no answer within LTO ends with fault 0x95. -/
  | verbTimeout (v : Nat)
  /-- R306. Makes the other interleave bank current on all dies and starts draining the old generation. -/
  | itctlSwap (p : Nat)
  /-- R307. A package port training attempt completes, bringing UP or setting WHY. -/
  | portTrainingAttempt (p port why : Nat)
  /-- R307. A write to a port's LPCFG sets modes or DIS, holding it down or starting training. -/
  | lpcfgWrite (d q : Nat) (v : BitVec 64)
  /-- R308. A receiver discards a flit group whose tag fails and requests it again, downing the port at three failures. -/
  | groupTagFailure (p : Nat) (port : FlitGroup)
  /-- R310. Writing HALT freezes or releases the die's cores at a cycle boundary. -/
  | dbgctlHalt (d : Nat) (v : BitVec 64)
  /-- R342. A waiting GWAIT's group settles and the state word is returned as an acquire. -/
  | gwaitReturn (x : Nat)
  /-- R320. The originator accepts or refuses a source's enlist request. -/
  | enlistRequest (k : Nat)
  /-- R320. A source receives the enlist answer, releasing or discarding its held stores. -/
  | enlistAnswer (k : Nat)
  /-- R322. A destination reserves room for a tagged store, holds it and acknowledges or refuses. -/
  | shedAdmit (k : Nat)
  /-- R323. A source receives an acknowledgement, completing a tagged store. -/
  | storeAck (k : Nat)
  /-- R346. A source receiving a refusal sends the abort to the originator before any seal. -/
  | storeRefusal (k : Nat)
  /-- R341. The originator counts a seal, checks its count, and enters SEALED at NSRC seals. -/
  | sealReport (k : Nat)
  /-- R325. A destination receiving a commit packet applies the group's held entries in one step. -/
  | groupApply (k : Nat)
  /-- R318. The originator counts apply acknowledgements and enters APPLIED with S set. -/
  | applyAck (k : Nat)
  /-- R327. A destination receiving an abort discards the group's entries and acknowledges. -/
  | groupDiscard (k : Nat)
  /-- R318. The originator counts discard acknowledgements and sets S in ABORTED. -/
  | discardAck (k : Nat)
  /-- R320. A source core receiving a decision packet frees its source entry. -/
  | decisionAtSource (k : Nat)
  /-- R328. A destination's lease timer reaches CELEASE and it queries the originator. -/
  | leaseQuery (h : Nat) (grp : BitVec 32)
  /-- R328. A destination acts on the originator's COMMIT, ABORT, PENDING or UNKNOWN answer. -/
  | queryAnswer (k : Nat)
  /-- R330. A group's deadline passes and it aborts with WHY 5. -/
  | deadlineExpiry (c slot : Nat)
  /-- R330. An originator matches a save, restore or kill notice, pausing, resuming or aborting a group. -/
  | placementNotice (k : Nat)
  /-- R332. Destinations mark groups of a reset package ORPHAN. -/
  | resetNotice (p q : Nat)
  /-- R332. Applies an ORPHAN group held on the die. -/
  | shforceApply (d : Nat) (grp : BitVec 32)
  /-- R332. Discards an ORPHAN group held on the die. -/
  | shforceDiscard (d : Nat) (grp : BitVec 32)
  /-- R392. A held commit-channel packet is routed again after a SWAP or a port change. -/
  | heldPacketReroute (k : Nat)
  /-- R334. The paddock writes a group's entries to host memory and then a completion entry. -/
  | paddockApply (p : Nat)
  /-- R335. The host advances HEAD, letting a full paddock ring resume. -/
  | padcqpHeadWrite (p : Nat) (v : BitVec 32)
  /-- R364. The host's TAIL doorbell is accepted or ignored with ERR set. -/
  | lqpTailWrite (p : Nat) (v : BitVec 32)
  /-- R362. Die 0's dispatch engine checks, scans and loads a graph package. -/
  | loadRecord (p : Nat)
  /-- R363. Unloads a package, forced or only when unused. -/
  | unloadRecord (p : Nat)
  /-- R365. Checks a RUN record and makes the graph's root nodes ready. -/
  | runRecord (p : Nat)
  /-- R371. A ready task instance is placed on an idle context with a frame block. -/
  | taskPlacement (p run node : Nat) (wid : BitVec 64) (x blk : Nat)
  /-- R371. The zero fill of a kernel save area completes, letting the task's KRUN be accepted. -/
  | saveAreaFillDone (x : Nat)
  /-- R369. A copy node moves LEN bytes from SRC to DST. -/
  | copyNode (p run node : Nat)
  /-- R369. An event node stores EVAL at EADDR as a release. -/
  | eventNode (p run node : Nat)
  /-- R369. A conditional node reads its predicate and takes or skips its branch edges. -/
  | conditionalNode (p run node : Nat)
  /-- R370. A loop node counts a body run and re-arms the body or completes. -/
  | loopNode (p run node : Nat)
  /-- R372. After a branch to EXITVA and the drain wait, the task ends or its pending record is delivered. -/
  | taskEnd (x : Nat)
  /-- R82. After its wait, a placed task is written to its frame and continuation area. -/
  | taskSave (x : Nat)
  /-- R376. A saved task's frame is checked and restored onto a context. -/
  | taskRestore (p t x : Nat)
  /-- R375. A task that has run DQUANT units while an equal-PRIO task waits is saved. -/
  | quantumExpiry (x : Nat)
  /-- R375. A higher-PRIO ready task causes the lowest-PRIO most recent task to be saved. -/
  | priorityPreemption (x : Nat)
  /-- R374. When no task of a finished or failed graph remains, its completion record is written. -/
  | graphComplete (p run : Nat)
  /-- R382. A host access through BAR2 is performed at the home as a plain system-scope access. -/
  | bar2Access (p pa : Nat) (wr : Bool) (n : Nat) (data : BitVec 64)
  /-- R390. Sets FAILS to 0 so that the next start is full. -/
  | sctlClrfail (p : SvcCmd)
  /-- R390. Starts the device again with CAUSE 2. -/
  | sctlRestart (p : SvcCmd)
  /-- R390. On power-on or reset the service processor runs the start-up steps, entering normal, minimal or safe mode. -/
  | startUp (p : Nat) (cause : BitVec 3) (fail : Nat) (code : BitVec 8) (sd : BitVec 4)
  /-- R388. A PLDM firmware update stages and verifies an image for the next start. -/
  | firmwareUpdate (p : Nat) (img : List (BitVec 8)) (key : List (BitVec 8)) (ver : BitVec 16) (sig : List (BitVec 8))
  /-- R389. The service processor returns measurements signed with the identity key. -/
  | spdmMeasurement (p idx : Nat)
  /-- R387. A vendor-defined message in a secured session loads an SM4 link key or writes SCTL. -/
  | linkKeyLoad (p : SvcCmd) (port : Nat) (dir : Bool) (key : BitVec 128)
  /-- R387. The service port returns a platform monitoring sensor value. -/
  | pldmSensorRead (p sensor : Nat)
  /-- R391. On exceeding a power or temperature limit the clock is lowered by 100 MHz on all dies. -/
  | clockStep (p : Nat)
  /-- R391. At 105 degrees the device raises MCTHERM and stops every core. -/
  | thermalTrip (p die : Nat)
  /-- R5. A write to a register without its own row sets RW fields and clears W1C bits. -/
  | registerWrite (d : Nat) (off : BarAt) (v : BitVec 64)
  /-- R307. A package port loses its peer, goes down with WHY 4, starts training again at once, and its unacknowledged requests are routed again and resent. -/
  | portPeerLost (p port : Nat)
  /-- R385. A die-to-die link fails beyond retry and raises the machine check MCD2D. -/
  | d2dLinkFailure (p a b : Nat)
  /-- R310. A hold report from a linked package arrives on the management channel, or ends, and sets or clears DHOLD, pausing or resuming timeouts, watchdogs and commit leases. -/
  | linkedHoldReport (p q : Nat) (held : Bool)
  /-- R346. The originator receives a source's abort for a refused store or a ninth package and aborts the group before acting on any later seal from that source. -/
  | sourceAbortReport (k : Nat)
  /-- R142. The yielding bank port writes a pending STS into the bank, which performs the store that SWAIT waits for. -/
  | windowStoreWrite (x : Nat)
  deriving DecidableEq, Repr

end Sys2Proof
end

