-- ==== Sys2Proof/Machine/State.lean ====
section
/-! DEFINITION. The state of the machine as plain data, its reasons to stop, and the state after reset. A unit of the
part is one entry of a table: a context by package * 2048 + core * 4 + context, a core by package * 512 + core (the
source key of R321), a die by package * 4 + die. -/

namespace Sys2Proof.Machine

/-- A fault record (R26): four 64-bit words. -/
structure Rec where
  w0 : Word
  w1 : Word
  w2 : Word
  w3 : Word
  deriving DecidableEq, Repr

/-- How far a BAR of an open bundle has come (R105, R106): not arrived, arrival on its way, or arrived in
generation gen. -/
inductive BarSt where
  | none
  | sent
  | arrived (gen : Nat)
  deriving DecidableEq, Repr

/-- One bundle in issue or in the replay buffer (R51, R59, R75). -/
structure Issue where
  /-- Address of the bundle's first word. -/
  addr : Nat
  /-- The words of slots 0 to 3; unoccupied slots are zero. -/
  words : List Word32
  /-- OCC and PERF of RBSTAT (R57). -/
  occ : BitVec 4
  perf : BitVec 4
  /-- Registers as read at issue, slot by slot: index n is xn, index 32 + n is hn (R59, R75). -/
  cap : List (Tab Word)
  /-- Predicates as read at issue. -/
  g : BitVec 12
  /-- The bundle was reissued from the replay buffer, so the guard of each unperformed slot was true (R75). -/
  re : Bool
  /-- Target of a taken branch that was performed. -/
  taken : Option Nat
  bar : BarSt
  /-- An imprecise record was pending when the bundle issued (R76). -/
  sync : Bool
  /-- A GWAIT of slot E is waiting (R342). -/
  gwait : Bool
  /-- The branch to EXITVA waits for the task's work to end (R372). -/
  exit : Bool
  /-- The cycle counter and the leases in force in the issue cycle (R72, R109). -/
  tick : Word
  lease : BitVec 32
  /-- The request of the load in slot M that has been sent (R74). -/
  ld : Option Nat
  deriving DecidableEq, Repr

/-- A task as the dispatch engine knows it (R371, R375, R376); load is the number of the load whose graph it belongs to. -/
structure Task where
  run : Nat
  node : Nat
  wid : Word
  ph : Nat
  load : Nat
  prio : Nat
  /-- Frame block index within the frame pool (R365). -/
  blk : Nat
  /-- The ACC bit of the node (R358). -/
  acc : Bool
  /-- The zero fill of the kernel save area is complete (R371). -/
  zeroed : Bool
  /-- The cycle in which the task was placed or restored, and its order of placement (R375). -/
  start : Nat
  since : Nat
  /-- Queues that the task has popped, by physical address (R288). -/
  pops : List Nat
  deriving DecidableEq, Repr

/-- Why a placed task is to be saved (R375, R285): pre-emption, or a page or node fault to be serviced with the
upcall's virtual address, access kind, whether it is a node fault, region and level, and the scoreboard entry that it stopped, if
it was one. -/
inductive SaveWhy where
  | preempt
  | fault (va kind : Nat) (node : Bool) (region level : Nat) (ent : Option Nat)
  deriving DecidableEq, Repr

/-- An SALLOC that has not answered (R130): handle, destination, request. -/
structure Alloc where
  hd : Nat
  xd : Nat
  req : Word
  deriving DecidableEq, Repr

/-- A window access or SRF atomic on its way to the bank (R140 to R142). fn is the SUB value. -/
structure Win where
  fn : Nat
  size : Nat
  xd : Nat
  /-- Bank * 2^18 + offset. -/
  at_ : Nat
  v : Nat
  cmp : Nat
  deriving DecidableEq, Repr

/-- A SYNCT in progress (R309): its number, destination, the time proposed, and the dies it was proposed to. -/
structure Sync where
  id : Nat
  xd : Nat
  t0 : Word
  dies : List Nat
  deriving DecidableEq, Repr

/-- A failed answer of the pager that its operation has still to meet (R288): failure code, address and access kind, and whether the
operation is a slot of the bundle that is reissued, or the fetch of a bundle. -/
structure PagerFail where
  why : Nat
  va : Nat
  kind : Nat
  slot : Bool
  deriving DecidableEq, Repr

/-- A control-processor context (R51). -/
structure Ctx where
  x : Tab Word
  g : BitVec 12
  h : Tab Word
  w : Tab Quad
  pc : Nat
  wid : Word
  t : Bool
  tvec : Word
  epc : Word
  ldpstk : Word
  gixstk : Word
  frame : Word
  /-- LEASE (R57, R72): bit n is 1 while xn is leased. -/
  lease : BitVec 32
  /-- Bit n is 1 while xn awaits a load or window result (R71). -/
  await : BitVec 32
  /-- Outstanding answers of E-slot commands with destination x0 (R72). -/
  out0 : Nat
  issue : Option Issue
  rb : Option Issue
  /-- The replay buffer's bundle is the next to issue (R77, R83). -/
  reissue : Bool
  /-- A precise fault has struck: what is in flight lands before the context issues again (R78). -/
  drain : Bool
  /-- The pending imprecise record (R27). -/
  pend : Option Rec
  /-- YIELD (R108): contexts that have not issued since, and the cycle at which it ends. -/
  yield : Option (List Nat × Nat)
  /-- A FENCE at this scope holds later M and E bundles (R103). -/
  fence : Option Nat
  allocs : List Alloc
  wins : List Win
  /-- SYNCTs that have not answered (R309). -/
  syncts : List Sync
  task : Option Task
  save : Option SaveWhy
  /-- The operations that the pager has failed and that have not met their fault yet (R288). -/
  pagerFail : List PagerFail
  /-- The task ends with this fault once its work has run out (R76, R372). -/
  kill : Option Rec
  deriving DecidableEq, Repr

/-- An idle context (R51). -/
def Ctx.reset : Ctx :=
  { x := [], g := 0, h := [], w := [], pc := 0, wid := 0, t := false, tvec := 0, epc := 0, ldpstk := 0, gixstk := 0,
    frame := 0, lease := 0, await := 0, out0 := 0, issue := none, rb := none, reissue := false, drain := false, pend := none,
    yield := none, fence := none, allocs := [], wins := [], syncts := [], task := none, save := none, pagerFail := [],
    kill := none }

/-- A TLB entry (R282): first 64 KiB page of the virtual range, log2 of its pages, the level of its leaf, the leaf, and which of
its pages have passed the scan (R22). -/
structure TlbE where
  page : Nat
  lg : Nat
  level : Nat
  pte : Word
  scanned : List Nat
  deriving DecidableEq, Repr

/-- A walk's end: a leaf, a missing leaf or node, a bad entry, a migration lock or a node whose page a migration holds, a failed
remote read, no root. far: the entry was read from a remote node (R289). -/
inductive WalkRes where
  | leaf (level : Nat) (e : Word)
  | noPage (level region : Nat) (far : Bool)
  | noNode (level region : Nat) (far : Bool)
  | bad (level : Nat) (far : Bool)
  | lock (level : Nat)
  | link (level : Nat)
  | noRoot
  deriving DecidableEq, Repr

/-- A walk in flight or over (R282, R289): the page that it was started for, the level of the node entry that it waits at, its
result, and the misses that share it and have not taken the result, each with its page: a context by 0 to 3, a scoreboard entry by 4 + its
number, a request, verb or packet by 64 + its number. -/
structure Walking where
  page : Nat
  level : Nat
  res : Option WalkRes
  takers : List (Nat × Nat)
  deriving DecidableEq, Repr

/-- A node-cache entry (R282): level, the index bits above that level, the entry. -/
structure NodeE where
  level : Nat
  key : Nat
  pte : Word
  deriving DecidableEq, Repr

/-- An allocated stall of the yard (R119, R121). -/
structure Stall where
  base : Nat
  len : Nat
  rsz : Nat
  glo : Nat
  ghi : Nat
  tag : BitVec 8
  push : Nat
  deriving DecidableEq, Repr

/-- Where an access goes: package, physical address, placement, HOME and the leaf (R253, R279). -/
structure Place where
  pkg : Nat
  pa : Nat
  pl : Nat
  home : Nat
  pte : Word
  deriving DecidableEq, Repr

/-- State of a scoreboard entry (R122). -/
inductive EntSt where
  | waiting
  | ready
  | started
  | stopped
  deriving DecidableEq, Repr

/-- A scoreboard entry (R122, R145): a stream instruction, KRUN or stream form of another engine. -/
structure Entry where
  /-- Context number 0 to 3 and the command word. -/
  ctx : Nat
  word : Word32
  /-- x registers as read at issue. -/
  cap : Tab Word
  /-- Declared stalls: handle number, handle as read at acceptance, expected tag of a read. -/
  reads : List (Nat × Word × BitVec 8)
  writes : List (Nat × Word)
  st : EntSt
  /-- Acceptance order. -/
  seq : Nat
  /-- Lowest record not complete, and records above it that are complete. -/
  resume : Nat
  done : List Nat
  /-- The first-read tag comparison has passed. -/
  tagOk : Bool
  /-- The imprecise record to deliver at retirement, and that the entry moves nothing further. -/
  flt : Option Rec
  stop : Bool
  /-- The lowest record with illegal 2:4 metadata, and the cycle in which it was found (R26, R134). -/
  badMeta : Option (Nat × Word)
  /-- Touches of guard granules before the kernel was stopped, and the first of them: bank, offset and cycle (R26, R143). -/
  touches : Nat
  touch : Option (Nat × Nat × Word)
  /-- The entry was stopped, saved and restored, and has not started since (R146). -/
  held : Bool
  /-- Bytes of records that are partly moved (R254): a record's lines are accesses of their own. -/
  part : Tab (List Byte)
  /-- The index words of such records, and the bytes of such records that are stored, as they were read at the first line (R136, R137,
  R144). -/
  idx : Tab (Option Nat)
  snap : Tab (List Byte)
  /-- Of an invocation that was stopped: the clusters that each logged write reaches, the WHY and core of a fetch that had failed, and the
  count k, of which the save area holds 32 bits (R203, R226, R244, log 90). -/
  reach : List (List Nat)
  cfail : Option (Nat × Nat)
  kcount : Nat
  /-- Places of the row under way (R263). -/
  places : List Place
  /-- Scratch: element within a record or row, bag number, indices in the open bag, its sums (R137, R261). -/
  sub : Nat
  bag : Nat
  k : Nat
  acc : List Nat
  /-- Tagged stores sent and not complete (R340). -/
  owed : Nat
  /-- The source entry under which it was accepted is gone: what it still has to send is discarded (R320, log 64). -/
  void : Bool
  deriving DecidableEq, Repr

/-- What a write of the cluster array lands in (R161, R171), by physical number: a d register, an m slot or one word of it, a
predicate, a row or column of a tile, a tile's cells column by column, a tile's configuration, words of the banks, or k with
the stage predicates. -/
inductive KDst where
  | d (n : Nat)
  | m (slot : Nat)
  | mw (slot w : Nat)
  | g (n : Nat)
  | row (tile i : Nat)
  | col (tile j : Nat)
  | zero (tile : Nat)
  | cfg (tile : Nat) (rmask cmask : BitVec 16)
  | bank
  | loop (k trip : Nat)
  | z (words : List Nat)
  deriving DecidableEq, Repr

/-- A write that has issued and not landed (R160 to R162): landing cycle, slot, order of issue, destination, the clusters whose guard
was true (R171), and per lane (per yard word for bank, per z row for words of it) the value. -/
structure Owed where
  land : Nat
  slot : Nat
  order : Nat
  dst : KDst
  act : List Nat
  lanes : List (Nat × Nat)
  deriving DecidableEq, Repr

/-- A stream port of the array (R152, R198): 0 unbound, 1 read, 2 write; the handle number and handle bound. -/
structure Port where
  dir : Nat
  hn : Nat
  handle : Word
  cursor : Nat
  first : Bool
  expect : BitVec 8
  deriving DecidableEq, Repr

/-- Phase of an invocation (R166). -/
inductive Phase where
  | start
  | prologue
  | body
  | epilogue
  | ended
  deriving DecidableEq, Repr

/-- A kernel bundle that is issuing: its words, the slots still to perform, the cycles that WAIT adds, and whether a LOOP was
taken (R154, R167). -/
structure KIssue where
  words : List Word
  todo : List Nat
  wait : Nat
  taken : Bool
  deriving DecidableEq, Repr

/-- The running invocation (R166): the KRUN entry's number and word, its context and frame, its record and operands. -/
structure Inv where
  slot : Nat
  word : Word32
  ctx : Nat
  frame : Nat
  recaddr : Nat
  rec_ : List Word
  trip : Nat
  scalar : Word
  bind : Word
  phase : Phase
  /-- Bundles of the phase still to issue, and the index of the next. -/
  left : Nat
  index : Nat
  bundle : Option KIssue
  ports : List Port
  /-- Touches of guard granules and the first of them: bank, offset and cycle (R26, R143). -/
  touches : Nat
  touch : Option (Nat × Nat × Word)
  flt : Option Rec
  /-- The invocation stands at an iteration boundary (R169). -/
  boundary : Bool
  /-- The invocation was restored and reloads its save area (R172). -/
  reload : Bool
  /-- Cycles that tile moves take before the first bundle (R175). -/
  delay : Nat
  deriving DecidableEq, Repr

/-- Tile state (R173). -/
structure Tile where
  v : Bool
  d : Bool
  rmask : BitVec 16
  cmask : BitVec 16
  own : Nat
  deriving DecidableEq, Repr

/-- The cluster array of a core (R148): registers keyed cluster * 128 + n, m slots cluster * 64 + slot, predicates by
cluster, tile elements tile * 256 + 16 * row + column. -/
structure Ca where
  d : Tab Word32
  m : Tab Quad
  g : Tab (BitVec 12)
  k : Nat
  /-- The array's cycle count. -/
  cycle : Nat
  inv : Option Inv
  owed : List Owed
  order : Nat
  tiles : Tab Tile
  tcell : Tab Word32
  store : Tab (BitVec 512)
  deriving DecidableEq, Repr

/-- A tile no task owns (R173). -/
def Tile.reset : Tile := { v := false, d := false, rmask := 0, cmask := 0, own := 0 }

/-- The array before any invocation. -/
def Ca.reset : Ca :=
  { d := [], m := [], g := [], k := 0, cycle := 0, inv := none, owed := [], order := 0, tiles := [],
    tcell := [], store := [] }

/-- A plane fetch under way (R224, R226): the bank it fills, its tag, the cycle in which it is ready; for a remote source,
whether the source has served it, with the bytes read, or the WHY and core of its failure. -/
structure Fetch where
  bank : Nat
  plane : Nat
  m16 : Bool
  ready : Nat
  remote : Bool
  served : Bool
  bytes : List Byte
  fail : Option (Nat × Nat)
  deriving DecidableEq, Repr

/-- Tag of an operand bank (R224). -/
structure BankTag where
  v : Bool
  plane : Nat
  m16 : Bool
  deriving DecidableEq, Repr

/-- A row step issued and not landed (R229, R230): landing cycle, accumulator row, whether it is the last of its CUBE, and per
cluster its 16 partials. -/
structure Step where
  land : Nat
  row : Nat
  last : Bool
  parts : List (Nat × List Nat)
  deriving DecidableEq, Repr

/-- The running CUBE (R231): start cycle of the current block, cycle of the next step, and the WHY and core of a failed fetch for the next
block. Its descriptor is CDESC, its next step CPROG. -/
structure Cube where
  tblk : Int
  next : Nat
  fail : Option (Nat × Nat)
  deriving DecidableEq, Repr

/-- The cube multiplier of a core (R220 to R222). -/
structure Caddy where
  fmtA : BitVec 16
  fmtB : BitVec 16
  fmtC : BitVec 16
  bind : BitVec 33
  psb : Quad
  psc : Quad
  banks : List BankTag
  bankData : Tab (List Byte)
  /-- Descriptor of the last CUBE: the fields of word 0 of R245 from its bit 15, and BIND from bit 63. -/
  cdesc : BitVec 96
  csts : BitVec 32
  cprog : BitVec 32
  cube : Option Cube
  steps : List Step
  fetches : List Fetch
  /-- z rows keyed cluster * 1536 + row; 16 words of 32 bits each, lowest first. -/
  z : Tab (BitVec 512)
  deriving DecidableEq, Repr

/-- A bank that holds nothing (R224). -/
def BankTag.reset : BankTag := { v := false, plane := 0, m16 := false }

/-- The caddy after reset (R220): FMTA, FMTB and FMTC 0x0082, BIND ONE with identity maps, no plane. -/
def Caddy.reset : Caddy :=
  { fmtA := 0x0082, fmtB := 0x0082, fmtC := 0x0082, bind := 0, psb := 0, psc := 0,
    banks := [BankTag.reset, BankTag.reset, BankTag.reset, BankTag.reset], bankData := [], cdesc := 0, csts := 0,
    cprog := 0, cube := none, steps := [], fetches := [], z := [] }

/-- A group slot of an originator (R316). -/
structure GSlot where
  state : Nat
  why : Nat
  settled : Bool
  gen : Nat
  /-- Committer: package and FB (R319). -/
  comPkg : Nat
  comFb : Nat
  nsrc : Nat
  enlisted : List Nat
  sealed : List Nat
  dests : List Nat
  acks : List Nat
  /-- Deadline: cycles left, and the cycle in which it last began to count, if it counts (R330). -/
  deadline : Option Nat
  resumed : Option Nat
  done : BitVec 512
  appl : BitVec 512
  deriving DecidableEq, Repr

/-- A slot never used (R316). -/
def GSlot.reset : GSlot :=
  { state := 0, why := 0, settled := false, gen := 0, comPkg := 0, comFb := 0, nsrc := 0, enlisted := [], sealed := [],
    dests := [], acks := [], deadline := none, resumed := none, done := 0, appl := 0 }

/-- Enlist state of a source entry (R320). -/
inductive Enlist where
  | asked
  | ok
  | refused
  deriving DecidableEq, Repr

/-- A source entry of a core (R320): the group, the next sequence number, the first packet number of the entry, its enlistment
and seal, the destinations its stores reached, the packages its stores were sent to, and the frames of the tasks that issued
tagged stores or seals. -/
structure Src where
  group : Nat
  next : Nat
  first : Nat
  enlist : Enlist
  sealed : Bool
  dests : List Nat
  pkgs : List Nat
  frames : List Nat
  deriving DecidableEq, Repr

/-- A core and its engines. -/
structure Core where
  tlb : List TlbE
  nodes : List NodeE
  /-- Walks that hold a walk slot, or whose result has not been taken by every miss that shares it, and the misses that found no slot,
  oldest first (R282, R289). -/
  walks : List Walking
  misses : List (Nat × Nat)
  /-- Instruction cache: line address and words, newest first. -/
  ic : List (Nat × List Word32)
  /-- Data cache: 64-byte lines by physical address, newest first (R100). -/
  dc : List (Nat × List Byte)
  /-- The previous cycle's primary (R69). -/
  prev : Option Nat
  /-- The yard by bank * 2^18 + offset (R114), and its allocated stalls, which give each granule its state (R115). -/
  yard : Memory
  stalls : List Stall
  sb : Tab (Option Entry)
  seq : Nat
  ca : Ca
  cz : Caddy
  slots : Tab GSlot
  srcs : Tab (Option Src)
  deriving DecidableEq, Repr

/-- A core after reset. -/
def Core.reset : Core :=
  { tlb := [], nodes := [], walks := [], misses := [], ic := [], dc := [], prev := none, yard := [], stalls := [],
    sb := [], seq := 0, ca := Ca.reset, cz := Caddy.reset, slots := [], srcs := [] }

/-- An upcall (R285 to R288): ticket, the record, the region whose queue receives it, whether it is pushed. -/
structure Upcall where
  ticket : Nat
  fields : List Word32
  region : Nat
  pushed : Bool
  deriving DecidableEq, Repr

/-- What a home controller has still to do at a hotness counter, or its notification queue, while a migration holds the page (R272, R273,
R291, log 86): count a request by its source and address, push a notification, flush, or clear. -/
inductive HotJob where
  | touch (src pa : Nat)
  | note (rec : List Nat)
  | flush
  | clear
  deriving DecidableEq, Repr

/-- The registers and units of one die (R383). -/
structure Die where
  /-- The cycle counter, as its distance from the cycles since reset (R309). -/
  tick : Word
  sd : Bool
  flog : Tab (Option Rec)
  flogp : Word
  cecnt : Word
  tbase : Word
  tinv : Word
  /-- Requests with lower numbers were translated before the invalidation under way (R284). -/
  tinvMark : Nat
  /-- What that invalidation dropped: first page and log2 of the pages of each entry (R284). -/
  tinvCover : List (Nat × Nat)
  pgrbase : Word
  resq : Word
  hotcfg : Word
  hotq : Word
  hotbase : Word
  hotdrop : Word
  /-- Cached hotness counter words by block, and drops since the last push (R271 to R273). -/
  hot : Tab (Option Word)
  hotLost : Nat
  hotJobs : List HotJob
  /-- Interleave entries, bank * 1024 + package (R304). -/
  ilv : Tab Word
  /-- LPCFG of ports 4d to 4d + 3 by port mod 4, the SM4 keys by port * 2 + direction, and the failed tag requests of a flit group, by
  group * 4 + port mod 4 (R307, R308). -/
  lpcfg : Tab Word
  keys : Tab (Option (BitVec 128))
  tagFails : Tab Nat
  halt : Bool
  /-- The cycle in which HALT became 1 (R310). -/
  haltAt : Nat
  lto : Word
  lsreq : Word
  celease : Word
  dquant : Word
  upcalls : List Upcall
  ticket : Nat
  /-- The next sequence number by target package (R303). -/
  vseq : Tab Nat
  /-- The SYNCT in progress (R309). -/
  sync : Option Nat
  deriving DecidableEq, Repr

/-- The reset value of LPCFG (R307): every mode 0b10. -/
def lpcfgReset : Word := 0xAA

/-- A die after reset. LTO, CELEASE and DQUANT hold their reset values (R311, R332, R375). -/
def Die.reset : Die :=
  { tick := 0, sd := true, flog := [], flogp := 0, cecnt := 0, tbase := 0, tinv := 0, tinvMark := 0, tinvCover := [], pgrbase := 0, resq := 0,
    hotcfg := 0, hotq := 0, hotbase := 0, hotdrop := 0, hot := [], hotLost := 0, hotJobs := [], ilv := [], lpcfg := [], keys := [],
    tagFails := [], halt := false, haltAt := 0, lto := 0x4000, lsreq := 0, celease := 0x1000, dquant := 0,
    upcalls := [], ticket := 0, vseq := [], sync := none }

/-- State of a page migration (R291). -/
inductive MigSt where
  | idle
  | copying
  | copied
  | finalising
  | moved
  deriving DecidableEq, Repr

/-- The migration of a package (R290, R291): state, pages, lines copied, lines marked, ERR. -/
structure Mig where
  st : MigSt
  old : Nat
  new : Nat
  copied : Nat
  marked : List Nat
  err : Bool
  deriving DecidableEq, Repr

/-- A loaded graph package as LOAD read it (R355 to R362): its number among the loads of its package, the header's bytes, the code section,
the microcode range, the widths of the fields of a WID, the node records, edge records and binding records, NFRAME and ARGMIN. -/
structure Loaded where
  id : Nat
  hdr : List Byte
  pkgva : Nat
  codeoff : Nat
  codelen : Nat
  ubase : Nat
  ulen : Nat
  widths : List Nat
  nodes : List (List Word)
  edges : List Word32
  binds : List (Word × Word)
  nframe : Nat
  argmin : Nat
  deriving DecidableEq, Repr

/-- A node of a running graph (R368 to R371): complete instances by WID, those placed or saved, the core on which each instance was
first placed, whether the node is skipped, a conditional node's predicate, and a loop node's count. A node that is no task
has the one instance 0. -/
structure RunNode where
  done : List Nat
  live : List Nat
  homes : List (Nat × Nat)
  skip : Bool
  pred : Bool
  loops : Nat
  deriving DecidableEq, Repr

/-- A node with nothing done. -/
def RunNode.reset : RunNode := { done := [], live := [], homes := [], skip := false, pred := false, loops := 0 }

/-- A running graph (R365, R366, R368 to R374): its package, the record's operands, its nodes, the frame blocks in use, tasks ended,
body runs counted, whether a loop ended at MAXIT, the first fault, and whether a forced unload stopped it. -/
structure Run where
  ph : Nat
  l : Loaded
  prio : Nat
  tag : Nat
  args : Nat
  caddr : Nat
  fpool : Nat
  nfpool : Nat
  order : Nat
  nodes : Tab RunNode
  blocks : List Nat
  tasks : Nat
  iters : Nat
  maxit : Bool
  failed : Option Rec
  stopped : Bool
  deriving DecidableEq, Repr

/-- A task that is saved (R82, R285, R376): the task, the core it left, its frame, the ticket it waits for, the code of a failed
answer, whether it may be restored, its scoreboard entries in acceptance order, which of them the serviced fault
stopped, with the fault's access kind and address, whether the bundle in the frame is one of the running trap handler's own
(log 66), the predicates that this bundle read when it first issued (R75, log 68), and the GSEALs that wait for its stream forms: group,
EXP and destination (R341, log 78). unmet: failed answers that its operations have not met yet (R288). -/
structure Saved where
  task : Task
  core : Nat
  frame : Nat
  ticket : Option Nat
  fail : Option Nat
  unmet : List PagerFail
  ready : Bool
  ents : List Entry
  failEnt : Option Nat
  failKind : Nat
  failVa : Nat
  own : Bool
  bg : Option (BitVec 12)
  seals : List (Nat × Nat × Nat)
  deriving DecidableEq, Repr

/-- A firmware image (R388): version and SM3 measurement. -/
structure Image where
  ver : BitVec 16
  digest : List Byte
  deriving DecidableEq, Repr

/-- Units of one package. -/
structure Pkg where
  lq : Word
  lqp : Word
  /-- ITCTL (R304): ERR, OV, OLD, GEN, DRAIN. -/
  itctl : Word
  /-- Packages whose reset notice is on its way here (R332). -/
  notices : List Nat
  /-- Linked packages that report a hold, and the cycle in which DHOLD became 1 (R310). -/
  linkHold : List Nat
  heldAt : Option Nat
  /-- Sequence numbers performed, by source die (R303). -/
  vdone : List (Nat × Nat)
  mig : Mig
  padcq : Word
  padcqp : Word
  /-- Groups that the paddock is to apply or discard, with STATE and WHY, in order of arrival; and the next PHASE (R334, R335). -/
  padq : List (Nat × Nat × Nat)
  padPhase : Bool
  /-- STEP, CODE, MIN and CAUSE of SRESN; FAILS; and the cause of a start that has been ordered and not run (R390). -/
  sresn : Word
  fails : Nat
  starting : Option Nat
  loaded : Tab (Option Loaded)
  /-- The number that the next load takes. -/
  loads : Nat
  runs : Tab (Option Run)
  saved : List Saved
  /-- The package handle of a forced unload under way (R363). -/
  unloading : Option Nat
  nextRun : Nat
  order : Nat
  /-- MSI-X vectors raised, oldest first (R382). -/
  vectors : List Nat
  /-- The clock in units of 100 MHz; the cycle in which it was set, and by how many fifteenths of a cycle the package's counters
  had then fallen behind; and a thermal trip (R391). -/
  clock : Nat
  clockAt : Nat
  lag : Nat
  thermal : Bool
  image : Option Image
  staged : Option Image
  /-- What reads of BAR0, of BAR2 and of the service port returned, oldest first (R382, R383, R387, R389). -/
  out : List (List Byte)
  deriving DecidableEq, Repr

/-- No migration. -/
def Mig.reset : Mig := { st := .idle, old := 0, new := 0, copied := 0, marked := [], err := false }

/-- A package after reset: LQ and PADCQ L2N 6 (R364, R335), clock 15 units of 100 MHz (R391). -/
def Pkg.reset : Pkg :=
  { lq := 6, lqp := 0, itctl := 0, notices := [], linkHold := [], heldAt := none, vdone := [], mig := Mig.reset, padcq := 6, padcqp := 0,
    padq := [], padPhase := true, sresn := 0, fails := 0,
    starting := none, loaded := [], loads := 1, runs := [], saved := [], unloading := none, nextRun := 0, order := 0, vectors := [],
    clock := 15, clockAt := 0, lag := 0, thermal := false, image := none, staged := none, out := [] }

/-- A held entry of a shed (R322): source key, sequence number, kind (0 a store, 1 + FMT a scatter-add), address, data. -/
structure Held where
  key : Nat
  seq : Nat
  kind : Nat
  pa : Nat
  data : List Byte
  deriving DecidableEq, Repr

/-- A group held at a destination (R322, R328). -/
structure ShedGroup where
  group : Nat
  held : List Held
  /-- The cycle in which the lease timer started (R328). -/
  timer : Nat
  orphan : Bool
  /-- A query has been sent and not answered (R328). -/
  query : Bool
  deriving DecidableEq, Repr

/-- What a request asks of a home (R254). -/
inductive ReqKind where
  | load (xd size : Nat) (signed : Bool)
  | store (size v : Nat)
  | bar
  | atomic (fn size : Nat) (op cmp : Nat) (xd : Nat)
  | qpush (xd : Nat) (fields : List Word32)
  | qpop (xd grp : Nat)
  deriving DecidableEq, Repr

/-- A request of a control processor on its way to a home (R100, R256, R295). -/
structure Req where
  x : Nat
  kind : ReqKind
  pkg : Nat
  va : Nat
  pa : Nat
  /-- Placement and HOME of the leaf. -/
  pl : Nat
  home : Nat
  release : Bool
  acquire : Option Nat
  /-- The line may no longer enter the data cache. -/
  noFill : Bool
  /-- Performed, with the answer's words; or ended with an imprecise fault. -/
  ans : Option (List Nat)
  line : List Byte
  /-- The cycle in which its home found fault 0x73 (R26, R269). -/
  flt : Option Word
  word : Word32
  deriving DecidableEq, Repr

/-- Kind of a verb (R296). -/
inductive VerbKind where
  | put
  | get
  | signal
  | lamo (fn size : Nat)
  deriving DecidableEq, Repr

/-- A verb in flight (R297 to R306): context, command, operands, orders; the places of its local pages, of its target pages
within the package and of its signal word; sequence number, generation, port and redirects; start cycle; progress, and its
fault as code, DETAIL value and the cycle in which it was found. -/
structure Verb where
  x : Nat
  kind : VerbKind
  xd : Nat
  word : Word32
  l : Nat
  v : Nat
  target : Nat
  len : Nat
  sig : Nat
  op : Nat
  cmp : Nat
  rel : Bool
  acq : Bool
  lps : List Place
  vps : List Place
  sps : List Place
  seq : Nat
  gen : Nat
  port : Nat
  redirects : Nat
  start : Nat
  sent : Bool
  moved : Nat
  performed : Bool
  sigDone : Bool
  ans : Nat
  flt : Option (Nat × Nat × Word)
  deriving DecidableEq, Repr

/-- A packet of the commit channel (R320 to R343). A source is a core's number, a destination a shed's number (R321, R322). store: the held
entry, the task's frame, the stream entry that sends it, its destination, or none while the address still has to be translated at package
PKG, and the virtual address. ack and refuse answer it. seal: EXP, the lease of context x, and the count and destination set once sent.
command: 0 GCOMMIT, 1 GABORT, 2 GPEEK, 3 GDELEG, 4 GSTAT. answer: a fault as code, DETAIL, UNIT and the cycle in which it was found. -/
inductive PktKind where
  | enlist (src : Nat)
  | enlistAns (src : Nat) (ok : Bool)
  | store (h : Held) (frame : Nat) (ent : Option Nat) (dest : Option Nat) (va : Nat)
  | ack (src frame : Nat) (ent : Option Nat) (dest : Nat)
  | refuse (src frame : Nat) (ent : Option Nat) (why : Nat)
  | seal (src exp x xd : Nat) (sent : Option (Nat × List Nat))
  | apply (dest : Nat)
  | applyAck (dest : Nat)
  | abort (dest why : Nat)
  | discardAck (dest : Nat)
  | decision (src : Nat)
  | srcAbort (src why : Nat)
  | query (dest : Nat)
  | queryAns (dest ans why : Nat)
  | notice (ev fb : Nat)
  | command (fn x xd : Nat) (arg : Word) (dest : Option Nat) (va pa : Nat) (word : Word32)
  | peek (x xd : Nat) (dest : Option Nat) (va pa : Nat) (word : Word32)
  | answer (x xd : Nat) (v : Word) (flt : Option (Nat × Nat × Nat × Word))
  deriving DecidableEq, Repr

/-- A packet in flight or held (R392): its group, the dies it goes between, its generation, port and redirects. -/
structure Pkt where
  group : Nat
  from_ : Nat
  to_ : Nat
  gen : Nat
  port : Nat
  redirects : Nat
  held : Bool
  kind : PktKind
  deriving DecidableEq, Repr

/-- Storage that carries check bits (R385): the banks of a core, the memory-side store, HBM4, and the caches, microcode store and
tile words of a core. -/
inductive Storage where
  | srf (c : Nat)
  | mss
  | hbm
  | store (c : Nat)
  deriving DecidableEq, Repr

/-- An error in a stored word (R117, R255, R385): where it is, and whether more than one bit is in error. -/
structure SoftErr where
  place : Storage
  key : Nat
  hard : Bool
  deriving DecidableEq, Repr

/-- Whose move is next (log 5): a context, a core's merge stage, a core's array, an event, the host reading n bytes at an offset of a
die's management region (R383), or the clock. The schedule is the model's own: the spec leaves the order open (R14). -/
inductive Turn where
  | cp (x : Nat)
  | merge (c : Nat)
  | kernel (c : Nat)
  | event (i : Instr)
  | barRead (d off n : Nat)
  | tick (n : Nat)
  deriving DecidableEq, Repr

/-- Where the current step acts (log 5): context, slot of the bundle, core. -/
structure Cur where
  x : Nat
  slot : Nat
  c : Nat
  deriving DecidableEq, Repr

/-- The machine: every package of a system (R9). -/
structure State where
  ctxs : Tab Ctx
  cores : Tab Core
  dies : Tab Die
  pkgs : Tab Pkg
  /-- Holding sheds: die * 33 + controller, controller 32 of a package's die 0 being the paddock (R322, R334). -/
  sheds : Tab (List ShedGroup)
  /-- Device memory, package * 2^44 + physical address, and host memory, package * 2^52 + host address. -/
  mem : Memory
  host : Memory
  /-- Words of storage that are in error; nothing in the opcode table brings one about (log 23). -/
  errs : List SoftErr
  reqs : Tab (Option Req)
  verbs : Tab (Option Verb)
  pkts : Tab (Option Pkt)
  nextId : Nat
  /-- Cycles since reset. -/
  now : Nat
  turns : List Turn
  /-- Moves made by the model's own schedule (log 5). -/
  round : Nat
  cur : Cur
  free : Nat
  deriving DecidableEq, Repr

/-- Why the machine stops. -/
inductive Fault where
  /-- Raised by the fetch of a control-processor or kernel word whose value is reserved. R63 and R23: the decoders
  assume that every word has passed the scan, so no effect is given. Safe. -/
  | reservedWord
  deriving DecidableEq, Repr

/-- Why an instruction has no meaning in the model. -/
inductive Refusal where
  /-- Raised by the arm of an instruction that is not modelled. Safe. -/
  | notModelled (mnemonic : String)
  deriving DecidableEq, Repr

/-- The machine right after reset. Every unit is at its reset value; memory lists nothing. -/
def State.reset : State :=
  { ctxs := [], cores := [], dies := [], pkgs := [], sheds := [], mem := [], host := [], errs := [], reqs := [], verbs := [],
    pkts := [], nextId := 0, now := 0, turns := [], round := 0, cur := ⟨0, 0, 0⟩, free := 0 }

end Sys2Proof.Machine
end

