-- ==== Sys2Proof/Machine/Formats.lean ====
section
/-! DEFINITION. Number formats, rounding and arithmetic on exact values (R29 to R50, R187 to R191, R228, R265). -/

namespace Sys2Proof.Machine

/-- The special-value policy of a format (R30, R37). Integers have none. -/
inductive Policy where
  | ieee | finite | satfinite | unsigned | integer
  deriving DecidableEq, Repr

/-- A number format: element width, sign bits, exponent bits, mantissa bits, exponent bias, policy. -/
structure Fmt where
  w : Nat
  sg : Bool
  eb : Nat
  mb : Nat
  bias : Int
  pol : Policy
  deriving DecidableEq, Repr

/-- FP32, FP16 and BF16 of R37, and the integers of R38. -/
def Fmt.fp32 : Fmt := ⟨32, true, 8, 23, 127, .ieee⟩
def Fmt.fp16 : Fmt := ⟨16, true, 5, 10, 15, .ieee⟩
def Fmt.bf16 : Fmt := ⟨16, true, 8, 7, 127, .ieee⟩
def Fmt.int (w : Nat) (sg : Bool) : Fmt := ⟨w, sg, 0, if sg then w - 1 else w, 0, .integer⟩

/-- The wide formats of R32 by their CODE. -/
def wideFmt (code : Nat) : Option Fmt :=
  match code with
  | 0x00 => some Fmt.fp32
  | 0x01 => some Fmt.fp16
  | 0x02 => some Fmt.bf16
  | 0x08 => some (Fmt.int 16 true)
  | 0x09 => some (Fmt.int 16 false)
  | 0x0A => some (Fmt.int 32 true)
  | 0x0B => some (Fmt.int 32 false)
  | 0x0C => some (Fmt.int 64 true)
  | 0x0D => some (Fmt.int 64 false)
  | _ => none

/-- The policy that SP names (R30). -/
def policyOf (sp : Nat) : Policy :=
  match sp with
  | 0 => .ieee
  | 1 => .finite
  | 2 => .satfinite
  | _ => .unsigned

/-- The format a descriptor names; none when the descriptor is reserved (R30, R31, R32). -/
def fmtOf (d : BitVec 16) : Option Fmt :=
  let wc := fldN d 5 3
  let e := fldN d 2 3
  let sp := fldN d 0 2
  let bias : Int := (fld d 8 8).toInt
  if wc = 7 then
    if fldN d 8 8 = 0 then wideFmt (fldN d 0 5) else none
  else if wc = 5 ∨ wc = 6 then none
  else
    let w := 4 + wc
    let s := if sp = 3 then 0 else 1
    if w < s + e then none
    else if e = 0 then
      if (sp = 2 ∨ sp = 3) ∧ bias = 0 then some (Fmt.int w (sp = 2)) else none
    else if sp = 0 ∧ (e < 2 ∨ w - s - e < 1) then none
    else some ⟨w, sp ≠ 3, e, w - s - e, bias, policyOf sp⟩

/-- An exact value: a NaN, a signed infinity, or (-1)^neg * m * 2^e. A zero keeps its sign. -/
inductive Num where
  | nan
  | inf (neg : Bool)
  | fin (neg : Bool) (m : Nat) (e : Int)
  deriving DecidableEq, Repr

/-- decode(c, d) of R33, and integers read by R38. -/
def decodeNum (f : Fmt) (c : Nat) : Num :=
  if f.pol = .integer then
    let v : Int := if f.sg then sextN c f.w else (c % 2 ^ f.w : Nat)
    .fin (v < 0) v.natAbs 0
  else
    let s := f.sg && (c / 2 ^ (f.w - 1)) % 2 = 1
    let ex := c / 2 ^ f.mb % 2 ^ f.eb
    let mn := c % 2 ^ f.mb
    let top := 2 ^ f.eb - 1
    if f.pol = .ieee ∧ ex = top then (if mn = 0 then .inf s else .nan)
    else if f.pol = .finite ∧ ex = top ∧ mn = 2 ^ f.mb - 1 then .nan
    else if ex = 0 then .fin s mn (1 - f.bias - f.mb)
    else .fin s (2 ^ f.mb + mn) ((ex : Int) - f.bias - f.mb)

/-- The canonical NaN of a format; +0 in a format that has no NaN (R35, R43). -/
def nanCode (f : Fmt) : Nat :=
  match f.pol with
  | .ieee => (2 ^ f.eb - 1) * 2 ^ f.mb + 2 ^ (f.mb - 1)
  | .finite => 2 ^ (f.eb + f.mb) - 1
  | _ => 0

/-- The code of the largest finite magnitude (R34). -/
def maxCode (f : Fmt) : Nat :=
  match f.pol with
  | .ieee => (2 ^ f.eb - 1) * 2 ^ f.mb - 1
  | .finite => 2 ^ (f.eb + f.mb) - 2
  | _ => 2 ^ (f.eb + f.mb) - 1

/-- A magnitude code with the sign bit of the format. -/
def withSign (f : Fmt) (neg : Bool) (c : Nat) : Nat := if f.sg && neg then 2 ^ (f.w - 1) + c else c

/-- floor(log2(num / den)) for positive num and den. -/
def floorLog2 (num den : Nat) : Int :=
  let l : Int := (Nat.log2 num : Int) - (Nat.log2 den : Int)
  let ge : Bool := if 0 ≤ l then den * 2 ^ l.toNat ≤ num else den ≤ num * 2 ^ (-l).toNat
  if ge then l else l - 1

/-- The quotient and remainder of (num / den) / 2^q: floor, remainder, and the divisor of the remainder. -/
def scaleDiv (num den : Nat) (q : Int) : Nat × Nat × Nat :=
  let n := if q < 0 then num * 2 ^ (-q).toNat else num
  let d := if q < 0 then den else den * 2 ^ q.toNat
  (n / d, n % d, d)

/-- Whether a magnitude with floor k and fraction rem / d rounds up under mode (R40, R41). -/
def roundsUp (mode : Nat) (neg : Bool) (k rem d : Nat) : Bool :=
  match mode with
  | 0 => d < 2 * rem || (2 * rem = d && k % 2 = 1)
  | 2 => 0 < rem && !neg
  | 3 => 0 < rem && neg
  | 4 => d ≤ 2 * rem
  | _ => false

/-- The largest finite value's code, an infinity or a NaN, by policy and mode (R44). -/
def overflowCode (f : Fmt) (neg : Bool) (mode : Nat) : Nat :=
  let toMax : Bool := mode = 1 || (mode = 2 && neg) || (mode = 3 && !neg)
  match f.pol with
  | .ieee => withSign f neg (if toMax then maxCode f else (2 ^ f.eb - 1) * 2 ^ f.mb)
  | .finite => withSign f neg (if toMax then maxCode f else nanCode f)
  | _ => withSign f neg (maxCode f)

/-- The code of k * 2^q, where q is the weight of the last mantissa bit (R41). -/
def encodeMag (f : Fmt) (k : Nat) (q : Int) : Nat :=
  if k < 2 ^ f.mb then k else (q + f.mb + f.bias).toNat * 2 ^ f.mb + (k - 2 ^ f.mb)

/-- k * 2^q lies above the largest finite magnitude (R41, R44). -/
def aboveMax (f : Fmt) (k : Nat) (q : Int) : Bool :=
  2 ^ (f.eb + f.mb) ≤ encodeMag f k q || maxCode f < encodeMag f k q

/-- round(x, f, mode) for x = (-1)^neg * num / den, num and den positive (R41, R42). -/
def roundRat (f : Fmt) (mode : Nat) (neg : Bool) (num den : Nat) : Nat :=
  if f.pol = .integer then
    let (k, rem, d) := scaleDiv num den 0
    let k := if roundsUp mode neg k rem d then k + 1 else k
    let r : Int := if neg then -(k : Int) else k
    let lo : Int := if f.sg then -(2 ^ (f.w - 1) : Nat) else 0
    let hi : Int := if f.sg then (2 ^ (f.w - 1) : Nat) - 1 else (2 ^ f.w : Nat) - 1
    ((satI r lo hi) % (2 ^ f.w : Nat)).toNat
  else if f.pol = .unsigned ∧ neg then 0
  else
    let q := max (floorLog2 num den) (1 - f.bias) - f.mb
    let (k, rem, d) := scaleDiv num den q
    let k := if roundsUp mode neg k rem d then k + 1 else k
    if aboveMax f k q then overflowCode f neg mode else withSign f neg (encodeMag f k q)

/-- round(x, f, mode) of R8 for every input of R41 to R44. -/
def roundNum (f : Fmt) (mode : Nat) (x : Num) : Nat :=
  match x with
  | .nan => nanCode f
  | .inf neg =>
    match f.pol with
    | .ieee => withSign f neg ((2 ^ f.eb - 1) * 2 ^ f.mb)
    | .finite => withSign f neg (nanCode f)
    | .satfinite => withSign f neg (maxCode f)
    | .unsigned => if neg then 0 else maxCode f
    | .integer => if neg then (if f.sg then 2 ^ (f.w - 1) else 0)
                  else (if f.sg then 2 ^ (f.w - 1) - 1 else 2 ^ f.w - 1)
  | .fin neg m e =>
    if m = 0 then (if f.pol = .integer then 0 else withSign f neg 0)
    else if e < 0 then roundRat f mode neg m (2 ^ (-e).toNat) else roundRat f mode neg (m * 2 ^ e.toNat) 1

/-- Converts a code of one format to another (R45). -/
def convert (src dst : Fmt) (mode : Nat) (c : Nat) : Nat := roundNum dst mode (decodeNum src c)

/-- The value with its sign inverted. -/
def Num.neg : Num → Num
  | .nan => .nan
  | .inf s => .inf (!s)
  | .fin s m e => .fin (!s) m e

/-- The exact product (R187 rules 1, 2, 4 and 5). -/
def Num.mul : Num → Num → Num
  | .nan, _ => .nan
  | _, .nan => .nan
  | .inf s, .inf t => .inf (s != t)
  | .inf s, .fin t m _ => if m = 0 then .nan else .inf (s != t)
  | .fin s m _, .inf t => if m = 0 then .nan else .inf (s != t)
  | .fin s m e, .fin t n f => .fin (s != t) (m * n) (e + f)

/-- A signed magnitude as an integer in units of 2^u, for u at most its exponent. -/
def scaleInt (neg : Bool) (m : Nat) (e u : Int) : Int :=
  let v : Int := m * 2 ^ (e - u).toNat
  if neg then -v else v

/-- The exact sum; an exact zero takes its sign by R187 rule 5 under mode. -/
def Num.add (mode : Nat) : Num → Num → Num
  | .nan, _ => .nan
  | _, .nan => .nan
  | .inf s, .inf t => if s = t then .inf s else .nan
  | .inf s, .fin .. => .inf s
  | .fin .., .inf t => .inf t
  | .fin s m e, .fin t n f =>
    if m = 0 ∧ n = 0 then .fin (if s = t then s else mode = 3) 0 0
    else
      let u := min e f
      let v := scaleInt s m e u + scaleInt t n f u
      if v = 0 then .fin (mode = 3) 0 0 else .fin (v < 0) v.natAbs u

/-- FADD, FSUB, FMUL and the FMA forms on codes of a format, rounded once (R187 to R189, R191). -/
def fadd (f : Fmt) (mode a b : Nat) : Nat := roundNum f mode (Num.add mode (decodeNum f a) (decodeNum f b))
def fsub (f : Fmt) (mode a b : Nat) : Nat := roundNum f mode (Num.add mode (decodeNum f a) (decodeNum f b).neg)
def fmul (f : Fmt) (mode a b : Nat) : Nat := roundNum f mode (Num.mul (decodeNum f a) (decodeNum f b))

/-- ±(a × b) ± c rounded once: np negates the product, nc the addend (R189). -/
def ffma (f : Fmt) (np nc : Bool) (mode a b c : Nat) : Nat :=
  let p := Num.mul (decodeNum f a) (decodeNum f b)
  let p := if np then p.neg else p
  let z := decodeNum f c
  let z := if nc then z.neg else z
  roundNum f mode (Num.add mode p z)

/-- a < b on values, with zeros of either sign equal; false when either is a NaN (R190). -/
def Num.lt : Num → Num → Bool
  | .nan, _ => false
  | _, .nan => false
  | .inf s, .inf t => s && !t
  | .inf s, .fin .. => s
  | .fin .., .inf t => !t
  | .fin s m e, .fin t n f => let u := min e f; scaleInt s m e u < scaleInt t n f u

/-- a = b on values, with zeros of either sign equal; false when either is a NaN (R190). -/
def Num.eqv : Num → Num → Bool
  | .nan, _ => false
  | _, .nan => false
  | .inf s, .inf t => s = t
  | .inf _, .fin .. => false
  | .fin .., .inf _ => false
  | .fin s m e, .fin t n f => let u := min e f; scaleInt s m e u = scaleInt t n f u

/-- The value is a NaN. -/
def Num.isNan : Num → Bool
  | .nan => true
  | _ => false

/-- The sign bit that an encoded value shows, for ordering -0 below +0 (R188). -/
def signBit (f : Fmt) (c : Nat) : Bool := c / 2 ^ (f.w - 1) % 2 = 1

/-- FMIN of R188: -0 below +0, the chosen operand's bits unchanged, a NaN yields the other operand. -/
def fmin (f : Fmt) (a b : Nat) : Nat :=
  let x := decodeNum f a
  let y := decodeNum f b
  if x.isNan && y.isNan then nanCode f
  else if x.isNan then b
  else if y.isNan then a
  else if Num.lt x y then a
  else if Num.lt y x then b
  else if signBit f a then a else b

/-- FMAX of R188. -/
def fmax (f : Fmt) (a b : Nat) : Nat :=
  let x := decodeNum f a
  let y := decodeNum f b
  if x.isNan && y.isNan then nanCode f
  else if x.isNan then b
  else if y.isNan then a
  else if Num.lt x y then b
  else if Num.lt y x then a
  else if signBit f a then b else a

/-- FABS and FNEG of R188. -/
def fabs (a : Nat) : Nat := if (decodeNum Fmt.fp32 a).isNan then nanCode Fmt.fp32 else a % 2 ^ 31
def fneg (a : Nat) : Nat :=
  if (decodeNum Fmt.fp32 a).isNan then nanCode Fmt.fp32 else if signBit Fmt.fp32 a then a % 2 ^ 31 else a + 2 ^ 31

/-- A NaN code becomes the canonical NaN; any other code is unchanged (R202). -/
def canonNan (a : Nat) : Nat := if (decodeNum Fmt.fp32 a).isNan then nanCode Fmt.fp32 else a

/-- floor(√n) by n's bits from the highest, k of them left. -/
def isqrtGo : Nat → Nat → Nat → Nat
  | 0, _, r => r
  | k + 1, n, r => let t := r + 2 ^ k; isqrtGo k n (if t * t ≤ n then t else r)

/-- floor(√n). -/
def isqrt (n : Nat) : Nat := isqrtGo (Nat.log2 n / 2 + 1) n 0

/-- num / den rounded to an integer, RNE. -/
def rneDiv (num den : Nat) : Nat :=
  let k := num / den
  if roundsUp 0 false k (num % den) den then k + 1 else k

/-- rsqrt_table[i] of R46: 2^12 / √mid(i) rounded to an integer, RNE. The root of 4·2^24/mid is read to its floor. -/
def rsqrtTable (i : Nat) : Nat :=
  let p := i / 128
  let t := i % 128
  (isqrt (2 ^ 34 / ((257 + 2 * t) * 2 ^ p)) + 1) / 2

/-- rcp_table[t] of R47: 2^12 / mid(t) rounded to an integer, RNE. -/
def rcpTable (t : Nat) : Nat := rneDiv (2 ^ 20) (257 + 2 * t)

/-- round_sig(num / den, n, rne), as a mantissa and an exponent. -/
def roundSig (n num den : Nat) : Nat × Int :=
  let q := floorLog2 num den - ((n : Int) - 1)
  let (k, rem, d) := scaleDiv num den q
  (if roundsUp 0 false k rem d then k + 1 else k, q)

/-- seed_rsqrt and seed_rcp of R48 for a positive mantissa m and exponent e: sign neg, FP32 code. -/
def seedRsqrtFin (m : Nat) (e : Int) : Nat :=
  let l := Nat.log2 m
  let ex : Int := (l : Int) + e
  let p := (ex % 2).toNat
  let k := (ex - p) / 2
  let t := m * 128 / 2 ^ l - 128
  let c := 257 + 2 * t
  let (r, q) := roundSig 16 (rsqrtTable (p * 128 + t) * (3 * c * 2 ^ l - 256 * m)) (4096 * (2 ^ (l + 1) * c))
  roundNum Fmt.fp32 0 (.fin false r (q - k))

def seedRcpFin (neg : Bool) (m : Nat) (e : Int) : Nat :=
  let l := Nat.log2 m
  let ex : Int := (l : Int) + e
  let t := m * 128 / 2 ^ l - 128
  let c := 257 + 2 * t
  let (r, q) := roundSig 16 (rcpTable t * (2 * c * 2 ^ l - 256 * m)) (4096 * (2 ^ l * c))
  roundNum Fmt.fp32 0 (.fin neg r (q - ex))

/-- seed_rsqrt(a) of R48 and R49. -/
def seedRsqrt (a : Nat) : Nat :=
  match decodeNum Fmt.fp32 a with
  | .nan => 0x7FC00000
  | .inf neg => if neg then 0x7FC00000 else 0
  | .fin neg m e => if m = 0 then (if neg then 0xFF800000 else 0x7F800000)
                    else if neg then 0x7FC00000 else seedRsqrtFin m e

/-- seed_rcp(a) of R48 and R49. -/
def seedRcp (a : Nat) : Nat :=
  match decodeNum Fmt.fp32 a with
  | .nan => 0x7FC00000
  | .inf neg => if neg then 0x80000000 else 0
  | .fin neg m e => if m = 0 then (if neg then 0xFF800000 else 0x7F800000) else seedRcpFin neg m e

/-- FDIVS of R194. -/
def divScale (a : Nat) : Nat :=
  match decodeNum Fmt.fp32 a with
  | .nan => 0x7FC00000
  | .inf _ => 0
  | .fin _ m e => if m = 0 then 0x7F800000
                  else roundNum Fmt.fp32 0 (.fin false 1 (-(satI ((Nat.log2 m : Int) + e) (-127) 127)))

/-- A finite dyadic number, for exact comparisons. -/
structure Dy where
  m : Int
  e : Int
  deriving DecidableEq, Repr

def Dy.neg (a : Dy) : Dy := ⟨-a.m, a.e⟩
def Dy.mul (a b : Dy) : Dy := ⟨a.m * b.m, a.e + b.e⟩
def Dy.sub (a b : Dy) : Dy :=
  let u := min a.e b.e
  ⟨a.m * 2 ^ (a.e - u).toNat - b.m * 2 ^ (b.e - u).toNat, u⟩
def Dy.le (a b : Dy) : Bool := (Dy.sub a b).m ≤ 0

/-- c ≤ w - n / (√s + eps), exactly, for s at least 0 and eps above 0 (R265). -/
def adaGe (w n s eps c : Dy) : Bool :=
  let a := Dy.sub w c
  let b := Dy.sub n (Dy.mul a eps)
  let a2s := Dy.mul (Dy.mul a a) s
  let b2 := Dy.mul b b
  if 0 ≤ a.m then (b.m ≤ 0 || Dy.le b2 a2s) else (b.m ≤ 0 && Dy.le a2s b2)

/-- The largest k below 2^n, added to r, that still satisfies ge. -/
def searchBits (ge : Nat → Bool) : Nat → Nat → Nat
  | 0, r => r
  | n + 1, r => searchBits ge n (if ge (r + 2 ^ n) then r + 2 ^ n else r)

/-- The largest exponent at least -126, below -126 + n, whose power of two is at most the magnitude. -/
def searchExp (ge : Dy → Bool) : Nat → Int
  | 0 => -126
  | n + 1 => if ge ⟨1, -126 + ((n + 1 : Nat) : Int)⟩ then -126 + ((n + 1 : Nat) : Int) else searchExp ge n

/-- FP32 RNE rounding of a magnitude known only by exact comparisons: ge c is c ≤ magnitude, gt c is c < magnitude. -/
def roundByCmp (neg : Bool) (ge gt : Dy → Bool) : Nat :=
  if ge ⟨1, 128⟩ then withSign Fmt.fp32 neg 0x7F800000
  else
    let q := searchExp ge 254 - 23
    let k := searchBits (fun k => ge ⟨k, q⟩) 24 0
    let half : Dy := ⟨2 * (k : Int) + 1, q - 1⟩
    let k := if gt half || (ge half && k % 2 = 1) then k + 1 else k
    if aboveMax Fmt.fp32 k q then withSign Fmt.fp32 neg 0x7F800000 else withSign Fmt.fp32 neg (encodeMag Fmt.fp32 k q)

/-- W - lr·g/(√S + eps), rounded once to FP32 with RNE (R265). eps is finite and positive (R264). -/
def adagradStep (w lr g s eps : Nat) : Nat :=
  let nan := nanCode Fmt.fp32
  let num := Num.mul (decodeNum Fmt.fp32 lr) (decodeNum Fmt.fp32 g)
  let wn := decodeNum Fmt.fp32 w
  match decodeNum Fmt.fp32 s, decodeNum Fmt.fp32 eps, num with
  | .fin sneg sm se, .fin _ em ee, .fin nneg nm ne =>
    if sneg ∧ sm ≠ 0 then nan
    else match wn with
      | .nan => nan
      | .inf t => withSign Fmt.fp32 t 0x7F800000
      | .fin wneg wm we =>
        if nm = 0 then roundNum Fmt.fp32 0 (Num.add 0 wn (.fin (!nneg) 0 0))
        else
          let dw : Dy := ⟨scaleInt wneg wm we we, we⟩
          let dn : Dy := ⟨scaleInt nneg nm ne ne, ne⟩
          let ds : Dy := ⟨sm, se⟩
          let de : Dy := ⟨em, ee⟩
          let ge := adaGe dw dn ds de
          let le := fun c : Dy => adaGe dw.neg dn.neg ds de c.neg
          let zero : Dy := ⟨0, 0⟩
          if ge zero && le zero then 0
          else if ge zero then roundByCmp false ge (fun c => !(le c))
          else roundByCmp true (fun c => le c.neg) (fun c => !(ge c.neg))
  | .inf sneg, .fin .., .fin .. => if sneg then nan else roundNum Fmt.fp32 0 (Num.add 0 wn (.fin true 0 0))
  | .fin sneg sm _, .fin .., .inf nneg => if sneg ∧ sm ≠ 0 then nan else roundNum Fmt.fp32 0 (Num.add 0 wn (.inf (!nneg)))
  | _, _, _ => nan

/-- stage1 of R228 over exact products: FP32 code of the partial. -/
def stage1 (ps : List Num) : Nat :=
  if ps.any Num.isNan then nanCode Fmt.fp32
  else
    let pos := ps.any (fun p => p = .inf false)
    let neg := ps.any (fun p => p = .inf true)
    if pos && neg then nanCode Fmt.fp32
    else if pos then 0x7F800000
    else if neg then 0xFF800000
    else
      let tops := ps.filterMap (fun p => match p with
        | .fin _ m e => if m = 0 then none else some ((Nat.log2 m : Int) + e)
        | _ => none)
      match tops with
      | [] => 0
      | t0 :: ts =>
        let q := ts.foldl max t0 - 38
        let term : Num → Int := fun p => match p with
          | .fin s m e =>
            let a : Int := if q ≤ e then m * 2 ^ (e - q).toNat else (m / 2 ^ (q - e).toNat : Nat)
            if s then -a else a
          | _ => 0
        let t := (ps.map term).foldl (· + ·) 0
        if t = 0 then 0 else roundNum Fmt.fp32 0 (.fin (t < 0) t.natAbs q)

end Sys2Proof.Machine
end

