-- ==== Sys2Proof/WellFormed.lean ====
section
/-! DEFINITION. Which instruction terms hold no reserved field value (R61, R62, R109, R128, R155 to R159, R180, R225,
R257, R268, R296, R336). Events hold none. -/

namespace Sys2Proof

open Sys2Proof.Machine

/-- GP names g0 to g11, and g0 is not inverted (R61, R155). -/
def Guard.wf (g : Guard) : Bool := g.gp.toNat ≤ 11 && !(g.gp = 0 && g.gn)

/-- A predicate destination: g1 to g11 (R62, R156). -/
def predDst (p : BitVec 4) : Bool := 1 ≤ p.toNat && p.toNat ≤ 11

/-- A predicate source: g0 to g11. -/
def predSrc (p : BitVec 4) : Bool := p.toNat ≤ 11

/-- A scope (R17). -/
def scopeOk (s : BitVec 3) : Bool := s.toNat ≤ 4

/-- A rounding mode (R40). -/
def modeOk (rm : BitVec 3) : Bool := rm.toNat ≤ 4

/-- A destination field that names an m register has age 0 (R150). -/
def age0 (r : BitVec 7) : Bool := fldN r 5 2 = 0

/-- A format descriptor that is legal and no wider than w bits (R195, R219). -/
def fmtWithin (fd : BitVec 16) (w : Nat) : Bool :=
  match fmtOf fd with
  | some f => f.w ≤ w
  | none => false

/-- A row map of R225. The identity takes no divisor and no offset. -/
def mapOk (md dv of : Nat) : Bool :=
  match md with
  | 0 => dv = 0 && of = 0
  | 1 => 1 ≤ dv && dv ≤ 48 && of + 47 / dv ≤ 47
  | 2 => 1 ≤ dv && dv ≤ 48 && of + dv - 1 ≤ 47
  | _ => false

/-- The word of CBIND (R236): the gate port is zero outside IK, and both maps are legal. -/
def bindOk (b : BitVec 33) : Bool :=
  (fldN b 31 2 = 1 || fldN b 28 3 = 0) && mapOk (fldN b 26 2) (fldN b 20 6) (fldN b 14 6) &&
    mapOk (fldN b 12 2) (fldN b 6 6) (fldN b 0 6)

/-- The system registers that MTS may name (R57, R109): TVEC, EPC, RBSTAT, LDPSTK, GIXSTK. -/
def mtsOk (s : BitVec 12) : Bool := s = 3 || s = 4 || s = 5 || s = 7 || s = 8

/-- No field of the instruction holds a reserved value. -/
def Instr.wf (i : Instr) : Bool :=
  match i with
  | .nop => true
  | .add g _ _ _ | .sub g _ _ _ | .and g _ _ _ | .or g _ _ _ | .xor g _ _ _ | .andn g _ _ _ | .shl g _ _ _
  | .shr g _ _ _ | .sar g _ _ _ | .ror g _ _ _ | .mul g _ _ _ | .mulhu g _ _ _ | .mulhs g _ _ _ | .min g _ _ _
  | .max g _ _ _ | .minu g _ _ _ | .maxu g _ _ _ | .clz g _ _ | .ctz g _ _ | .popc g _ _ => g.wf
  | .addi g _ _ _ | .andi g _ _ _ | .ori g _ _ _ | .xori g _ _ _ | .shli g _ _ _ | .shri g _ _ _ | .sari g _ _ _
  | .rori g _ _ _ | .movi g _ _ => g.wf
  | .cmpeq g p _ _ | .cmpne g p _ _ | .cmplt g p _ _ | .cmpge g p _ _ | .cmpltu g p _ _ | .cmpgeu g p _ _
  | .cmptst g p _ _ | .cmpeqi g p _ _ | .cmpnei g p _ _ | .cmplti g p _ _ | .cmpgei g p _ _ | .cmpltui g p _ _
  | .cmpgeui g p _ _ | .cmptsti g p _ _ => g.wf && predDst p
  | .sel g _ _ _ s => g.wf && predSrc s
  | .bfx g _ _ p l | .bfxs g _ _ p l | .bfi g _ _ p l => g.wf && p.toNat + l.toNat < 64
  | .pand g p a b | .por g p a b | .pxor g p a b | .pandn g p a b => g.wf && predDst p && predSrc a && predSrc b
  | .pnot g p a => g.wf && predDst p && predSrc a
  | .br g _ | .call g _ | .brr g _ | .callr g _ | .trap g _ | .eret g | .yield g | .rdtick g _ => g.wf
  | .mfs g _ s => g.wf && s.toNat ≤ 9
  | .mts g _ s => g.wf && mtsOk s
  | .ldub g _ _ _ | .lduh g _ _ _ | .lduw g _ _ _ | .ldd g _ _ _ | .ldsb g _ _ _ | .ldsh g _ _ _ | .ldsw g _ _ _
  | .stb g _ _ _ | .sth g _ _ _ | .stw g _ _ _ | .std g _ _ _ => g.wf
  | .ldpb g _ _ _ | .ldph g _ _ _ | .ldpw g _ _ _ | .ldpd g _ _ _ | .ldprb g _ _ _ | .ldprh g _ _ _
  | .ldprw g _ _ _ | .ldprd g _ _ _ => g.wf
  | .fence g s | .bar g s _ _ => g.wf && scopeOk s
  | .lds4 g _ _ _ | .lds8 g _ _ _ | .sts4 g _ _ _ | .sts8 g _ _ _ | .saadd g _ _ _ | .safadd g _ _ _
  | .samin g _ _ _ | .samax g _ _ _ | .saxchg g _ _ _ | .sacas g _ _ _ => g.wf
  | .salloc g _ _ _ | .sload g _ _ _ | .sloadx g _ _ _ | .sstore g _ _ _ | .sgather g _ _ _ | .sbag g _ _ _
  | .sbagm g _ _ _ | .scopyp g _ _ _ | .sfree g _ | .srecv g _ | .swait g _ | .swaitAll g => g.wf
  | .scopy g _ a _ => g.wf && a ≠ 0
  | .krun g _ _ _ | .lwait g _ => g.wf
  | .sscadd g _ _ _ | .srowupd g _ _ _ => g.wf
  | .aadd g _ _ s _ _ | .amin g _ _ s _ _ | .amax g _ _ s _ _ | .aand g _ _ s _ _ | .aor g _ _ s _ _
  | .axor g _ _ s _ _ | .axchg g _ _ s _ _ | .acas g _ _ s _ _ => g.wf && scopeOk s
  | .afadd g _ _ s _ => g.wf && scopeOk s
  | .qpush g _ _ r s => g.wf && r.toNat ≤ 3 && scopeOk s
  | .qpop g d _ r s => g.wf && 1 ≤ r.toNat && r.toNat ≤ 3 && d.toNat / 8 ≠ r.toNat && scopeOk s
  | .put g _ q _ | .get g _ q _ => g.wf && q ≠ 0
  | .signal g _ q => g.wf && q ≠ 0
  | .lamo g _ q f _ z => g.wf && q ≠ 0 && f.toNat ≤ 8 && !(f = 1 && z = 1)
  | .synct g _ _ _ => g.wf
  | .gopen g _ _ | .gstore g _ _ _ _ | .sstoreg g _ _ | .sscaddg g _ _ _ | .gseal g _ _ | .gcommit g _ _
  | .gabort g _ _ | .gwait g _ _ | .gpeek g _ _ | .gdeleg g _ _ | .gstat g _ _ => g.wf
  | .iadd g _ _ _ | .isub g _ _ _ | .iand g _ _ _ | .ior g _ _ _ | .ixor g _ _ _ | .iandn g _ _ _ | .ishl g _ _ _
  | .ishr g _ _ _ | .isar g _ _ _ | .imul g _ _ _ | .imulhu g _ _ _ | .imulhs g _ _ _ | .imin g _ _ _
  | .imax g _ _ _ | .iminu g _ _ _ | .imaxu g _ _ _ | .iclz g _ _ | .ipopc g _ _ => g.wf
  | .iaddi g _ _ _ | .iandi g _ _ _ | .iori g _ _ _ | .ixori g _ _ _ | .imuli g _ _ _ | .moviKernel g _ _ => g.wf
  | .ishli g _ _ n | .ishri g _ _ n | .isari g _ _ n => g.wf && n.toNat ≤ 31
  | .icmpeq g p _ _ | .icmpne g p _ _ | .icmplt g p _ _ | .icmpge g p _ _ | .icmpltu g p _ _ | .icmpgeu g p _ _
  | .icmptst g p _ _ | .fcmpeq g p _ _ | .fcmplt g p _ _ | .fcmple g p _ _ | .fcmpun g p _ _ => g.wf && predDst p
  | .icmpeqi g p _ _ | .icmpnei g p _ _ | .icmplti g p _ _ | .icmpgei g p _ _ | .icmpltui g p _ _
  | .icmpgeui g p _ _ | .icmptsti g p _ _ => g.wf && predDst p
  | .selKernel g _ _ _ q => g.wf && predSrc q
  | .gand g p a b | .gor g p a b | .gxor g p a b | .gandn g p a b => g.wf && predDst p && predSrc a && predSrc b
  | .gnot g p a => g.wf && predDst p && predSrc a
  | .fadd g _ _ _ rm | .fsub g _ _ _ rm | .fmul g _ _ _ rm | .hadd g _ _ _ rm | .hsub g _ _ _ rm
  | .hmul g _ _ _ rm => g.wf && modeOk rm
  | .fmin g _ _ _ | .fmax g _ _ _ | .fabs g _ _ | .fneg g _ _ | .hmin g _ _ _ | .hmax g _ _ _ => g.wf
  | .ffma g _ _ _ _ rm | .ffms g _ _ _ _ rm | .fnfma g _ _ _ _ rm | .fnfms g _ _ _ _ rm | .hfma g _ _ _ _ rm
  | .hfms g _ _ _ _ rm => g.wf && modeOk rm
  | .mvmw g _ _ _ => g.wf
  | .mvwm g d _ _ => g.wf && age0 d
  | .frsqs g _ _ | .frcps g _ _ | .fdivs g _ _ => g.wf
  | .cvtto g _ _ fd rm | .cvtfrom g _ _ fd rm => g.wf && fmtWithin fd 32 && modeOk rm
  | .cvtpack g _ _ fd rm => g.wf && fmtWithin fd 16 && modeOk rm
  | .cvtunpk g d _ fd rm => g.wf && age0 d && fmtWithin fd 16 && modeOk rm
  | .srd g r _ quad => g.wf && (!quad || age0 r)
  | .swr g _ _ _ => g.wf
  | .xsend g _ _ _ | .xbcast g _ _ _ | .xperm g _ _ _ | .xsum g _ _ | .xsumf g _ _ | .xmaxf g _ _
  | .xminf g _ _ => g.wf
  | .trow g _ _ _ | .trowr g _ _ _ | .tcol g _ _ _ | .tcolr g _ _ _ | .tzero g _ => g.wf
  | .tcfg _ rmask cmask => rmask ≠ 0 && cmask ≠ 0
  | .loop => true
  | .wait n => n ≠ 0
  | .cfmt g opd fd => g.wf && opd ≠ 3 && fmtWithin fd 16
  | .cbind g bind => g.wf && bindOk bind
  | .clatch g _ _ kc _ _ => g.wf && kc.toNat ≤ 47
  | .clatchr g _ dr kc _ _ => g.wf && dr.toNat ≤ 62 && kc.toNat ≤ 47
  | .cube g _ _ _ ds st zb => g.wf && (st || ds = 0) && zb.toNat ≤ 1535
  | .czero g _ _ _ | .cmovzToZ g _ _ _ _ | .cstop g => g.wf
  | .cmovzToM g m _ _ _ => g.wf && age0 m
  | .cstat g _ q _ => g.wf && q.toNat ≤ 1
  | .barDeparture _ | .windowAnswer _ | .sallocAnswer _ | .remoteStallCopy _ _ | .entryStart _ _
  | .entryRetire _ _ | .invocationFirstBundle _ | .kernelBundleIssue _ | .writeLanding _
  | .iterationBoundaryStop _ | .kernelReload _ | .cubeStepIssue _ | .cubeStepLanding _ | .planeFetchReady _ _
  | .planeFetchFailure _ _ | .remotePlaneRead _ _ | .homePlainAccess _ | .convertedAccess _ | .atomicAtHome _
  | .scatterAddAtHome _ _ | .rowUpdateAtHome _ _ | .qpushAtHome _ | .qpopAtHome _ | .leaseEnd _ | .loadAnswer _
  | .hotctlFlush _ | .hotctlClear _ | .tableWalk _ _ _ | .pageScan _ _ | .migrationLockReread _ _
  | .upcallRetry _ _ | .pagerAnswer _ | .tinvVpn _ _ | .tinvAll _ | .tinvComplete _ | .migCopy _ _ _
  | .migFinalise _ | .migRelease _ | .migCancel _ | .migrationLineCopy _ | .migrationMoved _
  | .migrationRedirect _ | .synctAlign _ | .verbAtTarget _ | .verbAnswer _ | .putSignalAdd _ | .routeRedirect _
  | .verbTimeout _ | .itctlSwap _ | .portTrainingAttempt _ _ _ | .lpcfgWrite _ _ _ | .groupTagFailure _ _
  | .dbgctlHalt _ _ | .gwaitReturn _ | .enlistRequest _ | .enlistAnswer _ | .shedAdmit _ | .storeAck _
  | .storeRefusal _ | .sealReport _ | .groupApply _ | .applyAck _ | .groupDiscard _ | .discardAck _
  | .decisionAtSource _ | .leaseQuery _ _ | .queryAnswer _ | .deadlineExpiry _ _ | .placementNotice _
  | .resetNotice _ _ | .shforceApply _ _ | .shforceDiscard _ _ | .heldPacketReroute _ | .paddockApply _
  | .padcqpHeadWrite _ _ | .lqpTailWrite _ _ | .loadRecord _ | .unloadRecord _ | .runRecord _
  | .taskPlacement _ _ _ _ _ _ | .saveAreaFillDone _ | .copyNode _ _ _ | .eventNode _ _ _
  | .conditionalNode _ _ _ | .loopNode _ _ _ | .taskEnd _ | .taskSave _ | .taskRestore _ _ _ | .quantumExpiry _
  | .priorityPreemption _ | .graphComplete _ _ | .bar2Access _ _ _ _ _ | .sctlClrfail _ | .sctlRestart _
  | .startUp _ _ _ _ _ | .firmwareUpdate _ _ _ _ _ | .spdmMeasurement _ _ | .linkKeyLoad _ _ _ _
  | .pldmSensorRead _ _ | .clockStep _ | .thermalTrip _ _ | .registerWrite _ _ _ | .portPeerLost _ _
  | .d2dLinkFailure _ _ _ | .linkedHoldReport _ _ _ | .sourceAbortReport _ | .windowStoreWrite _ => true
end Sys2Proof
end

