-- ==== Sys2Proof/Decode.lean ====
section
/-! DEFINITION. The decoders of control-processor words (R61 to R67) and of kernel slot words (R155 to R159, R234 to
R242), and the encoder. A word with a reserved value is rejected, and the rejection names what is reserved. -/

namespace Sys2Proof

open Sys2Proof.Machine

/-- What a rejected word holds: a reserved guard, major opcode, FN, CC or SUB value, or field value. -/
inductive Reject where
  | guard
  | op
  | sub
  | field
  deriving DecidableEq, Repr

/-- An instruction whose fields hold no reserved value (R62, R159). -/
def keep (i : Instr) : Except Reject Instr := if Instr.wf i then .ok i else .error .field

/-- Words of major opcode 0x01 (R66, R87). -/
def decodeOp01 (g : Guard) (w : Word32) : Except Reject Instr :=
  match (fld w 0 7).toNat with
  | 0x00 => keep (.add g (fld w 17 5) (fld w 12 5) (fld w 7 5))
  | 0x01 => keep (.sub g (fld w 17 5) (fld w 12 5) (fld w 7 5))
  | 0x02 => keep (.and g (fld w 17 5) (fld w 12 5) (fld w 7 5))
  | 0x03 => keep (.or g (fld w 17 5) (fld w 12 5) (fld w 7 5))
  | 0x04 => keep (.xor g (fld w 17 5) (fld w 12 5) (fld w 7 5))
  | 0x05 => keep (.andn g (fld w 17 5) (fld w 12 5) (fld w 7 5))
  | 0x06 => keep (.shl g (fld w 17 5) (fld w 12 5) (fld w 7 5))
  | 0x07 => keep (.shr g (fld w 17 5) (fld w 12 5) (fld w 7 5))
  | 0x08 => keep (.sar g (fld w 17 5) (fld w 12 5) (fld w 7 5))
  | 0x09 => keep (.ror g (fld w 17 5) (fld w 12 5) (fld w 7 5))
  | 0x0A => keep (.mul g (fld w 17 5) (fld w 12 5) (fld w 7 5))
  | 0x0B => keep (.mulhu g (fld w 17 5) (fld w 12 5) (fld w 7 5))
  | 0x0C => keep (.mulhs g (fld w 17 5) (fld w 12 5) (fld w 7 5))
  | 0x0D => keep (.min g (fld w 17 5) (fld w 12 5) (fld w 7 5))
  | 0x0E => keep (.max g (fld w 17 5) (fld w 12 5) (fld w 7 5))
  | 0x0F => keep (.minu g (fld w 17 5) (fld w 12 5) (fld w 7 5))
  | 0x10 => keep (.maxu g (fld w 17 5) (fld w 12 5) (fld w 7 5))
  | 0x11 => if fld w 7 5 = 0 then keep (.clz g (fld w 17 5) (fld w 12 5)) else .error .field
  | 0x12 => if fld w 7 5 = 0 then keep (.ctz g (fld w 17 5) (fld w 12 5)) else .error .field
  | 0x13 => if fld w 7 5 = 0 then keep (.popc g (fld w 17 5) (fld w 12 5)) else .error .field
  | _ => .error .sub

/-- Words of major opcode 0x06 (R89). -/
def decodeOp06 (g : Guard) (w : Word32) : Except Reject Instr :=
  match (fld w 0 6).toNat with
  | 0x00 => keep (.shli g (fld w 17 5) (fld w 12 5) (fld w 6 6))
  | 0x01 => keep (.shri g (fld w 17 5) (fld w 12 5) (fld w 6 6))
  | 0x02 => keep (.sari g (fld w 17 5) (fld w 12 5) (fld w 6 6))
  | 0x03 => keep (.rori g (fld w 17 5) (fld w 12 5) (fld w 6 6))
  | _ => .error .sub

/-- Words of major opcode 0x08 (R91). -/
def decodeOp08 (g : Guard) (w : Word32) : Except Reject Instr :=
  match (fld w 9 4).toNat with
  | 0x00 => if fld w 0 4 = 0 then keep (.cmpeq g (fld w 18 4) (fld w 13 5) (fld w 4 5)) else .error .field
  | 0x01 => if fld w 0 4 = 0 then keep (.cmpne g (fld w 18 4) (fld w 13 5) (fld w 4 5)) else .error .field
  | 0x02 => if fld w 0 4 = 0 then keep (.cmplt g (fld w 18 4) (fld w 13 5) (fld w 4 5)) else .error .field
  | 0x03 => if fld w 0 4 = 0 then keep (.cmpge g (fld w 18 4) (fld w 13 5) (fld w 4 5)) else .error .field
  | 0x04 => if fld w 0 4 = 0 then keep (.cmpltu g (fld w 18 4) (fld w 13 5) (fld w 4 5)) else .error .field
  | 0x05 => if fld w 0 4 = 0 then keep (.cmpgeu g (fld w 18 4) (fld w 13 5) (fld w 4 5)) else .error .field
  | 0x06 => if fld w 0 4 = 0 then keep (.cmptst g (fld w 18 4) (fld w 13 5) (fld w 4 5)) else .error .field
  | _ => .error .sub

/-- Words of major opcode 0x09 (R91). -/
def decodeOp09 (g : Guard) (w : Word32) : Except Reject Instr :=
  match (fld w 9 4).toNat with
  | 0x00 => keep (.cmpeqi g (fld w 18 4) (fld w 13 5) (fld w 0 9))
  | 0x01 => keep (.cmpnei g (fld w 18 4) (fld w 13 5) (fld w 0 9))
  | 0x02 => keep (.cmplti g (fld w 18 4) (fld w 13 5) (fld w 0 9))
  | 0x03 => keep (.cmpgei g (fld w 18 4) (fld w 13 5) (fld w 0 9))
  | 0x04 => keep (.cmpltui g (fld w 18 4) (fld w 13 5) (fld w 0 9))
  | 0x05 => keep (.cmpgeui g (fld w 18 4) (fld w 13 5) (fld w 0 9))
  | 0x06 => keep (.cmptsti g (fld w 18 4) (fld w 13 5) (fld w 0 9))
  | _ => .error .sub

/-- Words of major opcode 0x0E (R93). -/
def decodeOp0E (g : Guard) (w : Word32) : Except Reject Instr :=
  match (fld w 0 3).toNat with
  | 0x00 => if fld w 3 7 = 0 then keep (.pand g (fld w 18 4) (fld w 14 4) (fld w 10 4)) else .error .field
  | 0x01 => if fld w 3 7 = 0 then keep (.por g (fld w 18 4) (fld w 14 4) (fld w 10 4)) else .error .field
  | 0x02 => if fld w 3 7 = 0 then keep (.pxor g (fld w 18 4) (fld w 14 4) (fld w 10 4)) else .error .field
  | 0x03 => if fld w 3 7 = 0 then keep (.pandn g (fld w 18 4) (fld w 14 4) (fld w 10 4)) else .error .field
  | 0x04 => if fld w 3 11 = 0 then keep (.pnot g (fld w 18 4) (fld w 14 4)) else .error .field
  | _ => .error .sub

/-- Words of major opcode 0x12 (R97). -/
def decodeOp12 (g : Guard) (w : Word32) : Except Reject Instr :=
  match (fld w 0 7).toNat with
  | 0x00 => if fld w 7 5 = 0 ∧ fld w 17 5 = 0 then keep (.brr g (fld w 12 5)) else .error .field
  | 0x01 => if fld w 7 5 = 0 ∧ fld w 17 5 = 0 then keep (.callr g (fld w 12 5)) else .error .field
  | _ => .error .sub

/-- Words of major opcode 0x13 (R108). -/
def decodeOp13 (g : Guard) (w : Word32) : Except Reject Instr :=
  match (fld w 0 6).toNat with
  | 0x00 => keep (.trap g (fld w 6 16))
  | 0x01 => if fld w 6 16 = 0 then keep (.eret g) else .error .field
  | 0x02 => if fld w 6 16 = 0 then keep (.yield g) else .error .field
  | _ => .error .sub

/-- Words of major opcode 0x14 (R109). -/
def decodeOp14 (g : Guard) (w : Word32) : Except Reject Instr :=
  match (fld w 0 5).toNat with
  | 0x00 => keep (.mfs g (fld w 17 5) (fld w 5 12))
  | 0x01 => keep (.mts g (fld w 17 5) (fld w 5 12))
  | 0x02 => if fld w 5 12 = 0 then keep (.rdtick g (fld w 17 5)) else .error .field
  | _ => .error .sub

/-- Words of major opcode 0x16 (R99). -/
def decodeOp16 (g : Guard) (w : Word32) : Except Reject Instr :=
  match (fld w 10 2).toNat with
  | 0x00 => keep (.ldub g (fld w 17 5) (fld w 12 5) (fld w 0 10))
  | 0x01 => keep (.lduh g (fld w 17 5) (fld w 12 5) (fld w 0 10))
  | 0x02 => keep (.lduw g (fld w 17 5) (fld w 12 5) (fld w 0 10))
  | 0x03 => keep (.ldd g (fld w 17 5) (fld w 12 5) (fld w 0 10))
  | _ => .error .sub

/-- Words of major opcode 0x17 (R99). -/
def decodeOp17 (g : Guard) (w : Word32) : Except Reject Instr :=
  match (fld w 10 2).toNat with
  | 0x00 => keep (.ldsb g (fld w 17 5) (fld w 12 5) (fld w 0 10))
  | 0x01 => keep (.ldsh g (fld w 17 5) (fld w 12 5) (fld w 0 10))
  | 0x02 => keep (.ldsw g (fld w 17 5) (fld w 12 5) (fld w 0 10))
  | _ => .error .sub

/-- Words of major opcode 0x18 (R99). -/
def decodeOp18 (g : Guard) (w : Word32) : Except Reject Instr :=
  match (fld w 10 2).toNat with
  | 0x00 => keep (.stb g (fld w 17 5) (fld w 12 5) (fld w 0 10))
  | 0x01 => keep (.sth g (fld w 17 5) (fld w 12 5) (fld w 0 10))
  | 0x02 => keep (.stw g (fld w 17 5) (fld w 12 5) (fld w 0 10))
  | 0x03 => keep (.std g (fld w 17 5) (fld w 12 5) (fld w 0 10))
  | _ => .error .sub

/-- Words of major opcode 0x19 (R102). -/
def decodeOp19 (g : Guard) (w : Word32) : Except Reject Instr :=
  match (fld w 12 2).toNat with
  | 0x00 => keep (.ldpb g (fld w 17 5) (fld w 14 3) (fld w 0 12))
  | 0x01 => keep (.ldph g (fld w 17 5) (fld w 14 3) (fld w 0 12))
  | 0x02 => keep (.ldpw g (fld w 17 5) (fld w 14 3) (fld w 0 12))
  | 0x03 => keep (.ldpd g (fld w 17 5) (fld w 14 3) (fld w 0 12))
  | _ => .error .sub

/-- Words of major opcode 0x1A (R102). -/
def decodeOp1A (g : Guard) (w : Word32) : Except Reject Instr :=
  match (fld w 12 2).toNat with
  | 0x00 => if fld w 0 7 = 0 then keep (.ldprb g (fld w 17 5) (fld w 14 3) (fld w 7 5)) else .error .field
  | 0x01 => if fld w 0 7 = 0 then keep (.ldprh g (fld w 17 5) (fld w 14 3) (fld w 7 5)) else .error .field
  | 0x02 => if fld w 0 7 = 0 then keep (.ldprw g (fld w 17 5) (fld w 14 3) (fld w 7 5)) else .error .field
  | 0x03 => if fld w 0 7 = 0 then keep (.ldprd g (fld w 17 5) (fld w 14 3) (fld w 7 5)) else .error .field
  | _ => .error .sub

/-- Words of major opcode 0x1B (R103, R104). -/
def decodeOp1B (g : Guard) (w : Word32) : Except Reject Instr :=
  match (fld w 0 6).toNat with
  | 0x00 => if fld w 6 13 = 0 then keep (.fence g (fld w 19 3)) else .error .field
  | 0x01 => if fld w 6 6 = 0 then keep (.bar g (fld w 19 3) (fld w 17 2) (fld w 12 5)) else .error .field
  | _ => .error .sub

/-- Words of major opcode 0x1C (R140, R141). -/
def decodeOp1C (g : Guard) (w : Word32) : Except Reject Instr :=
  match (fld w 16 6).toNat with
  | 0x00 =>
    if fld w 0 1 = 0 then keep (.lds4 g (fld w 11 5) (fld w 6 5) (fld w 1 5))
    else if fld w 0 1 = 1 then keep (.lds8 g (fld w 11 5) (fld w 6 5) (fld w 1 5))
    else .error .field
  | 0x01 =>
    if fld w 0 1 = 0 then keep (.sts4 g (fld w 11 5) (fld w 6 5) (fld w 1 5))
    else if fld w 0 1 = 1 then keep (.sts8 g (fld w 11 5) (fld w 6 5) (fld w 1 5))
    else .error .field
  | 0x02 => if fld w 0 1 = 0 then keep (.saadd g (fld w 11 5) (fld w 6 5) (fld w 1 5)) else .error .field
  | 0x03 => if fld w 0 1 = 0 then keep (.safadd g (fld w 11 5) (fld w 6 5) (fld w 1 5)) else .error .field
  | 0x04 => if fld w 0 1 = 0 then keep (.samin g (fld w 11 5) (fld w 6 5) (fld w 1 5)) else .error .field
  | 0x05 => if fld w 0 1 = 0 then keep (.samax g (fld w 11 5) (fld w 6 5) (fld w 1 5)) else .error .field
  | 0x06 => if fld w 0 1 = 0 then keep (.saxchg g (fld w 11 5) (fld w 6 5) (fld w 1 5)) else .error .field
  | 0x07 => if fld w 0 1 = 0 then keep (.sacas g (fld w 11 5) (fld w 6 5) (fld w 1 5)) else .error .field
  | _ => .error .sub

/-- Words of major opcode 0x1D (R128). -/
def decodeOp1D (g : Guard) (w : Word32) : Except Reject Instr :=
  match (fld w 16 6).toNat with
  | 0x00 => if fld w 0 1 = 0 then keep (.salloc g (fld w 11 5) (fld w 6 5) (fld w 1 5)) else .error .field
  | 0x01 => if fld w 0 11 = 0 then keep (.sfree g (fld w 11 5)) else .error .field
  | 0x02 =>
    if fld w 0 1 = 0 then keep (.sload g (fld w 11 5) (fld w 6 5) (fld w 1 5))
    else if fld w 0 1 = 1 then keep (.sloadx g (fld w 11 5) (fld w 6 5) (fld w 1 5))
    else .error .field
  | 0x03 => if fld w 0 1 = 0 then keep (.sstore g (fld w 11 5) (fld w 6 5) (fld w 1 5)) else .error .field
  | 0x04 => if fld w 0 2 = 0 then keep (.sgather g (fld w 11 5) (fld w 6 5) (fld w 2 4)) else .error .field
  | 0x05 =>
    if fld w 0 2 = 0 then keep (.sbag g (fld w 11 5) (fld w 6 5) (fld w 2 4))
    else if fld w 0 2 = 1 then keep (.sbagm g (fld w 11 5) (fld w 6 5) (fld w 2 4))
    else .error .field
  | 0x06 =>
    if fld w 0 11 = 0 then keep (.srecv g (fld w 11 5))
    else if fld w 0 1 = 0 then keep (.scopy g (fld w 11 5) (fld w 6 5) (fld w 1 5))
    else if fld w 0 1 = 1 then keep (.scopyp g (fld w 11 5) (fld w 6 5) (fld w 1 5))
    else .error .field
  | 0x07 =>
    if fld w 0 16 = 1024 then keep (.swaitAll g)
    else if fld w 0 11 = 0 then keep (.swait g (fld w 11 5))
    else .error .field
  | _ => .error .sub

/-- Words of major opcode 0x1E (R111, R164). -/
def decodeOp1E (g : Guard) (w : Word32) : Except Reject Instr :=
  match (fld w 16 6).toNat with
  | 0x00 => if fld w 0 1 = 0 then keep (.krun g (fld w 11 5) (fld w 6 5) (fld w 1 5)) else .error .field
  | 0x01 => if fld w 0 11 = 0 then keep (.lwait g (fld w 11 5)) else .error .field
  | _ => .error .sub

/-- Home commands of major opcode 0x1F (R257, R260, R268). -/
def decodeHome (g : Guard) (w : Word32) : Except Reject Instr :=
  match (fld w 16 6).toNat with
  | 0x00 => if fld w 0 2 = 0 then keep (.sscadd g (fld w 11 5) (fld w 6 5) (fld w 2 4)) else .error .field
  | 0x01 => if fld w 0 3 = 0 then keep (.srowupd g (fld w 11 5) (fld w 6 5) (fld w 3 3)) else .error .field
  | 0x02 =>
    if fld w 0 1 = 0 then keep (.aadd g (fld w 11 5) (fld w 7 4) (fld w 4 3) (fld w 2 2) (fld w 1 1))
    else .error .field
  | 0x03 => if fld w 0 2 = 0 then keep (.afadd g (fld w 11 5) (fld w 7 4) (fld w 4 3) (fld w 2 2)) else .error .field
  | 0x04 =>
    if fld w 0 1 = 0 then keep (.amin g (fld w 11 5) (fld w 7 4) (fld w 4 3) (fld w 2 2) (fld w 1 1))
    else .error .field
  | 0x05 =>
    if fld w 0 1 = 0 then keep (.amax g (fld w 11 5) (fld w 7 4) (fld w 4 3) (fld w 2 2) (fld w 1 1))
    else .error .field
  | 0x06 =>
    if fld w 0 1 = 0 then keep (.aand g (fld w 11 5) (fld w 7 4) (fld w 4 3) (fld w 2 2) (fld w 1 1))
    else .error .field
  | 0x07 =>
    if fld w 0 1 = 0 then keep (.aor g (fld w 11 5) (fld w 7 4) (fld w 4 3) (fld w 2 2) (fld w 1 1))
    else .error .field
  | 0x08 =>
    if fld w 0 1 = 0 then keep (.axor g (fld w 11 5) (fld w 7 4) (fld w 4 3) (fld w 2 2) (fld w 1 1))
    else .error .field
  | 0x09 =>
    if fld w 0 1 = 0 then keep (.axchg g (fld w 11 5) (fld w 7 4) (fld w 4 3) (fld w 2 2) (fld w 1 1))
    else .error .field
  | 0x0A =>
    if fld w 0 1 = 0 then keep (.acas g (fld w 11 5) (fld w 7 4) (fld w 4 3) (fld w 2 2) (fld w 1 1))
    else .error .field
  | 0x0B => keep (.qpush g (fld w 11 5) (fld w 6 5) (fld w 3 3) (fld w 0 3))
  | 0x0C => keep (.qpop g (fld w 11 5) (fld w 6 5) (fld w 3 3) (fld w 0 3))
  | _ => .error .sub

/-- Link commands of major opcode 0x1F (R296, R309). -/
def decodeLink (g : Guard) (w : Word32) : Except Reject Instr :=
  match (fld w 16 6).toNat with
  | 0x10 =>
    if fld w 0 2 = 0 ∧ fld w 4 4 = 0 then keep (.put g (fld w 11 5) (fld w 8 3) (fld w 2 2))
    else .error .field
  | 0x11 =>
    if fld w 0 2 = 0 ∧ fld w 4 4 = 0 then keep (.get g (fld w 11 5) (fld w 8 3) (fld w 2 2))
    else .error .field
  | 0x12 => if fld w 0 8 = 0 then keep (.signal g (fld w 11 5) (fld w 8 3)) else .error .field
  | 0x13 =>
    if fld w 0 1 = 0 then keep (.lamo g (fld w 11 5) (fld w 8 3) (fld w 4 4) (fld w 2 2) (fld w 1 1))
    else .error .field
  | 0x14 => if fld w 0 5 = 0 then keep (.synct g (fld w 11 5) (fld w 6 5) (fld w 5 1)) else .error .field
  | _ => .error .sub

/-- Commit commands of major opcode 0x1F (R336). -/
def decodeCommit (g : Guard) (w : Word32) : Except Reject Instr :=
  match (fld w 16 6).toNat with
  | 0x18 => if fld w 0 7 = 0 then keep (.gopen g (fld w 11 5) (fld w 7 4)) else .error .field
  | 0x19 => keep (.gstore g (fld w 11 5) (fld w 6 5) (fld w 1 5) (fld w 0 1))
  | 0x1A => if fld w 0 3 = 0 ∧ fld w 6 5 = 0 then keep (.sstoreg g (fld w 11 5) (fld w 3 3)) else .error .field
  | 0x1B => if fld w 0 3 = 0 then keep (.sscaddg g (fld w 11 5) (fld w 6 5) (fld w 3 3)) else .error .field
  | 0x1C => if fld w 0 7 = 0 then keep (.gseal g (fld w 11 5) (fld w 7 4)) else .error .field
  | 0x1D => if fld w 0 6 = 0 then keep (.gcommit g (fld w 11 5) (fld w 6 5)) else .error .field
  | 0x1E => if fld w 0 6 = 0 then keep (.gabort g (fld w 11 5) (fld w 6 5)) else .error .field
  | 0x1F => if fld w 0 6 = 0 then keep (.gwait g (fld w 11 5) (fld w 6 5)) else .error .field
  | 0x20 => if fld w 0 7 = 0 then keep (.gpeek g (fld w 11 5) (fld w 7 4)) else .error .field
  | 0x21 => if fld w 0 7 = 0 then keep (.gdeleg g (fld w 11 5) (fld w 7 4)) else .error .field
  | 0x22 => if fld w 0 6 = 0 then keep (.gstat g (fld w 11 5) (fld w 6 5)) else .error .field
  | _ => .error .sub

/-- Words of major opcode 0x1F (R67). -/
def decodeOp1F (g : Guard) (w : Word32) : Except Reject Instr :=
  if (fld w 16 6).toNat < 0x10 then decodeHome g w
  else if (fld w 16 6).toNat < 0x18 then decodeLink g w else decodeCommit g w

/-- The decoder of control-processor words (R63 to R65). -/
def decodeCp (w : Word32) : Except Reject Instr :=
  if w = 0 then .ok .nop
  else
    let g : Guard := ⟨fld w 23 4, bit w 22⟩
    match (fld w 27 5).toNat with
    | 0x01 => decodeOp01 g w
    | 0x02 => keep (.addi g (fld w 17 5) (fld w 12 5) (fld w 0 12))
    | 0x03 => keep (.andi g (fld w 17 5) (fld w 12 5) (fld w 0 12))
    | 0x04 => keep (.ori g (fld w 17 5) (fld w 12 5) (fld w 0 12))
    | 0x05 => keep (.xori g (fld w 17 5) (fld w 12 5) (fld w 0 12))
    | 0x06 => decodeOp06 g w
    | 0x07 => keep (.movi g (fld w 17 5) (fld w 0 17))
    | 0x08 => decodeOp08 g w
    | 0x09 => decodeOp09 g w
    | 0x0A => if fld w 0 3 = 0 then keep (.sel g (fld w 17 5) (fld w 12 5) (fld w 7 5) (fld w 3 4)) else .error .field
    | 0x0B => keep (.bfx g (fld w 17 5) (fld w 12 5) (fld w 6 6) (fld w 0 6))
    | 0x0C => keep (.bfxs g (fld w 17 5) (fld w 12 5) (fld w 6 6) (fld w 0 6))
    | 0x0D => keep (.bfi g (fld w 17 5) (fld w 12 5) (fld w 6 6) (fld w 0 6))
    | 0x0E => decodeOp0E g w
    | 0x10 => keep (.br g (fld w 0 22))
    | 0x11 => keep (.call g (fld w 0 22))
    | 0x12 => decodeOp12 g w
    | 0x13 => decodeOp13 g w
    | 0x14 => decodeOp14 g w
    | 0x16 => decodeOp16 g w
    | 0x17 => decodeOp17 g w
    | 0x18 => decodeOp18 g w
    | 0x19 => decodeOp19 g w
    | 0x1A => decodeOp1A g w
    | 0x1B => decodeOp1B g w
    | 0x1C => decodeOp1C g w
    | 0x1D => decodeOp1D g w
    | 0x1E => decodeOp1E g w
    | 0x1F => decodeOp1F g w
    | _ => .error .op

/-- Slot words of OP 0x01 (R158). -/
def decodeK01 (g : Guard) (w : Word) : Except Reject Instr :=
  match (fld w 14 6).toNat with
  | 0x00 =>
    if fld w 20 10 = 0 ∧ fld w 0 14 = 0 then keep (.iadd g (fld w 44 7) (fld w 37 7) (fld w 30 7)) else .error .field
  | 0x01 =>
    if fld w 20 10 = 0 ∧ fld w 0 14 = 0 then keep (.isub g (fld w 44 7) (fld w 37 7) (fld w 30 7)) else .error .field
  | 0x02 =>
    if fld w 20 10 = 0 ∧ fld w 0 14 = 0 then keep (.iand g (fld w 44 7) (fld w 37 7) (fld w 30 7)) else .error .field
  | 0x03 =>
    if fld w 20 10 = 0 ∧ fld w 0 14 = 0 then keep (.ior g (fld w 44 7) (fld w 37 7) (fld w 30 7)) else .error .field
  | 0x04 =>
    if fld w 20 10 = 0 ∧ fld w 0 14 = 0 then keep (.ixor g (fld w 44 7) (fld w 37 7) (fld w 30 7)) else .error .field
  | 0x05 =>
    if fld w 20 10 = 0 ∧ fld w 0 14 = 0 then keep (.iandn g (fld w 44 7) (fld w 37 7) (fld w 30 7)) else .error .field
  | 0x06 =>
    if fld w 20 10 = 0 ∧ fld w 0 14 = 0 then keep (.ishl g (fld w 44 7) (fld w 37 7) (fld w 30 7)) else .error .field
  | 0x07 =>
    if fld w 20 10 = 0 ∧ fld w 0 14 = 0 then keep (.ishr g (fld w 44 7) (fld w 37 7) (fld w 30 7)) else .error .field
  | 0x08 =>
    if fld w 20 10 = 0 ∧ fld w 0 14 = 0 then keep (.isar g (fld w 44 7) (fld w 37 7) (fld w 30 7)) else .error .field
  | 0x09 =>
    if fld w 20 10 = 0 ∧ fld w 0 14 = 0 then keep (.imul g (fld w 44 7) (fld w 37 7) (fld w 30 7)) else .error .field
  | 0x0A =>
    if fld w 20 10 = 0 ∧ fld w 0 14 = 0 then keep (.imulhu g (fld w 44 7) (fld w 37 7) (fld w 30 7)) else .error .field
  | 0x0B =>
    if fld w 20 10 = 0 ∧ fld w 0 14 = 0 then keep (.imulhs g (fld w 44 7) (fld w 37 7) (fld w 30 7)) else .error .field
  | 0x0C =>
    if fld w 20 10 = 0 ∧ fld w 0 14 = 0 then keep (.imin g (fld w 44 7) (fld w 37 7) (fld w 30 7)) else .error .field
  | 0x0D =>
    if fld w 20 10 = 0 ∧ fld w 0 14 = 0 then keep (.imax g (fld w 44 7) (fld w 37 7) (fld w 30 7)) else .error .field
  | 0x0E =>
    if fld w 20 10 = 0 ∧ fld w 0 14 = 0 then keep (.iminu g (fld w 44 7) (fld w 37 7) (fld w 30 7)) else .error .field
  | 0x0F =>
    if fld w 20 10 = 0 ∧ fld w 0 14 = 0 then keep (.imaxu g (fld w 44 7) (fld w 37 7) (fld w 30 7)) else .error .field
  | 0x10 => if fld w 20 17 = 0 ∧ fld w 0 14 = 0 then keep (.iclz g (fld w 44 7) (fld w 37 7)) else .error .field
  | 0x11 => if fld w 20 17 = 0 ∧ fld w 0 14 = 0 then keep (.ipopc g (fld w 44 7) (fld w 37 7)) else .error .field
  | _ => .error .sub

/-- Slot words of OP 0x02 (R158). -/
def decodeK02 (g : Guard) (w : Word) : Except Reject Instr :=
  match (fld w 32 5).toNat with
  | 0x00 => keep (.iaddi g (fld w 44 7) (fld w 37 7) (fld w 0 32))
  | 0x01 => keep (.iandi g (fld w 44 7) (fld w 37 7) (fld w 0 32))
  | 0x02 => keep (.iori g (fld w 44 7) (fld w 37 7) (fld w 0 32))
  | 0x03 => keep (.ixori g (fld w 44 7) (fld w 37 7) (fld w 0 32))
  | 0x04 => keep (.ishli g (fld w 44 7) (fld w 37 7) (fld w 0 32))
  | 0x05 => keep (.ishri g (fld w 44 7) (fld w 37 7) (fld w 0 32))
  | 0x06 => keep (.isari g (fld w 44 7) (fld w 37 7) (fld w 0 32))
  | 0x07 => keep (.imuli g (fld w 44 7) (fld w 37 7) (fld w 0 32))
  | _ => .error .sub

/-- Slot words of OP 0x04 (R158). -/
def decodeK04 (g : Guard) (w : Word) : Except Reject Instr :=
  match (fld w 29 4).toNat with
  | 0x00 => if fld w 0 29 = 0 then keep (.icmpeq g (fld w 47 4) (fld w 40 7) (fld w 33 7)) else .error .field
  | 0x01 => if fld w 0 29 = 0 then keep (.icmpne g (fld w 47 4) (fld w 40 7) (fld w 33 7)) else .error .field
  | 0x02 => if fld w 0 29 = 0 then keep (.icmplt g (fld w 47 4) (fld w 40 7) (fld w 33 7)) else .error .field
  | 0x03 => if fld w 0 29 = 0 then keep (.icmpge g (fld w 47 4) (fld w 40 7) (fld w 33 7)) else .error .field
  | 0x04 => if fld w 0 29 = 0 then keep (.icmpltu g (fld w 47 4) (fld w 40 7) (fld w 33 7)) else .error .field
  | 0x05 => if fld w 0 29 = 0 then keep (.icmpgeu g (fld w 47 4) (fld w 40 7) (fld w 33 7)) else .error .field
  | 0x06 => if fld w 0 29 = 0 then keep (.icmptst g (fld w 47 4) (fld w 40 7) (fld w 33 7)) else .error .field
  | _ => .error .sub

/-- Slot words of OP 0x05 (R158). -/
def decodeK05 (g : Guard) (w : Word) : Except Reject Instr :=
  match (fld w 36 4).toNat with
  | 0x00 => if fld w 32 4 = 0 then keep (.icmpeqi g (fld w 47 4) (fld w 40 7) (fld w 0 32)) else .error .field
  | 0x01 => if fld w 32 4 = 0 then keep (.icmpnei g (fld w 47 4) (fld w 40 7) (fld w 0 32)) else .error .field
  | 0x02 => if fld w 32 4 = 0 then keep (.icmplti g (fld w 47 4) (fld w 40 7) (fld w 0 32)) else .error .field
  | 0x03 => if fld w 32 4 = 0 then keep (.icmpgei g (fld w 47 4) (fld w 40 7) (fld w 0 32)) else .error .field
  | 0x04 => if fld w 32 4 = 0 then keep (.icmpltui g (fld w 47 4) (fld w 40 7) (fld w 0 32)) else .error .field
  | 0x05 => if fld w 32 4 = 0 then keep (.icmpgeui g (fld w 47 4) (fld w 40 7) (fld w 0 32)) else .error .field
  | 0x06 => if fld w 32 4 = 0 then keep (.icmptsti g (fld w 47 4) (fld w 40 7) (fld w 0 32)) else .error .field
  | _ => .error .sub

/-- Slot words of OP 0x07 (R158). -/
def decodeK07 (g : Guard) (w : Word) : Except Reject Instr :=
  match (fld w 36 3).toNat with
  | 0x00 => if fld w 0 36 = 0 then keep (.gand g (fld w 47 4) (fld w 43 4) (fld w 39 4)) else .error .field
  | 0x01 => if fld w 0 36 = 0 then keep (.gor g (fld w 47 4) (fld w 43 4) (fld w 39 4)) else .error .field
  | 0x02 => if fld w 0 36 = 0 then keep (.gxor g (fld w 47 4) (fld w 43 4) (fld w 39 4)) else .error .field
  | 0x03 => if fld w 0 36 = 0 then keep (.gandn g (fld w 47 4) (fld w 43 4) (fld w 39 4)) else .error .field
  | 0x04 => if fld w 39 4 = 0 ∧ fld w 0 36 = 0 then keep (.gnot g (fld w 47 4) (fld w 43 4)) else .error .field
  | _ => .error .sub

/-- Slot words of OP 0x08 (R158). -/
def decodeK08 (g : Guard) (w : Word) : Except Reject Instr :=
  match (fld w 14 6).toNat with
  | 0x00 =>
    if fld w 23 7 = 0 ∧ fld w 0 14 = 0 then keep (.fadd g (fld w 44 7) (fld w 37 7) (fld w 30 7) (fld w 20 3)) else .error .field
  | 0x01 =>
    if fld w 23 7 = 0 ∧ fld w 0 14 = 0 then keep (.fsub g (fld w 44 7) (fld w 37 7) (fld w 30 7) (fld w 20 3)) else .error .field
  | 0x02 =>
    if fld w 23 7 = 0 ∧ fld w 0 14 = 0 then keep (.fmul g (fld w 44 7) (fld w 37 7) (fld w 30 7) (fld w 20 3)) else .error .field
  | 0x03 =>
    if fld w 20 10 = 0 ∧ fld w 0 14 = 0 then keep (.fmin g (fld w 44 7) (fld w 37 7) (fld w 30 7)) else .error .field
  | 0x04 =>
    if fld w 20 10 = 0 ∧ fld w 0 14 = 0 then keep (.fmax g (fld w 44 7) (fld w 37 7) (fld w 30 7)) else .error .field
  | 0x05 => if fld w 20 17 = 0 ∧ fld w 0 14 = 0 then keep (.fabs g (fld w 44 7) (fld w 37 7)) else .error .field
  | 0x06 => if fld w 20 17 = 0 ∧ fld w 0 14 = 0 then keep (.fneg g (fld w 44 7) (fld w 37 7)) else .error .field
  | _ => .error .sub

/-- Slot words of OP 0x09 (R158). -/
def decodeK09 (g : Guard) (w : Word) : Except Reject Instr :=
  match (fld w 14 6).toNat with
  | 0x00 =>
    if fld w 0 14 = 0 then keep (.ffma g (fld w 44 7) (fld w 37 7) (fld w 30 7) (fld w 23 7) (fld w 20 3)) else .error .field
  | 0x01 =>
    if fld w 0 14 = 0 then keep (.ffms g (fld w 44 7) (fld w 37 7) (fld w 30 7) (fld w 23 7) (fld w 20 3)) else .error .field
  | 0x02 =>
    if fld w 0 14 = 0 then keep (.fnfma g (fld w 44 7) (fld w 37 7) (fld w 30 7) (fld w 23 7) (fld w 20 3)) else .error .field
  | 0x03 =>
    if fld w 0 14 = 0 then keep (.fnfms g (fld w 44 7) (fld w 37 7) (fld w 30 7) (fld w 23 7) (fld w 20 3)) else .error .field
  | _ => .error .sub

/-- Slot words of OP 0x0A (R158). -/
def decodeK0A (g : Guard) (w : Word) : Except Reject Instr :=
  match (fld w 29 4).toNat with
  | 0x00 => if fld w 0 29 = 0 then keep (.fcmpeq g (fld w 47 4) (fld w 40 7) (fld w 33 7)) else .error .field
  | 0x01 => if fld w 0 29 = 0 then keep (.fcmplt g (fld w 47 4) (fld w 40 7) (fld w 33 7)) else .error .field
  | 0x02 => if fld w 0 29 = 0 then keep (.fcmple g (fld w 47 4) (fld w 40 7) (fld w 33 7)) else .error .field
  | 0x03 => if fld w 0 29 = 0 then keep (.fcmpun g (fld w 47 4) (fld w 40 7) (fld w 33 7)) else .error .field
  | _ => .error .sub

/-- Slot words of OP 0x0B (R158). -/
def decodeK0B (g : Guard) (w : Word) : Except Reject Instr :=
  match (fld w 14 6).toNat with
  | 0x00 =>
    if fld w 23 7 = 0 ∧ fld w 0 14 = 0 then keep (.hadd g (fld w 44 7) (fld w 37 7) (fld w 30 7) (fld w 20 3)) else .error .field
  | 0x01 =>
    if fld w 23 7 = 0 ∧ fld w 0 14 = 0 then keep (.hsub g (fld w 44 7) (fld w 37 7) (fld w 30 7) (fld w 20 3)) else .error .field
  | 0x02 =>
    if fld w 23 7 = 0 ∧ fld w 0 14 = 0 then keep (.hmul g (fld w 44 7) (fld w 37 7) (fld w 30 7) (fld w 20 3)) else .error .field
  | 0x03 =>
    if fld w 20 10 = 0 ∧ fld w 0 14 = 0 then keep (.hmin g (fld w 44 7) (fld w 37 7) (fld w 30 7)) else .error .field
  | 0x04 =>
    if fld w 20 10 = 0 ∧ fld w 0 14 = 0 then keep (.hmax g (fld w 44 7) (fld w 37 7) (fld w 30 7)) else .error .field
  | _ => .error .sub

/-- Slot words of OP 0x0C (R158). -/
def decodeK0C (g : Guard) (w : Word) : Except Reject Instr :=
  match (fld w 14 6).toNat with
  | 0x00 =>
    if fld w 0 14 = 0 then keep (.hfma g (fld w 44 7) (fld w 37 7) (fld w 30 7) (fld w 23 7) (fld w 20 3)) else .error .field
  | 0x01 =>
    if fld w 0 14 = 0 then keep (.hfms g (fld w 44 7) (fld w 37 7) (fld w 30 7) (fld w 23 7) (fld w 20 3)) else .error .field
  | _ => .error .sub

/-- Slot words of OP 0x0D (R158). -/
def decodeK0D (g : Guard) (w : Word) : Except Reject Instr :=
  match (fld w 14 6).toNat with
  | 0x00 =>
    if fld w 25 12 = 0 ∧ fld w 20 3 = 0 ∧ fld w 0 14 = 0 then keep (.mvmw g (fld w 44 7) (fld w 37 7) (fld w 23 2)) else .error .field
  | 0x01 =>
    if fld w 25 12 = 0 ∧ fld w 20 3 = 0 ∧ fld w 0 14 = 0 then keep (.mvwm g (fld w 44 7) (fld w 37 7) (fld w 23 2)) else .error .field
  | _ => .error .sub

/-- Slot words of OP 0x20 (R158). -/
def decodeK20 (g : Guard) (w : Word) : Except Reject Instr :=
  match (fld w 14 4).toNat with
  | 0x00 => if fld w 18 19 = 0 ∧ fld w 0 14 = 0 then keep (.frsqs g (fld w 44 7) (fld w 37 7)) else .error .field
  | 0x01 => if fld w 18 19 = 0 ∧ fld w 0 14 = 0 then keep (.frcps g (fld w 44 7) (fld w 37 7)) else .error .field
  | 0x02 => if fld w 18 19 = 0 ∧ fld w 0 14 = 0 then keep (.fdivs g (fld w 44 7) (fld w 37 7)) else .error .field
  | _ => .error .sub

/-- Slot words of OP 0x21 (R158). -/
def decodeK21 (g : Guard) (w : Word) : Except Reject Instr :=
  match (fld w 14 4).toNat with
  | 0x00 =>
    if fld w 0 14 = 0 then keep (.cvtto g (fld w 44 7) (fld w 37 7) (fld w 21 16) (fld w 18 3)) else .error .field
  | 0x01 =>
    if fld w 0 14 = 0 then keep (.cvtfrom g (fld w 44 7) (fld w 37 7) (fld w 21 16) (fld w 18 3)) else .error .field
  | 0x02 =>
    if fld w 0 14 = 0 then keep (.cvtpack g (fld w 44 7) (fld w 37 7) (fld w 21 16) (fld w 18 3)) else .error .field
  | 0x03 =>
    if fld w 0 14 = 0 then keep (.cvtunpk g (fld w 44 7) (fld w 37 7) (fld w 21 16) (fld w 18 3)) else .error .field
  | _ => .error .sub

/-- Slot words of OP 0x38 (R158). -/
def decodeK38 (g : Guard) (w : Word) : Except Reject Instr :=
  match (fld w 21 5).toNat with
  | 0x00 =>
    if fld w 30 7 = 0 ∧ fld w 0 21 = 0 then keep (.xsend g (fld w 44 7) (fld w 37 7) (fld w 26 4)) else .error .field
  | 0x01 =>
    if fld w 30 7 = 0 ∧ fld w 0 21 = 0 then keep (.xbcast g (fld w 44 7) (fld w 37 7) (fld w 26 4)) else .error .field
  | 0x02 =>
    if fld w 26 4 = 0 ∧ fld w 0 21 = 0 then keep (.xperm g (fld w 44 7) (fld w 37 7) (fld w 30 7)) else .error .field
  | _ => .error .sub

/-- Slot words of OP 0x39 (R158). -/
def decodeK39 (g : Guard) (w : Word) : Except Reject Instr :=
  match (fld w 21 5).toNat with
  | 0x00 => if fld w 26 11 = 0 ∧ fld w 0 21 = 0 then keep (.xsum g (fld w 44 7) (fld w 37 7)) else .error .field
  | 0x01 => if fld w 26 11 = 0 ∧ fld w 0 21 = 0 then keep (.xsumf g (fld w 44 7) (fld w 37 7)) else .error .field
  | 0x02 => if fld w 26 11 = 0 ∧ fld w 0 21 = 0 then keep (.xmaxf g (fld w 44 7) (fld w 37 7)) else .error .field
  | 0x03 => if fld w 26 11 = 0 ∧ fld w 0 21 = 0 then keep (.xminf g (fld w 44 7) (fld w 37 7)) else .error .field
  | _ => .error .sub

/-- Slot words of OP 0x3A (R158). -/
def decodeK3A (g : Guard) (w : Word) : Except Reject Instr :=
  match (fld w 34 3).toNat with
  | 0x00 => if fld w 0 34 = 0 then keep (.trow g (fld w 44 7) (fld w 41 3) (fld w 37 4)) else .error .field
  | 0x01 => if fld w 0 34 = 0 then keep (.trowr g (fld w 44 7) (fld w 41 3) (fld w 37 4)) else .error .field
  | 0x02 => if fld w 0 34 = 0 then keep (.tcol g (fld w 44 7) (fld w 41 3) (fld w 37 4)) else .error .field
  | 0x03 => if fld w 0 34 = 0 then keep (.tcolr g (fld w 44 7) (fld w 41 3) (fld w 37 4)) else .error .field
  | _ => .error .sub

/-- Slot words of OP 0x3B (R158). -/
def decodeK3B (g : Guard) (w : Word) : Except Reject Instr :=
  match (fld w 34 3).toNat with
  | 0x00 => if fld w 44 7 = 0 ∧ fld w 37 4 = 0 ∧ fld w 0 34 = 0 then keep (.tzero g (fld w 41 3)) else .error .field
  | 0x01 =>
    if fld w 51 5 = 0 ∧ fld w 44 7 = 0 ∧ fld w 37 4 = 0 ∧ fld w 0 2 = 0 then keep (.tcfg (fld w 41 3) (fld w 18 16) (fld w 2 16)) else .error .field
  | _ => .error .sub

/-- Slot words of OP 0x49 (R158). -/
def decodeK49 (g : Guard) (w : Word) : Except Reject Instr :=
  match (fld w 49 1).toNat with
  | 0x00 =>
    if fld w 42 7 = 0 ∧ fld w 0 5 = 0 then keep (.clatch g (bit w 50) (fld w 39 3) (fld w 33 6) (fld w 17 16) (fld w 5 12)) else .error .field
  | 0x01 =>
    if fld w 39 3 = 0 ∧ fld w 0 5 = 0 then keep (.clatchr g (bit w 50) (fld w 42 7) (fld w 33 6) (fld w 17 16) (fld w 5 12)) else .error .field
  | _ => .error .sub

/-- Slot words of OP 0x4D (R158). -/
def decodeK4D (g : Guard) (w : Word) : Except Reject Instr :=
  match (fld w 50 1).toNat with
  | 0x00 =>
    if fld w 0 23 = 0 then keep (.cmovzToM g (fld w 43 7) (fld w 36 7) (fld w 25 11) (fld w 23 2)) else .error .field
  | 0x01 =>
    if fld w 0 23 = 0 then keep (.cmovzToZ g (fld w 43 7) (fld w 36 7) (fld w 25 11) (fld w 23 2)) else .error .field
  | _ => .error .sub

/-- The decoder of kernel slot words (R158, R159). The all-zero word is a NOP. -/
def decodeKernel (w : Word) : Except Reject Instr :=
  if w = 0 then .ok .nop
  else
    let g : Guard := ⟨fld w 52 4, bit w 51⟩
    match (fld w 56 8).toNat with
    | 0x01 => decodeK01 g w
    | 0x02 => decodeK02 g w
    | 0x03 => if fld w 32 12 = 0 then keep (.moviKernel g (fld w 44 7) (fld w 0 32)) else .error .field
    | 0x04 => decodeK04 g w
    | 0x05 => decodeK05 g w
    | 0x06 => if fld w 0 26 = 0 then keep (.selKernel g (fld w 44 7) (fld w 37 7) (fld w 30 7) (fld w 26 4)) else .error .field
    | 0x07 => decodeK07 g w
    | 0x08 => decodeK08 g w
    | 0x09 => decodeK09 g w
    | 0x0A => decodeK0A g w
    | 0x0B => decodeK0B g w
    | 0x0C => decodeK0C g w
    | 0x0D => decodeK0D g w
    | 0x20 => decodeK20 g w
    | 0x21 => decodeK21 g w
    | 0x30 => if fld w 40 1 = 0 ∧ fld w 0 39 = 0 then keep (.srd g (fld w 44 7) (fld w 41 3) (bit w 39)) else .error .field
    | 0x31 => if fld w 40 1 = 0 ∧ fld w 0 39 = 0 then keep (.swr g (fld w 44 7) (fld w 41 3) (bit w 39)) else .error .field
    | 0x38 => decodeK38 g w
    | 0x39 => decodeK39 g w
    | 0x3A => decodeK3A g w
    | 0x3B => decodeK3B g w
    | 0x40 => if fld w 51 5 = 0 ∧ fld w 0 51 = 0 then keep (.loop) else .error .field
    | 0x41 => if fld w 51 5 = 0 ∧ fld w 16 35 = 0 then keep (.wait (fld w 0 16)) else .error .field
    | 0x48 => if fld w 0 33 = 0 then keep (.cfmt g (fld w 49 2) (fld w 33 16)) else .error .field
    | 0x49 => decodeK49 g w
    | 0x4A => if fld w 0 18 = 0 then keep (.cbind g (fld w 18 33)) else .error .field
    | 0x4B => if fld w 0 21 = 0 then keep (.cube g (fld w 48 3) (bit w 47) (fld w 40 7) (fld w 33 7) (bit w 32) (fld w 21 11)) else .error .field
    | 0x4C => if fld w 0 25 = 0 then keep (.czero g (fld w 44 7) (fld w 33 11) (fld w 25 8)) else .error .field
    | 0x4D => decodeK4D g w
    | 0x4E => if fld w 0 41 = 0 then keep (.cstat g (fld w 44 7) (fld w 42 2) (bit w 41)) else .error .field
    | 0x4F => if fld w 0 51 = 0 then keep (.cstop g) else .error .field
    | _ => .error .op

/-- The words of an instruction: a control-processor word or a kernel slot word. -/
inductive Enc where
  | cp (w : Word32)
  | kernel (w : Word)
  deriving DecidableEq, Repr

/-- A control-processor word from OP, guard and bits [21:0] (R61). -/
def cpWord (op : BitVec 5) (g : Guard) (rest : BitVec 22) : Word32 := op ++ g.gp ++ BitVec.ofBool g.gn ++ rest

/-- A kernel slot word from OP, guard and bits [50:0] (R155). -/
def kWord (op : BitVec 8) (g : Guard) (rest : BitVec 51) : Word := op ++ g.gp ++ BitVec.ofBool g.gn ++ rest

/-- The word of an instruction, written from the formats of R62, R156 and R235 to R242; an event has none. -/
def encode (i : Instr) : Option Enc :=
  match i with
  | .nop => some (.cp 0)
  | .add g d a b => some (.cp (cpWord 1#5 g (d ++ a ++ b ++ 0#7)))
  | .sub g d a b => some (.cp (cpWord 1#5 g (d ++ a ++ b ++ 1#7)))
  | .and g d a b => some (.cp (cpWord 1#5 g (d ++ a ++ b ++ 2#7)))
  | .or g d a b => some (.cp (cpWord 1#5 g (d ++ a ++ b ++ 3#7)))
  | .xor g d a b => some (.cp (cpWord 1#5 g (d ++ a ++ b ++ 4#7)))
  | .andn g d a b => some (.cp (cpWord 1#5 g (d ++ a ++ b ++ 5#7)))
  | .shl g d a b => some (.cp (cpWord 1#5 g (d ++ a ++ b ++ 6#7)))
  | .shr g d a b => some (.cp (cpWord 1#5 g (d ++ a ++ b ++ 7#7)))
  | .sar g d a b => some (.cp (cpWord 1#5 g (d ++ a ++ b ++ 8#7)))
  | .ror g d a b => some (.cp (cpWord 1#5 g (d ++ a ++ b ++ 9#7)))
  | .mul g d a b => some (.cp (cpWord 1#5 g (d ++ a ++ b ++ 10#7)))
  | .mulhu g d a b => some (.cp (cpWord 1#5 g (d ++ a ++ b ++ 11#7)))
  | .mulhs g d a b => some (.cp (cpWord 1#5 g (d ++ a ++ b ++ 12#7)))
  | .min g d a b => some (.cp (cpWord 1#5 g (d ++ a ++ b ++ 13#7)))
  | .max g d a b => some (.cp (cpWord 1#5 g (d ++ a ++ b ++ 14#7)))
  | .minu g d a b => some (.cp (cpWord 1#5 g (d ++ a ++ b ++ 15#7)))
  | .maxu g d a b => some (.cp (cpWord 1#5 g (d ++ a ++ b ++ 16#7)))
  | .clz g d a => some (.cp (cpWord 1#5 g (d ++ a ++ 17#12)))
  | .ctz g d a => some (.cp (cpWord 1#5 g (d ++ a ++ 18#12)))
  | .popc g d a => some (.cp (cpWord 1#5 g (d ++ a ++ 19#12)))
  | .addi g d a i => some (.cp (cpWord 2#5 g (d ++ a ++ i)))
  | .andi g d a i => some (.cp (cpWord 3#5 g (d ++ a ++ i)))
  | .ori g d a i => some (.cp (cpWord 4#5 g (d ++ a ++ i)))
  | .xori g d a i => some (.cp (cpWord 5#5 g (d ++ a ++ i)))
  | .shli g d a s => some (.cp (cpWord 6#5 g (d ++ a ++ s ++ 0#6)))
  | .shri g d a s => some (.cp (cpWord 6#5 g (d ++ a ++ s ++ 1#6)))
  | .sari g d a s => some (.cp (cpWord 6#5 g (d ++ a ++ s ++ 2#6)))
  | .rori g d a s => some (.cp (cpWord 6#5 g (d ++ a ++ s ++ 3#6)))
  | .movi g d i => some (.cp (cpWord 7#5 g (d ++ i)))
  | .cmpeq g p a b => some (.cp (cpWord 8#5 g (p ++ a ++ 0#4 ++ b ++ 0#4)))
  | .cmpne g p a b => some (.cp (cpWord 8#5 g (p ++ a ++ 1#4 ++ b ++ 0#4)))
  | .cmplt g p a b => some (.cp (cpWord 8#5 g (p ++ a ++ 2#4 ++ b ++ 0#4)))
  | .cmpge g p a b => some (.cp (cpWord 8#5 g (p ++ a ++ 3#4 ++ b ++ 0#4)))
  | .cmpltu g p a b => some (.cp (cpWord 8#5 g (p ++ a ++ 4#4 ++ b ++ 0#4)))
  | .cmpgeu g p a b => some (.cp (cpWord 8#5 g (p ++ a ++ 5#4 ++ b ++ 0#4)))
  | .cmptst g p a b => some (.cp (cpWord 8#5 g (p ++ a ++ 6#4 ++ b ++ 0#4)))
  | .cmpeqi g p a i => some (.cp (cpWord 9#5 g (p ++ a ++ 0#4 ++ i)))
  | .cmpnei g p a i => some (.cp (cpWord 9#5 g (p ++ a ++ 1#4 ++ i)))
  | .cmplti g p a i => some (.cp (cpWord 9#5 g (p ++ a ++ 2#4 ++ i)))
  | .cmpgei g p a i => some (.cp (cpWord 9#5 g (p ++ a ++ 3#4 ++ i)))
  | .cmpltui g p a i => some (.cp (cpWord 9#5 g (p ++ a ++ 4#4 ++ i)))
  | .cmpgeui g p a i => some (.cp (cpWord 9#5 g (p ++ a ++ 5#4 ++ i)))
  | .cmptsti g p a i => some (.cp (cpWord 9#5 g (p ++ a ++ 6#4 ++ i)))
  | .sel g d a b s => some (.cp (cpWord 10#5 g (d ++ a ++ b ++ s ++ 0#3)))
  | .bfx g d a p l => some (.cp (cpWord 11#5 g (d ++ a ++ p ++ l)))
  | .bfxs g d a p l => some (.cp (cpWord 12#5 g (d ++ a ++ p ++ l)))
  | .bfi g d a p l => some (.cp (cpWord 13#5 g (d ++ a ++ p ++ l)))
  | .pand g p a b => some (.cp (cpWord 14#5 g (p ++ a ++ b ++ 0#10)))
  | .por g p a b => some (.cp (cpWord 14#5 g (p ++ a ++ b ++ 1#10)))
  | .pxor g p a b => some (.cp (cpWord 14#5 g (p ++ a ++ b ++ 2#10)))
  | .pandn g p a b => some (.cp (cpWord 14#5 g (p ++ a ++ b ++ 3#10)))
  | .pnot g p a => some (.cp (cpWord 14#5 g (p ++ a ++ 4#14)))
  | .br g o => some (.cp (cpWord 16#5 g (o)))
  | .call g o => some (.cp (cpWord 17#5 g (o)))
  | .brr g a => some (.cp (cpWord 18#5 g (0#5 ++ a ++ 0#12)))
  | .callr g a => some (.cp (cpWord 18#5 g (0#5 ++ a ++ 1#12)))
  | .trap g i => some (.cp (cpWord 19#5 g (i ++ 0#6)))
  | .eret g => some (.cp (cpWord 19#5 g (1#22)))
  | .yield g => some (.cp (cpWord 19#5 g (2#22)))
  | .mfs g d s => some (.cp (cpWord 20#5 g (d ++ s ++ 0#5)))
  | .mts g d s => some (.cp (cpWord 20#5 g (d ++ s ++ 1#5)))
  | .rdtick g d => some (.cp (cpWord 20#5 g (d ++ 2#17)))
  | .ldub g d a o => some (.cp (cpWord 22#5 g (d ++ a ++ 0#2 ++ o)))
  | .lduh g d a o => some (.cp (cpWord 22#5 g (d ++ a ++ 1#2 ++ o)))
  | .lduw g d a o => some (.cp (cpWord 22#5 g (d ++ a ++ 2#2 ++ o)))
  | .ldd g d a o => some (.cp (cpWord 22#5 g (d ++ a ++ 3#2 ++ o)))
  | .ldsb g d a o => some (.cp (cpWord 23#5 g (d ++ a ++ 0#2 ++ o)))
  | .ldsh g d a o => some (.cp (cpWord 23#5 g (d ++ a ++ 1#2 ++ o)))
  | .ldsw g d a o => some (.cp (cpWord 23#5 g (d ++ a ++ 2#2 ++ o)))
  | .stb g d a o => some (.cp (cpWord 24#5 g (d ++ a ++ 0#2 ++ o)))
  | .sth g d a o => some (.cp (cpWord 24#5 g (d ++ a ++ 1#2 ++ o)))
  | .stw g d a o => some (.cp (cpWord 24#5 g (d ++ a ++ 2#2 ++ o)))
  | .std g d a o => some (.cp (cpWord 24#5 g (d ++ a ++ 3#2 ++ o)))
  | .ldpb g d w o => some (.cp (cpWord 25#5 g (d ++ w ++ 0#2 ++ o)))
  | .ldph g d w o => some (.cp (cpWord 25#5 g (d ++ w ++ 1#2 ++ o)))
  | .ldpw g d w o => some (.cp (cpWord 25#5 g (d ++ w ++ 2#2 ++ o)))
  | .ldpd g d w o => some (.cp (cpWord 25#5 g (d ++ w ++ 3#2 ++ o)))
  | .ldprb g d w b => some (.cp (cpWord 26#5 g (d ++ w ++ 0#2 ++ b ++ 0#7)))
  | .ldprh g d w b => some (.cp (cpWord 26#5 g (d ++ w ++ 1#2 ++ b ++ 0#7)))
  | .ldprw g d w b => some (.cp (cpWord 26#5 g (d ++ w ++ 2#2 ++ b ++ 0#7)))
  | .ldprd g d w b => some (.cp (cpWord 26#5 g (d ++ w ++ 3#2 ++ b ++ 0#7)))
  | .fence g s => some (.cp (cpWord 27#5 g (s ++ 0#19)))
  | .bar g s o a => some (.cp (cpWord 27#5 g (s ++ o ++ a ++ 1#12)))
  | .lds4 g d h b => some (.cp (cpWord 28#5 g (0#6 ++ d ++ h ++ b ++ 0#1)))
  | .lds8 g d h b => some (.cp (cpWord 28#5 g (0#6 ++ d ++ h ++ b ++ 1#1)))
  | .sts4 g d h b => some (.cp (cpWord 28#5 g (1#6 ++ d ++ h ++ b ++ 0#1)))
  | .sts8 g d h b => some (.cp (cpWord 28#5 g (1#6 ++ d ++ h ++ b ++ 1#1)))
  | .saadd g d h b => some (.cp (cpWord 28#5 g (2#6 ++ d ++ h ++ b ++ 0#1)))
  | .safadd g d h b => some (.cp (cpWord 28#5 g (3#6 ++ d ++ h ++ b ++ 0#1)))
  | .samin g d h b => some (.cp (cpWord 28#5 g (4#6 ++ d ++ h ++ b ++ 0#1)))
  | .samax g d h b => some (.cp (cpWord 28#5 g (5#6 ++ d ++ h ++ b ++ 0#1)))
  | .saxchg g d h b => some (.cp (cpWord 28#5 g (6#6 ++ d ++ h ++ b ++ 0#1)))
  | .sacas g d h b => some (.cp (cpWord 28#5 g (7#6 ++ d ++ h ++ b ++ 0#1)))
  | .salloc g d h a => some (.cp (cpWord 29#5 g (0#6 ++ d ++ h ++ a ++ 0#1)))
  | .sfree g h => some (.cp (cpWord 29#5 g (1#6 ++ h ++ 0#11)))
  | .sload g h a b => some (.cp (cpWord 29#5 g (2#6 ++ h ++ a ++ b ++ 0#1)))
  | .sloadx g h a b => some (.cp (cpWord 29#5 g (2#6 ++ h ++ a ++ b ++ 1#1)))
  | .sstore g h a b => some (.cp (cpWord 29#5 g (3#6 ++ h ++ a ++ b ++ 0#1)))
  | .sgather g h i a => some (.cp (cpWord 29#5 g (4#6 ++ h ++ i ++ a ++ 0#2)))
  | .sbag g h i a => some (.cp (cpWord 29#5 g (5#6 ++ h ++ i ++ a ++ 0#2)))
  | .sbagm g h i a => some (.cp (cpWord 29#5 g (5#6 ++ h ++ i ++ a ++ 1#2)))
  | .scopy g h a b => some (.cp (cpWord 29#5 g (6#6 ++ h ++ a ++ b ++ 0#1)))
  | .scopyp g h a b => some (.cp (cpWord 29#5 g (6#6 ++ h ++ a ++ b ++ 1#1)))
  | .srecv g h => some (.cp (cpWord 29#5 g (6#6 ++ h ++ 0#11)))
  | .swait g h => some (.cp (cpWord 29#5 g (7#6 ++ h ++ 0#11)))
  | .swaitAll g => some (.cp (cpWord 29#5 g (459776#22)))
  | .krun g a b c => some (.cp (cpWord 30#5 g (0#6 ++ a ++ b ++ c ++ 0#1)))
  | .lwait g x => some (.cp (cpWord 30#5 g (1#6 ++ x ++ 0#11)))
  | .sscadd g v i a => some (.cp (cpWord 31#5 g (0#6 ++ v ++ i ++ a ++ 0#2)))
  | .srowupd g v i a => some (.cp (cpWord 31#5 g (1#6 ++ v ++ i ++ a ++ 0#3)))
  | .aadd g d p s o z => some (.cp (cpWord 31#5 g (2#6 ++ d ++ p ++ s ++ o ++ z ++ 0#1)))
  | .afadd g d p s o => some (.cp (cpWord 31#5 g (3#6 ++ d ++ p ++ s ++ o ++ 0#2)))
  | .amin g d p s o z => some (.cp (cpWord 31#5 g (4#6 ++ d ++ p ++ s ++ o ++ z ++ 0#1)))
  | .amax g d p s o z => some (.cp (cpWord 31#5 g (5#6 ++ d ++ p ++ s ++ o ++ z ++ 0#1)))
  | .aand g d p s o z => some (.cp (cpWord 31#5 g (6#6 ++ d ++ p ++ s ++ o ++ z ++ 0#1)))
  | .aor g d p s o z => some (.cp (cpWord 31#5 g (7#6 ++ d ++ p ++ s ++ o ++ z ++ 0#1)))
  | .axor g d p s o z => some (.cp (cpWord 31#5 g (8#6 ++ d ++ p ++ s ++ o ++ z ++ 0#1)))
  | .axchg g d p s o z => some (.cp (cpWord 31#5 g (9#6 ++ d ++ p ++ s ++ o ++ z ++ 0#1)))
  | .acas g d p s o z => some (.cp (cpWord 31#5 g (10#6 ++ d ++ p ++ s ++ o ++ z ++ 0#1)))
  | .qpush g d a r s => some (.cp (cpWord 31#5 g (11#6 ++ d ++ a ++ r ++ s)))
  | .qpop g d a r s => some (.cp (cpWord 31#5 g (12#6 ++ d ++ a ++ r ++ s)))
  | .put g d q o => some (.cp (cpWord 31#5 g (16#6 ++ d ++ q ++ 0#4 ++ o ++ 0#2)))
  | .get g d q o => some (.cp (cpWord 31#5 g (17#6 ++ d ++ q ++ 0#4 ++ o ++ 0#2)))
  | .signal g d q => some (.cp (cpWord 31#5 g (18#6 ++ d ++ q ++ 0#8)))
  | .lamo g d q f o z => some (.cp (cpWord 31#5 g (19#6 ++ d ++ q ++ f ++ o ++ z ++ 0#1)))
  | .synct g d a s => some (.cp (cpWord 31#5 g (20#6 ++ d ++ a ++ s ++ 0#5)))
  | .gopen g d a => some (.cp (cpWord 31#5 g (24#6 ++ d ++ a ++ 0#7)))
  | .gstore g x a k z => some (.cp (cpWord 31#5 g (25#6 ++ x ++ a ++ k ++ z)))
  | .sstoreg g h a => some (.cp (cpWord 31#5 g (26#6 ++ h ++ 0#5 ++ a ++ 0#3)))
  | .sscaddg g v i a => some (.cp (cpWord 31#5 g (27#6 ++ v ++ i ++ a ++ 0#3)))
  | .gseal g d a => some (.cp (cpWord 31#5 g (28#6 ++ d ++ a ++ 0#7)))
  | .gcommit g d k => some (.cp (cpWord 31#5 g (29#6 ++ d ++ k ++ 0#6)))
  | .gabort g d k => some (.cp (cpWord 31#5 g (30#6 ++ d ++ k ++ 0#6)))
  | .gwait g d k => some (.cp (cpWord 31#5 g (31#6 ++ d ++ k ++ 0#6)))
  | .gpeek g d a => some (.cp (cpWord 31#5 g (32#6 ++ d ++ a ++ 0#7)))
  | .gdeleg g d a => some (.cp (cpWord 31#5 g (33#6 ++ d ++ a ++ 0#7)))
  | .gstat g d k => some (.cp (cpWord 31#5 g (34#6 ++ d ++ k ++ 0#6)))
  | .iadd g d a b => some (.kernel (kWord 1#8 g (d ++ a ++ b ++ 0#7 ++ 0#3 ++ 0#6 ++ 0#14)))
  | .isub g d a b => some (.kernel (kWord 1#8 g (d ++ a ++ b ++ 0#7 ++ 0#3 ++ 1#6 ++ 0#14)))
  | .iand g d a b => some (.kernel (kWord 1#8 g (d ++ a ++ b ++ 0#7 ++ 0#3 ++ 2#6 ++ 0#14)))
  | .ior g d a b => some (.kernel (kWord 1#8 g (d ++ a ++ b ++ 0#7 ++ 0#3 ++ 3#6 ++ 0#14)))
  | .ixor g d a b => some (.kernel (kWord 1#8 g (d ++ a ++ b ++ 0#7 ++ 0#3 ++ 4#6 ++ 0#14)))
  | .iandn g d a b => some (.kernel (kWord 1#8 g (d ++ a ++ b ++ 0#7 ++ 0#3 ++ 5#6 ++ 0#14)))
  | .ishl g d a b => some (.kernel (kWord 1#8 g (d ++ a ++ b ++ 0#7 ++ 0#3 ++ 6#6 ++ 0#14)))
  | .ishr g d a b => some (.kernel (kWord 1#8 g (d ++ a ++ b ++ 0#7 ++ 0#3 ++ 7#6 ++ 0#14)))
  | .isar g d a b => some (.kernel (kWord 1#8 g (d ++ a ++ b ++ 0#7 ++ 0#3 ++ 8#6 ++ 0#14)))
  | .imul g d a b => some (.kernel (kWord 1#8 g (d ++ a ++ b ++ 0#7 ++ 0#3 ++ 9#6 ++ 0#14)))
  | .imulhu g d a b => some (.kernel (kWord 1#8 g (d ++ a ++ b ++ 0#7 ++ 0#3 ++ 10#6 ++ 0#14)))
  | .imulhs g d a b => some (.kernel (kWord 1#8 g (d ++ a ++ b ++ 0#7 ++ 0#3 ++ 11#6 ++ 0#14)))
  | .imin g d a b => some (.kernel (kWord 1#8 g (d ++ a ++ b ++ 0#7 ++ 0#3 ++ 12#6 ++ 0#14)))
  | .imax g d a b => some (.kernel (kWord 1#8 g (d ++ a ++ b ++ 0#7 ++ 0#3 ++ 13#6 ++ 0#14)))
  | .iminu g d a b => some (.kernel (kWord 1#8 g (d ++ a ++ b ++ 0#7 ++ 0#3 ++ 14#6 ++ 0#14)))
  | .imaxu g d a b => some (.kernel (kWord 1#8 g (d ++ a ++ b ++ 0#7 ++ 0#3 ++ 15#6 ++ 0#14)))
  | .iclz g d a => some (.kernel (kWord 1#8 g (d ++ a ++ 0#7 ++ 0#7 ++ 0#3 ++ 16#6 ++ 0#14)))
  | .ipopc g d a => some (.kernel (kWord 1#8 g (d ++ a ++ 0#7 ++ 0#7 ++ 0#3 ++ 17#6 ++ 0#14)))
  | .iaddi g d a imm => some (.kernel (kWord 2#8 g (d ++ a ++ 0#5 ++ imm)))
  | .iandi g d a imm => some (.kernel (kWord 2#8 g (d ++ a ++ 1#5 ++ imm)))
  | .iori g d a imm => some (.kernel (kWord 2#8 g (d ++ a ++ 2#5 ++ imm)))
  | .ixori g d a imm => some (.kernel (kWord 2#8 g (d ++ a ++ 3#5 ++ imm)))
  | .ishli g d a imm => some (.kernel (kWord 2#8 g (d ++ a ++ 4#5 ++ imm)))
  | .ishri g d a imm => some (.kernel (kWord 2#8 g (d ++ a ++ 5#5 ++ imm)))
  | .isari g d a imm => some (.kernel (kWord 2#8 g (d ++ a ++ 6#5 ++ imm)))
  | .imuli g d a imm => some (.kernel (kWord 2#8 g (d ++ a ++ 7#5 ++ imm)))
  | .moviKernel g d imm => some (.kernel (kWord 3#8 g (d ++ 0#7 ++ 0#5 ++ imm)))
  | .icmpeq g p a b => some (.kernel (kWord 4#8 g (p ++ a ++ b ++ 0#4 ++ 0#29)))
  | .icmpne g p a b => some (.kernel (kWord 4#8 g (p ++ a ++ b ++ 1#4 ++ 0#29)))
  | .icmplt g p a b => some (.kernel (kWord 4#8 g (p ++ a ++ b ++ 2#4 ++ 0#29)))
  | .icmpge g p a b => some (.kernel (kWord 4#8 g (p ++ a ++ b ++ 3#4 ++ 0#29)))
  | .icmpltu g p a b => some (.kernel (kWord 4#8 g (p ++ a ++ b ++ 4#4 ++ 0#29)))
  | .icmpgeu g p a b => some (.kernel (kWord 4#8 g (p ++ a ++ b ++ 5#4 ++ 0#29)))
  | .icmptst g p a b => some (.kernel (kWord 4#8 g (p ++ a ++ b ++ 6#4 ++ 0#29)))
  | .icmpeqi g p a imm => some (.kernel (kWord 5#8 g (p ++ a ++ 0#4 ++ 0#4 ++ imm)))
  | .icmpnei g p a imm => some (.kernel (kWord 5#8 g (p ++ a ++ 1#4 ++ 0#4 ++ imm)))
  | .icmplti g p a imm => some (.kernel (kWord 5#8 g (p ++ a ++ 2#4 ++ 0#4 ++ imm)))
  | .icmpgei g p a imm => some (.kernel (kWord 5#8 g (p ++ a ++ 3#4 ++ 0#4 ++ imm)))
  | .icmpltui g p a imm => some (.kernel (kWord 5#8 g (p ++ a ++ 4#4 ++ 0#4 ++ imm)))
  | .icmpgeui g p a imm => some (.kernel (kWord 5#8 g (p ++ a ++ 5#4 ++ 0#4 ++ imm)))
  | .icmptsti g p a imm => some (.kernel (kWord 5#8 g (p ++ a ++ 6#4 ++ 0#4 ++ imm)))
  | .selKernel g d a b q => some (.kernel (kWord 6#8 g (d ++ a ++ b ++ q ++ 0#26)))
  | .gand g p a b => some (.kernel (kWord 7#8 g (p ++ a ++ b ++ 0#3 ++ 0#36)))
  | .gor g p a b => some (.kernel (kWord 7#8 g (p ++ a ++ b ++ 1#3 ++ 0#36)))
  | .gxor g p a b => some (.kernel (kWord 7#8 g (p ++ a ++ b ++ 2#3 ++ 0#36)))
  | .gandn g p a b => some (.kernel (kWord 7#8 g (p ++ a ++ b ++ 3#3 ++ 0#36)))
  | .gnot g p a => some (.kernel (kWord 7#8 g (p ++ a ++ 0#4 ++ 4#3 ++ 0#36)))
  | .fadd g d a b rm => some (.kernel (kWord 8#8 g (d ++ a ++ b ++ 0#7 ++ rm ++ 0#6 ++ 0#14)))
  | .fsub g d a b rm => some (.kernel (kWord 8#8 g (d ++ a ++ b ++ 0#7 ++ rm ++ 1#6 ++ 0#14)))
  | .fmul g d a b rm => some (.kernel (kWord 8#8 g (d ++ a ++ b ++ 0#7 ++ rm ++ 2#6 ++ 0#14)))
  | .fmin g d a b => some (.kernel (kWord 8#8 g (d ++ a ++ b ++ 0#7 ++ 0#3 ++ 3#6 ++ 0#14)))
  | .fmax g d a b => some (.kernel (kWord 8#8 g (d ++ a ++ b ++ 0#7 ++ 0#3 ++ 4#6 ++ 0#14)))
  | .fabs g d a => some (.kernel (kWord 8#8 g (d ++ a ++ 0#7 ++ 0#7 ++ 0#3 ++ 5#6 ++ 0#14)))
  | .fneg g d a => some (.kernel (kWord 8#8 g (d ++ a ++ 0#7 ++ 0#7 ++ 0#3 ++ 6#6 ++ 0#14)))
  | .ffma g d a b c rm => some (.kernel (kWord 9#8 g (d ++ a ++ b ++ c ++ rm ++ 0#6 ++ 0#14)))
  | .ffms g d a b c rm => some (.kernel (kWord 9#8 g (d ++ a ++ b ++ c ++ rm ++ 1#6 ++ 0#14)))
  | .fnfma g d a b c rm => some (.kernel (kWord 9#8 g (d ++ a ++ b ++ c ++ rm ++ 2#6 ++ 0#14)))
  | .fnfms g d a b c rm => some (.kernel (kWord 9#8 g (d ++ a ++ b ++ c ++ rm ++ 3#6 ++ 0#14)))
  | .fcmpeq g p a b => some (.kernel (kWord 10#8 g (p ++ a ++ b ++ 0#4 ++ 0#29)))
  | .fcmplt g p a b => some (.kernel (kWord 10#8 g (p ++ a ++ b ++ 1#4 ++ 0#29)))
  | .fcmple g p a b => some (.kernel (kWord 10#8 g (p ++ a ++ b ++ 2#4 ++ 0#29)))
  | .fcmpun g p a b => some (.kernel (kWord 10#8 g (p ++ a ++ b ++ 3#4 ++ 0#29)))
  | .hadd g d a b rm => some (.kernel (kWord 11#8 g (d ++ a ++ b ++ 0#7 ++ rm ++ 0#6 ++ 0#14)))
  | .hsub g d a b rm => some (.kernel (kWord 11#8 g (d ++ a ++ b ++ 0#7 ++ rm ++ 1#6 ++ 0#14)))
  | .hmul g d a b rm => some (.kernel (kWord 11#8 g (d ++ a ++ b ++ 0#7 ++ rm ++ 2#6 ++ 0#14)))
  | .hmin g d a b => some (.kernel (kWord 11#8 g (d ++ a ++ b ++ 0#7 ++ 0#3 ++ 3#6 ++ 0#14)))
  | .hmax g d a b => some (.kernel (kWord 11#8 g (d ++ a ++ b ++ 0#7 ++ 0#3 ++ 4#6 ++ 0#14)))
  | .hfma g d a b c rm => some (.kernel (kWord 12#8 g (d ++ a ++ b ++ c ++ rm ++ 0#6 ++ 0#14)))
  | .hfms g d a b c rm => some (.kernel (kWord 12#8 g (d ++ a ++ b ++ c ++ rm ++ 1#6 ++ 0#14)))
  | .mvmw g d a w => some (.kernel (kWord 13#8 g (d ++ a ++ 0#7 ++ 0#5 ++ w ++ 0#3 ++ 0#6 ++ 0#14)))
  | .mvwm g d a w => some (.kernel (kWord 13#8 g (d ++ a ++ 0#7 ++ 0#5 ++ w ++ 0#3 ++ 1#6 ++ 0#14)))
  | .frsqs g d a => some (.kernel (kWord 32#8 g (d ++ a ++ 0#16 ++ 0#3 ++ 0#4 ++ 0#14)))
  | .frcps g d a => some (.kernel (kWord 32#8 g (d ++ a ++ 0#16 ++ 0#3 ++ 1#4 ++ 0#14)))
  | .fdivs g d a => some (.kernel (kWord 32#8 g (d ++ a ++ 0#16 ++ 0#3 ++ 2#4 ++ 0#14)))
  | .cvtto g d a fd rm => some (.kernel (kWord 33#8 g (d ++ a ++ fd ++ rm ++ 0#4 ++ 0#14)))
  | .cvtfrom g d a fd rm => some (.kernel (kWord 33#8 g (d ++ a ++ fd ++ rm ++ 1#4 ++ 0#14)))
  | .cvtpack g d a fd rm => some (.kernel (kWord 33#8 g (d ++ a ++ fd ++ rm ++ 2#4 ++ 0#14)))
  | .cvtunpk g d a fd rm => some (.kernel (kWord 33#8 g (d ++ a ++ fd ++ rm ++ 3#4 ++ 0#14)))
  | .srd g r port quad => some (.kernel (kWord 48#8 g (r ++ port ++ 0#1 ++ BitVec.ofBool quad ++ 0#39)))
  | .swr g r port quad => some (.kernel (kWord 49#8 g (r ++ port ++ 0#1 ++ BitVec.ofBool quad ++ 0#39)))
  | .xsend g d a cl => some (.kernel (kWord 56#8 g (d ++ a ++ 0#7 ++ cl ++ 0#5 ++ 0#21)))
  | .xbcast g d a cl => some (.kernel (kWord 56#8 g (d ++ a ++ 0#7 ++ cl ++ 1#5 ++ 0#21)))
  | .xperm g d a b => some (.kernel (kWord 56#8 g (d ++ a ++ b ++ 0#4 ++ 2#5 ++ 0#21)))
  | .xsum g d a => some (.kernel (kWord 57#8 g (d ++ a ++ 0#7 ++ 0#4 ++ 0#5 ++ 0#21)))
  | .xsumf g d a => some (.kernel (kWord 57#8 g (d ++ a ++ 0#7 ++ 0#4 ++ 1#5 ++ 0#21)))
  | .xmaxf g d a => some (.kernel (kWord 57#8 g (d ++ a ++ 0#7 ++ 0#4 ++ 2#5 ++ 0#21)))
  | .xminf g d a => some (.kernel (kWord 57#8 g (d ++ a ++ 0#7 ++ 0#4 ++ 3#5 ++ 0#21)))
  | .trow g d tile idx => some (.kernel (kWord 58#8 g (d ++ tile ++ idx ++ 0#3 ++ 0#34)))
  | .trowr g d tile idx => some (.kernel (kWord 58#8 g (d ++ tile ++ idx ++ 1#3 ++ 0#34)))
  | .tcol g d tile idx => some (.kernel (kWord 58#8 g (d ++ tile ++ idx ++ 2#3 ++ 0#34)))
  | .tcolr g d tile idx => some (.kernel (kWord 58#8 g (d ++ tile ++ idx ++ 3#3 ++ 0#34)))
  | .tzero g tile => some (.kernel (kWord 59#8 g (0#7 ++ tile ++ 0#4 ++ 0#3 ++ 0#34)))
  | .tcfg tile rmask cmask =>
    some (.kernel (kWord 59#8 ⟨0, false⟩ (0#7 ++ tile ++ 0#4 ++ 1#3 ++ rmask ++ cmask ++ 0#2)))
  | .loop => some (.kernel (kWord 64#8 ⟨0, false⟩ (0#51)))
  | .wait n => some (.kernel (kWord 65#8 ⟨0, false⟩ (0#35 ++ n)))
  | .cfmt g opd fd => some (.kernel (kWord 72#8 g (opd ++ fd ++ 0#33)))
  | .clatch g pl port kc ofg psg =>
    some (.kernel (kWord 73#8 g (BitVec.ofBool pl ++ 0#1 ++ 0#7 ++ port ++ kc ++ ofg ++ psg ++ 0#5)))
  | .clatchr g pl dr kc ofg psg =>
    some (.kernel (kWord 73#8 g (BitVec.ofBool pl ++ 1#1 ++ dr ++ 0#3 ++ kc ++ ofg ++ psg ++ 0#5)))
  | .cbind g bind => some (.kernel (kWord 74#8 g (bind ++ 0#18)))
  | .cube g aport sc dm ds st zb =>
    some (.kernel (kWord 75#8 g (aport ++ BitVec.ofBool sc ++ dm ++ ds ++ BitVec.ofBool st ++ zb ++ 0#21)))
  | .czero g dz zo n => some (.kernel (kWord 76#8 g (dz ++ zo ++ n ++ 0#25)))
  | .cmovzToM g m dz zo q => some (.kernel (kWord 77#8 g (0#1 ++ m ++ dz ++ zo ++ q ++ 0#23)))
  | .cmovzToZ g m dz zo q => some (.kernel (kWord 77#8 g (1#1 ++ m ++ dz ++ zo ++ q ++ 0#23)))
  | .cstat g d sel clr => some (.kernel (kWord 78#8 g (d ++ sel ++ BitVec.ofBool clr ++ 0#41)))
  | .cstop g => some (.kernel (kWord 79#8 g (0#51)))
  | .barDeparture _ => none
  | .windowAnswer _ => none
  | .sallocAnswer _ => none
  | .remoteStallCopy _ _ => none
  | .entryStart _ _ => none
  | .entryRetire _ _ => none
  | .invocationFirstBundle _ => none
  | .kernelBundleIssue _ => none
  | .writeLanding _ => none
  | .iterationBoundaryStop _ => none
  | .kernelReload _ => none
  | .cubeStepIssue _ => none
  | .cubeStepLanding _ => none
  | .planeFetchReady _ _ => none
  | .planeFetchFailure _ _ => none
  | .remotePlaneRead _ _ => none
  | .homePlainAccess _ => none
  | .convertedAccess _ => none
  | .atomicAtHome _ => none
  | .scatterAddAtHome _ _ => none
  | .rowUpdateAtHome _ _ => none
  | .qpushAtHome _ => none
  | .qpopAtHome _ => none
  | .leaseEnd _ => none
  | .loadAnswer _ => none
  | .hotctlFlush _ => none
  | .hotctlClear _ => none
  | .tableWalk _ _ _ => none
  | .pageScan _ _ => none
  | .migrationLockReread _ _ => none
  | .upcallRetry _ _ => none
  | .pagerAnswer _ => none
  | .tinvVpn _ _ => none
  | .tinvAll _ => none
  | .tinvComplete _ => none
  | .migCopy _ _ _ => none
  | .migFinalise _ => none
  | .migRelease _ => none
  | .migCancel _ => none
  | .migrationLineCopy _ => none
  | .migrationMoved _ => none
  | .migrationRedirect _ => none
  | .synctAlign _ => none
  | .verbAtTarget _ => none
  | .verbAnswer _ => none
  | .putSignalAdd _ => none
  | .routeRedirect _ => none
  | .verbTimeout _ => none
  | .itctlSwap _ => none
  | .portTrainingAttempt _ _ _ => none
  | .lpcfgWrite _ _ _ => none
  | .groupTagFailure _ _ => none
  | .dbgctlHalt _ _ => none
  | .gwaitReturn _ => none
  | .enlistRequest _ => none
  | .enlistAnswer _ => none
  | .shedAdmit _ => none
  | .storeAck _ => none
  | .storeRefusal _ => none
  | .sealReport _ => none
  | .groupApply _ => none
  | .applyAck _ => none
  | .groupDiscard _ => none
  | .discardAck _ => none
  | .decisionAtSource _ => none
  | .leaseQuery _ _ => none
  | .queryAnswer _ => none
  | .deadlineExpiry _ _ => none
  | .placementNotice _ => none
  | .resetNotice _ _ => none
  | .shforceApply _ _ => none
  | .shforceDiscard _ _ => none
  | .heldPacketReroute _ => none
  | .paddockApply _ => none
  | .padcqpHeadWrite _ _ => none
  | .lqpTailWrite _ _ => none
  | .loadRecord _ => none
  | .unloadRecord _ => none
  | .runRecord _ => none
  | .taskPlacement _ _ _ _ _ _ => none
  | .saveAreaFillDone _ => none
  | .copyNode _ _ _ => none
  | .eventNode _ _ _ => none
  | .conditionalNode _ _ _ => none
  | .loopNode _ _ _ => none
  | .taskEnd _ => none
  | .taskSave _ => none
  | .taskRestore _ _ _ => none
  | .quantumExpiry _ => none
  | .priorityPreemption _ => none
  | .graphComplete _ _ => none
  | .bar2Access _ _ _ _ _ => none
  | .sctlClrfail _ => none
  | .sctlRestart _ => none
  | .startUp _ _ _ _ _ => none
  | .firmwareUpdate _ _ _ _ _ => none
  | .spdmMeasurement _ _ => none
  | .linkKeyLoad _ _ _ _ => none
  | .pldmSensorRead _ _ => none
  | .clockStep _ => none
  | .thermalTrip _ _ => none
  | .registerWrite _ _ _ => none
  | .portPeerLost _ _ => none
  | .d2dLinkFailure _ _ _ => none
  | .linkedHoldReport _ _ _ => none
  | .sourceAbortReport _ => none
  | .windowStoreWrite _ => none

/-- The decoder of either kind of word. -/
def decodeEnc : Enc → Except Reject Instr
  | .cp w => decodeCp w
  | .kernel w => decodeKernel w

/-- The instruction the decoder reads from the low nbits of w: a control-processor word of 32 bits, or a kernel slot
word of 64. -/
def decodeTableWord (nbits w : Nat) : Option Instr :=
  if nbits ≤ 32 then (decodeCp (BitVec.ofNat 32 (w % 2 ^ nbits))).toOption
  else (decodeKernel (BitVec.ofNat 64 (w % 2 ^ nbits))).toOption

end Sys2Proof
end

