-- ==== Sys2Proof/Config.lean ====
section
/-! DEFINITION. What one part fixes and the spec does not: the free values, and the signature and hash functions that
the spec names without describing (R2, R388, R389). None has a body. -/

namespace Sys2Proof.Config

/-- The n-th free value (log 8). -/
opaque freeWord : Nat → Word

/-- What a physical address beyond the installed HBM4 reads as: package and address (log 4). -/
opaque absentByte : Nat → Nat → Byte

/-- SM3 of a byte string (R2, R388). -/
opaque sm3 : List Byte → List Byte

/-- SM2 verification of a signature over a digest with a public key (R2, R388). -/
opaque sm2Verify : List Byte → List Byte → List Byte → Bool

/-- The SM2 signature that a package's own identity key makes over a digest (R389). -/
opaque sm2Sign : Nat → List Byte → List Byte

/-- The hash of the firmware key and the minimum version that fuses hold (R388). -/
opaque fusedKeyHash : List Byte
opaque fusedMinVersion : BitVec 16

/-- The SM3 of the service-processor firmware (1) or of the core firmware (2), by the digest of the image that runs, if it was
updated (R389). -/
opaque firmwareDigest : Nat → Option (List Byte) → List Byte

/-- The fuse configuration, with SCAP.SD of every die (R389). -/
opaque fuseMeasurement : List Bool → List Byte

end Sys2Proof.Config
end

