-- ==== Sys2Proof/Machine/Units.lean ====
section
/-! DEFINITION. Access to the units of the state by number, registers and stall handles, memory and homes, fault
records and the fault log. -/

namespace Sys2Proof.Machine

/-- Core, die and package of a context; die and package of a core; package of a die (R9). -/
def coreOf (x : Nat) : Nat := x / 4
def dieOf (c : Nat) : Nat := c / 128
def pkgOf (c : Nat) : Nat := c / 512
def dieOfCtx (x : Nat) : Nat := x / 512
def pkgOfCtx (x : Nat) : Nat := x / 2048
def pkgOfDie (d : Nat) : Nat := d / 4
/-- Number of a core within its package, and the stable of a core. -/
def coreId (c : Nat) : Nat := c % 512
def stableOf (c : Nat) : Nat := c / 8

def State.ctx (s : State) (x : Nat) : Ctx := Tab.get Ctx.reset s.ctxs x
def State.core (s : State) (c : Nat) : Core := Tab.get Core.reset s.cores c
def State.die (s : State) (d : Nat) : Die := Tab.get Die.reset s.dies d
def State.pkg (s : State) (p : Nat) : Pkg := Tab.get Pkg.reset s.pkgs p

def State.setCtx (s : State) (x : Nat) (c : Ctx) : State := { s with ctxs := Tab.set Ctx.reset s.ctxs x c }
def State.setCore (s : State) (c : Nat) (v : Core) : State := { s with cores := Tab.set Core.reset s.cores c v }
def State.setDie (s : State) (d : Nat) (v : Die) : State := { s with dies := Tab.set Die.reset s.dies d v }
def State.setPkg (s : State) (p : Nat) (v : Pkg) : State := { s with pkgs := Tab.set Pkg.reset s.pkgs p v }

def State.modCtx (s : State) (x : Nat) (f : Ctx → Ctx) : State := s.setCtx x (f (s.ctx x))
def State.modCore (s : State) (c : Nat) (f : Core → Core) : State := s.setCore c (f (s.core c))
def State.modDie (s : State) (d : Nat) (f : Die → Die) : State := s.setDie d (f (s.die d))
def State.modPkg (s : State) (p : Nat) (f : Pkg → Pkg) : State := s.setPkg p (f (s.pkg p))

/-- The package is in the safe state: a start failed (R390). -/
def Pkg.safe (k : Pkg) : Bool := fldN k.sresn 24 8 ≠ 0

/-- A die that minimal mode holds in reset (R390). -/
def Pkg.heldDie (k : Pkg) (d : Nat) : Bool := bit k.sresn 3 && d % 4 ≠ 0

/-- HALT holds the cores of a die; a thermal trip, a start under way and the safe state stop every core of its package, and minimal
mode the cores of dies 1 to 3 (R310, R390, R391). -/
def State.stopped (s : State) (d : Nat) : Bool :=
  let k := s.pkg (pkgOfDie d)
  (s.die d).halt || k.thermal || k.starting.isSome || k.safe || k.heldDie d

/-- A host write to a register of die d: ignored in the safe state, and at a die held in reset (R390). -/
def hostWrite (s : State) (d : Nat) (f : State → State) : State :=
  let k := s.pkg (pkgOfDie d)
  if k.safe || k.heldDie d then s else f s

/-- The context and the open bundle that the current step acts on. -/
def State.me (s : State) : Ctx := s.ctx s.cur.x
def State.modMe (s : State) (f : Ctx → Ctx) : State := s.modCtx s.cur.x f

/-- A request, verb, packet or scoreboard entry by its number. -/
def State.req (s : State) (r : Nat) : Option Req := Tab.get none s.reqs r
def State.verb (s : State) (v : Nat) : Option Verb := Tab.get none s.verbs v
def State.pkt (s : State) (k : Nat) : Option Pkt := Tab.get none s.pkts k
def State.entry (s : State) (c e : Nat) : Option Entry := Tab.get none (s.core c).sb e
def State.setReq (s : State) (r : Nat) (q : Option Req) : State := { s with reqs := Tab.set none s.reqs r q }
def State.setVerb (s : State) (v : Nat) (q : Option Verb) : State := { s with verbs := Tab.set none s.verbs v q }
def State.setPkt (s : State) (k : Nat) (q : Option Pkt) : State := { s with pkts := Tab.set none s.pkts k q }
def State.setEntry (s : State) (c e : Nat) (q : Option Entry) : State :=
  s.modCore c (fun v => { v with sb := Tab.set none v.sb e q })

/-- A new request, verb or packet takes the next number. -/
def State.addReq (s : State) (q : Req) : State := { s.setReq s.nextId (some q) with nextId := s.nextId + 1 }
def State.addVerb (s : State) (q : Verb) : State := { s.setVerb s.nextId (some q) with nextId := s.nextId + 1 }
def State.addPkt (s : State) (q : Pkt) : State := { s.setPkt s.nextId (some q) with nextId := s.nextId + 1 }

/-- The numbered members of a table of optional values. -/
def Tab.members {α : Type} (t : Tab (Option α)) : List (Nat × α) :=
  t.filterMap (fun p => p.2.map (fun v => (p.1, v)))

/-- The next free value (log 8). -/
def State.freeVal (s : State) : Word := Config.freeWord s.free
def State.nextFree (s : State) : State := { s with free := s.free + 1 }

/-- n more free values have been taken (log 8). -/
def State.spendFree (s : State) (n : Nat) : State := { s with free := s.free + n }

/-- n free bytes (log 8). -/
def freeBytes (s : State) (n : Nat) : List Byte := (List.range n).map (fun i => fld (Config.freeWord (s.free + i / 8)) (i % 8 * 8) 8)

/-- How many fifteenths of a cycle the counters of a package are behind those of a package at the full clock (R391). -/
def State.lagOf (s : State) (p : Nat) : Nat := (s.pkg p).lag + (s.now - (s.pkg p).clockAt) * (15 - (s.pkg p).clock)

/-- The cycles of package p since reset, at its clock: everything that the spec counts in cycles counts these (R4, R391). -/
def State.cycles (s : State) (p : Nat) : Nat := s.now - s.lagOf p / 15

/-- The cycles that a die has counted since reset: those of a package advance together (R391). -/
def State.ticks (s : State) (d : Nat) : Word := BitVec.ofNat 64 (s.cycles (pkgOfDie d))

/-- The cycle counter of a die (R26, R109, R309). -/
def State.tickOf (s : State) (d : Nat) : Word := s.ticks d + (s.die d).tick

/-! ## Registers -/

/-- xn of a context; x0 reads as zero (R51). -/
def Ctx.rx (c : Ctx) (n : Nat) : Word := if n = 0 then 0 else Tab.get 0 c.x n

/-- Writes xn; a write to x0 is discarded (R51). -/
def Ctx.wx (c : Ctx) (n : Nat) (v : Word) : Ctx := if n = 0 then c else { c with x := Tab.set 0 c.x n v }

/-- hn of a context (R52). -/
def Ctx.rh (c : Ctx) (n : Nat) : Word := Tab.get 0 c.h n
def Ctx.wh (c : Ctx) (n : Nat) (v : Word) : Ctx := { c with h := Tab.set 0 c.h n v }

/-- gn of a set of predicates; g0 reads as 1 (R51, R148). -/
def rpred (g : BitVec 12) (n : Nat) : Bool := n = 0 || bit g n

/-- Writes gn, n from 1 to 11. -/
def wpred (g : BitVec 12) (n : Nat) (v : Bool) : BitVec 12 :=
  if n = 0 then g else if v then g ||| BitVec.ofNat 12 (2 ^ n) else g &&& ~~~(BitVec.ofNat 12 (2 ^ n))

/-- One bit of a mask set or cleared. -/
def setBit {w : Nat} (m : BitVec w) (n : Nat) (v : Bool) : BitVec w :=
  if v then m ||| BitVec.ofNat w (2 ^ n) else m &&& ~~~(BitVec.ofNat w (2 ^ n))

/-- Fields of a stall handle (R52). -/
def hV (h : Word) : Bool := bit h 63
def hGen (h : Word) : BitVec 8 := fld h 52 8
def hGlo (h : Word) : Nat := fldN h 50 2
def hGhi (h : Word) : Nat := fldN h 48 2
def hLen (h : Word) : Nat := fldN h 32 16
def hBase (h : Word) : Nat := fldN h 20 12
def hRsz (h : Word) : Nat := fldN h 0 16

/-- CAPR of a stall (R120). -/
def capr (len rsz : Nat) : Nat := 16 * (len * 64 / rsz)
def hCapr (h : Word) : Nat := capr (hLen h) (hRsz h)

/-! ## Memory and homes -/

/-- Key of a physical address in the table of device memory, and of a host address, which has 52 bits, in that of host memory
(R279, R335). -/
def memKey (p pa : Nat) : Nat := p * 2 ^ 44 + pa
def hostKey (p a : Nat) : Nat := p * 2 ^ 52 + a

/-- Bytes of HBM4 that a package holds: 8 stacks of 48 GiB (R2). -/
def hbmBytes : Nat := 8 * 48 * 2 ^ 30

/-- n bytes at a physical address lie in the package's HBM4; host memory lies outside it (R2, R16, log 4). -/
def installed (host : Bool) (pa n : Nat) : Bool := host || pa + n ≤ hbmBytes

/-- What n bytes at a physical address of package p read as where no memory is installed: free bytes (log 4). -/
def absentBytes (p pa n : Nat) : List Byte := (List.range n).map (fun i => Config.absentByte p (pa + i))

/-- n bytes of device memory, or of host memory through the host interface (R2, R16, R279). -/
def State.readBytes (s : State) (p : Nat) (host : Bool) (pa n : Nat) : List Byte :=
  if installed host pa n then
    if host then Memory.read s.host (hostKey p pa) n else Memory.read s.mem (memKey p pa) n
  else absentBytes p pa n

/-- The unsigned integer that they hold. -/
def State.readPhys (s : State) (p : Nat) (host : Bool) (pa n : Nat) : Nat := ofLe (s.readBytes p host pa n)

/-- The home die within the package and the controller of a physical address (R253). -/
def homeDie (pl home pa : Nat) : Nat := if pl = 1 then home else xorGroups 16 2 (pa / 2 ^ 12)
def homeCtl (pa : Nat) : Nat := xorGroups 6 5 (pa / 2 ^ 12) ^^^ (pa / 2 ^ 12 / 2 ^ 30 % 4)

/-- Where an access goes, as a die within the whole system (R253). -/
def homeDieOf (p : Place) : Nat := p.pkg * 4 + homeDie p.pl p.home p.pa

/-- What the homes of a page do with a request: perform it, hold it, or answer with a redirect (R291). -/
inductive Gate where
  | go
  | hold
  | redirect
  deriving DecidableEq, Repr

/-- A holding shed of package p holds a store for a page (R291). -/
def shedHolds (s : State) (p page : Nat) : Bool :=
  s.sheds.any (fun t => t.1 / 132 = p && t.1 % 33 ≠ 32 && t.2.any (fun g => g.held.any (fun h => h.pa / 2 ^ 16 = page)))

/-- The place of a request. -/
def Req.place (q : Req) : Place := ⟨q.pkg, q.pa, q.pl, q.home, 0⟩

/-- R291: once no shed holds a store for the old page, FINALISING holds requests to it; MOVED redirects them. Nothing is performed
at the new page before MOVED (log 49). -/
def gate (s : State) (p : Place) : Gate :=
  let m := (s.pkg p.pkg).mig
  let page := p.pa / 2 ^ 16
  if p.pl = 2 ∨ m.st = .idle then .go
  else if page = m.old then
    match m.st with
    | .finalising => if shedHolds s p.pkg m.old then .go else .hold
    | .moved => .redirect
    | _ => .go
  else if page = m.new ∧ m.st ≠ .moved then .hold
  else .go

/-- Lines from line 0 that a migration has copied are marked when they are written (R291). -/
def migMark (m : Mig) (pa n : Nat) : Mig :=
  if (m.st = .copying ∨ m.st = .copied ∨ m.st = .finalising) ∧ pa / 2 ^ 16 = m.old then
    let ls := (List.range ((pa % 64 + n + 63) / 64)).map (fun i => (pa / 64 + i) % 1024)
    { m with marked := m.marked ++ (ls.filter (fun l => l < m.copied && !m.marked.contains l)).eraseDups }
  else m

/-- A home writes bytes (R254); a migrating page's copied lines are marked (R291). Where no memory is installed nothing is written
(log 4). -/
def State.writePhys (s : State) (p : Nat) (host : Bool) (pa : Nat) (bs : List Byte) : State :=
  if !installed host pa bs.length then s
  else if host then { s with host := Memory.write s.host (hostKey p pa) bs }
  else
    let s := { s with mem := Memory.write s.mem (memKey p pa) bs }
    if (s.pkg p).mig.st = .idle then s else s.modPkg p (fun k => { k with mig := migMark k.mig pa bs.length })

/-! ## Fault records -/

/-- What a fault reports: code, kind of address, address, detail, unit (R26). -/
structure Flt where
  code : Nat
  ak : Nat
  addr : Nat
  detail : Nat
  unit : Nat
  deriving DecidableEq, Repr

/-- A fault with a detail only. -/
def Flt.mk0 (code detail : Nat) : Flt := ⟨code, 0, 0, detail, 0⟩

/-- ENG of a code (R25). -/
def engOf (code : Nat) : Nat :=
  if code < 0x60 then code / 0x20 else if 0xF0 ≤ code then 0xF else code / 0x10 - 3

/-- The record of a fault of context x (R26). -/
def mkRec (s : State) (x : Nat) (precise : Bool) (f : Flt) : Rec :=
  { w0 := BitVec.ofNat 64 (f.unit * 2 ^ 32 + f.ak * 2 ^ 28 + 2 ^ 27 + x % 4 * 2 ^ 25 + coreId (coreOf x) * 2 ^ 16 + 2 ^ 14
            + b2n precise * 2 ^ 13 + engOf f.code * 2 ^ 8 + f.code),
    w1 := BitVec.ofNat 64 f.addr, w2 := BitVec.ofNat 64 f.detail, w3 := s.tickOf (dieOfCtx x) }

/-- The record of a fault of context x that was found in an earlier cycle: STAMP is that of the detection (R26). -/
def mkRecAt (s : State) (x : Nat) (precise : Bool) (f : Flt) (stamp : Word) : Rec := { mkRec s x precise f with w3 := stamp }

/-- The record of a fault with no context, reported on die d of the system (R26). -/
def mkRecDie (s : State) (d : Nat) (f : Flt) : Rec :=
  { w0 := BitVec.ofNat 64 (f.unit * 2 ^ 32 + f.ak * 2 ^ 28 + d % 4 * 2 ^ 23 + 2 ^ 14 + engOf f.code * 2 ^ 8 + f.code),
    w1 := BitVec.ofNat 64 f.addr, w2 := BitVec.ofNat 64 f.detail, w3 := s.tickOf d }

/-- Code of a record. -/
def Rec.code (r : Rec) : Nat := fldN r.w0 0 8

/-- The 32 bytes of a record (R26). -/
def Rec.bytes (r : Rec) : List Byte :=
  leBytes 8 r.w0.toNat ++ leBytes 8 r.w1.toNat ++ leBytes 8 r.w2.toNat ++ leBytes 8 r.w3.toNat

/-- No record. -/
def Rec.zero : Rec := ⟨0, 0, 0, 0⟩

/-- An imprecise fault of context x becomes its pending record, or sets OVF in the one that is pending (R27). The context holds the record
while the task runs, and offset 0x3B0 of the frame has it once the task is saved (R76, R80, log 88). -/
def postRec (s : State) (x : Nat) (r : Rec) : State :=
  s.modCtx x (fun c => { c with pend := match c.pend with
    | none => some r
    | some p => some { p with w0 := p.w0 ||| 0x8000 } })

/-- An MSI-X vector is raised (R382). -/
def raiseVector (s : State) (p v : Nat) : State := s.modPkg p (fun k => { k with vectors := k.vectors ++ [v] })

/-- A record with no context enters the die's fault log and raises the die's vector, or is dropped with OVF when the log
is full (R382, R384). -/
def logRec (s : State) (d : Nat) (r : Rec) : State :=
  let v := s.die d
  let tl := fldN v.flogp 0 8
  if (tl + 1) % 256 = fldN v.flogp 8 8 then s.modDie d (fun v => { v with flogp := setBit v.flogp 63 true })
  else
    let p : Word := (v.flogp &&& ~~~(0xFF : Word)) ||| BitVec.ofNat 64 ((tl + 1) % 256)
    let s := s.modDie d (fun v => { v with flog := Tab.set none v.flog tl (some r), flogp := p })
    raiseVector s (pkgOfDie d) (d % 4)

end Sys2Proof.Machine
end

