-- ==== Sys2Proof/Machine/Operands.lean ====
section
/-! DEFINITION. The class, slots and operands of instruction words (R58, R59, R62, R128, R156), and the scan of
executable pages (R22, R23). -/

namespace Sys2Proof.Machine

/-- The class of a control-processor word (R58, R65). -/
inductive Cls where
  | a
  | b
  | m
  | e
  deriving DecidableEq, Repr

/-- OP of a control-processor word. -/
def opOf (w : Word32) : Nat := fldN w 27 5

/-- SUB of an EN-format word. -/
def subOf (w : Word32) : Nat := fldN w 16 6

/-- The class fixed by the major opcode (R65). -/
def classOf (w : Word32) : Cls :=
  let op := opOf w
  if op < 0x10 then .a else if op < 0x16 then .b else if op < 0x1D then .m else .e

/-- The three register fields of the EN format (R128). -/
def en1 (w : Word32) : Nat := fldN w 11 5
def en2 (w : Word32) : Nat := fldN w 6 5
def en3 (w : Word32) : Nat := fldN w 1 5

/-- n registers from r. -/
def regRun (r n : Nat) : List Nat := (List.range n).map (fun i => r + i)

/-- x registers that an EN-format word of OP 0x1C to 0x1E reads (R130 to R141, R164). -/
def enReads (op sub : Nat) (w : Word32) : List Nat :=
  match op with
  | 0x1C => if sub = 1 ∨ sub = 7 then [en1 w, en3 w] else [en3 w]
  | 0x1D =>
    match sub with
    | 0 => [en3 w]
    | 2 | 3 => [en2 w, en3 w]
    | 4 | 5 => regRun (fldN w 2 4 * 2) 2
    | 6 => if en2 w = 0 ∧ fldN w 0 1 = 0 then [] else [en2 w, en3 w]
    | _ => []
  | _ => if sub = 0 then [en1 w, en2 w, en3 w] else []

/-- x registers that a word of OP 0x1F reads (R257 to R268, R296, R309, R336). -/
def engineReads (sub : Nat) (w : Word32) : List Nat :=
  if sub = 0 then regRun (fldN w 2 4 * 2) 2
  else if sub = 1 then regRun (fldN w 3 3 * 4) 4
  else if sub = 0xA then en1 w :: regRun (fldN w 7 4 * 2) 2
  else if sub < 0xA then regRun (fldN w 7 4 * 2) 2
  else if sub = 0xB then en2 w :: regRun (fldN w 3 3 * 8) 8
  else if sub = 0xC then [en2 w]
  else if sub < 0x14 then regRun (fldN w 8 3 * 4) 4
  else if sub = 0x14 then [en2 w]
  else if sub = 0x19 then [en1 w, en2 w, en3 w]
  else if sub = 0x1A ∨ sub = 0x1B then regRun (fldN w 3 3 * 4) 3
  else if sub = 0x18 ∨ sub = 0x1C ∨ sub = 0x20 ∨ sub = 0x21 then regRun (fldN w 7 4 * 2) 2
  else [en2 w]

/-- x registers that a word reads as sources (R62). -/
def xReads (w : Word32) : List Nat :=
  let xd := fldN w 17 5
  let xa := fldN w 12 5
  let xb := fldN w 7 5
  match opOf w with
  | 0x01 | 0x0A => [xa, xb]
  | 0x02 | 0x03 | 0x04 | 0x05 | 0x06 | 0x0B | 0x0C | 0x12 | 0x16 | 0x17 => [xa]
  | 0x08 => [fldN w 13 5, fldN w 4 5]
  | 0x09 => [fldN w 13 5]
  | 0x0D | 0x18 => [xd, xa]
  | 0x14 => if fldN w 0 5 = 1 then [xd] else []
  | 0x1A => [xb]
  | 0x1B => if fldN w 0 6 = 1 then [xa] else []
  | 0x1C => enReads 0x1C (subOf w) w
  | 0x1D => enReads 0x1D (subOf w) w
  | 0x1E => enReads 0x1E (subOf w) w
  | 0x1F => engineReads (subOf w) w
  | _ => []

/-- x registers that a word names as destinations; those of E-slot words are written by their engine (R72). -/
def xWrites (w : Word32) : List Nat :=
  let xd := fldN w 17 5
  let sub := subOf w
  match opOf w with
  | 0x00 | 0x08 | 0x09 | 0x0E | 0x10 | 0x13 | 0x18 | 0x1B | 0x1E => []
  | 0x11 => [31]
  | 0x12 => if fldN w 0 7 = 1 then [31] else []
  | 0x14 => if fldN w 0 5 = 1 then [] else [xd]
  | 0x1C => if sub = 1 then [] else [en1 w]
  | 0x1D => if sub = 0 then [en1 w] else []
  | 0x1F =>
    if sub < 2 ∨ (0x19 ≤ sub ∧ sub ≤ 0x1B) then []
    else if sub = 0xC then en1 w :: regRun (fldN w 3 3 * 8) 8 else [en1 w]
  | _ => [xd]

/-- Stall handles that a word reads (R128, R140, R260, R336). SALLOC's handle is its destination. -/
def hReads (w : Word32) : List Nat :=
  let sub := subOf w
  match opOf w with
  | 0x1C => [en2 w]
  | 0x1D =>
    if sub = 0 then []
    else if sub = 4 ∨ sub = 5 then [en1 w, en2 w]
    else if sub = 7 then (if bit w 10 then [] else [en1 w]) else [en1 w]
  | 0x1F => if sub < 2 ∨ sub = 0x1B then [en1 w, en2 w] else if sub = 0x1A then [en1 w] else []
  | _ => []

/-- Predicates that a word writes (R91, R93). -/
def gWrites (w : Word32) : List Nat :=
  match opOf w with
  | 0x08 | 0x09 | 0x0E => [fldN w 18 4]
  | _ => []

/-- The destinations of a word: x registers, predicates, system registers (R59). -/
def destsOf (w : Word32) : List (Nat × Nat) :=
  (xWrites w).map (fun r => (0, r)) ++ (gWrites w).map (fun p => (1, p)) ++
    (if opOf w = 0x14 ∧ fldN w 0 5 = 1 then [(2, fldN w 5 12)] else [])

/-- Whether a word reads or writes xn. -/
def touches (w : Word32) (n : Nat) : Bool := (xReads w).contains n || (xWrites w).contains n

/-- The engine command that returns a value has an XD field (R72). -/
def hasXd (w : Word32) : Bool :=
  match opOf w with
  | 0x1D => subOf w = 0
  | 0x1F => !(subOf w < 2 || (0x19 ≤ subOf w && subOf w ≤ 0x1B))
  | _ => false

/-! ## Slots of a bundle -/

/-- The slot of the next word, given the last slot taken plus 1 (R58); none when the order is broken. -/
def slotFor (w : Word32) (nextSlot : Nat) : Option Nat :=
  let want := match classOf w with
    | .a => if nextSlot = 0 then 0 else 1
    | .b => 1
    | .m => 2
    | .e => 3
  if nextSlot ≤ want then some want else none

/-- The words of a bundle by slot, 0 where a slot is empty, with OCC (R58). -/
def placeSlots : List Word32 → Nat → Option (List (Nat × Word32))
  | [], _ => some []
  | w :: ws, k =>
    match slotFor w k with
    | none => none
    | some i => (placeSlots ws (i + 1)).map (fun r => (i, w) :: r)

/-- The n words of a bundle in slot form: four words and OCC. -/
def bySlot (ps : List (Nat × Word32)) : List Word32 × BitVec 4 :=
  ((List.range 4).map (fun i => Tab.get 0 ps i), ps.foldl (fun o p => setBit o p.1 true) 0)

/-! ## Lines and their scan -/

/-- START and TGT bits of word j in a line's header (R55). -/
def startBit (ws : List Word32) (j : Nat) : Bool := 2 ≤ j && bit (ws.getD 0 0) (j - 2)
def tgtBit (ws : List Word32) (j : Nat) : Bool :=
  if j < 4 then 2 ≤ j && bit (ws.getD 0 0) (28 + j) else bit (ws.getD 1 0) (j - 4)

/-- The number of words of the bundle at word j, at most n of them (R55). -/
def bundleLen (ws : List Word32) (j : Nat) : Nat → Nat
  | 0 => 0
  | n + 1 => if 32 ≤ j then 0 else if startBit ws (j + 1) then 1 else 1 + bundleLen ws (j + 1) n

/-- The first word of a bundle whose destination an earlier word has, as its place in the bundle (R22 reason 4). -/
def clash (ws : List Word32) (i : Nat) : Option Nat :=
  match ws.drop i with
  | [] => none
  | w :: _ => if ((ws.take i).any (fun v => (destsOf v).any (fun d => (destsOf w).contains d))) then some i else none

/-- A word that no instruction has (R22 reason 3). -/
def reservedCp (w : Word32) : Bool :=
  match decodeCp w with
  | .ok _ => false
  | .error _ => true

/-- The scan of one bundle: the first failing word's place and the reason (R22). A failure of the bundle as a whole, too long or with words
out of slot order, stands at its first word, a clash at the later of the two words; a word that is reserved and clashes is reserved (log
51). -/
def scanBundle (ws : List Word32) : Option (Nat × Nat) :=
  if 4 < ws.length ∨ (placeSlots (ws.filter (fun w => !reservedCp w)) 0).isNone then some (0, 2)
  else
    (List.range ws.length).findSome? (fun i =>
      if reservedCp (ws.getD i 0) then some (i, 3) else (clash ws i).map (fun i => (i, 4)))

/-- What fails at word j of a line: a target mark off a bundle's start, at that word, or the bundle that starts there. Of a word that fails
for reasons 2 and 3 reason 2 is reported (log 51). -/
def scanWord (ws : List Word32) (j : Nat) : List (Nat × Nat) :=
  if tgtBit ws j && !startBit ws j then [(4 * j, 2)]
  else if startBit ws j then
    match scanBundle ((ws.drop j).take (bundleLen ws j 30)) with
    | some r => [(4 * (j + r.1), r.2)]
    | none => []
  else []

/-- The failure at the lowest offset. -/
def firstFail : List (Nat × Nat) → Option (Nat × Nat)
  | [] => none
  | f :: fs =>
    match firstFail fs with
    | some g => if g.1 < f.1 then some g else some f
    | none => some f

/-- The scan of one code line: byte offset within the line and reason (R22, R55). A line whose word 2 starts no bundle fails at word 2 (log
51). -/
def scanLine (ws : List Word32) : Option (Nat × Nat) :=
  if fldN (ws.getD 1 0) 28 4 ≠ 0 then some (4, 1)
  else if !startBit ws 2 then some (8, 2)
  else firstFail ((List.range 30).flatMap (fun k => scanWord ws (k + 2)))

/-- The slots in which R158 allows an OP. -/
def kSlots (op : Nat) : Nat × Nat :=
  if op < 0x20 then (0, 3) else if op < 0x30 then (4, 4) else if op < 0x38 then (5, 5) else if op < 0x40 then (6, 6) else (7, 7)

/-- OP of a kernel slot word. -/
def kOp (w : Word) : Nat := fldN w 56 8

/-- The destination that a kernel slot names: a d register, an m register, a predicate or a tile (R159). -/
def kDest (w : Word) : List (Nat × Nat) :=
  let d := [(0, fldN w 44 7)]
  let m := [(1, fldN w 44 5)]
  match kOp w with
  | 0x01 | 0x02 | 0x03 | 0x06 | 0x08 | 0x09 | 0x0B | 0x0C | 0x20 | 0x38 | 0x39 | 0x4E => d
  | 0x04 | 0x05 | 0x07 | 0x0A => [(2, fldN w 47 4)]
  | 0x0D => if fldN w 14 6 = 1 then m else d
  | 0x21 => if fldN w 14 4 = 3 then m else d
  | 0x30 => if bit w 39 then m else d
  | 0x3A => if fldN w 34 3 = 0 ∨ fldN w 34 3 = 3 then [(3, fldN w 41 3)] else d
  | 0x3B => [(3, fldN w 41 3)]
  | 0x4D => if bit w 50 then [] else [(1, fldN w 43 5)]
  | _ => []

/-- A slot word is legal in slot i (R158, R159). -/
def kSlotOk (i : Nat) (w : Word) : Bool :=
  w = 0 || ((match decodeKernel w with | .ok _ => true | .error _ => false) &&
    (kSlots (kOp w)).1 ≤ i && i ≤ (kSlots (kOp w)).2)

/-- Sum of the ring lengths of words 2 and 3 of a loop record (R163). -/
def ringSum (w2 w3 : Word) : Nat :=
  ((List.range 16).map (fun j => fldN w2 (4 * j) 4 + 1 + (fldN w3 (4 * j) 4 + 1))).foldl (· + ·) 0

/-- The check of a loop record by itself (R22, R163): the first failing word. A ring sum that is too great stands at word 2 (log 51). -/
def scanRecord (ws : List Word) : Option Nat :=
  let w0 := ws.getD 0 0
  if fldN w0 56 8 ≠ 0xFE ∨ fldN w0 52 4 < 1 ∨ 6 < fldN w0 52 4 ∨ fldN w0 48 4 ≠ 0 ∨ fldN w0 24 12 = 0 then some 0
  else if fldN (ws.getD 1 0) 32 32 ≠ 0 then some 1
  else if 64 < ringSum (ws.getD 2 0) (ws.getD 3 0) then some 2
  else if fldN (ws.getD 4 0) 16 48 ≠ 0 ∨ fldN (ws.getD 4 0) 8 8 &&& fldN (ws.getD 4 0) 0 8 ≠ 0 then some 4
  else [5, 6, 7].find? (fun i => ws.getD i 0 ≠ 0)

/-- The scan of one microcode entry: byte offset within it and reason; a slot that is reserved and clashes is reserved (R22, R159, log 51).
-/
def scanEntry (ws : List Word) : Option (Nat × Nat) :=
  if kOp (ws.getD 0 0) = 0xFE then (scanRecord ws).map (fun i => (8 * i, 3))
  else
    (List.range 8).findSome? (fun i =>
      if !kSlotOk i (ws.getD i 0) then some (8 * i, 3)
      else if (ws.take i).any (fun v => (kDest v).any (fun d => (kDest (ws.getD i 0)).contains d)) then some (8 * i, 4)
      else none)

/-- The 32-bit and 64-bit little-endian words of bytes (R3). -/
def words32 : Nat → List Byte → List Word32
  | 0, _ => []
  | n + 1, bs => BitVec.ofNat 32 (ofLe (bs.take 4)) :: words32 n (bs.drop 4)
def words64 : Nat → List Byte → List Word
  | 0, _ => []
  | n + 1, bs => BitVec.ofNat 64 (ofLe (bs.take 8)) :: words64 n (bs.drop 8)

end Sys2Proof.Machine
end

