-- ==== Sys2Proof/Machine/Errors.lean ====
section
/-! DEFINITION. Errors in stored words: corrected and counted, or a machine check (R117, R255, R385, R386). -/

namespace Sys2Proof.Machine

/-- The field of CECNT that counts a storage's corrections (R386). -/
def Storage.field (p : Storage) : Nat :=
  match p with
  | .srf _ => 48
  | .mss => 32
  | .hbm => 16
  | .store _ => 0

/-- The machine check of a storage (R385). -/
def Storage.code (p : Storage) : Nat :=
  match p with
  | .srf _ => 0xF0
  | .mss => 0xF1
  | .hbm => 0xF2
  | .store _ => 0xF3

/-- One field of CECNT counts up and saturates (R386). -/
def countUp (v : Word) (lo : Nat) : Word :=
  if fldN v lo 16 = 0xFFFF then v else BitVec.ofNat 64 (v.toNat + 2 ^ lo)

/-- A machine check of die d with no context: its record names the reporting unit and the address where they are known (R26, R385, log
70). The spec gives no DETAIL (log 8). -/
def machineCheckDie (s : State) (d : Nat) (f : Flt) : State :=
  logRec s.nextFree d (mkRecDie s d { f with detail := s.freeVal.toNat })

/-- The 4-byte word in error meets the n bytes from a key of a storage (log 23). -/
def SoftErr.within (e : SoftErr) (p : Storage) (lo n : Nat) : Bool := e.place = p && lo < e.key + 4 && e.key < lo + n

/-- A read of n bytes of a storage whose corrections die d counts: single-bit errors are corrected and counted (R117, R386). -/
def correct (s : State) (d : Nat) (p : Storage) (lo n : Nat) : State :=
  let soft := s.errs.filter (fun e => e.within p lo n && !e.hard)
  if soft.isEmpty then s
  else
    let s := s.modDie d (fun v => { v with cecnt := soft.foldl (fun w _ => countUp w p.field) v.cecnt })
    { s with errs := s.errs.filter (fun e => !(e.within p lo n && !e.hard)) }

/-- The read finds an uncorrectable word. -/
def uncorrectable (s : State) (p : Storage) (lo n : Nat) : Bool := s.errs.any (fun e => e.within p lo n && e.hard)

/-- Where a core's own storage keeps a word (log 23): lines of the instruction and of the data cache by their key in memory, entries of
the microcode store, words of tiles. -/
def icKey (k : Nat) : Nat := k
def dcKey (k : Nat) : Nat := 2 ^ 60 + k
def ucKey (i : Nat) : Nat := 2 * 2 ^ 60 + 64 * i
def tileKey (i : Nat) : Nat := 3 * 2 ^ 60 + 4 * i

/-- Where the sheds keep the header and the data of a held entry: above the lines of the memory-side store, by destination, group, source
key and sequence number (R322, log 23). -/
def shedKey (d g : Nat) (h : Held) : Nat := 2 ^ 60 + (((h.seq * 2 ^ 32 + g) * 2 ^ 19 + h.key) * 2 ^ 18 + d) * 2 ^ 13

/-- A machine check of a storage at a key: its code, and the address that its record holds (R26, R385). -/
def Storage.flt (p : Storage) (key : Nat) : Flt :=
  match p with
  | .srf _ => ⟨p.code, 3, key, 0, key / 2 ^ 18⟩
  | .mss => ⟨p.code, 2, key % 2 ^ 44, 0, homeCtl (key % 2 ^ 44)⟩
  | .hbm => ⟨p.code, 2, key % 2 ^ 44, 0, homeCtl (key % 2 ^ 44)⟩
  | .store _ => Flt.mk0 p.code 0

/-- A read of n bytes of a storage that die d looks after: what it corrects is counted; the machine check where it finds an
uncorrectable word, which is never returned (R117, R385, R386). -/
def checkRead (s : State) (d : Nat) (p : Storage) (key n : Nat) : State × Option Flt :=
  let s := correct s d p key n
  (s, if uncorrectable s p key n then some (p.flt key) else none)

/-- A home reads n bytes of a place: the memory-side store, then HBM4 (R255, R385). Host memory lies outside both. -/
def checkHome (s : State) (p : Place) (n : Nat) : State × Option Flt :=
  if 2 ≤ p.pl then (s, none)
  else
    match checkRead s (homeDieOf p) .mss (memKey p.pkg p.pa) n with
    | (s, some f) => (s, some f)
    | (s, none) => checkRead s (homeDieOf p) .hbm (memKey p.pkg p.pa) n

/-- A home reads several places; the first that is uncorrectable ends the access. -/
def checkHomes (s : State) : List (Place × Nat) → State × Option Flt
  | [] => (s, none)
  | r :: rs =>
    match checkHome s r.1 r.2 with
    | (s, some f) => (s, some f)
    | (s, none) => checkHomes s rs

/-- A destination reads a held entry, its header of 16 bytes and its data (R322, R385). -/
def checkHeld (s : State) (d g : Nat) (h : Held) : State × Option Flt :=
  let (s, f) := checkRead s (d / 33) .mss (shedKey d g h) (16 + h.data.length)
  (s, f.map (fun f => { f with addr := h.pa, unit := homeCtl h.pa }))

/-- A read for which no context stands: with a machine check of the home's die where a word is uncorrectable (R385). -/
def readDie (s : State) (rs : List (Place × Nat)) (bad k : State → State) : State :=
  match checkHomes s rs with
  | (s, none) => k s
  | (s, some f) => bad (machineCheckDie s ((rs.map (fun r => homeDieOf r.1)).headD 0) f)

end Sys2Proof.Machine
end

