-- ==== Sys2Proof/Machine/Queues.lean ====
section
/-! DEFINITION. Hardware queue blocks in memory (R266 to R270). -/

namespace Sys2Proof.Machine

/-- Fields of a queue block at physical address q of package p (R266). -/
def qHdr (s : State) (p q : Nat) : Nat := s.readPhys p false q 8
def qCnt (s : State) (p q : Nat) : Nat := s.readPhys p false (q + 8) 8
def qLsz (s : State) (p q : Nat) : Nat := qHdr s p q / 2 ^ 52 % 16
def qTail (s : State) (p q : Nat) : Nat := qHdr s p q / 2 ^ 16 % 2 ^ 16
def qHead (s : State) (p q : Nat) : Nat := qHdr s p q % 2 ^ 16
def qFree (s : State) (p q : Nat) : Nat := qCnt s p q / 2 ^ 16 % 2 ^ 16
def qCount (s : State) (p q : Nat) : Nat := qCnt s p q % 2 ^ 16
def qRing (s : State) (p q : Nat) : Nat := 2 ^ qLsz s p q - 192

/-- The ring word at byte offset off from a place in the ring (R267). -/
def qWord (s : State) (p q at_ off : Nat) : Nat := s.readPhys p false (q + 0xC0 + (at_ + off) % qRing s p q) 4

/-- The checks of R266 on a queue block, which lies in HBM4 that is installed (R2, log 4). -/
def qOk (s : State) (p q : Nat) : Bool :=
  let l := qLsz s p q
  let ring := qRing s p q
  qHdr s p q / 2 ^ 56 = 0x51 && 8 ≤ l && l ≤ 12 && q % 2 ^ l = 0 && installed false q (2 ^ l) &&
    qHead s p q % 4 = 0 && qHead s p q < ring && qTail s p q % 4 = 0 && qTail s p q < ring && qFree s p q ≤ ring &&
    (if qCount s p q = 0 then qFree s p q = ring else qWord s p q (qHead s p q) 0 < 2 ^ 16)

/-- Writes 4-byte words round the ring (R267). -/
def qWrite (s : State) (p q at_ : Nat) : Nat → List Nat → State
  | _, [] => s
  | off, w :: ws => qWrite (s.writePhys p false (q + 0xC0 + (at_ + off) % qRing s p q) (leBytes 4 w)) p q at_ (off + 4) ws

/-- Writes HEAD, TAIL, FREE and COUNT. -/
def qSet (s : State) (p q head tail free count : Nat) : State :=
  (s.writePhys p false q (leBytes 4 (tail * 2 ^ 16 + head))).writePhys p false (q + 8) (leBytes 4 (free * 2 ^ 16 + count))

/-- A record of 16 words stored at an offset of the block. -/
def qPrev (s : State) (p q off : Nat) : List Nat := (List.range 16).map (fun f => s.readPhys p false (q + off + 4 * f) 4)

/-- The status word after a command (R268). -/
def qStatus (s : State) (p q : Nat) (ok : Bool) : Nat := b2n ok * 2 ^ 63 + qCount s p q * 2 ^ 16 + qFree s p q

/-- The fields of a record that differ from another, ascending (R267). -/
def qDiff (rec prev : List Nat) : List Nat := (List.range 16).filter (fun f => rec.getD f 0 ≠ prev.getD f 0)

/-- QPUSH at the home of a sound block (R269): the state, and whether there was room. -/
def qPush (s : State) (p q : Nat) (rec : List Nat) : State × Bool :=
  let fs := qDiff rec (qPrev s p q 0x40)
  let n := 4 + 4 * fs.length
  let free := qFree s p q
  let count := qCount s p q
  let tail := qTail s p q
  if free < n ∨ count = 65535 then (s, false)
  else
    let s' := qWrite s p q tail 0 ((fs.map (fun f => 2 ^ f)).foldl (· + ·) 0 :: fs.map (fun f => rec.getD f 0))
    let s' := s'.writePhys p false (q + 0x40) (rec.flatMap (leBytes 4))
    (qSet s' p q (qHead s p q) ((tail + n) % qRing s p q) (free - n) (count + 1), true)

/-- What a command reads of the block at a place (R266, R267, R269): its header, the record it compares with or completes from, and
the words of the entry at HEAD. -/
def qReads (s : State) (b : Place) (pop : Bool) : List (Place × Nat) :=
  let at_ := fun off n => (({ b with pa := b.pa + off } : Place), n)
  let words := if qCount s b.pkg b.pa = 0 then 0
    else if pop then 1 + popcountN 16 (qWord s b.pkg b.pa (qHead s b.pkg b.pa) 0) else 1
  [at_ 0 16, at_ (if pop then 0x80 else 0x40) 64] ++
    (List.range words).map (fun i => at_ (0xC0 + (qHead s b.pkg b.pa + 4 * i) % qRing s b.pkg b.pa) 4)

/-- The record that the entry at HEAD holds, with the number of its bytes (R267, R269). -/
def qEntry (s : State) (p q : Nat) : List Nat × Nat :=
  let mask := qWord s p q (qHead s p q) 0
  let prev := qPrev s p q 0x80
  ((List.range 16).map (fun f =>
    if mask.testBit f then qWord s p q (qHead s p q) (4 + 4 * popcountN f mask) else prev.getD f 0),
   4 + 4 * popcountN 16 mask)

/-- QPOP at the home of a sound block (R269): the state, and the record unless the queue was empty. -/
def qPop (s : State) (p q : Nat) : State × Option (List Nat) :=
  if qCount s p q = 0 then (s, none)
  else
    let (rec, n) := qEntry s p q
    let s' := s.writePhys p false (q + 0x80) (rec.flatMap (leBytes 4))
    (qSet s' p q ((qHead s p q + n) % qRing s p q) (qTail s p q) (qFree s p q + n) (qCount s p q - 1), some rec)

end Sys2Proof.Machine
end

