-- ==== Sys2Proof/Machine/Hot.lean ====
section
/-! DEFINITION. Hotness counters of the homes (R271 to R273). -/

namespace Sys2Proof.Machine

/-- Where the counter word of a block lies on a die: in its own counter region (R271, R272, log 70). -/
def hotPlace (s : State) (d blk : Nat) : Place := ⟨pkgOfDie d, fldN (s.die d).hotbase 16 28 * 2 ^ 16 + 8 * blk, 1, d % 4, 0⟩

/-- The counter word of a block on a die: cached, or in the counter region (R271). -/
def hotWord (s : State) (d blk : Nat) : Word :=
  match Tab.get none (s.die d).hot blk with
  | some w => w
  | none => BitVec.ofNat 64 (s.readPhys (pkgOfDie d) false (hotPlace s d blk).pa 8)

/-- The home goes on with a counter word, unless the line store's copy of it, or the memory that it is read from, is in error (R255,
R271, R385). -/
def readHot (s : State) (d blk : Nat) (k : Word → State → State) : State :=
  let p := hotPlace s d blk
  if (Tab.get none (s.die d).hot blk).isSome then
    match checkRead s d .mss (memKey p.pkg p.pa) 8 with
    | (s, some f) => machineCheckDie s d f
    | (s, none) => k (hotWord s d blk) s
  else readDie s [(p, 8)] id (fun s => k (hotWord s d blk) s)

/-- The block of a queue that a die's registers name by its physical address (R272, R286). -/
def queuePlaceOf (d q : Nat) : Place := ⟨pkgOfDie d, q, 0, 0, 0⟩

/-- Class of a request from die src at home die d: the other dies of the package ascending, then the package links (R271). -/
def hotClass (src d : Nat) : Option Nat :=
  if src = d then none
  else if pkgOfDie src ≠ pkgOfDie d then some 3
  else some (if src % 4 < d % 4 then src % 4 else src % 4 - 1)

/-- The notification record of a counter that reaches THR (R273). -/
def hotRecord (s : State) (d blk cls : Nat) (w : Word) : List Nat :=
  let t := s.tickOf d
  [blk, d % 4 * 4 + cls, fldN w 0 32, fldN w 32 32, (s.die d).hotLost, fldN t 0 32, fldN t 32 32] ++ List.replicate 9 0

/-- A home controller's job at a counter or the notification queue waits for a migration (R291, log 86). -/
def holdJob (s : State) (d : Nat) (j : HotJob) : State := s.modDie d (fun v => { v with hotJobs := v.hotJobs ++ [j] })

/-- A notification record is pushed: dropped and counted when the queue is full (R273). A block that fails R266 raises fault 0x73. Its home
counts the push, which count does, and checks what the push reads (R255, R271). The push waits while a migration holds the block (R291). -/
def pushNote (count : State → Nat → Place → State) (s : State) (d : Nat) (rec : List Nat) : State :=
  let q := fldN (s.die d).hotq 8 36 * 2 ^ 8
  let b := queuePlaceOf d q
  if gate s b ≠ .go then holdJob s d (.note rec)
  else
    readDie (count s d b) (qReads s b false) id (fun s =>
      if !qOk s (pkgOfDie d) q then logRec s d (mkRecDie s d ⟨0x73, 2, q, 0, homeCtl q⟩)
      else
        match qPush s (pkgOfDie d) q rec with
        | (s, true) => s.modDie d (fun v => { v with hotLost := 0 })
        | (s, false) => s.modDie d (fun v => { v with
            hotLost := min (v.hotLost + 1) 0xFFFFFFFF,
            hotdrop := BitVec.ofNat 64 (min (v.hotdrop.toNat + 1) 0xFFFFFFFF) }))

/-- A counter that reaches THR notifies, where HOTQ names a queue (R273). -/
def hotNotify (count : State → Nat → Place → State) (s : State) (d blk cls : Nat) (w : Word) : State :=
  if bit (s.die d).hotq 0 then pushNote count s d (hotRecord s d blk cls w) else s

/-- The 64 KiB blocks of a package's HBM4, each with one counter word: 48 MiB of words (R2, R271, R272). -/
def hotBlocks : Nat := hbmBytes / 2 ^ 16

/-- A home counts a request message from another die or package (R271 to R273). A notification is such a request of its own; each counter
notifies at most once between clears, so that n of them at the most follow one another. The count waits for a counter word that is not
cached and lies in a page that a migration holds (R291, log 86). -/
def hotTouchN : Nat → State → Nat → Nat → Nat → State
  | 0, s, _, _, _ => s
  | n + 1, s, src, d, pa =>
    let blk := pa / 2 ^ 16
    match hotClass src d with
    | none => s
    | some cls =>
      if !bit (s.die d).hotcfg cls || hotBlocks ≤ blk then s
      else if (Tab.get none (s.die d).hot blk).isNone && gate s (hotPlace s d blk) ≠ .go then holdJob s d (.touch src pa)
      else
        readHot s d blk (fun w s =>
          let k := fldN w (16 * cls) 16
          if k = 0xFFFF then s
          else
            let w : Word := BitVec.ofNat 64 (w.toNat + 2 ^ (16 * cls))
            let s := s.modDie d (fun v => { v with hot := Tab.set none v.hot blk (some w) })
            if k + 1 = fldN (s.die d).hotcfg 32 16 then
              hotNotify (fun s src b => hotTouchN n s src (homeDieOf b) b.pa) s d blk cls w
            else s)

/-- A package has four dies with four classes each, so that 16 notifications at the most follow one another (R271). -/
def hotTouch (s : State) (src d pa : Nat) : State := hotTouchN 16 s src d pa

/-- A home access to a place by die src is counted; host memory has no home die (R271). -/
def countHome (s : State) (src : Nat) (p : Place) : State := if 2 ≤ p.pl then s else hotTouch s src (homeDieOf p) p.pa

/-- A home serves a read of n bytes by die src: it is counted, and checked (R255, R271). -/
def serveRead (s : State) (src : Nat) (p : Place) (n : Nat) : State × Option Flt := checkHome (countHome s src p) p n

end Sys2Proof.Machine
end

