-- ==== Sys2Proof/Machine/Translate.lean ====
section
/-! DEFINITION. Translation: the table walk, the TLB and node cache, permissions, the scan of executable pages, and
which faults the hardware scheduler services (R277 to R289, R22, R23). -/

namespace Sys2Proof.Machine

/-- The answer of a translation: a place; a fault with its DETAIL; a page fault or a node fault that the hardware scheduler
services, with its access kind, region and level; a wait for a walk; or a machine check of a word that the walk read. -/
inductive TrRes where
  | ok (p : Place) (s : State)
  | fault (code detail : Nat) (s : State)
  | serviced (kind : Nat) (node : Bool) (region level : Nat) (s : State)
  | locked (s : State)
  | check (f : Flt) (s : State)
  deriving DecidableEq, Repr

/-- Fields of a page-table entry (R279). -/
def eV (e : Word) : Bool := bit e 63
def eKind (e : Word) : Nat := fldN e 61 2
def eR (e : Word) : Bool := bit e 60
def eW (e : Word) : Bool := bit e 59
def eX (e : Word) : Bool := bit e 58
def ePl (e : Word) : Nat := fldN e 56 2
def eHome (e : Word) : Nat := fldN e 54 2
def eM (e : Word) : Bool := bit e 53
def eC (e : Word) : Bool := bit e 52
def ePpn (e : Word) : Nat := fldN e 16 28
def eRpkg (e : Word) : Nat := fldN e 6 10
def eRegion (e : Word) : Nat := fldN e 48 8

/-- A nonzero bit in a field that the entry's layout makes zero (R279). -/
def eReserved (e : Word) : Bool :=
  if eV e then
    fldN e 44 8 ≠ 0 || fldN e 0 6 ≠ 0 || (ePl e ≠ 1 && eHome e ≠ 0) || (ePl e ≠ 3 && eRpkg e ≠ 0)
  else fldN e 56 5 ≠ 0

/-- R280: the entry breaks a rule at this level. -/
def eBad (level : Nat) (e : Word) : Bool :=
  let leaf := eKind e ≠ 0
  eReserved e || (level = 0 && !leaf) || (level = 2 && leaf) ||
    (eV e && (
      (level = 1 && leaf && (ePpn e % 2 ^ 13 ≠ 0 || eC e)) || (eW e && eX e) ||
      (eX e && eKind e ≤ 1) || (!eX e && 2 ≤ eKind e) || (2 ≤ eKind e && ePl e = 3)))

/-- A node of the table: physical page, placement, home and package (R278, R279). -/
structure Node where
  ppn : Nat
  pl : Nat
  home : Nat
  rpkg : Nat
  deriving DecidableEq, Repr

/-- The node that an entry names. -/
def nodeOf (e : Word) : Node := ⟨ePpn e, ePl e, eHome e, eRpkg e⟩

/-- Where die d reads the entry of a node for a key (R277, R289). -/
def Node.place (n : Node) (d key : Nat) : Place :=
  ⟨if n.pl = 3 then n.rpkg else pkgOfDie d, n.ppn * 2 ^ 16 + key % 2 ^ 13 * 8, if n.pl = 3 then 0 else n.pl, n.home, 0⟩

/-- A walk: its end, the nodes to cache, the entries that it read. -/
structure Walk where
  res : WalkRes
  nodes : List NodeE
  reads : List (Place × Nat)
  deriving DecidableEq, Repr

/-- Package p can reach package q: it is p itself, or its interleave entry on die d is valid and a port of it is up
(R289, R304, R305). -/
def reachable (s : State) (d q : Nat) : Bool :=
  pkgOfDie d = q ||
    (let gen := fldN (s.pkg (pkgOfDie d)).itctl 44 4
     let e := Tab.get 0 (s.die d).ilv (gen % 2 * 1024 + q)
     bit e 63 && (List.range 16).any (fun i => bit e i &&
       bit (Tab.get lpcfgReset (s.die (pkgOfDie d * 4 + i / 4)).lpcfg (i % 4)) 63))

/-- The 8 bytes of an entry, read at its home by the placement of the parent (R282, R289). -/
def readEntry (s : State) (d : Nat) (n : Node) (key : Nat) : Option Word :=
  let p := n.place d key
  if n.pl = 3 ∧ reachable s d n.rpkg = false then none else some (BitVec.ofNat 64 (s.readPhys p.pkg (p.pl = 2) p.pa 8))

/-- The node-cache entry at a level for a page, if held (R282). -/
def nodeHit (ns : List NodeE) (level key : Nat) : Option Word :=
  (ns.find? (fun n => n.level = level && n.key = key)).map (fun n => n.pte)

/-- The walk from a node over the levels left (R277, R280, R289). A remote node's entries are not cached. A node whose page a migration
holds, or has moved, stops it like a locked one: it reads its entries again from the root (R291, log 70). -/
def walkFrom (s : State) (d page : Nat) (ns : List NodeE) : List Nat → Node → Walk → Walk
  | [], _, w => w
  | level :: ls, n, w =>
    let key := page / 2 ^ (13 * level)
    let far : Bool := n.pl = 3
    let hit := nodeHit ns level key
    if !hit.isSome && gate s (n.place d key) ≠ .go then { w with res := .lock level }
    else
    let w := if hit.isSome then w else { w with reads := w.reads ++ [(n.place d key, 8)] }
    match hit.or (readEntry s d n key) with
    | none => { w with res := .link level }
    | some e =>
      if eBad level e then { w with res := .bad level far }
      else if !eV e then
        { w with res := if eKind e = 0 then .noNode level (eRegion e) far else .noPage level (eRegion e) far }
      else if eKind e = 0 then
        if eM e then { w with res := .lock level }
        else walkFrom s d page ns ls (nodeOf e) (if far then w else { w with nodes := ⟨level, key, e⟩ :: w.nodes })
      else { w with res := .leaf level e }

/-- The root that the TBASE of die d names (R278). -/
def rootOf (s : State) (d : Nat) : Node :=
  let t := (s.die d).tbase
  ⟨fldN t 16 28, if fldN t 14 2 = 1 then 1 else 0, fldN t 12 2, 0⟩

/-- A walk with the TBASE of die d (R278). -/
def walk (s : State) (d page : Nat) (ns : List NodeE) : Walk :=
  if bit (s.die d).tbase 63 then walkFrom s d page ns [2, 1, 0] (rootOf s d) ⟨.bad 0 false, [], []⟩ else ⟨.noRoot, [], []⟩

/-- The physical page of a virtual page under a cached or fresh leaf (R280). -/
def leafPage (e : TlbE) (page : Nat) : Nat := (ePpn e.pte + 2 ^ 28 + page - e.page) % 2 ^ 28

/-- The place of an address under a leaf. -/
def leafPlace (p : Nat) (e : TlbE) (va : Nat) : Place :=
  ⟨p, leafPage e (va / 2 ^ 16) * 2 ^ 16 + va % 2 ^ 16, ePl e.pte, eHome e.pte, e.pte⟩

/-- The TLB entry that a leaf at a level fills for a page (R280, R282): a 512 MiB leaf, a group of 128 pages, or one page. -/
def fillOf (level : Nat) (e : Word) (page : Nat) : TlbE :=
  if level = 1 then ⟨page / 2 ^ 13 * 2 ^ 13, 13, 1, e, []⟩
  else if eC e then ⟨page, 7, 0, e, []⟩ else ⟨page, 0, 0, e, []⟩

/-- An entry covers a page. -/
def TlbE.covers (e : TlbE) (page : Nat) : Bool := e.page / 2 ^ e.lg = page / 2 ^ e.lg

/-- R281 for an access kind of R287: the fault code, or 0; where several of its checks fail, the lowest code (log 72). -/
def permFault (kind : Nat) (e : Word) : Nat :=
  let c :=
    match kind with
    | 0 | 5 => if eR e then 0 else 0x82
    | 1 | 6 => if eW e then 0 else 0x82
    | 2 => if eR e && eW e then 0 else 0x82
    | 3 => if !eX e then 0x82 else if eKind e = 3 then 0x83 else 0
    | 4 => if !eX e then 0x82 else if eKind e = 2 then 0x83 else 0
    | _ => 0
  if c ≠ 0 then c else if ePl e = 3 then 0x85 else 0

/-- DETAIL of a translation fault (R293). -/
def trDetail (kind level : Nat) : Nat := kind * 2 ^ 16 + level

/-- The scan of a 64 KiB executable page: reason and offset of the first failure (R22, R23). -/
def scanPage (s : State) (pl : Place) : Option (Nat × Nat) :=
  let base := pl.pa / 2 ^ 16 * 2 ^ 16
  if eKind pl.pte = 2 then
    (List.range 512).findSome? (fun i =>
      (scanLine (words32 32 (s.readBytes pl.pkg (pl.pl = 2) (base + 128 * i) 128))).map (fun r => (128 * i + r.1, r.2)))
  else
    (List.range 1024).findSome? (fun i =>
      (scanEntry (words64 8 (s.readBytes pl.pkg (pl.pl = 2) (base + 64 * i) 64))).map (fun r => (64 * i + r.1, r.2)))

/-- The homes serve what a walk or a scan reads (R255, R271): counted, and the first machine check. -/
def serveReads (s : State) (src : Nat) : List (Place × Nat) → State × Option Flt
  | [] => (s, none)
  | r :: rs =>
    match serveRead s src r.1 r.2 with
    | (s, some f) => (s, some f)
    | (s, none) => serveReads s src rs

/-- What the scan of a page reads, line by line (R22): 512 lines of control-processor code, or 1024 kernel entries. -/
def scanReads (pl : Place) : List (Place × Nat) :=
  let base := pl.pa / 2 ^ 16 * 2 ^ 16
  let n := if eKind pl.pte = 2 then 128 else 64
  (List.range (2 ^ 16 / n)).map (fun i => ({ pl with pa := base + n * i }, n))

/-- Where the region table's word for a region of die d lies (R286). -/
def regionPlace (s : State) (d region : Nat) : Place :=
  ⟨pkgOfDie d, fldN (s.die d).pgrbase 11 33 * 2 ^ 11 + 8 * region, 0, 0, 0⟩

/-- The region table's queue for a region on die d: none when it is not set up (R286, R288). -/
def regionQueue (s : State) (d region : Nat) : Option Nat :=
  if bit (s.die d).pgrbase 63 then
    let w := BitVec.ofNat 64 (s.readPhys (pkgOfDie d) false (regionPlace s d region).pa 8)
    if bit w 63 then some (fldN w 8 36 * 2 ^ 8) else none
  else none

/-- The table entry whose queue a fault's upcall goes to (R285). -/
def queueRegion (node : Bool) (region : Nat) : Nat := if node then 0 else region

/-- The code of a fault that no pager resolves (R288). -/
def missCode (node : Bool) : Nat := if node then 0x86 else 0x81

/-- A page or node fault (R285, R288): serviced, or the fault it raises. pops: the queues the task pops. The region table's word is read at
its home, once no migration holds it (R255, R271, R286, R291). -/
def pageFault (s : State) (d : Nat) (pops : List Nat) (node : Bool) (kind region level : Nat) : TrRes :=
  let raise := fun s => TrRes.fault (missCode node) (trDetail kind level) s
  if region = 0 || !bit (s.die d).pgrbase 63 then raise s
  else if gate s (regionPlace s d (queueRegion node region)) ≠ .go then .locked s
  else
    match serveRead s d (regionPlace s d (queueRegion node region)) 8 with
    | (s, some f) => .check f s
    | (s, none) =>
      match regionQueue s d (queueRegion node region) with
      | none => raise s
      | some q => if !node && pops.contains q then raise s else .serviced kind node region level s

/-- The TLB with an entry added; at 1024 entries the oldest is dropped (R282, log 11). -/
def tlbAdd (t : List TlbE) (e : TlbE) : List TlbE := e :: (t.filter (fun f => !(f.page = e.page && f.lg = e.lg))).take 1023

/-- The node cache with entries added (R282, log 11). -/
def nodesAdd (ns es : List NodeE) : List NodeE :=
  (es ++ ns.filter (fun n => !es.any (fun e => e.level = n.level && e.key = n.key))).take 32

/-- A TLB entry that covers a page. -/
def tlbHit (t : List TlbE) (page : Nat) : Option TlbE := t.find? (fun e => e.covers page)

/-- A redirect drops the covering TLB entry of core c (R291). -/
def dropTlb (s : State) (c va : Nat) : State :=
  s.modCore c (fun k => { k with tlb := k.tlb.filter (fun e => !e.covers (va / 2 ^ 16)) })

/-- A leaf that is never cached: one at L1 with M = 1 (R282). -/
def neverCached (e : TlbE) : Bool := e.level = 1 && eM e.pte

/-- Fills the TLB of core c. -/
def tlbFill (s : State) (c : Nat) (e : TlbE) : State :=
  if neverCached e then s else s.modCore c (fun k => { k with tlb := tlbAdd k.tlb e })

/-- The page that an execute translation uses passes the scan, which reads it at its homes; a page that fails is not mapped (R22, R23,
R255, R271, R282). The scan waits for a page that a migration holds, and a redirect has the page walked again (R291). -/
def useExec (s : State) (c va : Nat) (e : TlbE) : TrRes :=
  let p := leafPlace (pkgOf c) e va
  match gate s p with
  | .hold => .locked s
  | .redirect => .locked (dropTlb s c va)
  | .go =>
    match serveReads s (dieOf c) (scanReads p) with
    | (s, some f) => .check f s
    | (s, none) =>
      match scanPage s p with
      | some (off, why) => .fault 0x84 (off * 2 ^ 16 + why) s
      | none => .ok p (tlbFill s c { e with scanned := va / 2 ^ 16 :: e.scanned })

/-- An access through a leaf: checked, and scanned where it executes; fresh: the entry is not in the TLB (R281, R282). -/
def useLeaf (s : State) (c va kind : Nat) (e : TlbE) (fresh : Bool) : TrRes :=
  if permFault kind e.pte ≠ 0 then .fault (permFault kind e.pte) (trDetail kind e.level) s
  else if (kind = 3 || kind = 4) && !e.scanned.contains (va / 2 ^ 16) then useExec s c va e
  else .ok (leafPlace (pkgOf c) e va) (if fresh then tlbFill s c e else s)

/-- The access kind that a fault of an entry reports: 7 where the entry lies in a remote node (R287, R293, log 52). -/
def farKind (far : Bool) (kind : Nat) : Nat := if far then 7 else kind

/-- A miss that a walk is to serve: who waits, and for which page (R282). -/
def takerOf (who : Option Nat) (va : Nat) : List (Nat × Nat) := who.toList.map (fun n => (n, va / 2 ^ 16))

/-- What a walk of core c that was started for a page comes to for a miss (R278, R280 to R282, R285, R289). A lock keeps the walk slot,
and the miss shares the walk. -/
def walkEnd (s : State) (c : Nat) (who : Option Nat) (pops : List Nat) (page va kind : Nat) (r : WalkRes) : TrRes :=
  match r with
  | .noRoot => .fault 0x86 (trDetail kind 2) s
  | .link level => .fault 0x88 (trDetail 7 level) s
  | .bad level far => .fault 0x83 (trDetail (farKind far kind) level) s
  | .lock level => .locked (s.modCore c (fun k => { k with walks := k.walks ++ [⟨page, level, none, takerOf who va⟩] }))
  | .noPage level region far => pageFault s (dieOf c) pops false (farKind far kind) region level
  | .noNode level region far => pageFault s (dieOf c) pops true (farKind far kind) region level
  | .leaf level e => useLeaf s c va kind (fillOf level e page) true

/-- The leaf that the table holds for a page now, whatever locks it: its range tells which pages share a walk (R282, log 85). -/
def leafUnder (s : State) (d page : Nat) : List Nat → Node → Option TlbE
  | [], _ => none
  | level :: ls, n =>
    match readEntry s d n (page / 2 ^ (13 * level)) with
    | none => none
    | some e =>
      if eBad level e || !eV e then none
      else if eKind e = 0 then leafUnder s d page ls (nodeOf e) else some (fillOf level e page)

/-- A miss to a page shares a walk in flight: one for the page, or for the C group or L1 leaf that holds it (R282). -/
def Walking.shared (w : Walking) (s : State) (d page : Nat) : Bool :=
  w.res.isNone && (page = w.page || (leafUnder s d w.page [2, 1, 0] (rootOf s d)).any (·.covers page))

/-- The walks of core c that hold a slot (R282). -/
def flying (s : State) (c : Nat) : List Walking := (s.core c).walks.filter (·.res.isNone)

/-- A miss that waits on core c has not gone: its task, entry, request, verb or packet stands. -/
def missLive (s : State) (c who : Nat) : Bool :=
  if who < 4 then
    let x := s.ctx (c * 4 + who)
    x.task.isSome && x.save.isNone && x.kill.isNone
  else if who < 64 then (s.entry c (who - 4)).any (fun e => e.st = .started && !e.stop)
  else (s.req (who - 64)).any (fun q => q.ans.isNone && gate s q.place = .redirect) || (s.verb (who - 64)).any (·.flt.isNone) ||
    (s.pkt (who - 64)).isSome

/-- A miss of core c that waits needs a walk slot of its own: it stands, no entry of the TLB serves its page, and no walk in flight does
(R282). -/
def needsSlot (s : State) (c : Nat) (m : Nat × Nat) : Bool :=
  missLive s c m.1 && (tlbHit (s.core c).tlb m.2).isNone && !(flying s c).any (fun w => w.shared s (dieOf c) m.2)

/-- A walk slot is free for a miss: fewer older ones wait than slots are free (R282). -/
def walkSlotFor (s : State) (c : Nat) (me : List (Nat × Nat)) : Bool :=
  let older := ((s.core c).misses.takeWhile (fun m => !me.contains m)).filter (needsSlot s c)
  older.length + (flying s c).length < 16

/-- Misses of core c are no longer waited for: neither a slot nor the result of a walk. A walk that is over and that none awaits is
forgotten. -/
def dropMisses (s : State) (c : Nat) (f : Nat × Nat → Bool) : State :=
  s.modCore c (fun k => { k with
    misses := k.misses.filter (fun m => !f m),
    walks := (k.walks.map (fun w => { w with takers := w.takers.filter (fun m => !f m) })).filter (fun w => w.res.isNone || w.takers ≠ []) })

/-- Every miss of a requester of core c is no longer waited for. -/
def dropMiss (s : State) (c who : Nat) : State := dropMisses s c (fun m => m.1 = who)

/-- A miss of core c is served (R282). -/
def missServed (s : State) (c : Nat) (me : List (Nat × Nat)) : State :=
  if me.isEmpty ∨ (s.core c).misses.isEmpty ∧ (s.core c).walks.isEmpty then s else dropMisses s c me.contains

/-- A miss waits for a walk slot of core c (R282). -/
def queueMiss (s : State) (c : Nat) (me : List (Nat × Nat)) : State :=
  s.modCore c (fun k => { k with misses := k.misses ++ me.filter (fun w => !k.misses.contains w) })

/-- A miss joins the first walk of core c that it shares, and waits for no slot (R282). -/
def joinWalk (s : State) (c : Nat) (me : List (Nat × Nat)) (page : Nat) : State :=
  let share := fun (w : Walking) => w.shared s (dieOf c) page
  s.modCore c (fun k => { k with
    misses := k.misses.filter (fun m => !me.contains m),
    walks := k.walks.takeWhile (fun w => !share w) ++
    (match k.walks.dropWhile (fun w => !share w) with
     | [] => []
     | w :: ws => { w with takers := w.takers ++ me.filter (fun n => !w.takers.contains n) } :: ws) })

/-- A miss of core c: it shares a walk in flight, waits for a walk slot, or walks (R282, R289). -/
def miss (s : State) (c : Nat) (who : Option Nat) (pops : List Nat) (va kind : Nat) : TrRes :=
  let page := va / 2 ^ 16
  let me := takerOf who va
  if (flying s c).any (fun w => w.shared s (dieOf c) page) then .locked (joinWalk s c me page)
  else if !walkSlotFor s c me then .locked (queueMiss s c me)
  else
    let w := walk s (dieOf c) page (s.core c).nodes
    match serveReads s (dieOf c) w.reads with
    | (s, some f) => .check f s
    | (s, none) =>
      walkEnd (s.modCore c (fun k => { k with
        nodes := nodesAdd k.nodes w.nodes, misses := k.misses.filter (fun m => !me.contains m) })) c who pops page va kind w.res

/-- The walk of core c whose result awaits a miss (R282). -/
def doneWalk (s : State) (c : Nat) (me : List (Nat × Nat)) : Option Walking :=
  (s.core c).walks.find? (fun w => w.res.isSome && me.any w.takers.contains)

/-- The result of a walk is one for a page: the page it was started for, or one of its leaf (R282). -/
def Walking.gives (w : Walking) (page : Nat) : Option WalkRes :=
  w.res.filter (fun r => page = w.page || match r with
    | .leaf level e => (fillOf level e w.page).covers page
    | _ => false)

/-- Translation of a virtual address by core c's translation unit for a requester, for an access kind of R287 (R277 to R285). A miss that
has waited for a walk takes its result, or its fault, with the others that share it (R282). -/
def translateFor (s : State) (c : Nat) (who : Option Nat) (pops : List Nat) (va : Word) (kind : Nat) : TrRes :=
  if fldN va 55 9 ≠ 0 then .fault 0x80 (trDetail kind 0) s
  else
    let page := va.toNat / 2 ^ 16
    let me := takerOf who va.toNat
    let own := doneWalk s c me
    let s := if own.isSome then missServed s c me else s
    match own.bind (fun w => (w.gives page).map (fun r => (w.page, r))) with
    | some (wp, r) => walkEnd s c who pops wp va.toNat kind r
    | none =>
      match tlbHit (s.core c).tlb page with
      | some e => useLeaf (missServed s c me) c va.toNat kind e false
      | none => miss s c who pops va.toNat kind

/-- Translation for which nothing waits. -/
def translate (s : State) (c : Nat) (pops : List Nat) (va : Word) (kind : Nat) : TrRes := translateFor s c none pops va kind

/-- The state that a translation leaves. A machine check of a walk that no context awaits is logged
by the die of its translation unit, with the home that found it (R26, R385, log 70). -/
def TrRes.state (r : TrRes) (c : Nat) : State :=
  match r with
  | .ok _ s => s
  | .fault _ _ s => s
  | .serviced _ _ _ _ s => s
  | .locked s => s
  | .check f s => machineCheckDie s (dieOf c) f

/-! ## Access by a die's own engines -/

/-- What an access of a die's own engine comes to: done, not yet (a migration lock, or a page that a migration holds), or failed with
the code of its fault and the address. -/
inductive Acc (α : Type) where
  | ok (v : α)
  | wait
  | bad (code addr : Nat)
  deriving DecidableEq, Repr

/-- Translation by a die's own engines, with that die's TBASE, no TLB and no upcall (R278, R289, R291, R297, R369). -/
def translateDie (s : State) (d : Nat) (va : Word) (kind : Nat) : Acc Place × State :=
  if fldN va 55 9 ≠ 0 then (.bad 0x80 va.toNat, s)
  else
    let page := va.toNat / 2 ^ 16
    let w := walk s d page []
    match serveReads s d w.reads with
    | (s, some f) => (.bad f.code va.toNat, machineCheckDie s d f)
    | (s, none) =>
      match w.res with
      | .noRoot => (.bad 0x86 va.toNat, s)
      | .link _ => (.bad 0x88 va.toNat, s)
      | .bad _ _ => (.bad 0x83 va.toNat, s)
      | .lock _ => (.wait, s)
      | .noPage _ _ _ => (.bad 0x81 va.toNat, s)
      | .noNode _ _ _ => (.bad 0x86 va.toNat, s)
      | .leaf level e =>
        let p := leafPlace (pkgOfDie d) (fillOf level e page) va.toNat
        if permFault kind e ≠ 0 then (.bad (permFault kind e) va.toNat, s)
        else if gate s p = .go then (.ok p, s) else (.wait, s)

/-- The pieces of n bytes at a virtual address that lie in one 64 KiB page each: offset and length; none for no bytes (R298). -/
def pageCuts (va n : Nat) : List (Nat × Nat) :=
  if n = 0 then []
  else (List.range ((va % 2 ^ 16 + n + 2 ^ 16 - 1) / 2 ^ 16)).map (fun i =>
    let lo := i * 2 ^ 16 - va % 2 ^ 16
    (lo, min n ((i + 1) * 2 ^ 16 - va % 2 ^ 16) - lo))

/-- The pieces of n bytes at a place that lie in one 64-byte line each (R254). -/
def lineCuts (p : Place) (n : Nat) : List (Place × Nat) :=
  if n = 0 then []
  else (List.range ((p.pa % 64 + n + 63) / 64)).map (fun i =>
    let lo := i * 64 - p.pa % 64
    ({ p with pa := p.pa + lo }, min n ((i + 1) * 64 - p.pa % 64) - lo))

/-- An access goes on with what an earlier one has given; a wait or a failure ends it. -/
def accBind {α β : Type} (r : Acc α × State) (k : α → State → Acc β × State) : Acc β × State :=
  match r with
  | (.ok a, s) => k a s
  | (.wait, s) => (.wait, s)
  | (.bad code a, s) => (.bad code a, s)

/-- The pieces of a range of virtual addresses translated by die d's engine: the first that waits or fails ends it. -/
def placesOf (s : State) (d va kind : Nat) : List (Nat × Nat) → Acc (List ((Nat × Nat) × Place)) × State
  | [] => (.ok [], s)
  | c :: cs =>
    accBind (translateDie s d (BitVec.ofNat 64 (va + c.1)) kind) (fun p s =>
      accBind (placesOf s d va kind cs) (fun ps s => (.ok ((c, p) :: ps), s)))

/-- The reads of the lines of translated pieces of a range. -/
def lineReads (ps : List ((Nat × Nat) × Place)) : List (Place × Nat) := ps.flatMap (fun p => lineCuts p.2 p.1.2)

/-- The bytes of translated pieces of a range at an address, read by die d's engine (R255, R271, R369). -/
def readPieces (s : State) (d va : Nat) (ps : List ((Nat × Nat) × Place)) : Acc (List Byte) × State :=
  match serveReads s d (lineReads ps) with
  | (s, some f) => (.bad f.code va, machineCheckDie s d f)
  | (s, none) => (.ok (ps.flatMap (fun p => s.readBytes p.2.pkg (p.2.pl = 2) p.2.pa p.1.2)), s)

/-- n bytes read by die d's engine for an access kind (R255, R271, R369). -/
def readAs (s : State) (d va n kind : Nat) : Acc (List Byte) × State :=
  accBind (placesOf s d va kind (pageCuts va n)) (fun ps s => readPieces s d va ps)

/-- n bytes read by die d's engine. -/
def readRange (s : State) (d va n : Nat) : Acc (List Byte) × State := readAs s d va n 0

/-- Bytes written by die d's engine: nothing is written when a page waits or fails (R82, R366, R369). -/
def writeRange (s : State) (d va : Nat) (bs : List Byte) : Acc Unit × State :=
  accBind (placesOf s d va 1 (pageCuts va bs.length)) (fun ps s =>
    let s := (lineReads ps).foldl (fun s r => countHome s d r.1) s
    (.ok (), ps.foldl (fun s p => s.writePhys p.2.pkg (p.2.pl = 2) p.2.pa ((bs.drop p.1.1).take p.1.2)) s))

/-- A range that die d's engine is to write cannot be reached yet: a migration locks a node on the way, or holds a page (R289, R291). -/
def rangeWaits (s : State) (d va n : Nat) : Bool :=
  match (placesOf s d va 1 (pageCuts va n)).1 with
  | .wait => true
  | _ => false

/-- A die's engine writes bytes at a virtual address that waits for nothing; a write that fails is lost (log 12). -/
def writeVaD (s : State) (d : Nat) (va : Nat) (bs : List Byte) : State := (writeRange s d va bs).2

end Sys2Proof.Machine
end

