-- ==== Sys2Proof/Machine/Ops.lean ====
section
/-! DEFINITION. Taking an exception and returning from one, and the conditions and effects common to every slot of a
control-processor bundle (R54, R59, R68, R72 to R79). -/

namespace Sys2Proof.Machine

/-- The outcome type of every meaning. -/
abbrev Out := Host.Outcome State Fault Refusal

/-- What the units of a core do happens only while its die is not held: HALT freezes the core (R310, R390, R391). -/
def whileRuns (s : State) (d : Nat) (o : Out) : Out := if s.stopped d then .next s else o

/-! ## The open bundle -/

/-- The successor of a bundle: past its words, or word 2 of the next line (R56). -/
def successor (addr : Nat) (occ : BitVec 4) : Nat :=
  let a := addr + 4 * popcount occ
  (if a % 128 = 0 then a + 8 else a) % 2 ^ 55

/-- Whether the guard of a slot is true: as read at issue, and true for a slot that is reissued (R54, R61, R75). -/
def Issue.guardOk (is : Issue) (g : Guard) : Bool := is.re || (rpred is.g g.gp.toNat != g.gn)

/-- A register as the current slot read it at issue (R59). -/
def Issue.rx (is : Issue) (slot n : Nat) : Word := if n = 0 then 0 else Tab.get 0 (is.cap.getD slot []) n
def Issue.rh (is : Issue) (slot n : Nat) : Word := Tab.get 0 (is.cap.getD slot []) (32 + n)

/-- Operands of the instruction that the current step performs, as read at issue (R59). -/
def State.rx (s : State) (r : BitVec 5) : Word :=
  match s.me.issue with
  | some is => is.rx s.cur.slot r.toNat
  | none => s.me.rx r.toNat

def State.rxn (s : State) (n : Nat) : Word :=
  match s.me.issue with
  | some is => is.rx s.cur.slot n
  | none => s.me.rx n

/-- A stall handle: slot M as read at issue; slot E reads the handle again (R75). -/
def State.rh (s : State) (n : Nat) : Word :=
  match s.me.issue with
  | some is => if s.cur.slot = 2 then is.rh 2 n else s.me.rh n
  | none => s.me.rh n

/-- A predicate as read at issue. -/
def State.rg (s : State) (p : BitVec 4) : Bool :=
  match s.me.issue with
  | some is => rpred is.g p.toNat
  | none => rpred s.me.g p.toNat

/-- Writes of the current context. -/
def State.wx (s : State) (r : BitVec 5) (v : Word) : State := s.modMe (fun c => c.wx r.toNat v)
def State.wg (s : State) (p : BitVec 4) (v : Bool) : State := s.modMe (fun c => { c with g := wpred c.g p.toNat v })

/-- The command word of the current slot. -/
def State.word (s : State) : Word32 :=
  match s.me.issue with
  | some is => is.words.getD s.cur.slot 0
  | none => 0

/-- Slot i of a context's open bundle is performed (R74). -/
def performSlot (s : State) (x i : Nat) : State :=
  s.modCtx x (fun c => { c with issue := c.issue.map (fun is => { is with perf := setBit is.perf i true }) })

/-- The current slot is performed. -/
def perform (s : State) : State := performSlot s s.cur.x s.cur.slot

/-- Changes the open bundle. -/
def State.modIssue (s : State) (x : Nat) (f : Issue → Issue) : State :=
  s.modCtx x (fun c => { c with issue := c.issue.map f })

/-! ## Taking an exception -/

/-- Writes a record into the task frame at an offset (R80). A frame that cannot be translated loses it (log 12). -/
def writeFrameRec (s : State) (x off : Nat) (r : Rec) : State :=
  writeVaD s (dieOfCtx x) ((s.ctx x).frame.toNat + off) r.bytes

/-- A lease of context x ends with the register unchanged. -/
def dropLease (s : State) (x n : Nat) : State :=
  s.modCtx x (fun c => if n = 0 then { c with out0 := c.out0 - 1 } else { c with lease := setBit c.lease n false })

/-- The lease of a GWAIT that waits ends with xd unchanged (R342). -/
def dropGwait (s : State) (x : Nat) : State :=
  match (s.ctx x).issue with
  | some is => if is.gwait then dropLease s x (en1 (is.words.getD 3 0)) else s
  | none => s

/-- The task ends with a fault: its context issues nothing more, a GWAIT of it waits no longer, and TASK_END frees it (R76, R372). -/
def killTask (s : State) (x : Nat) (r : Rec) : State :=
  (dropMiss (dropGwait s x) (coreOf x) (x % 4)).modCtx x (fun c => { c with
    kill := some (c.kill.getD r), issue := none, rb := none, reissue := false, save := none })

/-- The record of fault 0x07 (R79). -/
def doubleFault (s : State) (x code addr : Nat) : Rec := mkRec s x true (Flt.mk0 0x07 (code + addr % 2 ^ 56 * 2 ^ 8))

/-- The frame of context x lies behind a migration lock, or in a page that a migration holds: no record can be written yet (R289,
R291). -/
def frameWaits (s : State) (x : Nat) : Bool :=
  match (translateDie s (dieOfCtx x) (s.ctx x).frame 1).1 with
  | .wait => true
  | _ => false

/-- Delivers a fault at a bundle of context x whose words and slot state are is (R75, R76): is goes to the replay buffer,
or nothing does when the bundle is complete; EPC receives epc. -/
def deliver (s : State) (x : Nat) (r : Rec) (is : Option Issue) (addr epc : Nat) : State :=
  let c := s.ctx x
  if c.t then
    let dbl := doubleFault s x r.code addr
    killTask (writeFrameRec s x 0x3D0 dbl) x dbl
  else
    let s := writeFrameRec s x 0x390 r
    if fldN c.tvec 7 48 = 0 then killTask s x r
    else
      s.modCtx x (fun c => { c with
        rb := is, issue := none, reissue := false, drain := true, epc := BitVec.ofNat 64 (epc % 2 ^ 55), t := true,
        pc := fldN c.tvec 7 48 * 128 + 8 })

/-- The bundle of a fault, with the load whose value is not fixed not performed: its request is withdrawn (R19, R74). -/
def withdrawLoad (s : State) (x : Nat) (is : Issue) : Issue × State :=
  match is.ld with
  | none => (is, s)
  | some r =>
    match s.req r with
    | none => (is, s)
    | some q =>
      match q.kind, q.ans with
      | .load xd _ _, none =>
        ({ is with perf := setBit is.perf 2 false }, (s.setReq r none).modCtx x (fun c => { c with await := setBit c.await xd false }))
      | _, _ => (is, s)

/-- A precise fault strikes the open bundle of the current context (R75, R76). Performed slots keep their effect. -/
def takeFault (s : State) (f : Flt) : State :=
  match s.me.issue with
  | none => s
  | some is =>
    if frameWaits s s.cur.x then s
    else
      let (is, s) := withdrawLoad s s.cur.x is
      deliver s s.cur.x (mkRec s s.cur.x true f) (some is) is.addr is.addr

/-- A page or node fault that the hardware scheduler services freezes the bundle in the replay buffer; the task waits to be
saved (R76 step 2, R285). While the trap handler runs it is a fault in the handler (R76 step 1). -/
def takeServiced (s : State) (f : Flt) (va kind : Nat) (node : Bool) (region level : Nat) : State :=
  match s.me.issue with
  | none => s
  | some is =>
    if s.me.t then takeFault s f
    else
      let (is, s) := withdrawLoad s s.cur.x is
      s.modMe (fun c => { c with
        rb := some is, issue := none, reissue := true, save := some (.fault va kind node region level none) })

/-- The pending imprecise record is delivered at the open bundle, of which no slot is performed (R27, R76). -/
def deliverPending (s : State) (x : Nat) : State :=
  match (s.ctx x).pend, (s.ctx x).issue with
  | some r, some is =>
    if frameWaits s x then s else deliver (s.modCtx x (fun c => { c with pend := none })) x r (some is) is.addr is.addr
  | _, _ => s

/-! ## Performing a slot -/

/-- What a slot's own effect comes to: performed, a fault with none of its effect, a fault that the hardware scheduler may
service, a machine check, or not yet. -/
inductive SlotRes where
  | done (s : State)
  | fault (f : Flt) (s : State)
  | serviced (f : Flt) (va kind : Nat) (node : Bool) (region level : Nat) (s : State)
  | check (f : Flt) (s : State)
  | wait (s : State)
  deriving DecidableEq, Repr

/-- The machine check of context x: it is logged, the task frame's fault record takes it unless that keeps the fault that entered the
handler, and its task ends as a killed task (R26, R28, R76, R385, log 50). The spec gives no DETAIL (log 8). -/
def machineCheck (s : State) (x : Nat) (f : Flt) : State :=
  let r := mkRec s x false { f with detail := s.freeVal.toNat }
  let s := logRec s.nextFree (dieOfCtx x) r
  killTask (if (s.ctx x).t then s else writeFrameRec s x 0x390 r) x r

/-- The state after a slot's effect (R54, R74 to R76, R385). -/
def settle (r : SlotRes) : State :=
  match r with
  | .done s => perform s
  | .fault f s => takeFault s f
  | .serviced f va kind node region level s => takeServiced s f va kind node region level
  | .check f s => machineCheck s s.cur.x f
  | .wait s => s

/-- The leases that a slot meets: slots of class A, B and M those in force as their bundle issued, slot E those in force (R59, R68,
R72). -/
def State.leases (s : State) : BitVec 32 :=
  match s.me.issue with
  | some is => if s.cur.slot = 3 then s.me.lease else is.lease
  | none => s.me.lease

/-- The leased register that fault 0x03 names: the lowest among those that the slot touches (R72, R79, log 87). -/
def leased (s : State) (rs : List Nat) : Option Nat := (List.range 32).find? (fun n => rs.contains n && bit s.leases n)

/-- A slot of class A, B or M: no effect when its guard is false, fault 0x03 when it touches a leased register, else its own
effect (R54, R72). DETAIL has the slot that the word stands in, also where the merge moved it (R69, log 75). -/
def slotABM (g : Guard) (rs : List (BitVec 5)) (f : State → SlotRes) (s : State) : Out :=
  match s.me.issue with
  | none => .next s
  | some is =>
    if !is.guardOk g then .next (perform s)
    else
      match leased s (rs.map (·.toNat)) with
      | some n => .next (takeFault s (Flt.mk0 0x03 (n + s.cur.slot * 2 ^ 8)))
      | none => .next (settle (f s))

/-- A slot of class E: it waits while it names a leased register (R68, R72). -/
def slotE (g : Guard) (rs : List Nat) (f : State → SlotRes) (s : State) : Out :=
  match s.me.issue with
  | none => .next s
  | some is =>
    if !is.guardOk g then .next (perform s)
    else if (leased s rs).isSome then .next s
    else .next (settle (f s))

/-- A result in xd (R84). -/
def setX (d : BitVec 5) (v : Word) (s : State) : SlotRes := .done (s.wx d v)

/-- A lease of context x on xd, or an outstanding answer when d is 0 (R72). -/
def takeLease (s : State) (x d : Nat) : State :=
  s.modCtx x (fun c => if d = 0 then { c with out0 := c.out0 + 1 } else { c with lease := setBit c.lease d true })

/-- The lease that an engine command of the current context takes at issue (R72). -/
def lease (s : State) (d : Nat) : State := takeLease s s.cur.x d

/-- The lease or answer of context x ends with a value (R72, R73). -/
def endLease (s : State) (x d : Nat) (v : Word) : State :=
  s.modCtx x (fun c => if d = 0 then { c with out0 := c.out0 - 1 } else { c.wx d v with lease := setBit c.lease d false })

/-- The failed answer that an access of context x meets: its own operation is reissued (R288). -/
def pagerHit (c : Ctx) (slot : Bool) (va kind : Nat) : Option PagerFail :=
  c.pagerFail.find? (fun p => p.slot = slot && p.va = va && (p.kind = kind || p.kind = 7) && (!slot || c.issue.any (·.re)))

/-- A failed answer has met its fault (R288). -/
def Ctx.dropFail (c : Ctx) (p : PagerFail) : Ctx := { c with pagerFail := c.pagerFail.erase p }

/-- The fault of an operation that the pager has failed, with the kind of the access that faulted (R288, R293). -/
def PagerFail.flt (p : PagerFail) : Flt := ⟨0x87, 1, p.va, trDetail p.kind (p.why % 2 ^ 16), 0⟩

/-- A translation for the current context, turned into a slot's outcome when it fails. ADDR holds the address (R293). An
operation that the pager has failed raises fault 0x87 (R288). Fault 0x07 of a page or node fault that would be serviced names code
0x81 or 0x86 (R79, log 53). -/
def withPlace (s : State) (va : Word) (kind : Nat) (k : Place → State → SlotRes) : SlotRes :=
  let c := s.me
  let pops := match c.task with
    | some t => t.pops
    | none => []
  match pagerHit c true va.toNat kind with
  | some p => .fault p.flt (s.modMe (·.dropFail p))
  | none =>
    match translateFor s (coreOf s.cur.x) (some (s.cur.x % 4)) pops va kind with
    | .ok p s => k p s
    | .fault code detail s => .fault ⟨code, 1, va.toNat, detail, 0⟩ s
    | .serviced kind node region level s =>
      .serviced ⟨missCode node, 1, va.toNat, trDetail kind level, 0⟩ va.toNat kind node region level s
    | .check f s => .check f s
    | .locked s => .wait s

/-- As withPlace, for an access that is performed at once: it waits for a page that a migration holds, and walks again after a
redirect (R291). -/
def withGate (s : State) (va : Word) (kind : Nat) (k : Place → State → SlotRes) : SlotRes :=
  withPlace s va kind (fun p s =>
    match gate s p with
    | .go => k p s
    | .hold => .wait s
    | .redirect => .wait (dropTlb s (coreOf s.cur.x) va.toNat))

/-! ## Data cache -/

/-- Two places lie in one line. -/
def Place.onLine (q p : Place) : Bool := q.pkg = p.pkg && (q.pl = 2) = (p.pl = 2) && q.pa / 64 = p.pa / 64

/-- A place as the homes see it after a migration: an address of the old page is the new page's once that is reached (R291). -/
def movedTo (s : State) (p : Place) : Place :=
  let m := (s.pkg p.pkg).mig
  if m.st = .moved ∧ p.pl ≠ 2 ∧ p.pa / 2 ^ 16 = m.old then { p with pa := m.new * 2 ^ 16 + p.pa % 2 ^ 16 } else p

/-- Two accesses, each at a virtual address and a place, are to one line: by virtual address too, since the page may have moved between the
two (R18, R291, log 55). -/
def sameLine (s : State) (va : Nat) (p : Place) (wa : Nat) (q : Place) : Bool :=
  (movedTo s p).onLine (movedTo s q) || (p.pkg = q.pkg && va / 64 = wa / 64)

/-- A request is for the line of an access (R18). -/
def Req.near (s : State) (q : Req) (va : Nat) (p : Place) : Bool := sameLine s q.va q.place va p

/-- A line of the data cache, by physical address within the package. -/
def dcLine (s : State) (c pa : Nat) : List Byte := Tab.get [] (s.core c).dc (pa / 64)

/-- The copy of a line is dropped, and a fill of it under way is not kept (R258, R135). -/
def dcDrop (s : State) (c pa : Nat) : State :=
  let s := s.modCore c (fun k => { k with dc := Tab.erase k.dc (pa / 64) })
  { s with reqs := s.reqs.map (fun p => (p.1, p.2.map (fun q =>
      if coreOf q.x = c ∧ q.pa / 64 = pa / 64 then { q with noFill := true } else q))) }

/-- The data cache is invalidated; fills under way are not kept (R19, R103). -/
def dcInvalidate (s : State) (c : Nat) : State :=
  let s := s.modCore c (fun k => { k with dc := [] })
  { s with reqs := s.reqs.map (fun p => (p.1, p.2.map (fun q => if coreOf q.x = c then { q with noFill := true } else q))) }

/-- The effect of an acquire at a scope on the issuing core (R19). Scopes 1 to 4 order alike (log 56). -/
def acquire (s : State) (c scope : Nat) : State := if scope = 0 then s else dcInvalidate s c

/-- Plain accesses of context x that are not performed or not answered (R19, R103). -/
def plainOut (s : State) (x : Nat) : Bool :=
  (Tab.members s.reqs).any (fun p => p.2.x = x && match p.2.kind with
    | .load .. => true
    | .store .. => true
    | _ => false) || !(s.ctx x).wins.isEmpty

/-- A FENCE whose earlier accesses are all performed is over; at scope stable and above the data cache is invalidated (R103).
Scopes 1 to 4 order alike (log 56). -/
def fenceCheck (s : State) (x : Nat) : State :=
  match (s.ctx x).fence with
  | none => s
  | some sc => if plainOut s x then s else acquire (s.modCtx x (fun c => { c with fence := none })) (coreOf x) sc

/-- The place of address a in a range that starts at a0 and whose pages were translated. -/
def placeIn (ps : List Place) (a0 a : Nat) : Place :=
  let i := a / 2 ^ 16 - a0 / 2 ^ 16
  let p := ps.getD i ⟨0, 0, 0, 0, 0⟩
  { p with pa := p.pa / 2 ^ 16 * 2 ^ 16 + a % 2 ^ 16 }

/-- The pages of a range at address a0 with the addresses at which it enters them. -/
def pagesAt (a0 : Nat) (ps : List Place) : List (Nat × Place) :=
  (List.range ps.length).map (fun i => (if i = 0 then a0 else (a0 / 2 ^ 16 + i) * 2 ^ 16, ps.getD i ⟨0, 0, 0, 0, 0⟩))

/-- Whether a verb moves bytes. -/
def VerbKind.moves (k : VerbKind) : Bool :=
  match k with
  | .put => true
  | .get => true
  | _ => false

/-- A verb accesses the line of an access as an atomic of its own package, a LAMO or a SIGNAL (R258, R259, R299, R300). -/
def Verb.atomAt (s : State) (v : Verb) (va : Nat) (p : Place) : Bool :=
  !v.kind.moves && v.vps.any (fun q => sameLine s v.v q va p)

/-- The bytes of its own package that a verb writes: ranges of virtual addresses with the places of their pages (R298 to R300). -/
def Verb.spans (v : Verb) : List (Nat × Nat × List Place) :=
  match v.kind with
  | .put => [(v.v, v.len, v.vps), (v.sig, 8, v.sps)]
  | .get => [(v.l, v.len, v.lps)]
  | _ => [(v.v, 8, v.vps)]

/-- A verb writes to the line of physical address pa of its own package, at whichever page of a migration (R291). -/
def Verb.wrote (s : State) (v : Verb) (pa : Nat) : Bool :=
  v.spans.any (fun r => (pagesAt r.1 r.2.2).any (fun e =>
    let va := e.1 / 2 ^ 16 * 2 ^ 16 + pa % 2 ^ 16 / 64 * 64
    e.2.pkg = pkgOfCtx v.x && e.2.pl ≠ 2 && (movedTo s { e.2 with pa := pa }).pa / 2 ^ 16 = (movedTo s e.2).pa / 2 ^ 16 &&
      va < r.1 + r.2.1 && r.1 < va + 64))

/-- The issuing core drops its copies of the lines that a verb has written, and keeps no fill of them that is under way (R18, R258). -/
def dropWritten (s : State) (v : Verb) : State :=
  let c := coreOf v.x
  let s := s.modCore c (fun k => { k with dc := k.dc.filter (fun l => !v.wrote s (l.1 * 64)) })
  { s with reqs := s.reqs.map (fun p => (p.1, p.2.map (fun q =>
      if coreOf q.x = c ∧ q.pl ≠ 2 ∧ v.wrote s q.pa then { q with noFill := true } else q))) }

/-- A verb has no result yet: its bytes and signal are not performed, and it has no fault. -/
def Verb.busy (v : Verb) : Bool := v.flt.isNone && !(v.performed && (v.kind ≠ .put || v.sig = 0 || v.sigDone))

/-- Requests of context x that are not performed. -/
def unperformed (s : State) (x : Nat) : List (Nat × Req) :=
  (Tab.members s.reqs).filter (fun p => p.2.x = x && p.2.ans.isNone)

/-- Requests of context x that have not been answered. -/
def outstanding (s : State) (x : Nat) : List (Nat × Req) := (Tab.members s.reqs).filter (fun p => p.2.x = x)

end Sys2Proof.Machine
end

