-- ==== Sys2Proof/Machine/Flags.lean ====
section
/-! DEFINITION. Every test that writes a predicate: the integer compares, the FP32 compares, predicate logic and the
stage predicates (R91, R93, R151, R184, R186, R190). -/

namespace Sys2Proof.Machine

/-- The tests of R91 and R184 by CC, on values of one width. -/
def cmpTest {w : Nat} (cc : Nat) (a b : BitVec w) : Bool :=
  match cc with
  | 0 => a == b
  | 1 => a != b
  | 2 => a.slt b
  | 3 => !(a.slt b)
  | 4 => a.ult b
  | 5 => !(a.ult b)
  | _ => (a &&& b) != 0

/-- The predicate operations of R93 and R186 by FN. -/
def predOp (fn : Nat) (a b : Bool) : Bool :=
  match fn with
  | 0 => a && b
  | 1 => a || b
  | 2 => a != b
  | 3 => a && !b
  | _ => !a

/-- The FP32 tests of R190 by CC. -/
def fcmpTest (cc : Nat) (a b : Word32) : Bool :=
  let x := decodeNum Fmt.fp32 a.toNat
  let y := decodeNum Fmt.fp32 b.toNat
  match cc with
  | 0 => Num.eqv x y
  | 1 => Num.lt x y
  | 2 => Num.lt x y || Num.eqv x y
  | _ => x.isNan || y.isNan

/-- Stage predicate g(6 + s) in pass k (R151). -/
def stagePred (trip k s : Nat) : Bool := s ≤ k && k - s < trip

/-- g6 to g11 as R151 sets them, in place of those of g. -/
def setStages (g : BitVec 12) (trip k : Nat) : BitVec 12 :=
  (g &&& 0x3F) ||| BitVec.ofNat 12 (((List.range 6).map (fun s => b2n (stagePred trip k s) * 2 ^ (6 + s))).foldl (· + ·) 0)

end Sys2Proof.Machine
end

