-- ==== Sys2Proof/Machine/Yard.lean ====
section
/-! DEFINITION. The yard: stalls, records, granules and first-fit placement (R114 to R121). -/

namespace Sys2Proof.Machine

/-- Index of a byte of a bank in the yard. -/
def yardKey (bank off : Nat) : Nat := bank * 2 ^ 18 + off % 2 ^ 18

/-- Byte b of record r of a stall that starts at granule base (R120). -/
def recKey (base rsz r b : Nat) : Nat := yardKey (r % 16) (base * 64 + r / 16 * rsz + b)

/-- Reads and writes n bytes of a record. -/
def readRec (s : State) (c base rsz r b n : Nat) : List Byte := Memory.read (s.core c).yard (recKey base rsz r b) n
def writeRec (s : State) (c base rsz r b : Nat) (bs : List Byte) : State :=
  s.modCore c (fun k => { k with yard := Memory.write k.yard (recKey base rsz r b) bs })

/-- Word j of a record of 4-byte words. -/
def recWord (s : State) (c base rsz r j : Nat) : Nat := ofLe (readRec s c base rsz r (4 * j) 4)

/-- First granule of a stall's range with its guards, and the granule after it (R119). -/
def Stall.lo (t : Stall) : Nat := t.base - (t.glo + 1)
def Stall.hi (t : Stall) : Nat := t.base + t.len + (t.ghi + 1)

/-- State of a granule (R115). -/
inductive Gran where
  | free
  | stall
  | guard
  deriving DecidableEq, Repr

/-- The state of granule g. -/
def granAt (ts : List Stall) (g : Nat) : Gran :=
  match ts.find? (fun t => t.lo ≤ g && g < t.hi) with
  | none => .free
  | some t => if t.base ≤ g && g < t.base + t.len then .stall else .guard

/-- The stall that starts at a granule. -/
def stallAt (ts : List Stall) (base : Nat) : Option Stall := ts.find? (fun t => t.base = base)

/-- Changes the stall that starts at a granule. -/
def modStall (s : State) (c base : Nat) (f : Stall → Stall) : State :=
  s.modCore c (fun k => { k with stalls := k.stalls.map (fun t => if t.base = base then f t else t) })

/-- Granules per bank of a core (R114, R116). -/
def capg (s : State) (c : Nat) : Nat := if (s.die (dieOf c)).sd then 4096 else 2048

/-- FREE granules per bank, and the longest run of them (R116). -/
def freeGranules (ts : List Stall) (cap : Nat) : Nat := cap - (ts.map (fun t => t.hi - t.lo)).foldl (· + ·) 0
def runFrom (ts : List Stall) (cap k : Nat) : Nat :=
  if ts.any (fun t => t.lo ≤ k && k < t.hi) then 0
  else (ts.map (fun t => if k < t.hi then t.lo - k else cap - k)).foldl Nat.min (cap - k)
def longestRun (ts : List Stall) (cap : Nat) : Nat := ((0 :: ts.map Stall.hi).map (runFrom ts cap)).foldl Nat.max 0

/-- SCAP (R116). -/
def scap (s : State) (c : Nat) : Word :=
  let ts := (s.core c).stalls
  let n := capg s c
  BitVec.ofNat 64 (longestRun ts n * 2 ^ 32 + freeGranules ts n * 2 ^ 16 + b2n (s.die (dieOf c)).sd * 2 ^ 15 + n)

/-- Fields of a request word (R118). -/
def reqGlo (q : Word) : Nat := fldN q 50 2
def reqGhi (q : Word) : Nat := fldN q 48 2
def reqLen (q : Word) : Nat := fldN q 32 16
def reqHalf (q : Word) : Nat := fldN q 18 2
def reqRsz (q : Word) : Nat := fldN q 0 16

/-- A request that breaks R118. -/
def badRequest (q : Word) : Bool :=
  fldN q 52 12 ≠ 0 || fldN q 20 12 ≠ 0 || fldN q 16 2 ≠ 0 || reqHalf q = 3 || reqLen q = 0 || 4094 < reqLen q ||
    reqRsz q % 4 ≠ 0 || reqRsz q < 4 || reqLen q * 64 < reqRsz q

/-- The granules that a request may use (R114, R119): first, and the one after the last. -/
def halfRange (half cap : Nat) : Nat × Nat := if half = 1 then (0, min 2048 cap) else if half = 2 then (2048, cap) else (0, cap)

/-- The lowest start of n FREE granules in a range (R119). -/
def firstFit (ts : List Stall) (lo hi n : Nat) : Option Nat :=
  let starts := (lo :: (ts.map Stall.hi).filter (fun k => lo ≤ k)).filter (fun k =>
    k + n ≤ hi && ts.all (fun t => t.hi ≤ k || k + n ≤ t.lo))
  match starts with
  | [] => none
  | k :: ks => some (ks.foldl Nat.min k)

/-- The stall that a request places: none when there is no room (R119). -/
def placeStall (ts : List Stall) (q : Word) (cap : Nat) : Option Stall :=
  let r := halfRange (reqHalf q) cap
  (firstFit ts r.1 r.2 (reqGlo q + 1 + reqLen q + (reqGhi q + 1))).map (fun k =>
    { base := k + reqGlo q + 1, len := reqLen q, rsz := reqRsz q, glo := reqGlo q, ghi := reqGhi q, tag := 0, push := 0 })

/-- The handle of a stall just placed (R52, R119). -/
def handleOf (t : Stall) : Word :=
  BitVec.ofNat 64 (2 ^ 63 + t.glo * 2 ^ 50 + t.ghi * 2 ^ 48 + t.len * 2 ^ 32 + t.base * 2 ^ 20 + t.rsz)

/-- The reference word of a stall just placed, and the failure word (R119). -/
def referenceOf (c : Nat) (t : Stall) : Word :=
  BitVec.ofNat 64 (2 ^ 63 + coreId c * 2 ^ 51 + t.len * 2 ^ 32 + t.base * 2 ^ 20 + t.rsz)
def failureWord (ts : List Stall) (cap : Nat) : Word :=
  BitVec.ofNat 64 (longestRun ts cap * 2 ^ 32 + freeGranules ts cap * 2 ^ 16)

end Sys2Proof.Machine
end

