-- ==== Sys2Proof/Machine/KernelCore.lean ====
section
/-! DEFINITION. The cluster array: register names, landing of writes, the phases of an invocation, and what every kernel slot
has in common (R148 to R162, R166 to R168, R173 to R178). -/

namespace Sys2Proof.Machine

/-! ## Register names -/

/-- Physical number of a d register field under count k (R149). -/
def physD (k n : Nat) : Nat := if n < 64 then n else 64 + 8 * ((n - 64) / 8) + (k + 8 - (n - 64) % 8) % 8

/-- Ring length L_j and first pool slot B_j of a loop record (R150, R163). -/
def ringLen (rec : List Word) (j : Nat) : Nat :=
  fldN (rec.getD (2 + j / 16) 0) (4 * (j % 16)) 4 + 1
def ringBase (rec : List Word) (j : Nat) : Nat := ((List.range j).map (ringLen rec)).foldl (· + ·) 0

/-- Pool slot of an m operand field (R150). -/
def physM (rec : List Word) (k f : Nat) : Nat :=
  let j := f % 32
  let l := ringLen rec j
  ringBase rec j + (k + 16 * l - f / 32) % l

/-- The loop record of the running invocation. -/
def Ca.lrec (ca : Ca) : List Word :=
  match ca.inv with
  | some i => i.rec_
  | none => []

/-- The d register and the m slot that a field names in cluster c, and a predicate (R178). -/
def Ca.rd (ca : Ca) (c : Nat) (f : BitVec 7) : Word32 := Tab.get 0 ca.d (c * 128 + physD ca.k f.toNat)
def Ca.rm (ca : Ca) (c : Nat) (f : BitVec 7) : Quad := Tab.get 0 ca.m (c * 64 + physM ca.lrec ca.k f.toNat)
def Ca.rg (ca : Ca) (c : Nat) (p : BitVec 4) : Bool := rpred (Tab.get 0 ca.g c) p.toNat

/-- The clusters whose guard is true (R155, R178). -/
def actOf (ca : Ca) (g : Guard) : List Nat := (List.range 16).filter (fun c => ca.rg c g.gp != g.gn)

/-- A tile's state, and element (i, j) of a tile (R173). -/
def Ca.tile (ca : Ca) (t : Nat) : Tile := Tab.get Tile.reset ca.tiles t
def cellKey (t i j : Nat) : Nat := t * 256 + 16 * i + j
def Ca.cell (ca : Ca) (t i j : Nat) : Word32 := Tab.get 0 ca.tcell (cellKey t i j)

/-! ## Landing -/

/-- Word w of a vector of 32-bit words replaced. -/
def setWordOf {n : Nat} (v : BitVec n) (w x : Nat) : BitVec n :=
  (v &&& ~~~(BitVec.ofNat n ((2 ^ 32 - 1) * 2 ^ (32 * w)))) ||| BitVec.ofNat n (x % 2 ^ 32 * 2 ^ (32 * w))

/-- A tile holds contents that differ from its owner's saved copy (R173). -/
def dirty (ca : Ca) (t : Nat) : Ca := { ca with tiles := Tab.set Tile.reset ca.tiles t { ca.tile t with d := true } }

/-- One lane of a write lands (R160, R171). -/
def landLane (dst : KDst) (v : Core) (lane : Nat × Nat) : Core :=
  let c := lane.1
  let x := lane.2
  let ca := v.ca
  match dst with
  | .d n => { v with ca := { ca with d := Tab.set 0 ca.d (c * 128 + n) (BitVec.ofNat 32 x) } }
  | .m n => { v with ca := { ca with m := Tab.set 0 ca.m (c * 64 + n) (BitVec.ofNat 128 x) } }
  | .mw n w => { v with ca := { ca with m := Tab.set 0 ca.m (c * 64 + n) (setWordOf (Tab.get (0 : Quad) ca.m (c * 64 + n)) w x) } }
  | .g n => { v with ca := { ca with g := Tab.set 0 ca.g c (setBit (Tab.get (0 : BitVec 12) ca.g c) n (x % 2 = 1)) } }
  | .row t i => { v with ca := dirty { ca with tcell := Tab.set 0 ca.tcell (cellKey t i c) (BitVec.ofNat 32 x) } t }
  | .col t j => { v with ca := dirty { ca with tcell := Tab.set 0 ca.tcell (cellKey t c j) (BitVec.ofNat 32 x) } t }
  | .zero t =>
    { v with ca := dirty { ca with
      tcell := (List.range 16).foldl (fun m i => Tab.set 0 m (cellKey t i c) 0) ca.tcell } t }
  | .bank => { v with yard := Memory.write v.yard c (leBytes 4 x) }
  | .z ws =>
    let row := (List.range ws.length).foldl (fun r i => setWordOf r (ws.getD i 0) (x / 2 ^ (32 * i))) (Tab.get (0 : BitVec 512) v.cz.z c)
    { v with cz := { v.cz with z := Tab.set 0 v.cz.z c row } }
  | .cfg _ _ _ => v
  | .loop _ _ => v

/-- A write lands. LOOP and TCFG act on the whole array (R167, R204). -/
def landWrite (v : Core) (o : Owed) : Core :=
  match o.dst with
  | .cfg t rm cm => { v with ca := { v.ca with
      tiles := Tab.set Tile.reset v.ca.tiles t { v.ca.tile t with v := true, d := true, rmask := rm, cmask := cm } } }
  | .loop k trip => { v with ca := { v.ca with
      k := k, g := (List.range 16).foldl (fun m c => Tab.set 0 m c (setStages (Tab.get 0 m c) trip k)) v.ca.g } }
  | d => o.lanes.foldl (landLane d) v

/-- Of two writes that land in one cycle, the one that takes effect last: the higher slot, then the later-issued (R162). -/
def before (a b : Owed) : Bool :=
  a.land < b.land || (a.land = b.land && (a.slot < b.slot || (a.slot = b.slot && a.order < b.order)))

/-- A write put in its place among writes that land. -/
def insertOwed (o : Owed) : List Owed → List Owed
  | [] => [o]
  | p :: ps => if before o p then o :: p :: ps else p :: insertOwed o ps

/-- Every write that is due by cycle t lands, in order (R160, R162). -/
def landBy (v : Core) (t : Nat) : Core :=
  let due := (v.ca.owed.filter (fun o => o.land ≤ t)).foldl (fun l o => insertOwed o l) []
  due.foldl landWrite { v with ca := { v.ca with owed := v.ca.owed.filter (fun o => t < o.land) } }

/-- What is still to happen on a core's array and caddy: cycle and rank within the cycle (R160, R224, R229, R230). A step's
add comes first, then writes, then plane fetches; after the bundle of the cycle a step issues (R233). -/
def dues (v : Core) : List Nat :=
  v.cz.steps.map (fun p => 4 * p.land) ++ v.ca.owed.map (fun o => 4 * o.land + 1) ++ v.cz.fetches.map (fun f => 4 * f.ready + 2) ++
    (match v.cz.cube with
     | some q => [4 * q.next + 3]
     | none => [])

/-- The earliest of them. -/
def firstDue (v : Core) : Option Nat :=
  match dues v with
  | [] => none
  | d :: ds => some (ds.foldl Nat.min d)

/-- The array issues no bundle: time runs on to what is still to happen. -/
def draining (v : Core) : Bool :=
  match v.ca.inv with
  | none => true
  | some i => i.phase = .ended

/-- The event of a rank is the next to happen, in cycle t. -/
def dueNow (v : Core) (rank : Nat) : Option Nat :=
  match firstDue v with
  | some d => if d % 4 = rank && (d < 4 * v.ca.cycle + 3 || draining v) then some (d / 4) else none
  | none => none

/-- Nothing is left that comes before the bundle of the current cycle. -/
def settled (v : Core) : Bool :=
  match firstDue v with
  | some d => 4 * v.ca.cycle + 3 ≤ d
  | none => true

/-- The array's time, not before cycle t. -/
def reachCycle (v : Core) (t : Nat) : Core := { v with ca := { v.ca with cycle := max v.ca.cycle t } }

/-- The event of a rank on core c, whose die is not held (R310). -/
def dueOn (s : State) (c rank : Nat) : Option Nat := if s.stopped (dieOf c) then none else dueNow (s.core c) rank

/-- R160: the writes of the next landing cycle land. -/
def execWriteLanding (c : Nat) (s : State) : Out :=
  match dueOn s c 1 with
  | some t => .next (s.modCore c (fun v => reachCycle (landBy v t) t))
  | none => .next s

/-! ## Issue of a slot -/

/-- A write issues on core c from a slot, landing after off cycles (R160, R161). act: the clusters whose guard is true. -/
def oweFor (s : State) (slot off : Nat) (dst : KDst) (act : List Nat) (lanes : List (Nat × Nat)) : State :=
  s.modCore s.cur.c (fun v => { v with ca := { v.ca with
    owed := v.ca.owed ++ [⟨v.ca.cycle + off, slot, v.ca.order, dst, act, lanes⟩], order := v.ca.order + 1 } })

/-- A write of every cluster whose guard is true. -/
def owe (s : State) (slot off : Nat) (dst : KDst) (lanes : List (Nat × Nat)) : State :=
  oweFor s slot off dst (lanes.map (·.1)) lanes

/-- The array of the current step. -/
def State.ca (s : State) : Ca := (s.core s.cur.c).ca

/-- Changes the running invocation of core c. -/
def modInv (s : State) (c : Nat) (f : Inv → Inv) : State :=
  s.modCore c (fun v => { v with ca := { v.ca with inv := v.ca.inv.map f } })

/-- Fields of a loop record (R163). -/
def recKer (r : List Word) : Nat := fldN (r.getD 0 0) 36 12
def recKlen (r : List Word) : Nat := fldN (r.getD 0 0) 24 12
def recPro (r : List Word) : Nat := fldN (r.getD 0 0) 12 12
def recPlen (r : List Word) : Nat := fldN (r.getD 0 0) 0 12
def recSc (r : List Word) : Nat := fldN (r.getD 0 0) 52 4
def recEpi (r : List Word) : Nat := fldN (r.getD 1 0) 12 12
def recElen (r : List Word) : Nat := fldN (r.getD 1 0) 0 12
def recTmask (r : List Word) : BitVec 8 := fld (r.getD 1 0) 24 8
def recPortW (r : List Word) : Nat := fldN (r.getD 4 0) 8 8
def recPortR (r : List Word) : Nat := fldN (r.getD 4 0) 0 8

/-- The phases of R166, each skipped when it has no bundle. -/
def toEpilogue (i : Inv) : Inv :=
  if recElen i.rec_ = 0 then { i with phase := .ended, left := 0 }
  else { i with phase := .epilogue, left := recElen i.rec_, index := recEpi i.rec_ }
def toBody (i : Inv) : Inv :=
  if i.trip = 0 then toEpilogue i else { i with phase := .body, left := recKlen i.rec_, index := recKer i.rec_ }
def toPrologue (i : Inv) : Inv :=
  if recPlen i.rec_ = 0 then toBody i else { i with phase := .prologue, left := recPlen i.rec_, index := recPro i.rec_ }

/-- The invocation after a bundle (R166, R167). A taken LOOP comes to an iteration boundary (R169). -/
def afterBundle (i : Inv) (b : KIssue) : Inv :=
  let i := { i with bundle := none }
  if 1 < i.left then { i with left := i.left - 1, index := i.index + 1 }
  else
    match i.phase with
    | .prologue => toBody i
    | .body => if b.taken then { i with left := recKlen i.rec_, index := recKer i.rec_, boundary := true } else toEpilogue i
    | _ => { i with phase := .ended, left := 0 }

/-- The open kernel bundle of core c ends once every slot has issued; the next bundle issues after it and its WAIT (R154, R160,
R167). -/
def closeKernel (s : State) (c : Nat) : State :=
  match (s.core c).ca.inv with
  | none => s
  | some i =>
    match i.bundle with
    | none => s
    | some b =>
      if b.todo.isEmpty then
        s.modCore c (fun v => { v with ca := { v.ca with cycle := v.ca.cycle + 1 + b.wait, inv := some (afterBundle i b) } })
      else s

/-- The current slot of the open kernel bundle has issued. -/
def slotIssued (s : State) : State :=
  closeKernel (modInv s s.cur.c (fun i => { i with
    bundle := i.bundle.map (fun b => { b with todo := b.todo.filter (· ≠ s.cur.slot) }) })) s.cur.c

/-- A kernel slot: its effect in the clusters whose guard is true (R155, R178). -/
def kslot (g : Guard) (f : List Nat → State → State) (s : State) : Out :=
  match s.ca.inv with
  | none => .next s
  | some i => if i.bundle.isNone then .next s else .next (slotIssued (f (actOf s.ca g) s))

/-- for c in act: d[c][DD] := v(c), landing after off cycles. -/
def oweD (d : BitVec 7) (off : Nat) (act : List Nat) (v : Nat → Nat) (s : State) : State :=
  owe s s.cur.slot off (.d (physD s.ca.k d.toNat)) (act.map (fun c => (c, v c)))

/-- for c in act: m[c][DD] := v(c). -/
def oweM (d : BitVec 7) (off : Nat) (act : List Nat) (v : Nat → Nat) (s : State) : State :=
  owe s s.cur.slot off (.m (physM s.ca.lrec s.ca.k d.toNat)) (act.map (fun c => (c, v c)))

/-- for c in act: g[c][PD] := v(c). -/
def oweG (p : BitVec 4) (off : Nat) (act : List Nat) (v : Nat → Bool) (s : State) : State :=
  owe s s.cur.slot off (.g p.toNat) (act.map (fun c => (c, b2n (v c))))

end Sys2Proof.Machine
end

