-- ==== Sys2Proof/Machine/KernelMove.lean ====
section
/-! DEFINITION. m-register words, stream ports, the switch, tile moves, LOOP and WAIT of the cluster array (R167, R192, R198 to
R205). -/

namespace Sys2Proof.Machine

/-- R192. -/
def execMvmw (g : Guard) (d a : BitVec 7) (w : BitVec 2) (s : State) : Out :=
  kslot g (fun act s => oweD d 1 act (fun c => fldN (s.ca.rm c a) (32 * w.toNat) 32) s) s

/-- R192. The other words of the slot are unchanged. -/
def execMvwm (g : Guard) (d a : BitVec 7) (w : BitVec 2) (s : State) : Out :=
  kslot g (fun act s => owe s s.cur.slot 1 (.mw (physM s.ca.lrec s.ca.k d.toNat) w.toNat)
    (act.map (fun c => (c, (s.ca.rd c a).toNat)))) s

/-- The stream port of the running invocation (R152). -/
def Ca.port (ca : Ca) (p : Nat) : Port :=
  match ca.inv with
  | some i => i.ports.getD p ⟨0, 0, 0, 0, false, 0⟩
  | none => ⟨0, 0, 0, 0, false, 0⟩

/-- Changes a stream port of the running invocation. -/
def modPort (s : State) (p : Nat) (f : Port → Port) : State :=
  modInv s s.cur.c (fun i => { i with ports := (List.range 8).map (fun j =>
    let q := i.ports.getD j ⟨0, 0, 0, 0, false, 0⟩
    if j = p then f q else q) })

/-- What an access to the 4-byte word at a bank offset finds (R199): the yard, a guard granule, or nothing. -/
def portWord (s : State) (off : Nat) : Gran :=
  let c := s.cur.c
  if 2 ^ 18 ≤ off ∨ capg s c ≤ off / 64 then .free
  else if granAt (s.core c).stalls (off / 64) = .guard then .guard else .stall

/-- Guard words that the active clusters' accesses of n words at offset o touch: the first, and the clusters that touch (R143). Of one issue
the first touch is that of the lowest active cluster, at its lowest word that lies in a guard granule (log 93). -/
def noteTouches (act : List Nat) (o n : Nat) (s : State) : State :=
  let hit := (List.range n).find? (fun w => portWord s (o + 4 * w) = .guard)
  match hit, act with
  | some w, c :: _ => modInv s s.cur.c (fun i => { i with
      touches := i.touches + act.length,
      touch := some (i.touch.getD (c, o + 4 * w, s.tickOf (dieOf s.cur.c))) })
  | _, _ => s

/-- srf_read of n words in cluster c (R198, R199). -/
def portRead (s : State) (c o n : Nat) : Nat :=
  ((List.range n).map (fun w =>
    (if portWord s (o + 4 * w) = .stall then Memory.readN (s.core s.cur.c).yard (yardKey c (o + 4 * w)) 4 else 0) * 2 ^ (32 * w))).foldl (· + ·) 0

/-- Reads of a storage for the running invocation of core c, by key and length: words in error are corrected; an uncorrectable
one is not returned and ends the task (R117, R385). -/
def checkWords (p : Storage) (c : Nat) (rs : List (Nat × Nat)) (s : State) (k : State → State) : State :=
  if s.errs.isEmpty then k s
  else
    let s := rs.foldl (fun s r => correct s (dieOf c) p r.1 r.2) s
    match (s.core c).ca.inv, rs.find? (fun r => uncorrectable s p r.1 r.2) with
    | some v, some r => machineCheck s (c * 4 + v.ctx) (p.flt r.1)
    | _, _ => k s

/-- What the active clusters read of the yard at offset o, n words each: the words that are no guard and lie in the yard (R199). -/
def checkPort (act : List Nat) (o n : Nat) (s : State) (k : State → State) : State :=
  let ws := (List.range n).filter (fun w => portWord s (o + 4 * w) = .stall)
  checkWords (.srf s.cur.c) s.cur.c (act.flatMap (fun b => ws.map (fun w => (yardKey b (o + 4 * w), 4)))) s k

/-- What the active clusters read of a tile, by cell. -/
def checkTile (cells : List Nat) (s : State) (k : State → State) : State :=
  checkWords (.store s.cur.c) s.cur.c (cells.map (fun n => (tileKey n, 4))) s k

/-- SRD and SWR advance the cursor, of which the save area holds 32 bits; an active one makes the port's first read (R152, R170, R198, log
90). -/
def stepPort (act : List Nat) (p size : Nat) (rd : Bool) (s : State) : State :=
  modPort s p (fun q => { q with cursor := (q.cursor + size) % 2 ^ 32, first := q.first || (rd && act ≠ []) })

/-- Bank byte offset of a port's next access (R152). -/
def portOff (s : State) (p : Nat) : Nat := let q := s.ca.port p; hBase q.handle * 64 + q.cursor

/-- R198. -/
def execSrd (g : Guard) (r : BitVec 7) (port : BitVec 3) (quad : Bool) (s : State) : Out :=
  kslot g (fun act s =>
    let n := if quad then 4 else 1
    let o := portOff s port.toNat
    let v := fun c => portRead s c o n
    stepPort act port.toNat (4 * n) true (noteTouches act o n (checkPort act o n s (fun s =>
      if quad then oweM r 3 act v s else oweD r 3 act v s)))) s

/-- R198. A word in a guard granule or outside the yard is discarded (R199). -/
def execSwr (g : Guard) (r : BitVec 7) (port : BitVec 3) (quad : Bool) (s : State) : Out :=
  kslot g (fun act s =>
    let n := if quad then 4 else 1
    let o := portOff s port.toNat
    let v := fun c => if quad then (s.ca.rm c r).toNat else (s.ca.rd c r).toNat
    let ws := (List.range n).filter (fun w => portWord s (o + 4 * w) = .stall)
    let lanes := act.flatMap (fun c => ws.map (fun w => (yardKey c (o + 4 * w), v c / 2 ^ (32 * w) % 2 ^ 32)))
    stepPort act port.toNat (4 * n) false (noteTouches act o n (owe s s.cur.slot 2 .bank lanes))) s

/-- R201. -/
def execXsend (g : Guard) (d a : BitVec 7) (cl : BitVec 4) (s : State) : Out :=
  kslot g (fun act s => oweD d 2 act (fun c => (s.ca.rd ((c + 16 - cl.toNat) % 16) a).toNat) s) s

/-- R201. -/
def execXbcast (g : Guard) (d a : BitVec 7) (cl : BitVec 4) (s : State) : Out :=
  kslot g (fun act s => oweD d 2 act (fun _ => (s.ca.rd cl.toNat a).toNat) s) s

/-- R201. -/
def execXperm (g : Guard) (d a b : BitVec 7) (s : State) : Out :=
  kslot g (fun act s => oweD d 2 act (fun c => (s.ca.rd (fldN (s.ca.rd c b) 0 4) a).toNat) s) s

/-- comb of R202. -/
def comb (op : Nat → Nat → Nat) : Option Nat → Option Nat → Option Nat
  | some x, some y => some (op x y)
  | some x, none => some x
  | none, y => y

/-- One level of the tree of R202. -/
def combLevel (op : Nat → Nat → Nat) : List (Option Nat) → List (Option Nat)
  | x :: y :: r => comb op x y :: combLevel op r
  | r => r

/-- The tree reduction of R202 over the active clusters. -/
def reduce (op : Nat → Nat → Nat) (v : List (Option Nat)) : Nat :=
  ((combLevel op (combLevel op (combLevel op (combLevel op v)))).headD none).getD 0

/-- A reduction of OP 0x39 (R202). -/
def kReduce (g : Guard) (d a : BitVec 7) (op : Nat → Nat → Nat) (fix : Nat → Nat) (s : State) : Out :=
  kslot g (fun act s =>
    let r := fix (reduce op ((List.range 16).map (fun c => if act.contains c then some (s.ca.rd c a).toNat else none)))
    oweD d 6 act (fun _ => r) s) s

/-- R202. -/
def execXsum (g : Guard) (d a : BitVec 7) (s : State) : Out := kReduce g d a (fun x y => (x + y) % 2 ^ 32) id s
/-- R202. -/
def execXsumf (g : Guard) (d a : BitVec 7) (s : State) : Out := kReduce g d a (fadd Fmt.fp32 0) canonNan s
/-- R202. -/
def execXmaxf (g : Guard) (d a : BitVec 7) (s : State) : Out := kReduce g d a (fmax Fmt.fp32) canonNan s
/-- R202. -/
def execXminf (g : Guard) (d a : BitVec 7) (s : State) : Out := kReduce g d a (fmin Fmt.fp32) canonNan s

/-- R203. -/
def execTrow (g : Guard) (d : BitVec 7) (t : BitVec 3) (i : BitVec 4) (s : State) : Out :=
  kslot g (fun act s =>
    oweFor s s.cur.slot 3 (.row t.toNat i.toNat) act
      ((act.filter (fun c => bit (s.ca.tile t.toNat).cmask c)).map (fun c => (c, (s.ca.rd c d).toNat)))) s

/-- R203. -/
def execTrowr (g : Guard) (d : BitVec 7) (t : BitVec 3) (i : BitVec 4) (s : State) : Out :=
  kslot g (fun act s =>
    checkTile ((act.filter (fun c => bit (s.ca.tile t.toNat).cmask c)).map (cellKey t.toNat i.toNat)) s (fun s =>
      oweD d 3 act (fun c => if bit (s.ca.tile t.toNat).cmask c then (s.ca.cell t.toNat i.toNat c).toNat else 0) s)) s

/-- R203. -/
def execTcol (g : Guard) (d : BitVec 7) (t : BitVec 3) (j : BitVec 4) (s : State) : Out :=
  kslot g (fun act s =>
    checkTile ((act.filter (fun c => bit (s.ca.tile t.toNat).rmask c)).map (fun c => cellKey t.toNat c j.toNat)) s (fun s =>
      oweD d 3 act (fun c => if bit (s.ca.tile t.toNat).rmask c then (s.ca.cell t.toNat c j.toNat).toNat else 0) s)) s

/-- R203. -/
def execTcolr (g : Guard) (d : BitVec 7) (t : BitVec 3) (j : BitVec 4) (s : State) : Out :=
  kslot g (fun act s =>
    oweFor s s.cur.slot 3 (.col t.toNat j.toNat) act
      ((act.filter (fun c => bit (s.ca.tile t.toNat).rmask c)).map (fun c => (c, (s.ca.rd c d).toNat)))) s

/-- R204. -/
def execTzero (g : Guard) (t : BitVec 3) (s : State) : Out :=
  kslot g (fun act s => owe s s.cur.slot 1 (.zero t.toNat) (act.map (fun c => (c, 0)))) s

/-- R204. -/
def execTcfg (t : BitVec 3) (rm cm : BitVec 16) (s : State) : Out :=
  kslot ⟨0, false⟩ (fun _ s => owe s s.cur.slot 1 (.cfg t.toNat rm cm) []) s

/-- R167. A taken LOOP moves k, the stage predicates and the next bundle; otherwise nothing changes. k counts all the passes, also where
they are more than 32 bits can number (R148, R168, log 90). -/
def execLoop (s : State) : Out :=
  kslot ⟨0, false⟩ (fun _ s =>
    match s.ca.inv with
    | none => s
    | some i =>
      let k := s.ca.k
      if k + 1 < i.trip + recSc i.rec_ - 1 then
        modInv (owe s s.cur.slot 1 (.loop (k + 1) i.trip) []) s.cur.c
          (fun i => { i with bundle := i.bundle.map (fun b => { b with taken := true }) })
      else s) s

/-- R167. -/
def execWait (n : BitVec 16) (s : State) : Out :=
  kslot ⟨0, false⟩ (fun _ s => modInv s s.cur.c (fun i => { i with bundle := i.bundle.map (fun b => { b with wait := n.toNat }) })) s

end Sys2Proof.Machine
end

