-- ==== Sys2Proof/Machine/Caddy.lean ====
section
/-! DEFINITION. The cube multiplier: its operands, planes, row steps and schedule, and the checks and effects of its commands
(R217 to R243). -/

namespace Sys2Proof.Machine

/-! ## Formats and descriptors -/

/-- The format that a caddy descriptor names (R219). -/
def cadFmt (fd : BitVec 16) : Fmt := (fmtOf fd).getD (Fmt.int 8 true)
def wide16 (fd : BitVec 16) : Bool := (cadFmt fd).w = 16

/-- Reduction positions of a block in the cell mode (R217). -/
def kbOf (m16 : Bool) : Nat := if m16 then 24 else 48

/-- Fields of a plane source, laid out as R245 saves it. -/
def psValid (p : Quad) : Bool := bit p 63
def psFmt (p : Quad) : BitVec 16 := fld p 46 16
def psRemote (p : Quad) : Bool := bit p 44
def psPort (p : Quad) : Nat := fldN p 34 3
def psKc (p : Quad) : Nat := fldN p 28 6 + 1
def psOfg (p : Quad) : Nat := fldN p 12 16
def psPsg (p : Quad) : Nat := fldN p 0 12
def psRef (p : Quad) : Word := fld p 64 64

/-- A plane source (R237, R245). -/
def psMake (fmt : BitVec 16) (cmd : BitVec 46) (ref : Word) : Quad := ref ++ (1#1 ++ 0#1 ++ fmt ++ cmd)

/-- The C binding and the gate port of BIND (R236). -/
def Caddy.cb (z : Caddy) : Nat := fldN z.bind 31 2
def Caddy.gport (z : Caddy) : Nat := fldN z.bind 28 3

/-- A row map of R225. -/
def rowMap (md dv of k : Nat) : Nat := if md = 1 then of + k / dv else if md = 2 then of + k % dv else k
def Caddy.mapb (z : Caddy) (k : Nat) : Nat := rowMap (fldN z.bind 26 2) (fldN z.bind 20 6) (fldN z.bind 14 6) k
def Caddy.mapc (z : Caddy) (k : Nat) : Nat := rowMap (fldN z.bind 12 2) (fldN z.bind 6 6) (fldN z.bind 0 6) k

/-- The format of C in force: the gate's in IK, the plane's in KJ and K (R219). -/
def Caddy.cfmt (z : Caddy) : BitVec 16 := if z.cb = 1 then z.fmtC else psFmt z.psc

/-- The cell mode of a CUBE is the 16-bit one (R219). -/
def Caddy.mode16 (z : Caddy) : Bool := wide16 z.fmtA || wide16 (psFmt z.psb) || (z.cb ≠ 0 && wide16 z.cfmt)

/-- Fields of CDESC. -/
def cdNk (d : BitVec 96) : Nat := fldN d 37 12
def cdM (d : BitVec 96) : Nat := fldN d 21 16
def cdZb (d : BitVec 96) : Nat := fldN d 10 11
def cdAport (d : BitVec 96) : Nat := fldN d 7 3
def cdGport (d : BitVec 96) : Nat := fldN d 4 3
def cdSc (d : BitVec 96) : Bool := bit d 3
def cdM16 (d : BitVec 96) : Bool := bit d 2

/-- CDESC of a CUBE (R238). -/
def cdMake (nk m zb aport gport : Nat) (sc m16 : Bool) (cb : Nat) (bind : BitVec 33) : BitVec 96 :=
  BitVec.ofNat 96 (bind.toNat * 2 ^ 63 + nk * 2 ^ 37 + m * 2 ^ 21 + zb * 2 ^ 10 + aport * 2 ^ 7 + gport * 2 ^ 4 + b2n sc * 8 +
    b2n m16 * 4 + cb)

/-- RUN; CSTS as CSTAT reads it (R221). -/
def Caddy.run (z : Caddy) : Bool := bit z.csts 31
def Caddy.status (z : Caddy) : Word32 := setBit z.csts 30 (!z.steps.isEmpty)

/-- A field of CSTS or CPROG replaced. -/
def setField (w : Word32) (lo n v : Nat) : Word32 :=
  (w &&& ~~~(BitVec.ofNat 32 ((2 ^ n - 1) * 2 ^ lo))) ||| BitVec.ofNat 32 (v % 2 ^ n * 2 ^ lo)

/-- BLK and ROW of CPROG (R222). -/
def progOf (blk row : Nat) : Word32 := BitVec.ofNat 32 (blk % 2 ^ 12 * 2 ^ 16 + row % 2 ^ 11)
def Caddy.blk (z : Caddy) : Nat := fldN z.cprog 16 12
def Caddy.row (z : Caddy) : Nat := fldN z.cprog 0 11

/-- The run ends with a WHY; SCORE names the core of a failed source (R221, R233). -/
def Caddy.stop (z : Caddy) (why score : Nat) : Caddy :=
  { z with cube := none, csts := setField (setField (setBit z.csts 31 false) 27 3 why) 12 9 score }

/-! ## Planes -/

/-- Byte o of a stall's byte space; zero beyond it (R223). -/
def stallByte (v : Core) (h : Word) (o : Nat) : Byte :=
  let rsz := hRsz h
  if rsz = 0 ∨ rsz * hCapr h ≤ o then 0 else Memory.get v.yard (recKey (hBase h) rsz (o / rsz) (o % rsz))

/-- The bytes of plane x of a source that rows below min(KC, KB) hold (R223). -/
def planeSpan (p : Quad) (m16 : Bool) : Nat := min (psKc p) (kbOf m16) * 16 * (cadFmt (psFmt p)).w / 8

/-- The bytes of plane x of a source in the stall that h names; rows from min(KC, KB) are zero (R223). -/
def planeBytes (v : Core) (h : Word) (p : Quad) (x : Nat) (m16 : Bool) : List Byte :=
  (List.range (kbOf m16 * 16 * (cadFmt (psFmt p)).w / 8)).map (fun i =>
    if i < planeSpan p m16 then stallByte v h (psOfg p * 64 + x * psPsg p * 64 + i) else 0)

/-- Element i of row k of latched bytes; a row at min(KC, KB) or beyond is zero (R223, R225). -/
def planeElem (p : Quad) (m16 : Bool) (bs : List Byte) (k i : Nat) : Num :=
  let f := cadFmt (psFmt p)
  if min (psKc p) (kbOf m16) ≤ k then .fin false 0 0 else decodeNum f (packedElem bs f.w i)

/-- The source of bank b: B for banks 0 and 1, C for banks 2 and 3 (R224). -/
def Caddy.source (z : Caddy) (b : Nat) : Quad := if b < 2 then z.psb else z.psc
def Caddy.tag (z : Caddy) (b : Nat) : BankTag := z.banks.getD b BankTag.reset
def Caddy.setTag (z : Caddy) (b : Nat) (t : BankTag) : Caddy :=
  { z with banks := (List.range 4).map (fun i => if i = b then t else z.tag i) }

/-- A fetch of plane x into bank b starts in cycle t (R224). It takes the place of one under way into that bank (log 20). -/
def startFetch (z : Caddy) (b x : Nat) (m16 : Bool) (t : Nat) : Caddy :=
  let rm := psRemote (z.source b)
  let f : Fetch := {
    bank := b, plane := x, m16 := m16, ready := t + (if rm then 40 else 24), remote := rm, served := false, bytes := [], fail := none }
  { (z.setTag b BankTag.reset) with fetches := z.fetches.filter (fun g => g.bank ≠ b) ++ [f] }

/-- The banks that block x needs (R218, R224). -/
def needBanks (z : Caddy) (x : Nat) : List Nat := if 2 ≤ z.cb then [x % 2, 2 + x % 2] else [x % 2]

/-- The planes of block x that are neither latched nor in flight start their fetches in cycle t (R231). -/
def needPlanes (z : Caddy) (x : Nat) (m16 : Bool) (t : Nat) : Caddy :=
  (needBanks z x).foldl (fun z b =>
    if z.tag b = ⟨true, x, m16⟩ ∨ z.fetches.any (fun f => f.bank = b && f.plane = x && f.m16 = m16) then z
    else startFetch z b x m16 t) z

/-- The cycle in which the planes in flight of block x are ready; 0 when all are latched (R231). -/
def readyAt (z : Caddy) (x : Nat) : Nat :=
  ((z.fetches.filter (fun f => (needBanks z x).contains f.bank)).map (fun f => f.ready)).foldl max 0

/-! ## Row steps -/

/-- Bytes of record i of a stall; a record at CAPR or beyond is zero (R227). -/
def rowBytes (v : Core) (h : Word) (i off n : Nat) : List Byte :=
  if hCapr h ≤ i then List.replicate n 0 else Memory.read v.yard (recKey (hBase h) (hRsz h) i off) n

/-- The exact product times 2^s. -/
def Num.scale : Num → Int → Num
  | .fin n m e, s => .fin n m (e + s)
  | x, _ => x

/-- The partials of cluster c's row i in block x (R217, R218, R227, R228). -/
def rowPartials (v : Core) (x i : Nat) : List Nat :=
  let z := v.cz
  let d := z.cdesc
  let m16 := cdM16 d
  let kb := kbOf m16
  let fa := cadFmt z.fmtA
  let fc := cadFmt z.cfmt
  let bba := kb * fa.w / 8
  let ha := (v.ca.port (cdAport d)).handle
  let a := rowBytes v ha i (x * bba) bba
  let s : Int := if cdSc d then sextN (ofLe (rowBytes v ha i (cdNk d * bba + (if m16 then x / 2 else x)) 1)) 8 else 0
  let bg := kb * fc.w / 8
  let g := if z.cb = 1 then rowBytes v (v.ca.port (cdGport d)).handle i (x * bg) bg else []
  let b := Tab.get [] z.bankData (x % 2)
  let cc := Tab.get [] z.bankData (2 + x % 2)
  (List.range 16).map (fun j => stage1 ((List.range kb).map (fun k =>
    let bv := planeElem z.psb m16 b (z.mapb k) (16 * z.mapb k + j)
    let cv := match z.cb with
      | 0 => Num.fin false 1 0
      | 1 => decodeNum fc (packedElem g fc.w k)
      | 2 => planeElem z.psc m16 cc (z.mapc k) (16 * z.mapc k + j)
      | _ => planeElem z.psc m16 cc (z.mapc k) (z.mapc k)
    ((Num.mul (Num.mul (decodeNum fa (packedElem a fa.w k)) bv) cv).scale s))))

/-- Row steps of a block of M rows (R230). -/
def stepsOf (m : Nat) : Nat := ceilDiv m 16

/-- The next step issues in cycle t (R230, R231): its partials are formed, and at a block's first step the planes of the
following block start their fetches. The run goes on to the next step, to the next block, or ends (R233). -/
def cubeStep (v : Core) (t : Nat) : Core :=
  match v.cz.cube with
  | none => v
  | some q =>
    let z := v.cz
    let d := z.cdesc
    let x := z.blk
    let s := z.row
    let last := s + 1 = stepsOf (cdM d) ∧ x + 1 = cdNk d
    let rows := (List.range 16).filter (fun c => 16 * s + c < cdM d)
    let st : Step := {
      land := t + 12, row := cdZb d + s, last := last, parts := rows.map (fun c => (c, rowPartials v x (16 * s + c))) }
    let z := { z with steps := z.steps ++ [st] }
    let z := if (t : Int) = q.tblk ∧ x + 1 < cdNk d then needPlanes z (x + 1) (cdM16 d) t else z
    let z :=
      if s + 1 < stepsOf (cdM d) then { z with cprog := progOf x (s + 1), cube := some { q with next := t + 1 } }
      else
        let z := { z with cprog := progOf (x + 1) 0 }
        if x + 1 = cdNk d then { z with cube := none, csts := setBit z.csts 31 false }
        else
          match q.fail with
          | some (why, core) => z.stop why core
          | none =>
            let n := max (t + 1) (readyAt z (x + 1))
            { z with cube := some { tblk := n, next := n, fail := none } }
    { v with cz := z }

/-- What the rows of row step s of block x read of the yard: key and length of the A block, of the scale byte, and of the gate block; a row
past M or a record at CAPR or beyond is not read (R227, R230). -/
def rowReads (v : Core) (x s : Nat) : List (Nat × Nat) :=
  let z := v.cz
  let d := z.cdesc
  let kb := kbOf (cdM16 d)
  let bba := kb * (cadFmt z.fmtA).w / 8
  let bg := kb * (cadFmt z.cfmt).w / 8
  let at_ := fun (p i off n : Nat) =>
    let h := (v.ca.port p).handle
    if hCapr h ≤ i then [] else [(recKey (hBase h) (hRsz h) i off, n)]
  (((List.range 16).map (fun c => 16 * s + c)).filter (fun i => i < cdM d)).flatMap (fun i =>
    at_ (cdAport d) i (x * bba) bba ++
      (if cdSc d then at_ (cdAport d) i (cdNk d * bba + (if cdM16 d then x / 2 else x)) 1 else []) ++
      (if z.cb = 1 then at_ (cdGport d) i (x * bg) bg else []))

/-- Reads of a bank of core b for core c's invocation, by key and length; where a word is uncorrectable, what reads it fails and the CUBE
stops with the machine check (R117, R385, log 61). -/
def checkCube (b c : Nat) (rs : List (Nat × Nat)) (s : State) (bad k : State → State) : State :=
  let t := checkWords (.srf b) c rs s id
  if rs.any (fun r => uncorrectable s (.srf b) r.1 r.2) then bad (t.modCore c (fun v => { v with cz := v.cz.stop 5 0 })) else k t

/-- The next row step of core c reads its rows. -/
def checkRow (c : Nat) (s : State) (k : State → State) : State :=
  let v := s.core c
  checkCube c c (rowReads v v.cz.blk v.cz.row) s id k

/-! ## Checks -/

/-- A fault of a kernel slot (R176): code, port or tile number, values A and B. -/
structure KFlt where
  code : Nat
  idx : Nat
  a : Nat
  b : Nat
  deriving DecidableEq, Repr

/-- The first check that fails. -/
def firstOf (cs : List (Bool × KFlt)) : Option KFlt := (cs.find? (fun c => c.1)).map (fun c => c.2)

/-- A port is not bound for reading (R238). -/
def notRead (v : Core) (p : Nat) : Bool := (v.ca.port p).dir ≠ 1

/-- The tag of a port's stall, and whether its first read finds another one (R198). -/
def portTag (v : Core) (p : Nat) : BitVec 8 :=
  match stallAt v.stalls (hBase (v.ca.port p).handle) with
  | some t => t.tag
  | none => 0
def badTag (v : Core) (p : Nat) : Bool := !(v.ca.port p).first && portTag v p ≠ (v.ca.port p).expect
def tagFlt (v : Core) (p : Nat) : KFlt := ⟨0x42, p, (v.ca.port p).expect.toNat, (portTag v p).toNat⟩

/-- NK, M, the start point and the checks of CUBE in the order of R238. -/
def cubeNk (v : Core) (dm : BitVec 7) : Nat := fldN (v.ca.rd 0 dm) 16 16
def cubeM (v : Core) (dm : BitVec 7) : Nat := fldN (v.ca.rd 0 dm) 0 16
def nsaOf (v : Core) (aport nk : Nat) : Nat :=
  hRsz (v.ca.port aport).handle - nk * (kbOf v.cz.mode16 * (cadFmt v.cz.fmtA).w / 8)
def nsnOf (v : Core) (nk : Nat) : Nat := ceilDiv (nk * kbOf v.cz.mode16) 48

def cubeCheck (v : Core) (aport : Nat) (sc : Bool) (dm : BitVec 7) (zb : Nat) : Option KFlt :=
  let z := v.cz
  let nk := cubeNk v dm
  let m := cubeM v dm
  let kb := kbOf z.mode16
  let ik := z.cb = 1
  let rsz := fun p => hRsz (v.ca.port p).handle
  firstOf [(z.run, ⟨0x60, 0, 0x4B, 0⟩), (4095 < nk, ⟨0x64, 0, 0, 0⟩), (notRead v aport, ⟨0x61, aport, aport, 0⟩),
    (ik && notRead v z.gport, ⟨0x61, z.gport, z.gport, 0⟩), (!psValid z.psb, ⟨0x66, 0, 0, 0⟩),
    (2 ≤ z.cb && !psValid z.psc, ⟨0x66, 0, 1, 0⟩), (0 < m && 1535 < zb + stepsOf m - 1, ⟨0x63, 0, 0, 0⟩),
    (rsz aport < nk * (kb * (cadFmt z.fmtA).w / 8), ⟨0x64, 0, 1, 0⟩),
    (ik && rsz z.gport < nk * (kb * (cadFmt z.cfmt).w / 8), ⟨0x64, 0, 2, 0⟩),
    (sc && nsaOf v aport nk < nsnOf v nk, ⟨0x62, 0, min (nsaOf v aport nk) 255, min (nsnOf v nk) 255⟩),
    (badTag v aport, tagFlt v aport), (ik && badTag v z.gport, tagFlt v z.gport)]

/-- The reference word of CLATCHR (R237). -/
def latchRef (v : Core) (dr : BitVec 7) : Word := v.ca.rd 0 (dr + 1) ++ v.ca.rd 0 dr

/-- The checks of CLATCH and CLATCHR on core c (R237). -/
def latchCheck (v : Core) (port : Nat) : Option KFlt :=
  firstOf [(v.cz.run, ⟨0x60, 0, 0x49, 0⟩), (notRead v port, ⟨0x61, port, port, 0⟩), (badTag v port, tagFlt v port)]
def latchRefCheck (v : Core) (c : Nat) (dr : BitVec 7) : Option KFlt :=
  let r := latchRef v dr
  firstOf [(v.cz.run, ⟨0x60, 0, 0x49, 0⟩),
    (!bit r 63 || fldN r 51 9 / 8 ≠ coreId c / 8, ⟨0x65, 0, fldN r 52 8, fldN r 51 1⟩)]

/-- The accumulator row of cluster c (R239). -/
def zRow (v : Core) (c : Nat) (dz : BitVec 7) (zo : BitVec 11) : Nat := fldN (v.ca.rd c dz) 0 11 + zo.toNat

/-- An accumulator row past 1535 in an active cluster, n rows from it (R239, R240). -/
def zCheck (v : Core) (act : List Nat) (dz : BitVec 7) (zo : BitVec 11) (n : Nat) : Option KFlt :=
  (act.find? (fun c => 1535 < zRow v c dz zo + n - 1)).map (fun c => ⟨0x63, 0, c, 0⟩)

/-! ## Commands -/

/-- A command of the whole caddy: its guard is read in cluster 0 (R234). -/
def caddyCmd (g : Guard) (f : Core → Core) (s : State) : Out :=
  kslot g (fun act s => if act.contains 0 then s.modCore s.cur.c f else s) s

/-- R235. -/
def execCfmt (g : Guard) (opd : BitVec 2) (fd : BitVec 16) (s : State) : Out :=
  caddyCmd g (fun v => { v with cz :=
    match opd.toNat with
    | 0 => { v.cz with fmtA := fd }
    | 1 => { v.cz with fmtB := fd }
    | _ => { v.cz with fmtC := fd } }) s

/-- R236. -/
def execCbind (g : Guard) (b : BitVec 33) (s : State) : Out :=
  caddyCmd g (fun v => { v with cz := { v.cz with bind := b, csts := setField v.cz.csts 23 2 (fldN b 31 2) } }) s

/-- A plane source is set and the fetch of its plane 0 starts in the next cycle (R237). A fetch of the old source that is in flight into its
second bank is dropped (log 20). -/
def latchSource (v : Core) (pl : Bool) (cmd : BitVec 46) (ref : Word) : Core :=
  let z := v.cz
  let ps := psMake (if pl then z.fmtC else z.fmtB) cmd ref
  let other := if pl then z.psb else z.psc
  let b := if pl then 2 else 0
  let m16 := wide16 z.fmtA || wide16 (psFmt ps) || (psValid other && wide16 (psFmt other))
  let z := if pl then { z with psc := ps } else { z with psb := ps }
  let z := (z.setTag b BankTag.reset).setTag (b + 1) BankTag.reset
  let z := { z with fetches := z.fetches.filter (fun f => f.bank ≠ b + 1) }
  { v with cz := startFetch z b 0 m16 (v.ca.cycle + 1) }

/-- A port has made its first read. -/
def firstMade (v : Core) (p : Nat) : Core :=
  { v with ca := { v.ca with inv := v.ca.inv.map (fun i => { i with
      ports := (List.range 8).map (fun j =>
        let q := i.ports.getD j ⟨0, 0, 0, 0, false, 0⟩
        if j = p then { q with first := true } else q) }) } }

/-- R237. -/
def execClatch (g : Guard) (pl : Bool) (port : BitVec 3) (kc : BitVec 6) (ofg : BitVec 16) (psg : BitVec 12) (s : State) : Out :=
  caddyCmd g (fun v => latchSource (firstMade v port.toNat) pl (BitVec.ofBool pl ++ 0#1 ++ 0#7 ++ port ++ kc ++ ofg ++ psg) 0) s

/-- R237. -/
def execClatchr (g : Guard) (pl : Bool) (dr : BitVec 7) (kc : BitVec 6) (ofg : BitVec 16) (psg : BitVec 12) (s : State) : Out :=
  caddyCmd g (fun v =>
    latchSource v pl (BitVec.ofBool pl ++ 1#1 ++ dr ++ 0#3 ++ kc ++ ofg ++ psg) (latchRef v dr)) s

/-- The start point of a CUBE: block and row, past the last row step the next block (R222, R238). -/
def startPoint (v : Core) (st : Bool) (ds : BitVec 7) (m : Nat) : Nat × Nat :=
  let w := if st then v.ca.rd 0 ds else 0
  if stepsOf m ≤ fldN w 0 11 then (fldN w 16 12 + 1, 0) else (fldN w 16 12, fldN w 0 11)

/-- A CUBE that has passed its checks (R231, R238). -/
def cubeRun (v : Core) (aport : Nat) (sc : Bool) (dm ds : BitVec 7) (st : Bool) (zb : Nat) : Core :=
  let z := v.cz
  let nk := cubeNk v dm
  let m := cubeM v dm
  let m16 := z.mode16
  let v := firstMade v aport
  let v := if z.cb = 1 then firstMade v z.gport else v
  let (x, row) := startPoint v st ds m
  let sts := setField (setBit z.csts 25 m16) 27 3 0
  let sts := if sc ∧ nsnOf v nk < nsaOf v aport nk then setBit sts 26 true else sts
  let z : Caddy := { z with
    cdesc := cdMake nk m zb aport z.gport sc m16 z.cb z.bind, csts := sts,
    steps := z.steps.map (fun p => { p with last := false }) }
  if m = 0 ∨ nk ≤ x then { v with cz := { z with cprog := progOf nk 0, csts := setField z.csts 27 3 1 } }
  else
    let n := v.ca.cycle + 1
    let z := needPlanes { z with cprog := progOf x row, csts := setBit z.csts 31 true } x m16 n
    let t := max n (readyAt z x)
    { v with cz := { z with cube := some { tblk := t, next := t, fail := none } } }

/-- R238. -/
def execCube (g : Guard) (aport : BitVec 3) (sc : Bool) (dm ds : BitVec 7) (st : Bool) (zb : BitVec 11) (s : State) : Out :=
  caddyCmd g (fun v => cubeRun v aport.toNat sc dm ds st zb.toNat) s

/-- R239. -/
def execCzero (g : Guard) (dz : BitVec 7) (zo : BitVec 11) (n : BitVec 8) (s : State) : Out :=
  kslot g (fun act s =>
    owe s s.cur.slot 2 (.z (List.range 16))
      (act.flatMap (fun c => (List.range (n.toNat + 1)).map (fun i => (c * 1536 + zRow (s.core s.cur.c) c dz zo + i, 0))))) s

/-- Words 4q to 4q + 3 of an accumulator row. -/
def zQuarter (v : Core) (c row q : Nat) : Nat := fldN (Tab.get (0 : BitVec 512) v.cz.z (c * 1536 + row)) (128 * q) 128

/-- R240, from z to m. -/
def execCmovzToM (g : Guard) (m dz : BitVec 7) (zo : BitVec 11) (q : BitVec 2) (s : State) : Out :=
  kslot g (fun act s =>
    let v := s.core s.cur.c
    oweM m 3 act (fun c => zQuarter v c (zRow v c dz zo) q.toNat) s) s

/-- R240, from m to z. -/
def execCmovzToZ (g : Guard) (m dz : BitVec 7) (zo : BitVec 11) (q : BitVec 2) (s : State) : Out :=
  kslot g (fun act s =>
    let v := s.core s.cur.c
    owe s s.cur.slot 3 (.z (regRun (4 * q.toNat) 4)) (act.map (fun c => (c * 1536 + zRow v c dz zo, (v.ca.rm c m).toNat)))) s

/-- R241. -/
def execCstat (g : Guard) (d : BitVec 7) (sel : BitVec 2) (clr : Bool) (s : State) : Out :=
  kslot g (fun act s =>
    let z := (s.core s.cur.c).cz
    let w := if sel = 0 then z.status else z.cprog
    let s := oweD d 1 act (fun _ => w.toNat) s
    if clr ∧ sel = 0 ∧ act ≠ [] then
      s.modCore s.cur.c (fun v => { v with cz := { v.cz with csts := setBit v.cz.csts 26 false } })
    else s) s

/-- R242: a step that is due in this cycle still issues, and reads its rows (R233). Where it is the last one the run completes, with WHY 1
(log 94). -/
def cubeStop (c : Nat) (s : State) : State :=
  let stop := fun (s : State) => s.modCore c (fun v => if v.cz.run then { v with cz := v.cz.stop 2 0 } else v)
  match (s.core c).cz.cube with
  | none => s
  | some q =>
    if q.next = (s.core c).ca.cycle then checkRow c s (fun s => stop (s.modCore c (fun v => cubeStep v v.ca.cycle))) else stop s

/-- R242. -/
def execCstop (g : Guard) (s : State) : Out := kslot g (fun act s => if act.contains 0 then cubeStop s.cur.c s else s) s

end Sys2Proof.Machine
end

