-- ==== Sys2Proof/Machine/CaddyRun.lean ====
section
/-! DEFINITION. What the cube multiplier does by itself: steps issue and land, plane fetches are served, become ready or fail
(R224, R226, R229 to R233). -/

namespace Sys2Proof.Machine

/-- What the fetch of plane x of a source reads of the stall that h names, by words: its rows below min(KC, KB), within the stall's byte
space (R223). -/
def planeReads (h : Word) (p : Quad) (x : Nat) (m16 : Bool) : List (Nat × Nat) :=
  let rsz := hRsz h
  (((List.range ((planeSpan p m16 + 3) / 4)).map (fun i => psOfg p * 64 + x * psPsg p * 64 + 4 * i)).filter
    (fun o => o < rsz * hCapr h)).map (fun o => (recKey (hBase h) rsz (o / rsz) (o % rsz), 4))

/-- R230: CUBE_STEP_ISSUE on core c. -/
def execCubeStepIssue (c : Nat) (s : State) : Out :=
  match dueOn s c 3 with
  | none => .next s
  | some t => .next (checkRow c s (fun s => s.modCore c (fun v => reachCycle (cubeStep v t) t)))

/-- One row of a step is added into the accumulators (R229). -/
def addRow (row : Nat) (v : Core) (p : Nat × List Nat) : Core :=
  let k := p.1 * 1536 + row
  let old := Tab.get (0 : BitVec 512) v.cz.z k
  let new := (List.range 16).foldl (fun r j => setWordOf r j (fadd Fmt.fp32 0 (fldN old (32 * j) 32) (p.2.getD j 0))) old
  { v with cz := { v.cz with z := Tab.set 0 v.cz.z k new } }

/-- The steps that land in cycle t are added; the last of a CUBE sets WHY 1 (R229, R233). -/
def landSteps (v : Core) (t : Nat) : Core :=
  let due := v.cz.steps.filter (fun p => p.land = t)
  let v := due.foldl (fun v p => p.parts.foldl (addRow p.row) v) v
  let z := { v.cz with steps := v.cz.steps.filter (fun p => p.land ≠ t) }
  { v with cz := if due.any (fun p => p.last) then { z with csts := setField z.csts 27 3 1 } else z }

/-- R229: CUBE_STEP_LANDING on core c. -/
def execCubeStepLanding (c : Nat) (s : State) : Out :=
  match dueOn s c 0 with
  | none => .next s
  | some t => .next (s.modCore c (fun v => reachCycle (landSteps v t) t))

/-- The fetch into bank b that is the next to end, in cycle t. -/
def fetchDue (v : Core) (b t : Nat) : Option Fetch := v.cz.fetches.find? (fun f => f.bank = b && f.ready = t && (f.served || !f.remote))

/-- The local stall of a plane source (R223). -/
def sourceStall (v : Core) (b : Nat) : Word := (v.ca.port (psPort (v.cz.source b))).handle

/-- A fetch fills its bank (R224). A local plane is read as the fetch ends. -/
def fillBank (v : Core) (f : Fetch) : Core :=
  let bs := if f.remote then f.bytes else planeBytes v (sourceStall v f.bank) (v.cz.source f.bank) f.plane f.m16
  let z := { v.cz with fetches := v.cz.fetches.filter (fun g => g.bank ≠ f.bank) }
  { v with cz := { (z.setTag f.bank ⟨true, f.plane, f.m16⟩) with bankData := Tab.set [] z.bankData f.bank bs } }

/-- A fetch is over and leaves its bank invalid (R226). -/
def loseFetch (v : Core) (f : Fetch) : Core :=
  { v with cz := { (v.cz.setTag f.bank BankTag.reset) with fetches := v.cz.fetches.filter (fun g => g.bank ≠ f.bank) } }

/-- R224: PLANE_FETCH_READY of bank b on core c. A local plane with an uncorrectable word fails (log 61). -/
def execPlaneFetchReady (c b : Nat) (s : State) : Out :=
  let v := s.core c
  match dueOn s c 2 with
  | none => .next s
  | some t =>
    match fetchDue v b t with
    | none => .next s
    | some f =>
      .next (if f.fail.isSome then s
        else if f.remote then s.setCore c (reachCycle (fillBank v f) t)
        else checkCube c c (planeReads (sourceStall v f.bank) (v.cz.source f.bank) f.plane f.m16) s
          (fun s => s.modCore c (fun v => reachCycle (loseFetch v f) t)) (fun s => s.modCore c (fun v => reachCycle (fillBank v f) t)))

/-- A failed fetch leaves its bank invalid and stops a CUBE that needs the plane: at once when it waits for it, at the end of
the block before otherwise (R226, R233). -/
def failFetch (v : Core) (f : Fetch) (why core : Nat) : Core :=
  let z := (loseFetch v f).cz
  let z := match z.cube with
    | none => z
    | some q =>
      if !(needBanks z f.plane).contains f.bank then z
      else if z.blk = f.plane then z.stop why core
      else if z.blk + 1 = f.plane then { z with cube := some { q with fail := some (q.fail.getD (why, core)) } }
      else z
  { v with cz := z }

/-- R226, R233: PLANE_FETCH_FAILURE of bank b on core c. -/
def execPlaneFetchFailure (c b : Nat) (s : State) : Out :=
  let v := s.core c
  match dueOn s c 2 with
  | none => .next s
  | some t =>
    match fetchDue v b t with
    | none => .next s
    | some f =>
      match f.fail with
      | none => .next s
      | some (why, core) => .next (s.setCore c (reachCycle (failFetch v f why core) t))

/-- The stall of a remote plane source on its core, if it is allocated with BASE, LEN and RSZ of the reference (R226). -/
def remoteStall (v : Core) (r : Word) : Bool := v.stalls.any (fun t => t.base = hBase r && t.len = hLen r && t.rsz = hRsz r)

/-- A task placed on core c holds the stall of a reference (R226). -/
def holderPlaced (s : State) (c : Nat) (r : Word) : Bool :=
  (List.range 4).any (fun k =>
    let x := s.ctx (c * 4 + k)
    x.task.isSome && (List.range 32).any (fun n => hV (x.rh n) && hBase (x.rh n) = hBase r))

/-- The source core serves a remote fetch, or fails it: stale (4) or unavailable (3) (R226). -/
def serveFetch (s : State) (c : Nat) (f : Fetch) : Fetch :=
  let ps := (s.core c).cz.source f.bank
  let r := psRef ps
  let rc := c / 512 * 512 + fldN r 51 9
  let v := s.core rc
  if !remoteStall v r then { f with served := true, fail := some (4, fldN r 51 9) }
  else if !holderPlaced s rc r then { f with served := true, fail := some (3, fldN r 51 9) }
  else { f with served := true, bytes := planeBytes v r ps f.plane f.m16 }

/-- The fetch into bank b of core c is answered. -/
def answerFetch (s : State) (c b : Nat) (f : Fetch → Fetch) : State :=
  s.modCore c (fun v => { v with cz := { v.cz with fetches := v.cz.fetches.map (fun g => if g.bank = b then f g else g) } })

/-- The source core of a remote fetch into bank b of core c reads the plane; one with an uncorrectable word fails (R117, R226, log 61). -/
def readRemote (c b : Nat) (f : Fetch) (s : State) (k : State → State) : State :=
  let ps := (s.core c).cz.source b
  let core := fldN (psRef ps) 51 9
  checkCube (c / 512 * 512 + core) c (planeReads (psRef ps) ps f.plane f.m16) s
    (fun s => answerFetch s c b (fun g => { g with served := true, fail := some (5, core) })) k

/-- R224, R226: REMOTE_PLANE_READ for bank b of core c, once its fetch has started. -/
def execRemotePlaneRead (c b : Nat) (s : State) : Out :=
  let v := s.core c
  match v.cz.fetches.find? (fun f => f.bank = b && f.remote && !f.served && (f.ready ≤ v.ca.cycle + 40 || draining v) && !s.stopped (dieOf c)) with
  | none => .next s
  | some f =>
    .next (readRemote c b f s (fun s => answerFetch s c b (fun _ => serveFetch s c f)))

end Sys2Proof.Machine
end

