-- ==== Sys2Proof/Machine/Checks.lean ====
section
/-! DEFINITION. Machine checks of a context, and the reads that may end in one (R26, R28, R76, R385). -/

namespace Sys2Proof.Machine

/-- A checked read goes on, or is given up with a machine check of context x: bad withdraws what asked for it (R385). -/
def checkedFor (x : Nat) (c : State × Option Flt) (bad k : State → State) : State :=
  match c with
  | (s, none) => k s
  | (s, some f) => machineCheck (bad s) x f

/-- A read of n bytes of a home for context x (R255, R385). -/
def readHome (s : State) (x : Nat) (p : Place) (n : Nat) (bad k : State → State) : State := checkedFor x (checkHome s p n) bad k

/-- A read of several places for context x. -/
def readHomes (s : State) (x : Nat) (rs : List (Place × Nat)) (bad k : State → State) : State :=
  checkedFor x (checkHomes s rs) bad k

/-- A read of n bytes of a bank of core c for context x (R117, R385). -/
def readSrf (s : State) (x c key n : Nat) (bad k : State → State) : State :=
  checkedFor x (checkRead s (dieOf c) (.srf c) key n) bad k

/-- A read of a core's own storage for context x (R385). -/
def readStore (s : State) (x c key n : Nat) (bad k : State → State) : State :=
  checkedFor x (checkRead s (dieOf c) (.store c) key n) bad k

end Sys2Proof.Machine
end

