-- ==== Sys2Proof/Machine/Issue.lean ====
section
/-! DEFINITION. Fetch, readiness and issue of bundles, the order in which the slots of a bundle are performed, and the
merge stage (R55 to R60, R68 to R78, R122). -/

namespace Sys2Proof.Machine

/-- Time passes: the cycle counters advance, and the timers of R311, R330 and R332 with them. -/
def addCycles (s : State) (n : Nat) : State := { s with now := s.now + n }

/-! ## Queue room -/

/-- Entries of the scoreboard of core c, and those of one context. -/
def entries (s : State) (c : Nat) : List (Nat × Entry) := Tab.members (s.core c).sb
def entriesOf (s : State) (x : Nat) : List (Nat × Entry) := (entries s (coreOf x)).filter (fun p => p.2.ctx = x % 4)

/-- A command word that takes a scoreboard entry (R122). -/
def takesEntry (w : Word32) : Bool :=
  let sub := subOf w
  (opOf w = 0x1D && 1 ≤ sub && sub ≤ 6) || (opOf w = 0x1E && sub = 0) ||
    (opOf w = 0x1F && (sub ≤ 1 || sub = 0x1A || sub = 0x1B))

/-- A verb word (R296). -/
def isVerb (w : Word32) : Bool := opOf w = 0x1F && 0x10 ≤ subOf w && subOf w ≤ 0x13

/-- The guard fields of a word (R61). -/
def guardOf (w : Word32) : Guard := ⟨fld w 23 4, bit w 22⟩

/-- A context has issued an engine command of a kind that its engine has not accepted yet. -/
def Ctx.issued (c : Ctx) (kind : Word32 → Bool) : Bool :=
  match c.issue with
  | none => false
  | some is => let w := is.words.getD 3 0; bit is.occ 3 && !bit is.perf 3 && kind w && is.guardOk (guardOf w)

/-- Context x may take n scoreboard entries: two stay within the reach of every other context (R122). -/
def sbRoomFor (s : State) (x n : Nat) : Bool :=
  let es := entries s (coreOf x)
  let held := fun k => (es.filter (fun p => p.2.ctx = k)).length + b2n ((s.ctx (coreOf x * 4 + k)).issued takesEntry)
  let used := ((List.range 4).map held).foldl (· + ·) 0
  let need := (((List.range 4).filter (fun k => k ≠ x % 4)).map (fun k => 2 - held k)).foldl (· + ·) 0
  used + n + need ≤ 32

/-- A context may take a scoreboard entry (R122). -/
def sbRoom (s : State) (x : Nat) : Bool := sbRoomFor s x 1

/-- Whether an entry names the stall of handle n. -/
def Entry.names (e : Entry) (n : Nat) : Bool := e.reads.any (fun r => r.1 = n) || e.writes.any (fun r => r.1 = n)

/-- R139: the conditions of SWAIT on handle n, or on every entry. -/
def swaitReady (s : State) (x : Nat) (all : Bool) (n : Nat) : Bool :=
  (entriesOf s x).all (fun p => !(all || p.2.names n)) && (s.ctx x).wins.all (fun w => w.fn = 0) && (s.ctx x).allocs.isEmpty

/-- R111: the condition of LWAIT xn. -/
def lwaitReady (c : Ctx) (n : Nat) : Bool := if n = 0 then c.lease = 0 && c.out0 = 0 else !bit c.lease n

/-! ## Readiness -/

/-- The operand of BAR and SWAIT words: sync points (R27). -/
def isSync (w : Word32) : Bool := (opOf w = 0x1B && fldN w 0 6 = 1) || (opOf w = 0x1D && subOf w = 7)

/-- The slots of a bundle that are still to be performed. -/
def Issue.todo (is : Issue) : List Nat := (List.range 4).filter (fun i => bit is.occ i && !bit is.perf i)

/-- Handles that a word names, SALLOC's own among them (R129). -/
def namesH (w : Word32) : List Nat := if opOf w = 0x1D ∧ subOf w = 0 then [en2 w] else hReads w

/-- An acquire of context x is not performed: no later access is performed before it (R19, R298, R300). -/
def acquiring (s : State) (x : Nat) : Bool :=
  (outstanding s x).any (fun p => p.2.acquire.isSome) || (Tab.members s.verbs).any (fun p => p.2.x = x && p.2.acq)

/-- The link engine of a context's die has room for a verb, those that have issued and are not accepted yet counted (R301). -/
def verbRoom (s : State) (x : Nat) : Bool :=
  ((Tab.members s.verbs).filter (fun p => dieOfCtx p.2.x = dieOfCtx x)).length +
    (s.ctxs.filter (fun p => dieOfCtx p.1 = dieOfCtx x && p.2.issued isVerb)).length < 256

/-- R68 for one word of a bundle: its registers have landed, its engine has room, and its own wait is over. -/
def wordReady (s : State) (x : Nat) (w : Word32) : Bool :=
  let c := s.ctx x
  let regs := xReads w ++ xWrites w
  let later := classOf w = .m || classOf w = .e
  !(regs.any (fun n => n ≠ 0 && bit c.await n)) &&
  !(classOf w = .e && regs.any (fun n => bit c.lease n)) &&
  !(later && (c.fence.isSome || acquiring s x)) &&
  !((namesH w).any (fun n => c.allocs.any (fun a => a.hd = n))) &&
  !(opOf w = 0x1E && subOf w = 0 && !c.allocs.isEmpty) &&
  (!takesEntry w || sbRoom s x) &&
  (!isVerb w || verbRoom s x) &&
  (if opOf w = 0x1D ∧ subOf w = 7 then swaitReady s x (bit w 10) (en1 w) else true) &&
  (if opOf w = 0x1B ∧ fldN w 0 6 = 1 then (entriesOf s x).isEmpty else true) &&
  (if opOf w = 0x1E ∧ subOf w = 1 then lwaitReady c (en1 w) else true)

/-- R68 for the slots of a bundle that are to be performed and whose guards are true: one whose guard is false holds nothing back (log
74). -/
def bundleReady (s : State) (x : Nat) (is : Issue) : Bool :=
  is.todo.all (fun i => let w := is.words.getD i 0; !is.guardOk (guardOf w) || wordReady s x w)

/-- A context may issue: it holds a task that is neither ending nor to be saved, its die is not held, what was in flight at a
precise fault has landed, and YIELD has run out (R51, R68, R78, R108, R310). -/
def mayIssue (s : State) (x : Nat) : Bool :=
  let c := s.ctx x
  c.task.isSome && c.kill.isNone && c.save.isNone && !s.stopped (dieOfCtx x) && !(c.drain && (c.await ≠ 0 || c.lease ≠ 0)) &&
  (match c.yield with
   | none => true
   | some (l, t) => l.isEmpty || t ≤ s.cycles (pkgOfCtx x))

/-! ## Fetch -/

/-- Lines that the instruction cache and the data cache of a core hold (R2). -/
def icLines : Nat := 256
def dcLines : Nat := 512

/-- The line that holds an address: from the instruction cache, or read at its home and cached; a machine check where a word of it is
uncorrectable (R55, R68, R255, R385). A full cache gives up the line that it has held longest (R2, log 54). -/
def fetchLine (s : State) (c : Nat) (p : Place) : Except Flt (List Word32) × State :=
  let line : Place := { p with pa := p.pa / 128 * 128 }
  match (s.core c).ic.find? (fun l => l.1 = p.pa / 128) with
  | some l =>
    match checkRead s (dieOf c) (.store c) (icKey (memKey p.pkg line.pa)) 128 with
    | (s, some f) => (.error f, s)
    | (s, none) => (.ok l.2, s)
  | none =>
    match serveRead s (dieOf c) line 128 with
    | (s, some f) => (.error f, s)
    | (s, none) =>
      let ws := words32 32 (s.readBytes p.pkg (p.pl = 2) line.pa 128)
      (.ok ws, s.modCore c (fun k => { k with ic := ((p.pa / 128, ws) :: k.ic).take icLines }))

/-- The values that a slot reads at issue: x registers by number, handles of slot M from 32 (R59, R75). -/
def captureOf (c : Ctx) (i : Nat) (w : Word32) : Tab Word :=
  let t := (xReads w).foldl (fun t n => Tab.set 0 t n (c.rx n)) []
  if i = 2 then (hReads w).foldl (fun t n => Tab.set 0 t (32 + n) (c.rh n)) t else t

/-- The bundle of a list of words at an address, as it issues (R58, R59). A slot whose guard is false is performed (R54). -/
def mkIssue (c : Ctx) (addr : Nat) (ws : List Word32) : Option Issue :=
  match placeSlots ws 0 with
  | none => none
  | some ps =>
    let (by4, occ) := bySlot ps
    let is : Issue := {
      addr := addr, words := by4, occ := occ, perf := 0,
      cap := (List.range 4).map (fun i => captureOf c i (by4.getD i 0)), g := c.g, re := false, taken := none,
      bar := .none, sync := c.pend.isSome, gwait := false, exit := false, tick := 0, lease := c.lease, ld := none }
    some { is with
      perf := (is.todo.filter (fun i => !is.guardOk (guardOf (by4.getD i 0)))).foldl (fun o i => setBit o i true) 0 }

/-- The fetch of the next bundle: its words, or the state in which the context has not got them. -/
inductive FetchRes where
  | ok (ws : List Word32) (s : State)
  | none (s : State)
  deriving DecidableEq, Repr

/-- Fetch at the PC of context x. A translation fault strikes with an empty replay buffer, at the PC (R76, R281, R285). -/
def fetch (s : State) (x : Nat) : FetchRes :=
  let c := s.ctx x
  let pops := match c.task with
    | some t => t.pops
    | none => []
  let fail := fun (s : State) (f : Flt) =>
    FetchRes.none (if frameWaits s x then s else deliver s x (mkRec s x true f) none c.pc c.pc)
  match pagerHit c false c.pc 3 with
  | some p => fail (s.modCtx x (·.dropFail p)) p.flt
  | none =>
    match translateFor s (coreOf x) (some (x % 4)) pops (BitVec.ofNat 64 c.pc) 3 with
    | .ok p s =>
      match gate s p with
      | .hold => .none s
      | .redirect => .none (dropTlb s (coreOf x) c.pc)
      | .go =>
        match fetchLine s (coreOf x) p with
        | (.error f, s) => .none (machineCheck s x f)
        | (.ok ws, s) =>
          let j := c.pc / 4 % 32
          .ok ((ws.drop j).take (bundleLen ws j 4)) s
    | .fault code detail s => fail s ⟨code, 1, c.pc, detail, 0⟩
    | .serviced kind node region level s =>
      if c.t then fail s ⟨missCode node, 1, c.pc, trDetail kind level, 0⟩
      else .none (s.modCtx x (fun c => { c with save := some (.fault c.pc kind node region level none) }))
    | .check f s => .none (machineCheck s x f)
    | .locked s => .none s

/-- The next bundle of context x: the replay buffer's bundle where it is to be reissued, with the values and predicates that it read when
it first issued, else the bundle at the PC (R68, R75). -/
def nextBundle (s : State) (x : Nat) : Option Issue × State :=
  let c := s.ctx x
  if c.issue.isSome || !mayIssue s x then (none, s)
  else
    match c.reissue, c.rb with
    | true, some is => (some { is with re := true, sync := c.pend.isSome, ld := none }, s)
    | _, _ =>
      match fetch s x with
      | .none s => (none, s)
      | .ok ws s => (mkIssue c c.pc ws, s)

/-- The next bundle of context x, if it is ready (R68). -/
def candidate (s : State) (x : Nat) : Option Issue × State :=
  match nextBundle s x with
  | (some is, s) => (if bundleReady s x is then some is else none, s)
  | (none, s) => (none, s)

/-- A context of a core has issued: it no longer stands in the way of those that yielded (R108). -/
def noteIssue (s : State) (x : Nat) : State :=
  ((List.range 4).map (fun k => coreOf x * 4 + k)).foldl (fun s y =>
    match (s.ctx y).yield with
    | none => s
    | some (l, t) => s.modCtx y (fun c => { c with yield := some (l.filter (· ≠ x), t) })) s

/-- A bundle of context x issues: it is the open bundle, with the leases and the cycle counter of its issue cycle (R68, R72, R75,
R108, R109). -/
def openWith (s : State) (x : Nat) (is : Issue) : State :=
  (noteIssue s x).modCtx x (fun c => { c with
    issue := some { is with tick := s.tickOf (dieOfCtx x), lease := c.lease },
    yield := none, reissue := false, drain := false })

/-! ## Slots -/

/-- The branch, TRAP or ERET of slot B is performed after the other slots (R60, R108), unless it reads or writes a register that was
leased as its bundle issued, whose fault is detected at issue (R28, R72). -/
def lateB (is : Issue) (w : Word32) : Bool :=
  (opOf w = 0x10 || opOf w = 0x11 || opOf w = 0x12 || (opOf w = 0x13 && fldN w 0 6 ≤ 1)) &&
    !((xReads w ++ xWrites w).any (fun n => bit is.lease n))

/-- The load that a bundle has sent is not performed: its value is not fixed (R19, R74). -/
def loadOut (s : State) (is : Issue) : Bool :=
  match is.ld with
  | none => false
  | some r => (s.req r).any (fun q => q.ans.isNone)

/-- The slot to perform next (R60, R76, log 6): a sync slot that a pending record strikes, then A, B, M, E, then a late B, which waits
for the bundle's load to be performed (R74). -/
def nextSlot (s : State) (is : Issue) : Option Nat :=
  let todo := is.todo
  let w := fun i => is.words.getD i 0
  match (if is.sync then todo.find? (fun i => isSync (w i)) else none) with
  | some i => some i
  | none =>
    match todo.find? (fun i => !(i = 1 && lateB is (w 1))) with
    | some i => some i
    | none => if loadOut s is then none else todo.head?

/-- A bundle whose slots are all performed ends: execution goes on at a taken branch's target or at its successor (R56, R77). -/
def closeBundle (s : State) (x : Nat) : State :=
  match (s.ctx x).issue with
  | some is =>
    if is.todo.isEmpty then
      s.modCtx x (fun c => { c with
        issue := none, pc := is.taken.getD (successor is.addr is.occ), rb := if is.re then none else c.rb,
        pagerFail := if is.re then c.pagerFail.filter (fun p => !p.slot) else c.pagerFail })
    else s
  | none => s

/-! ## The merge stage -/

/-- The slots that a bundle occupies in the merge: those of its words, or, where it is reissued, those not performed (R69). -/
def Issue.occupied (is : Issue) : List Nat := if is.re then is.todo else (List.range 4).filter (fun i => bit is.occ i)

/-- Whether a second bundle's slots fit beside the first's (R69). -/
def fits (p q : Issue) : Bool :=
  let a := p.occupied
  let b := q.occupied
  b.all (fun i => !a.contains i) ||
    (b.all (fun i => i = 0 || !a.contains i) && !a.contains 1 && !b.contains 1 && classOf (q.words.getD 0 0) = .a)

/-- The contexts of a core in cyclic order after ctx k. -/
def cyclic (c k : Nat) : List Nat := (List.range 4).map (fun i => c * 4 + (k + 1 + i) % 4)

/-- The ready contexts among some, in their order, with their next bundles (R68). What a fetch that fails delivers, it delivers. -/
def candidates (s : State) : List Nat → List (Nat × Issue) × State
  | [] => ([], s)
  | x :: xs =>
    match candidate s x with
    | (some is, s) => let (l, s) := candidates s xs; ((x, is) :: l, s)
    | (none, s) => candidates s xs

/-- Cycles of the full clock that a cycle of a core's package takes (R391). -/
def cycleOf (s : State) (c : Nat) : Nat := if (s.pkg (pkgOf c)).clock < 15 then 2 else 1

/-- One cycle of the merge stage of core c: the bundles of the primary and, where one fits, of the secondary issue (R69). Answers the
contexts that issue. A frozen core has no such cycle (R310). -/
def issueCycle (s : State) (c : Nat) : List Nat × State :=
  if s.stopped (dieOf c) then ([], s)
  else
  match candidates s (cyclic c ((s.core c).prev.getD 3)) with
  | ([], s) => ([], s.modCore c (fun v => { v with prev := none }))
  | ((p, a) :: rest, s) =>
    let s := (openWith s p a).modCore c (fun v => { v with prev := some (p % 4) })
    match rest.find? (fun q => fits a q.2 && bundleReady s q.1 q.2) with
    | none => ([p], addCycles s (cycleOf s c))
    | some q => ([p, q.1], addCycles (openWith s q.1 q.2) (cycleOf s c))

/-- A cycle of the merge stage; the slots that issue are performed in the turns that follow. -/
def mergeCycle (s : State) (c : Nat) : State :=
  let (xs, s) := issueCycle s c
  let slots := fun x => match (s.ctx x).issue with
    | some is => is.todo.length
    | none => 0
  { s with turns := xs.flatMap (fun x => List.replicate (slots x) (.cp x)) ++ s.turns }

/-- The bundle waits at a barrier, for a group or for the end of its task (R106, R342, R372). -/
def Issue.waits (is : Issue) : Bool := is.bar ≠ .none || is.gwait || is.exit

/-- The contexts of a core that would issue now, other than x (R108, log 47). -/
def readyOthers (s : State) (x : Nat) : List Nat :=
  ((List.range 4).map (fun k => coreOf x * 4 + k)).filter (fun y =>
    y ≠ x && (match (s.ctx y).issue with
      | some is => !is.waits
      | none => (candidate s y).1.isSome))

end Sys2Proof.Machine
end

