-- ==== Sys2Proof/Machine/Branch.lean ====
section
/-! DEFINITION. Branches, calls, TRAP, ERET and YIELD (R56, R60, R77, R96 to R98, R108, R372). -/

namespace Sys2Proof.Machine

/-- The address that ends a task (R371, R372). -/
def exitVa : Word := 0x007FFFFFFFFFFF88

/-- The open bundle of the current step has address addr. -/
def State.bundleAddr (s : State) : Nat :=
  match s.me.issue with
  | some is => is.addr
  | none => s.me.pc

/-- The address of the current bundle's fall-through successor (R56). -/
def State.nextAddr (s : State) : Nat :=
  match s.me.issue with
  | some is => successor is.addr is.occ
  | none => s.me.pc

/-- The checks of R56 on a target whose line is at hand. -/
def targetOk (ws : List Word32) (target : Nat) : Bool :=
  target % 4 = 0 && 2 ≤ target / 4 % 32 && tgtBit ws (target / 4 % 32)

/-- The checks of R98 before a branch takes effect: translation for execute, then R56. -/
def checkTarget (target : Word) (k : State → SlotRes) (s : State) : SlotRes :=
  withGate s target 3 (fun p s =>
    match fetchLine s (coreOf s.cur.x) p with
    | (.error f, s) => .check f s
    | (.ok ws, s) =>
      if targetOk ws target.toNat then k s else .fault ⟨0x02, 1, target.toNat, target.toNat, 0⟩ s)

/-- The branch slot waits for the work of its task to end (R372). -/
def waitExit (s : State) : SlotRes := .wait (s.modIssue s.cur.x (fun is => { is with exit := true }))

/-- R98: the link write and the change of PC take effect together. -/
def branchTo (target : Word) (link : Bool) (s : State) : SlotRes :=
  if target = exitVa then waitExit s
  else
    checkTarget target (fun s =>
      let s' := if link then s.wx 31 (BitVec.ofNat 64 s.nextAddr) else s
      .done (s'.modIssue s.cur.x (fun is => { is with taken := some target.toNat }))) s

/-- The target of BR and CALL (R96). -/
def relTarget (s : State) (o : BitVec 22) : Word := BitVec.ofNat 64 s.bundleAddr + o.signExtend 64 * 4

/-- R96, R98. -/
def execBr (g : Guard) (o : BitVec 22) (s : State) : Out := slotABM g [] (fun s => branchTo (relTarget s o) false s) s

/-- R96, R98. -/
def execCall (g : Guard) (o : BitVec 22) (s : State) : Out := slotABM g [31] (fun s => branchTo (relTarget s o) true s) s

/-- R97, R98. -/
def execBrr (g : Guard) (a : BitVec 5) (s : State) : Out := slotABM g [a] (fun s => branchTo (s.rx a) false s) s

/-- R97, R98. -/
def execCallr (g : Guard) (a : BitVec 5) (s : State) : Out := slotABM g [a, 31] (fun s => branchTo (s.rx a) true s) s

/-- TRAP raises fault 0x01, is performed at trap entry, and leaves the replay buffer empty (R77, R108). -/
def trapEntry (i : BitVec 16) (s : State) : State :=
  if frameWaits s s.cur.x then s
  else deliver s s.cur.x (mkRec s s.cur.x true (Flt.mk0 0x01 i.toNat)) none s.bundleAddr s.nextAddr

/-- R108. -/
def execTrap (g : Guard) (i : BitVec 16) (s : State) : Out :=
  match s.me.issue with
  | none => .next s
  | some is => if is.guardOk g then .next (trapEntry i s) else .next (perform s)

/-- ERET with slots to reissue: the trap handler ends and the replay buffer's bundle, whose address EPC holds, is the next to
issue (R77). -/
def eretReissue (is : Issue) (s : State) : State :=
  s.modMe (fun c => { c with
    t := false, issue := none, reissue := true, pc := c.epc.toNat, rb := some { is with addr := c.epc.toNat } })

/-- ERET with nothing to reissue: the trap handler ends and fetch resumes at EPC (R77). -/
def eretResume (s : State) : State :=
  s.modMe (fun c => { c with t := false, issue := none, rb := none, pc := c.epc.toNat })

/-- ERET (R77). A failed check is a fault in the handler. -/
def eretBody (s : State) : SlotRes :=
  let c := s.me
  if !c.t then .fault (Flt.mk0 0x08 0) s
  else
    match c.rb with
    | some is =>
      if is.todo.isEmpty then (if c.epc = exitVa then waitExit s else checkTarget c.epc (fun s => .wait (eretResume s)) s)
      else .wait (eretReissue is s)
    | none => if c.epc = exitVa then waitExit s else checkTarget c.epc (fun s => .wait (eretResume s)) s

/-- R77, R108. -/
def execEret (g : Guard) (s : State) : Out := slotABM g [] eretBody s

/-- R108: the context is then not ready until the other ready contexts have issued or 16 cycles have passed, counted from the cycle after
that in which YIELD issues (log 47). -/
def execYield (g : Guard) (s : State) : Out :=
  slotABM g [] (fun s =>
    let l := readyOthers s s.cur.x
    .done (s.modMe (fun c => { c with yield := some (l, s.cycles (pkgOfCtx s.cur.x) + 16) }))) s

end Sys2Proof.Machine
end

