-- ==== Sys2Proof/Machine/LoadStore.lean ====
section
/-! DEFINITION. Loads and stores, and reads of parameter windows (R99 to R102, R256). -/

namespace Sys2Proof.Machine

/-- A request of the current context for a place (R100, R256, R295). -/
def mkReq (s : State) (va : Word) (p : Place) (kind : ReqKind) (release : Bool) (acq : Option Nat) : Req :=
  { x := s.cur.x, kind := kind, pkg := p.pkg, va := va.toNat, pa := p.pa, pl := p.pl, home := p.home, release := release,
    acquire := acq, noFill := false, ans := none, line := [], flt := none, word := s.word }

/-- The value that a load of size bytes writes (R99). -/
def landVal (size : Nat) (signed : Bool) (v : Nat) : Word :=
  if signed then BitVec.ofInt 64 (sextN v (8 * size)) else BitVec.ofNat 64 (v % 2 ^ (8 * size))

/-- The data cache of core c may hold the line of a place: it is homed on the core's die (R100). -/
def cacheable (c : Nat) (p : Place) : Bool := p.pl < 2 && homeDieOf p = dieOf c

/-- A store of a control processor. -/
def ReqKind.isStore : ReqKind → Bool
  | .store .. => true
  | _ => false

/-- The data cache's copy of a place for a load of context x. While an access of the context to the line that reads it, an atomic among
them, or a LAMO or a SIGNAL, is outstanding, the load takes its turn at the home (R18, R100, R259, R300). -/
def dcHit (s : State) (x va : Nat) (p : Place) : Option (List Byte) :=
  let l := dcLine s (coreOf x) p.pa
  if cacheable (coreOf x) p && l ≠ [] && !(outstanding s x).any (fun r => r.2.near s va p && !r.2.kind.isStore) &&
      !(Tab.members s.verbs).any (fun v => v.2.x = x && v.2.atomAt s va p) then some l else none

/-- A load from a translated place: from the data cache, unless its word is in error, or from the home (R71, R100, R385). -/
def loadFrom (va : Word) (xd size : Nat) (signed : Bool) (p : Place) (s : State) : SlotRes :=
  match dcHit s s.cur.x va.toNat p with
  | some l =>
    match checkRead s (dieOfCtx s.cur.x) (.store (coreOf s.cur.x)) (dcKey (memKey p.pkg p.pa)) size with
    | (s, some f) => .check f s
    | (s, none) => .done (s.modMe (fun c => c.wx xd (landVal size signed (ofLe ((l.drop (p.pa % 64)).take size)))))
  | none =>
    let s := (s.addReq (mkReq s va p (.load xd size signed) false none)).modIssue s.cur.x (fun is => { is with ld := some s.nextId })
    .done (if xd = 0 then s else s.modMe (fun c => { c with await := setBit c.await xd true }))

/-- A store of core c updates the cached copy of its line at issue; a fill of the line under way is not kept (R100). -/
def dcStore (s : State) (c va : Nat) (p : Place) (bs : List Byte) : State :=
  if !cacheable c p then s
  else
    let l := dcLine s c p.pa
    let k := p.pa % 64
    let s := { s with reqs := s.reqs.map (fun r => (r.1, r.2.map (fun q =>
      if coreOf q.x = c ∧ q.near s va p then { q with noFill := true } else q))) }
    if l = [] then s
    else s.modCore c (fun v => { v with
      dc := v.dc.map (fun e => if e.1 = p.pa / 64 then (e.1, l.take k ++ bs ++ l.drop (k + bs.length)) else e) })

/-- A store to a translated place (R100, R101). -/
def storeTo (va : Word) (size : Nat) (v : Word) (p : Place) (s : State) : SlotRes :=
  let s := dcStore s (coreOf s.cur.x) va.toNat p (leBytes size v.toNat)
  .done (s.addReq (mkReq s va p (.store size (v.toNat % 2 ^ (8 * size))) false none))

/-- The effective address of R99. -/
def eaOf (s : State) (a : BitVec 5) (o : BitVec 10) (sz : Nat) : Word := s.rx a + o.signExtend 64 * BitVec.ofNat 64 (2 ^ sz)

/-- R99: the alignment fault precedes every translation fault. -/
def aligned (ea : Word) (sz : Nat) (k : State → SlotRes) (s : State) : SlotRes :=
  if ea.toNat % 2 ^ sz ≠ 0 then .fault ⟨0x05, 1, ea.toNat, sz, 0⟩ s else k s

/-- A load of R99. -/
def loadOp (g : Guard) (d a : BitVec 5) (o : BitVec 10) (sz : Nat) (signed : Bool) (s : State) : Out :=
  slotABM g [d, a] (fun s =>
    let ea := eaOf s a o sz
    aligned ea sz (fun s => withPlace s ea 0 (loadFrom ea d.toNat (2 ^ sz) signed)) s) s

/-- A store of R99. -/
def storeOp (g : Guard) (d a : BitVec 5) (o : BitVec 10) (sz : Nat) (s : State) : Out :=
  slotABM g [d, a] (fun s =>
    let ea := eaOf s a o sz
    aligned ea sz (fun s => withPlace s ea 1 (storeTo ea (2 ^ sz) (s.rx d))) s) s

/-- R99. -/
def execLdub (g : Guard) (d a : BitVec 5) (o : BitVec 10) (s : State) : Out := loadOp g d a o 0 false s
/-- R99. -/
def execLduh (g : Guard) (d a : BitVec 5) (o : BitVec 10) (s : State) : Out := loadOp g d a o 1 false s
/-- R99. -/
def execLduw (g : Guard) (d a : BitVec 5) (o : BitVec 10) (s : State) : Out := loadOp g d a o 2 false s
/-- R99. -/
def execLdd (g : Guard) (d a : BitVec 5) (o : BitVec 10) (s : State) : Out := loadOp g d a o 3 false s
/-- R99. -/
def execLdsb (g : Guard) (d a : BitVec 5) (o : BitVec 10) (s : State) : Out := loadOp g d a o 0 true s
/-- R99. -/
def execLdsh (g : Guard) (d a : BitVec 5) (o : BitVec 10) (s : State) : Out := loadOp g d a o 1 true s
/-- R99. -/
def execLdsw (g : Guard) (d a : BitVec 5) (o : BitVec 10) (s : State) : Out := loadOp g d a o 2 true s
/-- R99. -/
def execStb (g : Guard) (d a : BitVec 5) (o : BitVec 10) (s : State) : Out := storeOp g d a o 0 s
/-- R99. -/
def execSth (g : Guard) (d a : BitVec 5) (o : BitVec 10) (s : State) : Out := storeOp g d a o 1 s
/-- R99. -/
def execStw (g : Guard) (d a : BitVec 5) (o : BitVec 10) (s : State) : Out := storeOp g d a o 2 s
/-- R99. -/
def execStd (g : Guard) (d a : BitVec 5) (o : BitVec 10) (s : State) : Out := storeOp g d a o 3 s

end Sys2Proof.Machine
end

