-- ==== Sys2Proof/Machine/WindowAccess.lean ====
section
/-! DEFINITION. Window accesses to stalls and SRF atomics (R140 to R142). -/

namespace Sys2Proof.Machine

/-- DETAIL of R129: the command word, the entry number or 0xFF, and the value that the code states. -/
def cmdDetail (w : Word32) (ent v : Nat) : Nat := w.toNat * 2 ^ 32 + ent * 2 ^ 24 + v % 2 ^ 24

/-- A fault of a command that has no entry (R129). -/
def cmdFault (s : State) (code v : Nat) : Flt := Flt.mk0 code (cmdDetail s.word 0xFF v)

/-- Bank and bank byte offset of stall byte o (R120, R140). -/
def byteBank (h : Word) (o : Nat) : Nat := o / hRsz h % 16
def byteOff (h : Word) (o : Nat) : Nat := (hBase h * 64 + o / hRsz h / 16 * hRsz h + o % hRsz h) % 2 ^ 18

/-- The record of faults 0x25 and 0x26 (R140). -/
def windowFault (s : State) (code : Nat) (h : Word) (o : Nat) : Flt :=
  ⟨code, 3, byteBank h o * 2 ^ 18 + byteOff h o, cmdDetail s.word 0xFF o, byteBank h o⟩

/-- The checks of R140 on an access of size bytes at stall byte o, in their order. -/
def windowCheck (hn size o : Nat) (k : Word → State → SlotRes) (s : State) : SlotRes :=
  let h := s.rh hn
  if !hV h then .fault (cmdFault s 0x20 hn) s
  else if o % size ≠ 0 ∨ hRsz h < o % hRsz h + size then .fault (windowFault s 0x26 h o) s
  else if hCapr h * hRsz h < o + size then .fault (windowFault s 0x25 h o) s
  else k h s

/-- An access on its way to the bank port; a register that it writes awaits the result (R71, R142). -/
def pushWin (w : Win) (s : State) : State :=
  s.modMe (fun c => { c with
    wins := c.wins ++ [w], await := if w.xd = 0 then c.await else setBit c.await w.xd true })

/-- A window load (R140). -/
def windowLoad (g : Guard) (d h b : BitVec 5) (size : Nat) (s : State) : Out :=
  slotABM g [d, b] (fun s =>
    let o := (s.rx b).toNat
    windowCheck h.toNat size o (fun w s => .done (pushWin ⟨0, size, d.toNat, yardKey (byteBank w o) (byteOff w o), 0, 0⟩ s)) s) s

/-- A window store; its 4-byte words are independent (R140, R144). -/
def windowStore (g : Guard) (d h b : BitVec 5) (size : Nat) (s : State) : Out :=
  slotABM g [d, b] (fun s =>
    let o := (s.rx b).toNat
    windowCheck h.toNat size o (fun w s =>
      let k := yardKey (byteBank w o) (byteOff w o)
      let v := (s.rx d).toNat
      let s := pushWin ⟨1, 4, 0, k, v % 2 ^ 32, 0⟩ s
      .done (if size = 8 then pushWin ⟨1, 4, 0, k + 4, v / 2 ^ 32, 0⟩ s else s)) s) s

/-- An SRF atomic of SUB value fn (R141). -/
def windowAtomic (g : Guard) (d h b : BitVec 5) (fn : Nat) (s : State) : Out :=
  slotABM g [d, b] (fun s =>
    let x := s.rx b
    let o := fldN x 0 32
    windowCheck h.toNat 4 o (fun w s =>
      .done (pushWin ⟨fn, 4, d.toNat, yardKey (byteBank w o) (byteOff w o), fldN x 32 32, fldN (s.rx d) 0 32⟩ s)) s) s

/-- The new word of an SRF atomic (R141). -/
def windowNew (fn old op cmp : Nat) : Nat :=
  match fn with
  | 2 => (old + op) % 2 ^ 32
  | 3 => fadd Fmt.fp32 0 old op
  | 4 => if sextN op 32 < sextN old 32 then op else old
  | 5 => if sextN old 32 < sextN op 32 then op else old
  | 6 => op
  | _ => if old = cmp then op else old

/-- A word of the bank for the oldest window load or SRF atomic of context x; the second word of an 8-byte load is served by
itself (R142, R144). -/
def takeWin (s : State) (x : Nat) (w : Win) (rest : List Win) : State :=
  let c := coreOf x
  let old := Memory.readN (s.core c).yard w.at_ 4
  if w.fn = 0 ∧ w.size = 8 then
    s.modCtx x (fun k => { k with wins := ⟨0, 4, w.xd, w.at_ + 4, old, 1⟩ :: rest })
  else
    let v := if w.fn = 0 ∧ w.cmp = 1 then w.v + 2 ^ 32 * old else old
    let s := if w.fn = 0 then s
      else s.modCore c (fun k => { k with yard := Memory.write k.yard w.at_ (leBytes 4 (windowNew w.fn old w.v w.cmp)) })
    fenceCheck (s.modCtx x (fun k => { (k.wx w.xd (BitVec.ofNat 64 v)) with
      wins := rest, await := setBit k.await w.xd false })) x

/-- The bank serves the oldest window load or SRF atomic of context x, unless its word is in error (R117, R142, R385). -/
def serveWin (s : State) (x : Nat) (w : Win) (rest : List Win) : State :=
  readSrf s x (coreOf x) w.at_ 4
    (fun s => s.modCtx x (fun k => { k with wins := rest, await := setBit k.await w.xd false }))
    (fun s => takeWin s x w rest)

/-- R142: WINDOW_ANSWER of context x. -/
def execWindowAnswer (x : Nat) (s : State) : Out :=
  whileRuns s (dieOfCtx x) (match (s.ctx x).wins with
    | [] => .next s
    | w :: rest => if w.fn = 1 then .next s else .next (serveWin s x w rest))

/-- R142: the bank port performs the oldest window store of context x. -/
def execWindowStoreWrite (x : Nat) (s : State) : Out :=
  whileRuns s (dieOfCtx x) (match (s.ctx x).wins with
    | [] => .next s
    | w :: rest =>
      if w.fn = 1 then
        let s := s.modCore (coreOf x) (fun k => { k with yard := Memory.write k.yard w.at_ (leBytes 4 w.v) })
        .next (fenceCheck (s.modCtx x (fun k => { k with wins := rest })) x)
      else .next s)

/-- R140. -/
def execLds4 (g : Guard) (d h b : BitVec 5) (s : State) : Out := windowLoad g d h b 4 s
/-- R140. -/
def execLds8 (g : Guard) (d h b : BitVec 5) (s : State) : Out := windowLoad g d h b 8 s
/-- R140. -/
def execSts4 (g : Guard) (d h b : BitVec 5) (s : State) : Out := windowStore g d h b 4 s
/-- R140. -/
def execSts8 (g : Guard) (d h b : BitVec 5) (s : State) : Out := windowStore g d h b 8 s
/-- R141. -/
def execSaadd (g : Guard) (d h b : BitVec 5) (s : State) : Out := windowAtomic g d h b 2 s
/-- R141. -/
def execSafadd (g : Guard) (d h b : BitVec 5) (s : State) : Out := windowAtomic g d h b 3 s
/-- R141. -/
def execSamin (g : Guard) (d h b : BitVec 5) (s : State) : Out := windowAtomic g d h b 4 s
/-- R141. -/
def execSamax (g : Guard) (d h b : BitVec 5) (s : State) : Out := windowAtomic g d h b 5 s
/-- R141. -/
def execSaxchg (g : Guard) (d h b : BitVec 5) (s : State) : Out := windowAtomic g d h b 6 s
/-- R141. -/
def execSacas (g : Guard) (d h b : BitVec 5) (s : State) : Out := windowAtomic g d h b 7 s

end Sys2Proof.Machine
end

