-- ==== Sys2Proof/Machine/Home.lean ====
section
/-! DEFINITION. Home controllers: the order of accesses at a home, hotness counters, atomics, queue commands, and the
answers of requests (R18, R71 to R73, R253 to R259, R268 to R273, R291, R295). -/

namespace Sys2Proof.Machine

/-! ## Requests -/

/-- A plain access: a load or a store of a control processor (R19). -/
def ReqKind.isPlain : ReqKind → Bool
  | .load .. => true
  | .store .. => true
  | _ => false

/-- The plain accesses of context x with numbers below n are performed: what a release waits for (R19). -/
def released (s : State) (x n : Nat) : Bool :=
  (unperformed s x).all (fun p => !(p.1 < n && p.2.kind.isPlain)) && (s.ctx x).wins.isEmpty

/-- A request may be performed: no earlier request of its core to the same line is left, at whichever page of a migration, nor an earlier
LAMO or SIGNAL of its context, and a release has no plain access of its context before it (R18, R19, R259, R291, R300). Contexts of a core
share a data cache, which a store changes as it issues: a fill of the line never lacks such a store (R100, R101, log 55). -/
def reqFirst (s : State) (r : Nat) (q : Req) : Bool :=
  (Tab.members s.reqs).all (fun p =>
    !(p.1 < r && coreOf p.2.x = coreOf q.x && p.2.ans.isNone && p.2.near s q.va q.place)) &&
    (Tab.members s.verbs).all (fun v => !(v.1 < r && v.2.x = q.x && v.2.busy && v.2.atomAt s q.va q.place)) &&
    (!q.release || released s q.x r)

/-- A request that is not performed, is first and whose home serves it now. -/
def reqReady (s : State) (r : Nat) : Option Req :=
  match s.req r with
  | none => none
  | some q => if q.ans.isNone && reqFirst s r q && gate s q.place = .go then some q else none

/-- The new barrier word of an arrival (R105). -/
def barArrive (old : Nat) : Nat :=
  let gen := old / 2 ^ 32
  let arr := old / 2 ^ 16 % 2 ^ 16 + 1
  let exp := old % 2 ^ 16
  if exp ≤ arr then (gen + 1) % 2 ^ 32 * 2 ^ 32 + exp else gen * 2 ^ 32 + arr * 2 ^ 16 + exp

/-- The group registers of QPOP end their leases with the record's words (R268, R269). -/
def landGroup (s : State) (x grp : Nat) (rec : List Nat) : State :=
  (List.range 8).foldl (fun s i =>
    endLease s x (8 * grp + i) (BitVec.ofNat 64 (rec.getD (2 * i) 0 + 2 ^ 32 * rec.getD (2 * i + 1) 0))) s

/-- A request that is given up: nothing awaits its answer, and a lease ends with zero (R72, R385). -/
def dropReq (s : State) (r : Nat) (q : Req) : State :=
  let s := s.setReq r none
  match q.kind with
  | .load xd _ _ => s.modCtx q.x (fun c => { c with await := setBit c.await xd false })
  | .atomic _ _ _ _ xd => endLease s q.x xd 0
  | .qpush xd _ => endLease s q.x xd 0
  | .qpop xd grp => landGroup (endLease s q.x xd 0) q.x grp []
  | _ => s

/-- What a home reads for a load of size bytes: the whole line where the core's data cache may keep it (R100, R255). -/
def Req.servedLoad (q : Req) (size : Nat) : Place × Nat :=
  if cacheable (coreOf q.x) q.place then ({ q.place with pa := q.pa / 64 * 64 }, 64) else (q.place, size)

/-- A home performs a load, a store or a BAR arrival (R254, R105, R295). -/
def performPlain (s : State) (r : Nat) (q : Req) : State :=
  let host := q.pl = 2
  let s := countHome s (dieOfCtx q.x) q.place
  match q.kind with
  | .load _ size _ =>
    readHome s q.x (q.servedLoad size).1 (q.servedLoad size).2 (fun s => dropReq s r q) (fun s =>
      s.setReq r (some { q with
        ans := some [s.readPhys q.pkg host q.pa size], line := s.readBytes q.pkg host (q.pa / 64 * 64) 64 }))
  | .store size v => fenceCheck ((s.writePhys q.pkg host q.pa (leBytes size v)).setReq r none) q.x
  | .bar =>
    readHome s q.x q.place 8 (fun s => dropReq s r q) (fun s =>
      let old := s.readPhys q.pkg host q.pa 8
      (s.writePhys q.pkg host q.pa (leBytes 8 (barArrive old))).setReq r (some { q with ans := some [old / 2 ^ 32] }))
  | _ => s

/-- A plain request kind. -/
def ReqKind.plain : ReqKind → Bool
  | .load .. => true
  | .store .. => true
  | .bar => true
  | _ => false

/-- The request's home is on another die of the package (R295). -/
def Req.converted (q : Req) : Bool := q.pl < 2 && homeDieOf q.place ≠ dieOfCtx q.x

/-- R254: a plain access of a control processor to a home of its own die or to host memory. -/
def cpPlainAccess (s : State) (r : Nat) : State :=
  match reqReady s r with
  | none => s
  | some q => if q.kind.plain && !q.converted then performPlain s r q else s

/-- R295: CONVERTED_ACCESS of request r. -/
def execConvertedAccess (r : Nat) (s : State) : Out :=
  match reqReady s r with
  | none => .next s
  | some q => .next (if q.kind.plain && q.converted then performPlain s r q else s)

/-- The value of an atomic (R257): fn counts from AADD as 0; op and cmp are reduced to n bytes. -/
def amoNew (fn n old op cmp : Nat) : Nat :=
  match fn with
  | 0 => (old + op) % 2 ^ (8 * n)
  | 1 => fadd Fmt.fp32 0 (old % 2 ^ 32) (op % 2 ^ 32)
  | 2 => if sextN op (8 * n) < sextN old (8 * n) then op else old
  | 3 => if sextN old (8 * n) < sextN op (8 * n) then op else old
  | 4 => old &&& op
  | 5 => old ||| op
  | 6 => old ^^^ op
  | 7 => op
  | _ => if old = cmp then op else old

/-- R258: ATOMIC_AT_HOME of request r. -/
def execAtomicAtHome (r : Nat) (s : State) : Out :=
  match reqReady s r with
  | none => .next s
  | some q =>
    match q.kind with
    | .atomic fn size op cmp _ =>
      let s := countHome s (dieOfCtx q.x) q.place
      .next (readHome s q.x q.place size (fun s => dropReq s r q) (fun s =>
        let old := s.readPhys q.pkg false q.pa size
        (s.writePhys q.pkg false q.pa (leBytes size (amoNew fn size old op cmp))).setReq r (some { q with ans := some [old] })))
    | _ => .next s

/-- The home of a queue block serves a command of request r, unless what it reads is in error (R255, R269). -/
def serveQueue (s : State) (r : Nat) (q : Req) (pop : Bool) (k : State → State) : State :=
  let s := countHome s (dieOfCtx q.x) q.place
  readHomes s q.x (qReads s q.place pop) (fun s => dropReq s r q) k

/-- A queue command ends with fault 0x73 and changes nothing (R269). -/
def queueFault (s : State) (r : Nat) (q : Req) : State :=
  s.setReq r (some { q with ans := some [], flt := some (s.tickOf (dieOfCtx q.x)) })

/-- R269: QPUSH_AT_HOME of request r. -/
def execQpushAtHome (r : Nat) (s : State) : Out :=
  match reqReady s r with
  | none => .next s
  | some q =>
    match q.kind with
    | .qpush _ fields =>
      .next (serveQueue s r q false (fun s =>
        if qOk s q.pkg q.pa then
          let (s, ok) := qPush s q.pkg q.pa (fields.map BitVec.toNat)
          s.setReq r (some { q with ans := some [qStatus s q.pkg q.pa ok] })
        else queueFault s r q))
    | _ => .next s

/-- R269: QPOP_AT_HOME of request r. -/
def execQpopAtHome (r : Nat) (s : State) : Out :=
  match reqReady s r with
  | none => .next s
  | some q =>
    match q.kind with
    | .qpop _ _ =>
      .next (serveQueue s r q true (fun s =>
        if qOk s q.pkg q.pa then
          let (s, rec) := qPop s q.pkg q.pa
          s.setReq r (some { q with ans := some (qStatus s q.pkg q.pa rec.isSome :: rec.getD (List.replicate 16 0)) })
        else queueFault s r q))
    | _ => .next s

/-! ## Answers -/

/-- The data cache of core c takes a line; a full cache gives up the line that it has held longest (R2, log 54). -/
def dcFill (s : State) (c pa : Nat) (line : List Byte) : State :=
  s.modCore c (fun k => { k with dc := ((pa / 64, line) :: Tab.erase k.dc (pa / 64)).take dcLines })

/-- A load's value lands; the line is kept when it is homed on the context's own die. A line that may not be kept, since a store of the
core or an invalidation came after it was read, drops the copy too: that may be older (R18, R71, R100). -/
def landLoad (s : State) (r : Nat) (q : Req) (xd size : Nat) (signed : Bool) (v : Nat) : State :=
  let s := if !cacheable (coreOf q.x) q.place then s
    else if q.noFill then dcDrop s (coreOf q.x) q.pa
    else dcFill s (coreOf q.x) q.pa q.line
  let s := s.modCtx q.x (fun c => { (c.wx xd (landVal size signed v)) with
    await := if xd = 0 then c.await else setBit c.await xd false })
  fenceCheck (s.setReq r none) q.x

/-- No earlier load of the core from the same line awaits its answer: answers of a line arrive in the order in which its home
performed them (R18, log 55). -/
def landsNext (s : State) (r : Nat) (q : Req) : Bool :=
  (Tab.members s.reqs).all (fun p => !(p.1 < r && coreOf p.2.x = coreOf q.x && p.2.near s q.va q.place && match p.2.kind with
    | .load .. => true
    | _ => false))

/-- R71, R105: LOAD_ANSWER of request r. An arrival drops the core's cached copy of the barrier word (R18, R107). -/
def execLoadAnswer (r : Nat) (s : State) : Out :=
  match s.req r with
  | none => .next s
  | some q =>
    whileRuns s (dieOfCtx q.x) (match q.kind, q.ans with
    | .load xd size signed, some [v] => .next (if landsNext s r q then landLoad s r q xd size signed v else s)
    | .bar, some [gen] =>
      let s := dcDrop (s.setReq r none) (coreOf q.x) q.pa
      .next (s.modIssue q.x (fun is => if is.bar = .sent then { is with bar := .arrived gen } else is))
    | _, _ => .next s)

/-- The imprecise record of a queue command's fault, which its home controller reports (R26, R269, R274). -/
def postQueueFault (s : State) (q : Req) : State :=
  match q.flt with
  | some t => postRec s q.x (mkRecAt s q.x false ⟨0x73, 0, 0, cmdDetail q.word 0xFF 0, homeCtl q.pa⟩ t)
  | none => s

/-- The core's cached copies of the lines of a queue block's header and records are dropped: a command has accessed them (R18). -/
def dropQueue (s : State) (q : Req) : State := [0, 64, 128, 192].foldl (fun s off => dcDrop s (coreOf q.x) (q.pa + off)) s

/-- The lease of a home command ends with its answer (R72, R258, R269). -/
def reqLeaseEnd (s : State) (r : Nat) : State :=
  match s.req r with
  | none => s
  | some q =>
    match q.kind, q.ans with
    | .atomic _ _ _ _ xd, some as =>
      let s := dcDrop (s.setReq r none) (coreOf q.x) q.pa
      let s := endLease s q.x xd (BitVec.ofNat 64 (as.headD 0))
      (match q.acquire with
        | some sc => acquire s (coreOf q.x) sc
        | none => s)
    | .qpush xd _, some as =>
      postQueueFault (endLease (dropQueue (s.setReq r none) q) q.x xd (BitVec.ofNat 64 (as.headD 0))) q
    | .qpop xd grp, some as =>
      let s := landGroup (endLease (dropQueue (s.setReq r none) q) q.x xd (BitVec.ofNat 64 (as.headD 0))) q.x grp (as.drop 1)
      (postQueueFault (match q.acquire with
        | some sc => acquire s (coreOf q.x) sc
        | none => s) q)
    | _, _ => s

/-- The access kind of a request (R287). -/
def ReqKind.access : ReqKind → Nat
  | .load .. => 0
  | .store .. => 1
  | _ => 2

/-- R291: a redirect makes the requester drop its TLB entry, walk again and resend. -/
def execMigrationRedirect (r : Nat) (s : State) : Out :=
  match s.req r with
  | none => .next s
  | some q =>
    if q.ans.isNone && gate s q.place = .redirect && !s.stopped (dieOfCtx q.x) then
      match translateFor (dropTlb s (coreOf q.x) q.va) (coreOf q.x) (some (64 + r)) [] (BitVec.ofNat 64 q.va) q.kind.access with
      | .ok p s => .next (s.setReq r (some { q with pkg := p.pkg, pa := p.pa, pl := p.pl, home := p.home }))
      | .check f s => .next (machineCheck (dropReq s r q) q.x f)
      | .fault _ _ s => .next s
      | .serviced _ _ _ _ s => .next s
      | .locked s => .next s
    else .next s

end Sys2Proof.Machine
end

