-- ==== Sys2Proof/Machine/Ordering.lean ====
section
/-! DEFINITION. FENCE and BAR (R103 to R107). -/

namespace Sys2Proof.Machine

/-- FENCE holds back later M and E bundles until every earlier access is performed (R103). -/
def execFence (g : Guard) (sc : BitVec 3) (s : State) : Out :=
  slotABM g [] (fun s => .done (fenceCheck (s.modMe (fun c => { c with fence := some sc.toNat })) s.cur.x)) s

/-- An ORD with a release, with an acquire (R62). -/
def ordRel (o : BitVec 2) : Bool := o.getLsbD 0
def ordAcq (o : BitVec 2) : Bool := o.getLsbD 1

/-- The steps of BAR up to the arrival, which is sent to the home of the barrier word (R105). -/
def barBody (o : BitVec 2) (a : BitVec 5) (s : State) : SlotRes :=
  match s.me.issue with
  | none => .wait s
  | some is =>
    let ea := s.rx a
    if !(entriesOf s s.cur.x).isEmpty then .wait s
    else if is.sync && s.me.pend.isSome then .wait (deliverPending s s.cur.x)
    else
      match is.bar with
      | .none =>
        if ea.toNat % 8 ≠ 0 then .fault ⟨0x05, 1, ea.toNat, 3, 0⟩ s
        else
          withPlace s ea 2 (fun p s =>
            .wait ((s.addReq (mkReq s ea p .bar (ordRel o) none)).modIssue s.cur.x (fun is => { is with bar := .sent })))
      | _ => .wait s

/-- R104, R105. The slot is performed at departure. -/
def execBar (g : Guard) (_sc : BitVec 3) (o : BitVec 2) (a : BitVec 5) (s : State) : Out :=
  slotABM g [a] (barBody o a) s

/-- The departure of a BAR: the GEN of the word at its home differs from that of the arrival (R105, R106). The core's cached copy of
the word is dropped, so that no later load reads an earlier value of it (R18, R107). -/
def departure (w : Word32) (gen : Nat) (s : State) : State :=
  let ea := s.rxn (fldN w 12 5)
  settle (withGate s ea 0 (fun p s =>
    match serveRead s (dieOfCtx s.cur.x) p 8 with
    | (s, some f) => .check f s
    | (s, none) =>
      if s.readPhys p.pkg (p.pl = 2) p.pa 8 / 2 ^ 32 = gen then .wait s
      else
        let s := dcDrop s (coreOf s.cur.x) p.pa
        .done (if bit w 18 then acquire s (coreOf s.cur.x) (fldN w 19 3) else s)))

/-- R105: BAR_DEPARTURE of context x. -/
def execBarDeparture (x : Nat) (s : State) : Out :=
  match (s.ctx x).issue with
  | none => .next s
  | some is =>
    match is.bar with
    | .arrived gen =>
      if bit is.perf 2 || s.stopped (dieOfCtx x) then .next s
      else .next (closeBundle (departure (is.words.getD 2 0) gen { s with cur := ⟨x, 2, coreOf x⟩ }) x)
    | _ => .next s

end Sys2Proof.Machine
end

