-- ==== Sys2Proof/Machine/Scoreboard.lean ====
section
/-! DEFINITION. Acceptance, dependences and retirement of scoreboard entries (R15, R121 to R129). -/

namespace Sys2Proof.Machine

/-- A field locator (R129): register n or 32 + handle number, and the field's lowest bit. -/
def locator (wh lo : Nat) : Nat := wh * 2 ^ 8 + lo

/-- The stalls that an entry names, by first granule. -/
def Entry.bases (e : Entry) : List Nat := e.reads.map (fun r => hBase r.2.1) ++ e.writes.map (fun r => hBase r.2)

/-- Entry b depends on the earlier entry a (R124). -/
def dependsOn (a b : Entry) : Bool :=
  a.ctx = b.ctx && a.seq < b.seq &&
    (a.writes.any (fun w => b.bases.contains (hBase w.2)) || b.writes.any (fun w => a.bases.contains (hBase w.2)))

/-- Entries that wait for nothing any longer become READY (R122). -/
def wakeEntries (s : State) (c : Nat) : State :=
  let es := entries s c
  s.modCore c (fun v => { v with sb := v.sb.map (fun p => (p.1, p.2.map (fun e =>
    if e.st = .waiting ∧ !es.any (fun q => dependsOn q.2 e) then { e with st := .ready } else e))) })

/-- The lowest free number of the scoreboard (R122, log 57). -/
def freeEntry (s : State) (c : Nat) : Nat :=
  ((List.range 32).find? (fun e => (s.entry c e).isNone)).getD 32

/-- A new entry (R121, R122): expected tags are the handles' issued generations as read. -/
def newEntry (s : State) (x : Nat) (w : Word32) (cap : Tab Word) (reads writes : List (Nat × Word)) : Entry :=
  { ctx := x % 4, word := w, cap := cap, reads := reads.map (fun r => (r.1, r.2, hGen r.2)), writes := writes, st := .waiting,
    seq := (s.core (coreOf x)).seq, resume := 0, done := [], tagOk := false, flt := none, stop := false, badMeta := none,
    touches := 0, touch := none, held := false, part := [], idx := [], snap := [], reach := [], cfail := none, kcount := 0,
    places := [], sub := 0, bag := 0, k := 0, acc := [], owed := 0, void := false }

/-- An entry takes its place in the scoreboard. -/
def enterEntry (s : State) (x : Nat) (e : Entry) : State :=
  let c := coreOf x
  let s := dropMiss s c (4 + freeEntry s c)
  wakeEntries ((s.setEntry c (freeEntry s c) (some { e with seq := (s.core c).seq })).modCore c
    (fun v => { v with seq := v.seq + 1 })) c

/-- IGEN of a handle advances (R15, R121). -/
def stepGen (h : Word) : Word :=
  (h &&& ~~~(0x0FF0000000000000 : Word)) ||| BitVec.ofNat 64 ((hGen h + 1).toNat * 2 ^ 52)

/-- The command of the current slot is accepted with the stalls it declares (R15, R121, R122). -/
def accept (reads writes : List Nat) (s : State) : State :=
  let x := s.cur.x
  let cap := match s.me.issue with
    | some is => (is.cap.getD 3 []).filter (fun p => p.1 < 32)
    | none => []
  let e := newEntry s x s.word cap (reads.map (fun n => (n, s.me.rh n))) (writes.map (fun n => (n, s.me.rh n)))
  let s := s.modMe (fun c => writes.foldl (fun c n => c.wh n (stepGen (c.rh n))) c)
  enterEntry s x e

/-- R129: every named handle must be valid; the first that is not, in the order of the assembly form, raises fault 0x20 (log 58). -/
def needHandles (hs : List Nat) (k : State → SlotRes) (s : State) : SlotRes :=
  match hs.find? (fun n => !hV (s.rh n)) with
  | some n => .fault (cmdFault s 0x20 n) s
  | none => k s

/-- Faults of the acceptance checks: the first offence in the order listed, as code and DETAIL value, or acceptance (log 59). -/
def checked (bad : List (Bool × Nat × Nat)) (k : State → SlotRes) (s : State) : SlotRes :=
  match bad.find? (fun b => b.1) with
  | some b => .fault (cmdFault s b.2.1 b.2.2) s
  | none => k s

/-- The tag of a stall that a writer or a push has changed advances (R121). -/
def stepTag (s : State) (c base : Nat) : State := modStall s c base (fun t => { t with tag := t.tag + 1 })

/-- The comparison of R15 at an entry's first read: the first stall whose tag differs, with both tags. -/
def tagMismatch (s : State) (c : Nat) (e : Entry) : Option (Nat × Nat) :=
  e.reads.findSome? (fun r =>
    match stallAt (s.core c).stalls (hBase r.2.1) with
    | none => none
    | some t => if t.tag = r.2.2 then none else some (r.2.2.toNat, t.tag.toNat))

/-- The entry ends with an imprecise fault: it moves nothing further and retires (R127). -/
def failEntry (s : State) (c i : Nat) (f : Flt) : State :=
  match s.entry c i with
  | none => s
  | some e => s.setEntry c i (some { e with stop := true, flt := some (e.flt.getD (mkRec s (c * 4 + e.ctx) false f)) })

/-- An imprecise fault of an entry, with the DETAIL of R129. -/
def entryFault (s : State) (c i code v : Nat) : State :=
  match s.entry c i with
  | none => s
  | some e => failEntry s c i (Flt.mk0 code (cmdDetail e.word i v))

/-- A translation fault that the hardware scheduler services stops an entry at its resume point; the task is saved (R145,
R285). One upcall is outstanding for a task at a time. -/
def stopEntry (s : State) (c i va kind : Nat) (node : Bool) (region level : Nat) : State :=
  match s.entry c i with
  | none => s
  | some e =>
    (s.setEntry c i (some { e with st := .stopped })).modCtx (c * 4 + e.ctx)
      (fun k => { k with save := some (match k.save with
        | some (.fault a b n d l e) => .fault a b n d l e
        | _ => .fault va kind node region level (some i)) })

/-- An entry whose read finds an uncorrectable word moves nothing further (R385). -/
def endEntry (s : State) (c i : Nat) : State := s.setEntry c i ((s.entry c i).map (fun e => { e with stop := true }))

/-- Translation for an entry (R145, R263): a place, or the state in which the entry has failed, stopped or waits. -/
def entryPlace (s : State) (c i va kind : Nat) : Except State (Place × State) :=
  match s.entry c i with
  | none => .error s
  | some e =>
    let pops := match (s.ctx (c * 4 + e.ctx)).task with
      | some t => t.pops
      | none => []
    match translateFor s c (some (4 + i)) pops (BitVec.ofNat 64 va) kind with
    | .ok p s => .ok (p, s)
    | .fault code detail s => .error (failEntry s c i ⟨code, 1, va % 2 ^ 64, cmdDetail e.word i detail, 0⟩)
    | .serviced kind node region level s => .error (stopEntry s c i (va % 2 ^ 64) kind node region level)
    | .check f s => .error (machineCheck (endEntry s c i) (c * 4 + e.ctx) f)
    | .locked s => .error s

/-- Record r of an entry is complete (R145). -/
def Entry.isDone (e : Entry) (r : Nat) : Bool := r < e.resume || e.done.contains r

/-- The resume point with the completed records above it. -/
def advance : Nat → Nat → List Nat → Nat × List Nat
  | 0, r, d => (r, d)
  | n + 1, r, d => if d.contains r then advance n (r + 1) (d.filter (· ≠ r)) else (r, d)

/-- Record r of an entry becomes complete. -/
def Entry.finish (e : Entry) (r : Nat) : Entry :=
  let d := r :: e.done
  let (n, d) := advance d.length e.resume d
  { e with resume := n, done := d, part := Tab.erase e.part r, idx := Tab.erase e.idx r, snap := Tab.erase e.snap r }

/-- Which engine starts an entry (R125): 0 stream engine, 1 cluster array, 2 home-controller path, 3 commit path. -/
def engineOf (w : Word32) : Nat :=
  if opOf w = 0x1D then 0 else if opOf w = 0x1E then 1 else if subOf w ≤ 1 then 2 else 3

/-- SRECV (R128). -/
def isSrecv (w : Word32) : Bool := opOf w = 0x1D && subOf w = 6 && !bit w 0 && en2 w = 0

/-- SFREE, pull, push. -/
def isSfree (w : Word32) : Bool := opOf w = 0x1D && subOf w = 1
def isPull (w : Word32) : Bool := opOf w = 0x1D && subOf w = 6 && !bit w 0 && en2 w ≠ 0
def isPush (w : Word32) : Bool := opOf w = 0x1D && subOf w = 6 && bit w 0

/-- The push counter of an SRECV's stall is at least 1 (R138). -/
def pushWaiting (s : State) (c : Nat) (e : Entry) : Bool :=
  match e.writes with
  | (_, h) :: _ => match stallAt (s.core c).stalls (hBase h) with
    | some t => 0 < t.push
    | none => false
  | [] => false

/-- A serviced translation fault has stopped an entry of context x; a kernel that a save stopped is none of these (R145, R169). -/
def faulted (s : State) (x : Nat) : Bool := (entriesOf s x).any (fun p => p.2.st = .stopped && opOf p.2.word ≠ 0x1E)

/-- Context x still starts entries: none of a task that ends (R372), none once a save is asked for (R82, R169), but that all which can start
run to completion before the save for a serviced fault that stopped an entry (R145). -/
def startsMore (s : State) (x : Nat) : Bool := (s.ctx x).kill.isNone && ((s.ctx x).save.isNone || faulted s x)

/-- An entry that could start when its engine has room (R125, R371). -/
def startable (s : State) (c : Nat) (e : Entry) : Bool :=
  e.st = .ready && (!isSrecv e.word || pushWaiting s c e) && startsMore s (c * 4 + e.ctx)

/-- The entry is the oldest startable one of its engine, and the engine has room (R125). -/
def mayStart (s : State) (c : Nat) (e : Entry) : Bool :=
  let es := (entries s c).map (·.2)
  let eng := engineOf e.word
  let busy := (es.filter (fun f => f.st = .started && engineOf f.word = eng)).length
  startable s c e && (if eng = 1 then (s.core c).ca.inv.isNone else busy < 8) &&
    es.all (fun f => !(engineOf f.word = eng && f.seq < e.seq && startable s c f))

/-- Effect of retirement on the stalls that the entry writes (R121, R126, R131, R138). -/
def retireWrites (s : State) (c : Nat) (e : Entry) : State :=
  if isSfree e.word then
    s.modCore c (fun k => { k with stalls := k.stalls.filter (fun t => !e.writes.any (fun w => hBase w.2 = t.base)) })
  else if isSrecv e.word then s
  else e.writes.foldl (fun s w => stepTag s c (hBase w.2)) s

/-- The record of fault 0x29: the lowest record with illegal 2:4 metadata (R134). -/
def metaRec (s : State) (c i : Nat) (e : Entry) : List Rec :=
  match e.badMeta with
  | none => []
  | some (r, t) => [mkRecAt s (c * 4 + e.ctx) false (Flt.mk0 0x29 (cmdDetail e.word i r)) t]

/-- An entry retires: tags advance, its faults become pending, in the order in which they arose, and entries that waited for it become READY
(R126, R127). -/
def retireEntry (s : State) (c i : Nat) (recs : List Rec) : State :=
  match s.entry c i with
  | none => s
  | some e =>
    let s := retireWrites s c e
    let s := (metaRec s c i e ++ e.flt.toList ++ recs).foldl (fun s r => postRec s (c * 4 + e.ctx) r) s
    wakeEntries (s.setEntry c i none) c

end Sys2Proof.Machine
end

