-- ==== Sys2Proof/Machine/HomeCmd.lean ====
section
/-! DEFINITION. Home-controller commands at the control processor: atomics, queues, scatter-add and row update (R256 to R264,
R268, R269). -/

namespace Sys2Proof.Machine

/-- Placement for a home command: host memory raises fault 0x71 (R256). -/
def homePlace (va : Word) (k : Place → State → SlotRes) (s : State) : SlotRes :=
  withPlace s va 2 (fun p s =>
    if p.pl = 2 then .fault ⟨0x71, 1, va.toNat, cmdDetail s.word 0xFF 0, 0⟩ s else k p s)

/-- R258: the checks of an atomic and its acceptance. fn counts from AADD as 0. -/
def amoBody (d : BitVec 5) (p : BitVec 4) (sc : BitVec 3) (o : BitVec 2) (z : Bool) (fn : Nat) (s : State) : SlotRes :=
  let ea := s.rxn (2 * p.toNat)
  let n := if z then 8 else 4
  if ea.toNat % n ≠ 0 then .fault ⟨0x72, 1, ea.toNat, cmdDetail s.word 0xFF n, 0⟩ s
  else
    homePlace ea (fun pl s =>
      let kind := ReqKind.atomic fn n ((s.rxn (2 * p.toNat + 1)).toNat % 2 ^ (8 * n)) ((s.rx d).toNat % 2 ^ (8 * n)) d.toNat
      .done (lease (s.addReq (mkReq s ea pl kind (ordRel o) (if ordAcq o then some sc.toNat else none))) d.toNat)) s

/-- An atomic of class E (R257, R258). -/
def amoOp (g : Guard) (d : BitVec 5) (p : BitVec 4) (sc : BitVec 3) (o : BitVec 2) (z : Bool) (fn : Nat) (s : State) : Out :=
  slotE g [d.toNat, 2 * p.toNat, 2 * p.toNat + 1] (amoBody d p sc o z fn) s

/-- R257, R258. -/
def execAadd (g : Guard) (d : BitVec 5) (p : BitVec 4) (sc : BitVec 3) (o : BitVec 2) (z : BitVec 1) (s : State) : Out :=
  amoOp g d p sc o (z = 1) 0 s
/-- R257, R258. -/
def execAfadd (g : Guard) (d : BitVec 5) (p : BitVec 4) (sc : BitVec 3) (o : BitVec 2) (s : State) : Out :=
  amoOp g d p sc o false 1 s
/-- R257, R258. -/
def execAmin (g : Guard) (d : BitVec 5) (p : BitVec 4) (sc : BitVec 3) (o : BitVec 2) (z : BitVec 1) (s : State) : Out :=
  amoOp g d p sc o (z = 1) 2 s
/-- R257, R258. -/
def execAmax (g : Guard) (d : BitVec 5) (p : BitVec 4) (sc : BitVec 3) (o : BitVec 2) (z : BitVec 1) (s : State) : Out :=
  amoOp g d p sc o (z = 1) 3 s
/-- R257, R258. -/
def execAand (g : Guard) (d : BitVec 5) (p : BitVec 4) (sc : BitVec 3) (o : BitVec 2) (z : BitVec 1) (s : State) : Out :=
  amoOp g d p sc o (z = 1) 4 s
/-- R257, R258. -/
def execAor (g : Guard) (d : BitVec 5) (p : BitVec 4) (sc : BitVec 3) (o : BitVec 2) (z : BitVec 1) (s : State) : Out :=
  amoOp g d p sc o (z = 1) 5 s
/-- R257, R258. -/
def execAxor (g : Guard) (d : BitVec 5) (p : BitVec 4) (sc : BitVec 3) (o : BitVec 2) (z : BitVec 1) (s : State) : Out :=
  amoOp g d p sc o (z = 1) 6 s
/-- R257, R258. -/
def execAxchg (g : Guard) (d : BitVec 5) (p : BitVec 4) (sc : BitVec 3) (o : BitVec 2) (z : BitVec 1) (s : State) : Out :=
  amoOp g d p sc o (z = 1) 7 s
/-- R257, R258. -/
def execAcas (g : Guard) (d : BitVec 5) (p : BitVec 4) (sc : BitVec 3) (o : BitVec 2) (z : BitVec 1) (s : State) : Out :=
  amoOp g d p sc o (z = 1) 8 s

/-- The 16 fields of a record group (R268). -/
def groupFields (s : State) (r : BitVec 3) : List Word32 :=
  (List.range 8).flatMap (fun i => [fld (s.rxn (8 * r.toNat + i)) 0 32, fld (s.rxn (8 * r.toNat + i)) 32 32])

/-- R269: the checks of a queue command on the address q. -/
def queuePlace (q : Word) (k : Place → State → SlotRes) (s : State) : SlotRes :=
  if q.toNat % 256 ≠ 0 then .fault ⟨0x72, 1, q.toNat, cmdDetail s.word 0xFF 256, 0⟩ s else homePlace q k s

/-- R268, R269. -/
def execQpush (g : Guard) (d a : BitVec 5) (r sc : BitVec 3) (s : State) : Out :=
  let _ := sc
  slotE g (d.toNat :: a.toNat :: regRun (8 * r.toNat) 8) (fun s =>
    queuePlace (s.rx a) (fun p s =>
      .done (lease (s.addReq (mkReq s (s.rx a) p (.qpush d.toNat (groupFields s r)) true none)) d.toNat)) s) s

/-- R268, R269. -/
def execQpop (g : Guard) (d a : BitVec 5) (r sc : BitVec 3) (s : State) : Out :=
  slotE g (d.toNat :: a.toNat :: regRun (8 * r.toNat) 8) (fun s =>
    queuePlace (s.rx a) (fun p s =>
      let s := s.addReq (mkReq s (s.rx a) p (.qpop d.toNat r.toNat) false (some sc.toNat))
      let s := s.modMe (fun c => match c.task with
        | some t => { c with task := some { t with pops := (p.pa :: t.pops.filter (· ≠ p.pa)) } }
        | none => c)
      .done ((regRun (8 * r.toNat) 8).foldl lease (lease s d.toNat))) s) s

/-- Element size of FMT in scatter-add and bags (R137, R261). -/
def eszOf (fmt : Nat) : Nat := if fmt = 1 ∨ fmt = 2 then 2 else 4

/-- R260, R261: the checks of SSCADD and of SSCADDG. xa is the first register of the operands. -/
def scatterBad (s : State) (v i : BitVec 5) (xa : Nat) : List (Bool × Nat × Nat) :=
  let c := s.rxn (xa + 1)
  let hv := s.rh v.toNat
  let hi := s.rh i.toNat
  let bv := hRsz hv % eszOf (fldN c 62 2) ≠ 0
  let bi := hRsz hi ≠ 4
  [(bv && (!bi || v.toNat ≤ i.toNat), 0x70, locator (32 + v.toNat) 0), (bi, 0x70, locator (32 + i.toNat) 0),
   (hCapr hv < fldN c 0 32, 0x23, hCapr hv), (hCapr hi < fldN c 0 32, 0x23, hCapr hi)]

/-- Fault 0x72 of a table base that is not a multiple of n (R261, R264). -/
def baseAligned (t : Word) (n : Nat) (k : State → SlotRes) (s : State) : SlotRes :=
  if t.toNat % n ≠ 0 then .fault ⟨0x72, 1, t.toNat, cmdDetail s.word 0xFF n, 0⟩ s else k s

/-- R260, R261. -/
def execSscadd (g : Guard) (v i : BitVec 5) (a : BitVec 4) (s : State) : Out :=
  slotE g (regRun (2 * a.toNat) 2) (needHandles [v.toNat, i.toNat] (fun s =>
    checked (scatterBad s v i (2 * a.toNat)) (baseAligned (s.rxn (2 * a.toNat)) (eszOf (fldN (s.rxn (2 * a.toNat + 1)) 62 2))
      (fun s => .done (accept [v.toNat, i.toNat] [] s))) s)) s

/-- The number is a power of two from 1 to n (R264). -/
def powUpTo (n e : Nat) : Bool := (List.range 11).any (fun k => 2 ^ k = e && e ≤ n)

/-- FP32 finite and positive (R264). -/
def posFinite (v : Nat) : Bool := 0 < v && v < 0x7F800000

/-- R264: the checks of SROWUPD. -/
def rowBad (s : State) (v i : BitVec 5) (xa : Nat) : List (Bool × Nat × Nat) :=
  let c := s.rxn (xa + 1)
  let e := s.rxn (xa + 3)
  let alg := fldN c 62 2
  let hv := s.rh v.toNat
  let hi := s.rh i.toNat
  let bv := !powUpTo (if alg = 0 then 1024 else 512) (hRsz hv / 4)
  let bi := hRsz hi ≠ 4
  [(alg = 3, 0x70, locator (xa + 1) 62), (alg = 2 && !posFinite (fldN e 0 32), 0x70, locator (xa + 3) 0),
   (fldN e 32 32 ≠ 0, 0x70, locator (xa + 3) 32),
   (bv && (!bi || v.toNat ≤ i.toNat), 0x70, locator (32 + v.toNat) 0), (bi, 0x70, locator (32 + i.toNat) 0),
   (hCapr hv < fldN c 0 32, 0x23, hCapr hv), (hCapr hi < fldN c 0 32, 0x23, hCapr hi)]

/-- Row stride of a row update (R264). -/
def rowStride (alg rsz : Nat) : Nat := if alg = 0 then rsz else 2 * rsz

/-- R260, R264. -/
def execSrowupd (g : Guard) (v i : BitVec 5) (a : BitVec 3) (s : State) : Out :=
  let xa := 4 * a.toNat
  slotE g (regRun xa 4) (needHandles [v.toNat, i.toNat] (fun s =>
    checked (rowBad s v i xa) (baseAligned (s.rxn xa) (rowStride (fldN (s.rxn (xa + 1)) 62 2) (hRsz (s.rh v.toNat)))
      (fun s => .done (accept [v.toNat, i.toNat] [] s))) s)) s

end Sys2Proof.Machine
end

