-- ==== Sys2Proof/Machine/LinkCore.lean ====
section
/-! DEFINITION. Package ports, routes and generations of the interleave table, and timers that a hold pauses (R304 to R307,
R310, R311). -/

namespace Sys2Proof.Machine

/-! ## Ports -/

/-- LPCFG of a port of package p (R307). -/
def lpcfgOf (s : State) (p port : Nat) : Word := Tab.get lpcfgReset (s.die (p * 4 + port / 4)).lpcfg (port % 4)
def setLpcfg (s : State) (p port : Nat) (v : Word) : State :=
  s.modDie (p * 4 + port / 4) (fun d => { d with lpcfg := Tab.set lpcfgReset d.lpcfg (port % 4) v })

/-- UP of a port. -/
def portUp (s : State) (p port : Nat) : Bool := bit (lpcfgOf s p port) 63

/-- WHY of LPCFG. -/
def setWhy (v : Word) (why : Nat) : Word := (v &&& ~~~(0x7000000000000000 : Word)) ||| BitVec.ofNat 64 (why % 8 * 2 ^ 60)

/-- A port goes down with a reason; what its groups have failed is forgotten (R307, R308). -/
def portDown (s : State) (p port why : Nat) : State :=
  (setLpcfg s p port (setWhy (setBit (lpcfgOf s p port) 63 false) why)).modDie (p * 4 + port / 4)
    (fun d => { d with tagFails := d.tagFails.filter (fun t => t.1 % 4 ≠ port % 4) })

/-! ## Routes -/

/-- GEN and OLD of ITCTL (R304). -/
def genOf (s : State) (p : Nat) : Nat := fldN (s.pkg p).itctl 44 4
def oldOf (s : State) (p : Nat) : Nat := fldN (s.pkg p).itctl 48 4

/-- The current interleave entry of die d for package q (R304). -/
def ilvOf (s : State) (d q : Nat) : Word := Tab.get 0 (s.die d).ilv (genOf s (pkgOfDie d) % 2 * 1024 + q)

/-- The package is the die's own, or its interleave entry has V = 1 (R301, R337). -/
def linked (s : State) (d q : Nat) : Bool := pkgOfDie d = q || bit (ilvOf s d q) 63

/-- The port by which die d routes traffic to package q for an address: PMASK and UP alone decide (R305). -/
def routePort (s : State) (d q v : Nat) : Option Nat :=
  let m := (List.range 16).filter (fun i => bit (ilvOf s d q) i && portUp s (pkgOfDie d) i)
  m[v / 2 ^ 12 % 2 ^ 20 % m.length]?

/-- The port of a packet of the commit channel: none, so that it is held, also where the target's entry has V = 0 (R392). -/
def packetPort (s : State) (d q v : Nat) : Option Nat := if linked s d q then routePort s d q v else none

/-- A verb goes to another package. -/
def Verb.remote (v : Verb) : Bool := v.target ≠ pkgOfCtx v.x

/-- A packet leaves its package. -/
def Pkt.remote (k : Pkt) : Bool := k.from_ / 4 ≠ k.to_ / 4

/-- DRAIN: requests of package p stamped with the old generation that have neither left nor been redirected (R304). -/
def drainOf (s : State) (p : Nat) : Nat :=
  ((Tab.members s.verbs).filter (fun v => pkgOfCtx v.2.x = p && v.2.remote && !v.2.sent && v.2.busy && v.2.gen = oldOf s p)).length +
    ((Tab.members s.pkts).filter (fun k => k.2.from_ / 4 = p && k.2.remote && !k.2.held && k.2.gen = oldOf s p)).length

/-- OV: the old generation is still accepted (R306). -/
def itOv (s : State) (p : Nat) : Bool := bit (s.pkg p).itctl 52 && 0 < drainOf s p

/-- A request's stamp is accepted by the port's link engine (R306). -/
def genOk (s : State) (p gen : Nat) : Bool := gen = genOf s p || (itOv s p && gen = oldOf s p)

/-- The port sends a request of package p that is routed to it (R306). -/
def portSends (s : State) (p port gen : Nat) : Bool := portUp s p port && genOk s p gen

/-! ## Timers -/

/-- DHOLD of package p (R310). -/
def dhold (s : State) (p : Nat) : Bool :=
  (List.range 4).any (fun i => (s.die (p * 4 + i)).halt) || !(s.pkg p).linkHold.isEmpty

/-- Cycles since a timer of package p started, without those in which DHOLD paused it (R310). -/
def elapsed (s : State) (p start : Nat) : Nat := (s.pkg p).heldAt.getD (s.cycles p) - start

/-- The cycle from which a timer of package p that starts now counts (R310). -/
def timerNow (s : State) (p : Nat) : Nat := (s.pkg p).heldAt.getD (s.cycles p)

/-- The timers of package p start n cycles later: verb timeouts, destination leases and group deadlines (R310, R330). -/
def shiftTimers (s : State) (p n : Nat) : State :=
  let verbs : Tab (Option Verb) := s.verbs.map (fun v =>
    (v.1, v.2.map (fun (w : Verb) => if pkgOfCtx w.x = p then { w with start := w.start + n } else w)))
  let sheds : Tab (List ShedGroup) := s.sheds.map (fun t =>
    if t.1 / 132 = p then (t.1, t.2.map (fun (g : ShedGroup) => { g with timer := g.timer + n })) else t)
  let later := fun (g : GSlot) => { g with resumed := g.resumed.map (· + n) }
  let cores : Tab Core := s.cores.map (fun c =>
    if pkgOf c.1 = p then (c.1, { c.2 with slots := c.2.slots.map (fun g => (g.1, later g.2)) }) else c)
  { s with verbs := verbs, sheds := sheds, cores := cores }

/-- DHOLD may have changed: timers pause at its rise and go on after its fall (R310). -/
def updateHold (s : State) (p : Nat) : State :=
  match dhold s p, (s.pkg p).heldAt with
  | true, none => s.modPkg p (fun k => { k with heldAt := some (s.cycles p) })
  | false, some t => shiftTimers (s.modPkg p (fun k => { k with heldAt := none })) p (s.cycles p - t)
  | _, _ => s

end Sys2Proof.Machine
end

