-- ==== Sys2Proof/Machine/StreamCmd.lean ====
section
/-! DEFINITION. Acceptance of stream instructions, SWAIT and LWAIT (R111, R128 to R139). -/

namespace Sys2Proof.Machine

/-- R130: the checks of SALLOC; the request is then on its way and xd is leased. -/
def sallocBody (d h a : BitVec 5) (s : State) : SlotRes :=
  let q := s.rx a
  let push := fun (s : State) => SlotRes.done ((lease s d.toNat).modMe (fun c => { c with allocs := c.allocs ++ [⟨h.toNat, d.toNat, q⟩] }))
  if reqLen q = 0 then (if q ≠ 0 then .fault (cmdFault s 0x22 q.toNat) s else push s)
  else if hV (s.rh h.toNat) then .fault (cmdFault s 0x21 h.toNat) s
  else if badRequest q then .fault (cmdFault s 0x22 q.toNat) s
  else push s

/-- R130. -/
def execSalloc (g : Guard) (d h a : BitVec 5) (s : State) : Out := slotE g [d.toNat, a.toNat] (sallocBody d h a) s

/-- The answer of SALLOC: SCAP, the placed stall's handle and reference word, or the failure word (R119, R130). -/
def answerAlloc (s : State) (x : Nat) (a : Alloc) : State :=
  let c := coreOf x
  let ts := (s.core c).stalls
  if reqLen a.req = 0 then endLease s x a.xd (scap s c)
  else
    match placeStall ts a.req (capg s c) with
    | none => endLease s x a.xd (failureWord ts (capg s c))
    | some t =>
      let s := s.modCore c (fun k => { k with stalls := t :: k.stalls })
      endLease (s.modCtx x (fun k => k.wh a.hd (handleOf t))) x a.xd (referenceOf c t)

/-- R130: SALLOC_ANSWER of context x. -/
def execSallocAnswer (x : Nat) (s : State) : Out :=
  whileRuns s (dieOfCtx x) (match (s.ctx x).allocs with
    | [] => .next s
    | a :: rest => .next (answerAlloc (s.modCtx x (fun c => { c with allocs := rest })) x a))

/-- R131. -/
def execSfree (g : Guard) (h : BitVec 5) (s : State) : Out :=
  slotE g [] (needHandles [h.toNat] (fun s =>
    .done ((accept [] [h.toNat] s).modMe (fun c => c.wh h.toNat (setBit (c.rh h.toNat) 63 false))))) s

/-- Fields of a shape word (R132). -/
def shEsz (v : Word) : Nat := fldN v 60 2
def shStride (v : Word) : Int := (fld v 32 28 : BitVec 28).toInt
def shCount (v : Word) : Nat := fldN v 0 32

/-- R132: faults 0x24 and 0x23 of a shape word in register n, in that order (log 59). -/
def shapeBad (n : Nat) (v : Word) (sparse : Bool) (h : Nat) (hw : Word) : List (Bool × Nat × Nat) :=
  [((if sparse then shEsz v = 3 else shEsz v ≠ 0), 0x24, locator n 60), (fldN v 62 2 ≠ 0, 0x24, locator n 62),
   (sparse && hRsz hw % (8 * 2 ^ shEsz v) ≠ 0, 0x24, locator (32 + h) 0), (hCapr hw < shCount v, 0x23, hCapr hw)]

/-- R133. -/
def execSload (g : Guard) (h a b : BitVec 5) (s : State) : Out :=
  slotE g [a.toNat, b.toNat] (needHandles [h.toNat] (fun s =>
    checked (shapeBad b.toNat (s.rx b) false h.toNat (s.rh h.toNat)) (fun s => .done (accept [] [h.toNat] s)) s)) s

/-- R133, R134. -/
def execSloadx (g : Guard) (h a b : BitVec 5) (s : State) : Out :=
  slotE g [a.toNat, b.toNat] (needHandles [h.toNat] (fun s =>
    checked (shapeBad b.toNat (s.rx b) true h.toNat (s.rh h.toNat)) (fun s => .done (accept [] [h.toNat] s)) s)) s

/-- R135. -/
def execSstore (g : Guard) (h a b : BitVec 5) (s : State) : Out :=
  slotE g [a.toNat, b.toNat] (needHandles [h.toNat] (fun s =>
    checked (shapeBad b.toNat (s.rx b) false h.toNat (s.rh h.toNat)) (fun s => .done (accept [h.toNat] [] s)) s)) s

/-- R136. Where COUNT exceeds both, DETAIL of fault 0x23 holds the CAPR of hd (log 60). -/
def execSgather (g : Guard) (h i : BitVec 5) (a : BitVec 4) (s : State) : Out :=
  slotE g [2 * a.toNat, 2 * a.toNat + 1] (needHandles [h.toNat, i.toNat] (fun s =>
    let n := fldN (s.rxn (2 * a.toNat + 1)) 0 32
    let hd := s.rh h.toNat
    let hi := s.rh i.toNat
    checked [(hRsz hi ≠ 4, 0x24, locator (32 + i.toNat) 0), (hCapr hd < n, 0x23, hCapr hd), (hCapr hi < n, 0x23, hCapr hi)]
      (fun s => .done (accept [i.toNat] [h.toNat] s)) s)) s

/-- R137: the checks of SBAG and SBAGM. -/
def bagBody (h i : BitVec 5) (a : BitVec 4) (s : State) : SlotRes :=
  let n := 2 * a.toNat + 1
  let v := s.rxn n
  let hi := s.rh i.toNat
  checked [(fldN v 62 2 = 3, 0x24, locator n 62), (hRsz hi ≠ 4, 0x24, locator (32 + i.toNat) 0),
    (hCapr hi < fldN v 0 32, 0x23, hCapr hi)] (fun s => .done (accept [i.toNat] [h.toNat] s)) s

/-- R137. -/
def execSbag (g : Guard) (h i : BitVec 5) (a : BitVec 4) (s : State) : Out :=
  slotE g [2 * a.toNat, 2 * a.toNat + 1] (needHandles [h.toNat, i.toNat] (bagBody h i a)) s

/-- R137. -/
def execSbagm (g : Guard) (h i : BitVec 5) (a : BitVec 4) (s : State) : Out :=
  slotE g [2 * a.toNat, 2 * a.toNat + 1] (needHandles [h.toNat, i.toNat] (bagBody h i a)) s

/-- A reference word names a core of the stable of core c (R138). -/
def refOk (c : Nat) (r : Word) : Bool := bit r 63 && fldN r 51 9 / 8 = coreId c / 8

/-- R138: the checks of SCOPY and SCOPYP: faults 0x24, 0x23, 0x2A in that order (log 59). -/
def copyBad (s : State) (h a b : BitVec 5) : List (Bool × Nat × Nat) :=
  let hw := s.rh h.toNat
  [(fldN (s.rx b) 32 32 ≠ 0, 0x24, locator b.toNat 32), (hCapr hw < fldN (s.rx b) 0 32, 0x23, hCapr hw),
   (!refOk (coreOf s.cur.x) (s.rx a), 0x2A, fldN (s.rx a) 51 9)]

/-- R138, pull. -/
def execScopy (g : Guard) (h a b : BitVec 5) (s : State) : Out :=
  slotE g [a.toNat, b.toNat] (needHandles [h.toNat] (fun s =>
    checked (copyBad s h a b) (fun s => .done (accept [] [h.toNat] s)) s)) s

/-- R138, push. -/
def execScopyp (g : Guard) (h a b : BitVec 5) (s : State) : Out :=
  slotE g [a.toNat, b.toNat] (needHandles [h.toNat] (fun s =>
    checked (copyBad s h a b) (fun s => .done (accept [h.toNat] [] s)) s)) s

/-- R138, receive. -/
def execSrecv (g : Guard) (h : BitVec 5) (s : State) : Out :=
  slotE g [] (needHandles [h.toNat] (fun s => .done (accept [] [h.toNat] s))) s

/-- A sync point: a record that was pending at issue is delivered, and no slot is performed (R27, R76, R139). -/
def syncPoint (s : State) : SlotRes :=
  match s.me.issue with
  | none => .wait s
  | some is => if is.sync && s.me.pend.isSome then .wait (deliverPending s s.cur.x) else .done s

/-- R139: SWAIT of one stall. A handle that is not valid faults before a record that is pending is delivered (log 82). -/
def execSwait (g : Guard) (h : BitVec 5) (s : State) : Out :=
  slotE g [] (needHandles [h.toNat] (fun s =>
    if swaitReady s s.cur.x false h.toNat then syncPoint s else .wait s)) s

/-- R139: SWAIT of every stall. -/
def execSwaitAll (g : Guard) (s : State) : Out :=
  slotE g [] (fun s => if swaitReady s s.cur.x true 0 then syncPoint s else .wait s) s

/-- R111: performed at once when its condition holds. -/
def execLwait (g : Guard) (n : BitVec 5) (s : State) : Out :=
  slotE g [] (fun s => if lwaitReady s.me n.toNat then .done s else .wait s) s

end Sys2Proof.Machine
end

