-- ==== Sys2Proof/Machine/StreamMove.lean ====
section
/-! DEFINITION. The work of started scoreboard entries: records moved line by line, gathers and bags, copies within a stable,
scatter-adds and row updates (R132 to R138, R144, R145, R254, R261 to R265, R312). -/

namespace Sys2Proof.Machine

/-- A captured x register of an entry; x0 reads as zero. -/
def Entry.rx (e : Entry) (n : Nat) : Word := if n = 0 then 0 else Tab.get 0 e.cap n

/-- First register of the operands of a gather, bag, scatter-add, row update or group stream form. -/
def Entry.xa (e : Entry) : Nat :=
  if opOf e.word = 0x1D ∨ subOf e.word = 0 then 2 * fldN e.word 2 4 else 4 * fldN e.word 3 3

/-- The shape word, or the word that holds TLEN and COUNT. -/
def Entry.ctl (e : Entry) : Word :=
  if opOf e.word = 0x1D then
    if subOf e.word = 4 ∨ subOf e.word = 5 then e.rx (e.xa + 1) else e.rx (en3 e.word)
  else e.rx (e.xa + 1)

/-- COUNT. -/
def Entry.count (e : Entry) : Nat := fldN e.ctl 0 32

/-- The stall read first, second, and the stall written, as handle words. -/
def Entry.rd (e : Entry) (i : Nat) : Word := (e.reads.getD i (0, 0, 0)).2.1
def Entry.wr (e : Entry) : Word := (e.writes.getD 0 (0, 0)).2

/-- The entry moves records: it is started and has not failed. -/
def running (s : State) (c i : Nat) : Option Entry :=
  match s.entry c i with
  | none => none
  | some e => if e.st = .started && !e.stop && !s.stopped (dieOf c) then some e else none

/-- The first read of an entry's stalls compares their tags; a mismatch ends the entry with fault 0x28 (R15, R135). -/
def firstRead (s : State) (c i : Nat) (e : Entry) (k : State → State) : State :=
  if e.tagOk then k s
  else
    match tagMismatch s c e with
    | some (exp, act) => entryFault s c i 0x28 (exp * 2 ^ 8 + act)
    | none => k (s.setEntry c i (some { e with tagOk := true }))

/-- Changes an entry. -/
def modEntry (s : State) (c i : Nat) (f : Entry → Entry) : State := s.setEntry c i ((s.entry c i).map f)

/-- GIXSTK keeps the first out-of-range index (R57, R136). -/
def noteIndex (s : State) (x idx : Nat) : State :=
  s.modCtx x (fun c => if bit c.gixstk 63 then c else { c with gixstk := BitVec.ofNat 64 (2 ^ 63 + idx) })

/-- LSREQ counts a line request of the die's stream engines (R312). -/
def countLine (s : State) (d : Nat) (p : Place) : State :=
  if 2 ≤ p.pl then s
  else s.modDie d (fun v =>
    let loc := fldN v.lsreq 0 32
    let rem := fldN v.lsreq 32 32
    { v with lsreq :=
        if homeDieOf p = d then BitVec.ofNat 64 (rem * 2 ^ 32 + min (loc + 1) 0xFFFFFFFF)
        else BitVec.ofNat 64 (min (rem + 1) 0xFFFFFFFF * 2 ^ 32 + loc) })

/-- A line access of an entry at va: translated, served by its home now, and counted; otherwise the state in which it has
failed, stopped or waits. -/
def entryLine (s : State) (c i va kind : Nat) (k : Place → State → State) : State :=
  match entryPlace s c i va kind with
  | .error s => s
  | .ok (p, s) =>
    match gate s p with
    | .hold => s
    | .redirect => dropTlb s c va
    | .go => k p (countHome (countLine s (dieOf c) p) (dieOf c) p)

/-- Bytes of memory record r that the next line access moves: its address and length, k bytes being moved already. -/
def nextChunk (va n k : Nat) : Nat × Nat :=
  let a := (va + k) % 2 ^ 64
  (a, min (n - k) (64 - a % 64))

/-- n bytes of a bank of core b are read for an entry, unless a word is in error (R117, R385). -/
def readYard (s : State) (c i b key n : Nat) (e : Entry) (k : State → State) : State :=
  readSrf s (c * 4 + e.ctx) b key n (fun s => endEntry s c i) k

/-- The next line of a memory record of n bytes at va is read; done takes the whole record when it is complete (R254). -/
def readLine (s : State) (c i r va n : Nat) (e : Entry) (done : List Byte → State → State) : State :=
  let got := Tab.get [] e.part r
  let (a, len) := nextChunk va n got.length
  entryLine s c i a 5 (fun p s => readHome s (c * 4 + e.ctx) p len (fun s => endEntry s c i) (fun s =>
    let bs := got ++ s.readBytes p.pkg (p.pl = 2) p.pa len
    if bs.length < n then modEntry s c i (fun e => { e with part := Tab.set [] e.part r bs }) else done bs s))

/-- Record r of an entry is complete. -/
def finishRec (s : State) (c i r : Nat) : State := modEntry s c i (fun e => e.finish r)

/-- Address of memory record r of an SLOAD, SLOADX or SSTORE (R133, R135). -/
def recordVa (e : Entry) (r : Nat) : Nat :=
  (BitVec.ofInt 64 ((e.rx (en2 e.word)).toInt + shStride e.ctl * r)).toNat

/-- expand of R134 for elements of esz bytes, n of them: the dense record, and whether a nibble was illegal. -/
def expand (esz n : Nat) (bs : List Byte) : List Byte × Bool :=
  let meta_ := bs.drop (n / 2 * esz)
  let elem := fun k => (bs.drop (k * esz)).take esz
  let zero := List.replicate esz (0 : Byte)
  let groups := (List.range (n / 4)).map (fun g =>
    let nib := packedElem meta_ 4 g
    let p0 := nib % 4
    let p1 := nib / 4
    if p0 < p1 then
      ((List.range 4).flatMap (fun q => if q = p0 then elem (2 * g) else if q = p1 then elem (2 * g + 1) else zero), false)
    else (List.replicate (4 * esz) 0, true))
  (groups.flatMap (·.1), groups.any (·.2))

/-- The lowest record with illegal 2:4 metadata, once record r, found in cycle t, is one of them (R26, R134). -/
def Entry.lowMeta (e : Entry) (r : Nat) (t : Word) : Option (Nat × Word) :=
  match e.badMeta with
  | some (q, u) => if q ≤ r then some (q, u) else some (r, t)
  | none => some (r, t)

/-- SLOAD and SLOADX move a line of record r (R133, R134). -/
def moveLoad (s : State) (c i r : Nat) (e : Entry) : State :=
  let h := e.wr
  let rsz := hRsz h
  if bit e.word 0 then
    let esz := 2 ^ shEsz e.ctl
    let n := rsz / esz
    readLine s c i r (recordVa e r) (rsz / 2 + n / 8) e (fun bs s =>
      let (rec, bad) := expand esz n bs
      let s := finishRec (writeRec s c (hBase h) rsz r 0 rec) c i r
      if bad then modEntry s c i (fun e => { e with badMeta := e.lowMeta r (s.tickOf (dieOf c)) }) else s)
  else
    readLine s c i r (recordVa e r) rsz e (fun bs s => finishRec (writeRec s c (hBase h) rsz r 0 bs) c i r)

/-- The bytes of record r that an SSTORE stores, read at its first line, so that no word of it is torn (R135, R144). -/
def storeData (s : State) (c i r : Nat) (e : Entry) (k : List Byte → State → State) : State :=
  let h := e.rd 0
  let rsz := hRsz h
  match Tab.get [] e.snap r with
  | [] =>
    readYard s c i c (recKey (hBase h) rsz r 0) rsz e (fun s =>
      let bs := readRec s c (hBase h) rsz r 0 rsz
      k bs (modEntry s c i (fun e => { e with snap := Tab.set [] e.snap r bs })))
  | bs => k bs s

/-- SSTORE moves a line of record r. Records that overlap in memory are moved in ascending order (R135). -/
def moveStore (s : State) (c i r : Nat) (e : Entry) : State :=
  let rsz := hRsz (e.rd 0)
  if (shStride e.ctl).natAbs < rsz ∧ r ≠ e.resume then s
  else
    let got := Tab.get [] e.part r
    let (a, len) := nextChunk (recordVa e r) rsz got.length
    entryLine s c i a 6 (fun p s =>
      storeData s c i r e (fun all s =>
        let bs := (all.drop got.length).take len
        let s := dcDrop (s.writePhys p.pkg (p.pl = 2) p.pa bs) c p.pa
        if got.length + len < rsz then modEntry s c i (fun e => { e with part := Tab.set [] e.part r (got ++ bs) })
        else finishRec s c i r))

/-- Index record j of an index stall, read once for its row (R136, R137, R261, R265). -/
def readIndex (s : State) (c i j : Nat) (h : Word) (e : Entry) (k : Nat → State → State) : State :=
  match Tab.get none e.idx j with
  | some w => k w s
  | none =>
    readYard s c i c (recKey (hBase h) 4 j 0) 4 e (fun s =>
      let w := recWord s c (hBase h) 4 j 0
      k w (modEntry s c i (fun e => { e with idx := Tab.set none e.idx j (some w) })))

/-- SGATHER moves a line of row r; a row whose index is out of range waits for the rows below it, so that GIXSTK keeps the first
(R7, R136). -/
def moveGather (s : State) (c i r : Nat) (e : Entry) : State :=
  readIndex s c i r (e.rd 0) e (fun idx s =>
    let h := e.wr
    let rsz := hRsz h
    if fldN e.ctl 32 32 ≤ idx then
      if r ≠ e.resume then s
      else finishRec (writeRec (noteIndex s (c * 4 + e.ctx) idx) c (hBase h) rsz r 0 (List.replicate rsz 0)) c i r
    else
      readLine s c i r (((e.rx e.xa).toNat + idx * rsz) % 2 ^ 64) rsz e (fun bs s =>
        finishRec (writeRec s c (hBase h) rsz r 0 bs) c i r))

/-- The format of table elements by FMT (R137, R261). -/
def tableFmt (fmt : Nat) : Fmt := if fmt = 1 then Fmt.fp16 else if fmt = 2 then Fmt.bf16 else Fmt.fp32

/-- round(v / k, "fp32", rne) of an FP32 code (R137). -/
def divCount (v k : Nat) : Nat :=
  match decodeNum Fmt.fp32 v with
  | .fin neg m e =>
    if m = 0 then v
    else if e < 0 then roundRat Fmt.fp32 0 neg m (2 ^ (-e).toNat * k) else roundRat Fmt.fp32 0 neg (m * 2 ^ e.toNat) k
  | _ => canonNan v

/-- A bag takes the values of one index; it closes at a marked or last index (R137). -/
def bagTake (s : State) (c i j : Nat) (e : Entry) (w : Nat) (vs : List Nat) : State :=
  let h := e.wr
  let acc := if e.k = 0 then vs else (List.range vs.length).map (fun n => fadd Fmt.fp32 0 (e.acc.getD n 0) (vs.getD n 0))
  let k := e.k + 1
  if w.testBit 31 ∨ j + 1 = e.count then
    if hCapr h ≤ e.bag then entryFault s c i 0x2C e.bag
    else
      let out := if bit e.word 0 ∧ 1 < k then acc.map (fun v => divCount v k) else acc
      modEntry (writeRec s c (hBase h) (hRsz h) e.bag 0 (out.flatMap (leBytes 4))) c i (fun e =>
        { e with bag := e.bag + 1, k := 0, acc := [], resume := j + 1, part := [], idx := [] })
  else modEntry s c i (fun e => { e with k := k, acc := acc, part := [], idx := [] })

/-- SBAG and SBAGM move a line of the row of index j, in index order (R137). -/
def moveBag (s : State) (c i j : Nat) (e : Entry) : State :=
  if j ≠ e.resume + e.k then s
  else readIndex s c i j (e.rd 0) e (fun w s =>
    let idx := w % 2 ^ 31
    let n := hRsz e.wr / 4
    let fmt := fldN e.ctl 62 2
    let esz := eszOf fmt
    if fldN e.ctl 32 30 ≤ idx then bagTake (noteIndex s (c * 4 + e.ctx) idx) c i j e w (List.replicate n 0)
    else
      readLine s c i j (((e.rx e.xa).toNat + idx * n * esz) % 2 ^ 64) (n * esz) e (fun bs s =>
        bagTake s c i j e w ((List.range n).map (fun m => convert (tableFmt fmt) Fmt.fp32 0 (packedElem bs (8 * esz) m)))))

/-- R254: a home performs the next line access of record r of a stream entry. -/
def streamAccess (s : State) (c i r : Nat) : State :=
  match running s c i with
  | none => s
  | some e =>
    if opOf e.word ≠ 0x1D ∨ e.count ≤ r ∨ e.isDone r then s
    else
      firstRead s c i e (fun s =>
        match subOf e.word with
        | 2 => moveLoad s c i r e
        | 3 => moveStore s c i r { e with tagOk := true }
        | 4 => moveGather s c i r { e with tagOk := true }
        | 5 => moveBag s c i r { e with tagOk := true }
        | _ => s)

/-! ## Copies within a stable -/

/-- The remote core of a reference word, on the package of core c (R119, R138). -/
def refCore (c : Nat) (r : Word) : Nat := c / 512 * 512 + fldN r 51 9

/-- The remote stall that a reference word names, if it is allocated (R138). -/
def refStall (s : State) (c : Nat) (r : Word) : Option Stall :=
  (s.core (refCore c r)).stalls.find? (fun t => t.base = hBase r && t.len = hLen r && t.rsz = hRsz r)

/-- R138: the remote core's checks; then the copy may move records. -/
def copyCheck (s : State) (c i : Nat) (e : Entry) : State :=
  let r := e.rx (en2 e.word)
  match refStall s c r with
  | none => entryFault s c i 0x2B (fldN r 51 9)
  | some t =>
    if capr t.len t.rsz < e.count then entryFault s c i 0x2B (fldN r 51 9)
    else if isPush e.word ∧ 15 ≤ t.push then entryFault s c i 0x2D (fldN r 51 9)
    else modEntry s c i (fun e => { e with sub := 1 })

/-- The next record of a copy: remote record q to local, or local to remote, and the end of a push (R138).
    Where the destination's records are longer, the bytes past the source record are free (log 46). The push counter counts modulo 16
    (log 79); the stall at the granule is the destination, whether or not it is still the one that was checked (log 81). -/
def copyNext (s : State) (c i : Nat) (e : Entry) : State :=
  let r := e.rx (en2 e.word)
  let rc := refCore c r
  let k := e.resume
  if k < e.count then
    if isPush e.word then
      let h := e.rd 0
      let n := min (hRsz h) (hRsz r)
      readYard s c i c (recKey (hBase h) (hRsz h) k 0) n e (fun s =>
        finishRec ((writeRec s rc (hBase r) (hRsz r) k 0 (readRec s c (hBase h) (hRsz h) k 0 n ++ freeBytes s (hRsz r - n))).spendFree
          ((hRsz r - n + 7) / 8)) c i k)
    else
      let h := e.wr
      let n := min (hRsz h) (hRsz r)
      readYard s c i rc (recKey (hBase r) (hRsz r) k 0) n e (fun s =>
        finishRec ((writeRec s c (hBase h) (hRsz h) k 0 (readRec s rc (hBase r) (hRsz r) k 0 n ++ freeBytes s (hRsz h - n))).spendFree
          ((hRsz h - n + 7) / 8)) c i k)
  else if isPush e.word then
    modEntry (modStall s rc (hBase r) (fun t => { t with tag := t.tag + 1, push := (t.push + 1) % 16 })) c i (fun e => { e with sub := 2 })
  else s

/-- R138: REMOTE_STALL_COPY of entry i of core c. A COUNT of 0 compares the tag too (log 80). -/
def execRemoteStallCopy (c i : Nat) (s : State) : Out :=
  match running s c i with
  | none => .next s
  | some e =>
    if !(isPull e.word || isPush e.word) then .next s
    else if e.sub = 0 then .next (firstRead s c i e (fun s => copyCheck s c i e))
    else if e.sub = 1 then .next (copyNext s c i e)
    else .next s

/-! ## Scatter-add and row update -/

/-- The places of the bytes of a row, page by page; a page fault stops the entry and sends nothing of the row (R263). -/
def rowPlaces (s : State) (c i va n : Nat) : Except State (List Place × State) :=
  match entryPlace s c i va 2 with
  | .error s => .error s
  | .ok (p, s) =>
    let n1 := 2 ^ 16 - va % 2 ^ 16
    if n ≤ n1 then .ok ([p], s)
    else
      match entryPlace s c i ((va + n1) % 2 ^ 64) 2 with
      | .error s => .error s
      | .ok (q, s) => .ok ([p, q], s)

/-- The place of byte b of a row at va. -/
def placeAt (ps : List Place) (va b : Nat) : Place :=
  let n1 := 2 ^ 16 - va % 2 ^ 16
  if b < n1 then let p := ps.getD 0 ⟨0, 0, 0, 0, 0⟩; { p with pa := p.pa + b }
  else let p := ps.getD 1 ⟨0, 0, 0, 0, 0⟩; { p with pa := p.pa + (b - n1) }

/-- One row goes on with index j: skipped when out of range, else its places translated (R261, R263, R265). -/
def startRow (s : State) (c i va n idx tlen : Nat) (e : Entry) (k : List Place → State → State) : State :=
  if tlen ≤ idx then finishRec (noteIndex s (c * 4 + e.ctx) idx) c i e.resume
  else if e.places ≠ [] then k e.places s
  else
    match rowPlaces s c i va n with
    | .error s => s
    | .ok (ps, s) =>
      if ps.any (fun p => p.pl = 2) then
        match s.entry c i with
        | none => s
        | some e => failEntry s c i ⟨0x71, 1, va, cmdDetail e.word i e.resume, 0⟩
      else k ps (modEntry s c i (fun e => { e with places := ps }))

/-- The home of a byte of a row at va serves it now; a redirect drops the covering TLB entry of that byte, and the row's places are walked
again (R291). -/
def rowGate (s : State) (c i va : Nat) (p : Place) (k : State → State) : State :=
  match gate s p with
  | .hold => s
  | .redirect => modEntry (dropTlb s c va) c i (fun e => { e with places := [] })
  | .go => k s

/-- The next element of a scatter-add row is added at its home (R261, R262). -/
def addElement (s : State) (c i : Nat) (e : Entry) : State :=
  let hv := e.rd 0
  let rsz := hRsz hv
  let fmt := fldN e.ctl 62 2
  let esz := eszOf fmt
  let j := e.resume
  readIndex s c i j (e.rd 1) e (fun idx s =>
    let va := ((e.rx e.xa).toNat + idx * rsz) % 2 ^ 64
    startRow s c i va rsz idx (fldN e.ctl 32 30) e (fun ps s =>
      let b := e.sub * esz
      let p := placeAt ps va b
      rowGate s c i ((va + b) % 2 ^ 64) p (fun s =>
        readYard s c i c (recKey (hBase hv) rsz j b) esz e (fun s =>
          readHome (countHome s (dieOf c) p) (c * 4 + e.ctx) p esz (fun s => endEntry s c i) (fun s =>
            let v := ofLe (readRec s c (hBase hv) rsz j b esz)
            let old := s.readPhys p.pkg false p.pa esz
            let new := if fmt = 3 then (old + v) % 2 ^ 32 else fadd (tableFmt fmt) 0 old v
            let s := s.writePhys p.pkg false p.pa (leBytes esz new)
            if b + esz < rsz then modEntry s c i (fun e => { e with sub := e.sub + 1 })
            else modEntry s c i (fun e => { (e.finish j) with sub := 0, places := [] }))))))

/-- R261: SCATTER_ADD_AT_HOME of entry i of core c. -/
def execScatterAddAtHome (c i : Nat) (s : State) : Out :=
  match running s c i with
  | none => .next s
  | some e =>
    if opOf e.word = 0x1F ∧ subOf e.word = 0 ∧ e.resume < e.count then
      .next (firstRead s c i e (fun s => addElement s c i { e with tagOk := true }))
    else .next s

/-- One element of an optimiser step (R265): the new weight and the new state. -/
def optimise (alg mu lr eps w st g : Nat) : Nat × Nat :=
  match alg with
  | 0 => (ffma Fmt.fp32 true false 0 lr g w, st)
  | 1 =>
    let st := ffma Fmt.fp32 false false 0 mu st g
    (ffma Fmt.fp32 true false 0 lr st w, st)
  | _ =>
    let st := ffma Fmt.fp32 false false 0 g g st
    (adagradStep w lr g st eps, st)

/-- One optimiser step on a whole row at its home (R265). -/
def updateRow (s : State) (c i : Nat) (e : Entry) : State :=
  let hg := e.rd 0
  let rsz := hRsz hg
  let alg := fldN e.ctl 62 2
  let n := rsz / 4
  let rs := rowStride alg rsz
  let j := e.resume
  let mu := fldN (e.rx (e.xa + 2)) 32 32
  let lr := fldN (e.rx (e.xa + 2)) 0 32
  let eps := fldN (e.rx (e.xa + 3)) 0 32
  readIndex s c i j (e.rd 1) e (fun idx s =>
    let va := ((e.rx e.xa).toNat + idx * rs) % 2 ^ 64
    startRow s c i va rs idx (fldN e.ctl 32 30) e (fun ps s =>
      let p := placeAt ps va 0
      rowGate s c i va p (fun s =>
        readYard s c i c (recKey (hBase hg) rsz j 0) rsz e (fun s =>
          readHome (countHome s (dieOf c) p) (c * 4 + e.ctx) p rs (fun s => endEntry s c i) (fun s =>
            let rd := fun k => s.readPhys p.pkg false (p.pa + 4 * k) 4
            let out := (List.range n).map (fun k =>
              optimise alg mu lr eps (rd k) (if alg = 0 then 0 else rd (n + k)) (recWord s c (hBase hg) rsz j k))
            let bs := out.flatMap (fun o => leBytes 4 o.1) ++ (if alg = 0 then [] else out.flatMap (fun o => leBytes 4 o.2))
            let s := s.writePhys p.pkg false p.pa bs
            modEntry s c i (fun e => { (e.finish j) with places := [] }))))))

/-- R265: ROW_UPDATE_AT_HOME of entry i of core c. -/
def execRowUpdateAtHome (c i : Nat) (s : State) : Out :=
  match running s c i with
  | none => .next s
  | some e =>
    if opOf e.word = 0x1F ∧ subOf e.word = 1 ∧ e.resume < e.count then
      .next (firstRead s c i e (fun s => updateRow s c i { e with tagOk := true }))
    else .next s

end Sys2Proof.Machine
end

