-- ==== Sys2Proof/Machine/GroupCore.lean ====
section
/-! DEFINITION. Groups: numbers, state words, the slot's decisions, packets of the commit channel, source entries and holding sheds
(R315 to R331, R334, R392). -/

namespace Sys2Proof.Machine

/-! ## Packets -/

/-- A packet of a die for another; one for another package takes a route, or is held when there is none (R392). -/
def mkPkt (s : State) (g src dst : Nat) (kind : PktKind) : Pkt :=
  let p := pkgOfDie src
  let port := if pkgOfDie dst = p then some 0 else packetPort s src (pkgOfDie dst) (g * 2 ^ 12)
  { group := g, from_ := src, to_ := dst, gen := genOf s p, port := port.getD 0, redirects := 0, held := port.isNone, kind := kind }

/-- A packet leaves its die for another. -/
def sendPkt (s : State) (g src dst : Nat) (kind : PktKind) : State := s.addPkt (mkPkt s g src dst kind)

/-- A packet can be delivered (R392). -/
def arrives (s : State) (k : Pkt) : Bool := !k.remote || (!k.held && portSends s (k.from_ / 4) k.port k.gen)

/-- The die whose link engine takes a packet in: that of the same-numbered port of the target package (log 22). -/
def Pkt.arrivalDie (k : Pkt) : Nat := if k.remote then k.to_ / 4 * 4 + k.port / 4 else k.to_

/-- A packet that can be delivered, by its number. -/
def arrived (s : State) (k : Nat) : Option Pkt :=
  match s.pkt k with
  | none => none
  | some p => if arrives s p then some p else none

/-- A packet for the slots or the source entries of its target die, whose cores hold them: it waits while they are frozen (R310). -/
def arrivedAt (s : State) (k : Nat) : Option Pkt := (arrived s k).filter (fun p => !s.stopped p.to_)

/-! ## Slots -/

/-- The originator's core, slot and generation of a group (R315). -/
def grpCore (g : Nat) : Nat := g / 2 ^ 13 % 2 ^ 19
def grpSlot (g : Nat) : Nat := g / 2 ^ 9 % 16
def grpGen (g : Nat) : Nat := g % 2 ^ 9
def grpDie (g : Nat) : Nat := dieOf (grpCore g)

/-- The group of a slot of core c. -/
def grpOf (c slot gen : Nat) : Nat := c * 2 ^ 13 + slot * 2 ^ 9 + gen

def slotOf (s : State) (g : Nat) : GSlot := Tab.get GSlot.reset (s.core (grpCore g)).slots (grpSlot g)
def setSlot (s : State) (g : Nat) (v : GSlot) : State :=
  s.modCore (grpCore g) (fun c => { c with slots := Tab.set GSlot.reset c.slots (grpSlot g) v })

/-- The group is the slot's current one (R317). -/
def current (s : State) (g : Nat) : Bool := (slotOf s g).state ≠ 0 && (slotOf s g).gen = grpGen g

/-- STATE of a group: of its slot, or from the maps (R317). -/
def grpState (s : State) (g : Nat) : Nat :=
  let v := slotOf s g
  if current s g then v.state else if bit v.done (grpGen g) then (if bit v.appl (grpGen g) then 4 else 5) else 0

/-- The state word of a group (R317). -/
def stateWord (s : State) (g : Nat) : Word :=
  let v := slotOf s g
  BitVec.ofNat 64 (
    if current s g then
      v.state * 2 ^ 61 + b2n v.settled * 2 ^ 60 + (if v.state = 5 then v.why else 0) * 2 ^ 56 + v.sealed.length * 2 ^ 40 +
        v.nsrc * 2 ^ 32 + g
    else grpState s g * 2 ^ 61 + b2n (bit v.done (grpGen g)) * 2 ^ 60 + b2n (v.state ≠ 0) * 2 ^ 55 + g)

/-- A decided group whose destinations have all acknowledged is settled (R316, R318). -/
def settleSlot (v : GSlot) : GSlot :=
  if (v.state = 3 ∨ v.state = 5) ∧ v.dests.all (fun d => v.acks.contains d) ∧ !v.settled then
    { v with
      state := if v.state = 3 then 4 else 5, settled := true, done := setBit v.done v.gen true,
      appl := setBit v.appl v.gen (v.state = 3) }
  else v

/-- Packets to every destination, and the decision to every source (R324, R327). -/
def tellAll (s : State) (g : Nat) (v : GSlot) (kind : Nat → PktKind) : State :=
  let s := v.dests.foldl (fun s d => sendPkt s g (grpDie g) (d / 33) (kind d)) s
  v.enlisted.foldl (fun s c => sendPkt s g (grpDie g) (dieOf c) (.decision c)) s

/-- Any abort cause: OPEN and SEALED become ABORTED, and the abort packets are sent (R318, R327, R329). -/
def abortGroup (s : State) (g why : Nat) : State :=
  let v := slotOf s g
  if current s g && (v.state = 1 || v.state = 2) then
    tellAll (setSlot s g (settleSlot { v with state := 5, why := why, settled := false, acks := [] })) g v (fun d => .abort d why)
  else s

/-- SEALED becomes COMMITTING, or APPLIED where there is no destination, and the commit packet is sent (R318, R324). -/
def commitGroup (s : State) (g : Nat) : State :=
  let v := slotOf s g
  if current s g && v.state = 2 then tellAll (setSlot s g (settleSlot { v with state := 3, acks := [] })) g v .apply else s

/-- A destination's acknowledgement in the state it belongs to (R318). -/
def ackSlot (s : State) (g st dest : Nat) : State :=
  let v := slotOf s g
  if current s g && v.state = st && v.dests.contains dest && !v.acks.contains dest then
    setSlot s g (settleSlot { v with acks := dest :: v.acks })
  else s

/-- The committer word of a task (R319). -/
def isCommitter (s : State) (g x : Nat) : Bool :=
  (slotOf s g).comPkg = pkgOfCtx x && (slotOf s g).comFb = fldN (s.ctx x).frame 10 45

/-- The packages of a set of destinations. -/
def destPkgs (ds : List Nat) : List Nat := (ds.map (fun d => d / 33 / 4)).eraseDups

/-! ## Source entries -/

/-- The source entry of core c for a group (R320). -/
def srcAt (s : State) (c g : Nat) : Option (Nat × Src) := (Tab.members (s.core c).srcs).find? (fun p => p.2.group = g)
def setSrc (s : State) (c n : Nat) (v : Option Src) : State := s.modCore c (fun k => { k with srcs := Tab.set none k.srcs n v })

/-- The lowest free source entry of core c. -/
def freeSrc (s : State) (c : Nat) : Option Nat := (List.range 16).find? (fun n => Tab.get none (s.core c).srcs n = none)

/-- The source entry of core c for a group, taken and enlisted if there is none (R320); the task of a frame uses it. -/
def enlistSrc (s : State) (c g frame : Nat) : State :=
  match srcAt s c g with
  | some (n, v) => setSrc s c n (some { v with frames := if v.frames.contains frame then v.frames else frame :: v.frames })
  | none =>
    match freeSrc s c with
    | none => s
    | some n =>
      let v : Src := {
        group := g, next := 0, first := s.nextId, enlist := .asked, sealed := false, dests := [], pkgs := [], frames := [frame] }
      sendPkt (setSrc s c n (some v)) g (dieOf c) (grpDie g) (.enlist c)

/-- A stream form that sends tagged stores to a group (R340). -/
def Entry.sendsTo (e : Entry) (g : Nat) : Bool := engineOf e.word = 3 && fldN (e.rx (e.xa + 2)) 0 32 = g

/-- The stream form sends nothing more to a group (log 64). -/
def Entry.cut (e : Entry) (g : Nat) : Entry := if e.sendsTo g then { e with void := true } else e

/-- Frees source entry n of core c: the stream forms accepted under it send nothing more, those of a saved task either (R320, log 64). -/
def freeSrcAt (s : State) (c n g : Nat) : State :=
  ((setSrc s c n none).modCore c (fun k => { k with sb := k.sb.map (fun p => (p.1, p.2.map (·.cut g))) })).modPkg (pkgOf c) (fun k =>
    { k with saved := k.saved.map (fun t => if t.core = c then { t with ents := t.ents.map (·.cut g) } else t) })

/-- No source entry of core c keeps a frame: its task has ended (R320, R329). -/
def forgetFrame (s : State) (c frame : Nat) : State :=
  s.modCore c (fun k => { k with
    srcs := k.srcs.map (fun p => (p.1, p.2.map (fun (v : Src) => { v with frames := v.frames.filter (· ≠ frame) }))) })

/-- Frees the source entry of core c for a group. -/
def dropSrc (s : State) (c g : Nat) : State :=
  match srcAt s c g with
  | some (n, _) => freeSrcAt s c n g
  | none => s

/-- A tagged store of a stream entry of the task with a frame is complete (R323, R340). -/
def completeOf (s : State) (c frame : Nat) (ent : Option Nat) : State :=
  match ent with
  | none => s
  | some i => modEntry s c i (fun e => if (s.ctx (c * 4 + e.ctx)).frame.toNat = frame then { e with owed := e.owed - 1 } else e)

/-- The task with a frame, on a context of core c. -/
def ctxOfFrame (s : State) (c frame : Nat) : Option Nat :=
  ((List.range 4).map (fun k => c * 4 + k)).find? (fun x => (s.ctx x).task.isSome && (s.ctx x).frame.toNat = frame)

/-- Tagged stores of core c to a group that are not complete: those under way, and the records that accepted stream forms, those of saved
tasks too, have still to send (R320, R323, R341). -/
def taggedOut (s : State) (c g : Nat) : Bool :=
  (Tab.members s.pkts).any (fun p => p.2.group = g && match p.2.kind with
    | .store h _ _ _ _ => h.key = c
    | .ack k _ _ _ => k = c
    | .refuse k _ _ _ => k = c
    | _ => false) ||
  (entries s c).any (fun e => e.2.sendsTo g && !e.2.void) ||
  (s.pkg (pkgOf c)).saved.any (fun t => t.core = c && t.ents.any (fun e => e.sendsTo g && !e.void))

/-- The GSEALs of context x that wait for stream forms of its own, which its save stops: packet, group, EXP, destination (log 78). -/
def heldSeals (s : State) (x : Nat) : List (Nat × Nat × Nat × Nat) :=
  (Tab.members s.pkts).filterMap (fun p => match p.2.kind with
    | .seal _ exp y xd none =>
      if y = x && (entriesOf s x).any (fun e => e.2.sendsTo p.2.group && !e.2.void) then some (p.1, p.2.group, exp, xd) else none
    | _ => none)

/-- A save takes such GSEALs along: their leases end with xd unchanged (log 78). -/
def liftSeals (s : State) (x : Nat) : State := (heldSeals s x).foldl (fun s q => dropLease (s.setPkt q.1 none) x q.2.2.2) s

/-- GSEALs that were saved with a task wait again on context x: group, EXP, destination (log 78). -/
def resumeSeals (s : State) (x : Nat) (qs : List (Nat × Nat × Nat)) : State :=
  qs.foldl (fun s q =>
    takeLease (sendPkt s q.1 (dieOfCtx x) (grpDie q.1) (.seal (coreOf x) q.2.1 x q.2.2 none)) x q.2.2) s

/-- Tagged stores of the task with a frame that are not complete: a save waits for them (R333). -/
def taggedOf (s : State) (frame : Nat) : Bool :=
  (Tab.members s.pkts).any (fun p => match p.2.kind with
    | .store _ f _ _ _ => f = frame
    | .ack _ f _ _ => f = frame
    | .refuse _ f _ _ => f = frame
    | _ => false)

/-- A part of a tagged store: its destination if known, virtual and physical address, and data. -/
structure Part where
  dest : Option Nat
  va : Nat
  pa : Nat
  data : List Byte
  deriving DecidableEq, Repr

/-- Core c sends a tagged store, in parts, to package pkg under the next sequence number; one that would add a ninth package is
discarded and the group's abort is sent (R320, R329, R339, R340). -/
def sendTagged (s : State) (c g frame : Nat) (ent : Option Nat) (kind pkg : Nat) (parts : List Part) : State :=
  let seq := match srcAt s c g with
    | some (_, v) => v.next
    | none => 0
  let ps := match srcAt s c g with
    | some (_, v) => if v.pkgs.contains pkg then v.pkgs else pkg :: v.pkgs
    | none => []
  let s := match srcAt s c g with
    | some (n, v) => setSrc s c n (some { v with next := v.next + 1, pkgs := if ps.length ≤ 8 then ps else v.pkgs })
    | none => s
  if 8 < ps.length then sendPkt s g (dieOf c) (grpDie g) (.srcAbort c 7)
  else
    let s := match ent with
      | some i => modEntry s c i (fun e => { e with owed := e.owed + parts.length })
      | none => s
    parts.foldl (fun s p =>
      let die := match p.dest with
        | some d => d / 33
        | none => if pkg = pkgOf c then dieOf c else pkg * 4
      sendPkt s g (dieOf c) die (.store ⟨c, seq, kind, p.pa, p.data⟩ frame ent p.dest p.va)) s

/-! ## Sheds -/

/-- The destination of a place: its home controller, or its package's paddock (R320, R334). -/
def destOfPlace (p : Place) : Nat := if p.pl = 2 then p.pkg * 132 + 32 else homeDieOf p * 33 + homeCtl p.pa

/-- A destination is a paddock. -/
def isPaddock (d : Nat) : Bool := d % 33 = 32

/-- The place of a physical address at a destination. -/
def placeOfDest (d pa : Nat) : Place := ⟨d / 132, pa, if isPaddock d then 2 else 1, if isPaddock d then 0 else d / 33 % 4, 0⟩

def shedOf (s : State) (d : Nat) : List ShedGroup := Tab.get [] s.sheds d
def setShed (s : State) (d : Nat) (v : List ShedGroup) : State := { s with sheds := Tab.set [] s.sheds d v }
def shedGroup (s : State) (d g : Nat) : Option ShedGroup := (shedOf s d).find? (fun h => h.group = g)
def modShed (s : State) (d g : Nat) (f : ShedGroup → ShedGroup) : State :=
  setShed s d ((shedOf s d).map (fun h => if h.group = g then f h else h))

/-- Room that an entry takes, and that a destination has in use (R322). -/
def heldSize (h : Held) : Nat := 16 + (h.data.length + 15) / 16 * 16
def shedUsed (s : State) (d : Nat) : Nat := ((shedOf s d).flatMap (fun g => g.held.map heldSize)).foldl (· + ·) 0

/-- Bytes of room and groups of a destination (R322). -/
def shedRoom (d : Nat) : Nat × Nat :=
  if isPaddock d then (16 * 2 ^ 20, 65536) else (if d / 33 % 4 = 0 then 3 * 2 ^ 19 else 2 ^ 21, 1024)

/-- The destination has room for the entry, and for a group record if it is the group's first (R322, R335). -/
def hasRoom (s : State) (d g : Nat) (h : Held) : Bool :=
  shedUsed s d + heldSize h ≤ (shedRoom d).1 &&
    ((shedGroup s d g).isSome || (shedOf s d).length < (shedRoom d).2) &&
    (!isPaddock d || bit (s.pkg (d / 132)).padcq 63)

/-- A packet of a group restarts the lease timer of a destination that holds it (R328). -/
def touchShed (s : State) (d g : Nat) : State := modShed s d g (fun v => { v with timer := timerNow s (d / 132) })

/-- The entry is held (R322); a group's first entry starts its lease timer (R328). -/
def holdEntry (s : State) (d g : Nat) (h : Held) : State :=
  match shedGroup s d g with
  | some _ => modShed s d g (fun v => { v with held := v.held ++ [h] })
  | none => setShed s d (shedOf s d ++ [{ group := g, held := [h], timer := timerNow s (d / 132), orphan := false, query := false }])

/-- Whether an entry comes before another in the order of R321; the parts of one record keep their order. -/
def heldBefore (a b : Held) : Bool := a.key < b.key || (a.key = b.key && a.seq < b.seq)

/-- An entry put in its place among sorted ones. -/
def insertHeld (l : List Held) (h : Held) : List Held :=
  match l with
  | [] => [h]
  | a :: r => if heldBefore h a then h :: a :: r else a :: insertHeld r h

/-- The held entries in apply order (R321). -/
def applyOrder (l : List Held) : List Held := l.foldl insertHeld []

/-- One element of a held scatter-add (R261, R325). -/
def addAt (s : State) (p : Nat) (host : Bool) (fmt pa v : Nat) : State :=
  let n := eszOf fmt
  let old := s.readPhys p host pa n
  s.writePhys p host pa (leBytes n (if fmt = 3 then (old + v) % 2 ^ 32 else fadd (tableFmt fmt) 0 old v))

/-- A held entry is performed at its destination (R325, R334). -/
def performHeld (s : State) (d : Nat) (h : Held) : State :=
  let p := d / 132
  let host := isPaddock d
  if h.kind = 0 then s.writePhys p host h.pa h.data
  else
    let n := eszOf (h.kind - 1)
    (List.range (h.data.length / n)).foldl (fun s i => addAt s p host (h.kind - 1) (h.pa + n * i) (ofLe ((h.data.drop (n * i)).take n))) s

/-- What performing a held entry reads: its data, and for a scatter-add the words that it adds to (R255, R322). -/
def readsHeld (s : State) (d g : Nat) (h : Held) : State × Option Flt :=
  match checkHeld s d g h with
  | (s, some f) => (s, some f)
  | (s, none) =>
    if h.kind = 0 ∨ isPaddock d then (s, none) else checkHomes s (lineCuts (placeOfDest d h.pa) h.data.length)

/-- A held entry is performed, or raises a machine check of the die and is not (R325, R385). -/
def applyHeld (s : State) (d g : Nat) (h : Held) : State :=
  match readsHeld s d g h with
  | (s, none) => performHeld s d h
  | (s, some f) => machineCheckDie s (d / 33) f

/-- The group's entries are performed in one step (R325). -/
def performGroup (s : State) (d g : Nat) : State :=
  match shedGroup s d g with
  | none => s
  | some v => (applyOrder v.held).foldl (fun s h => applyHeld s d g h) s

/-- The group's entries are discarded and their room is freed (R325, R327). -/
def dropGroup (s : State) (d g : Nat) : State := setShed s d ((shedOf s d).filter (fun h => h.group ≠ g))

/-- The paddock takes a decided group in order of arrival (R334). -/
def queuePaddock (s : State) (d g st why : Nat) : State :=
  s.modPkg (d / 132) (fun k => if k.padq.any (fun q => q.1 = g) then k else { k with padq := k.padq ++ [(g, st, why)] })

/-- A destination carries out a COMMIT: a home applies and acknowledges, the paddock queues the group (R325, R334). -/
def applyAt (s : State) (d g : Nat) : State :=
  if isPaddock d && (shedGroup s d g).isSome then queuePaddock (touchShed s d g) d g 4 0
  else sendPkt (dropGroup (performGroup s d g) d g) g (d / 33) (grpDie g) (.applyAck d)

/-- A destination carries out an ABORT (R327, R334). -/
def discardAt (s : State) (d g why : Nat) : State :=
  if isPaddock d && (shedGroup s d g).isSome then queuePaddock (touchShed s d g) d g 5 why
  else sendPkt (dropGroup s d g) g (d / 33) (grpDie g) (.discardAck d)

/-! ## Notices -/

/-- The dies of package p are told of the task with a frame (R330). -/
def tellDies (s : State) (p frame ev : Nat) : State :=
  (List.range 4).foldl (fun s d => sendPkt s 0 (p * 4) (p * 4 + d) (.notice ev (frame / 2 ^ 10 % 2 ^ 45))) s

/-- The dispatch engine tells every die of the package that the task of context x was saved (0), restored (1) or killed (2)
(R330). -/
def sendNotice (s : State) (x ev : Nat) : State := tellDies s (pkgOfCtx x) (s.ctx x).frame.toNat ev

/-- The stores of the task with frame f in unsealed source entries of core c abort their groups (R329, R333). -/
def abortFrame (s : State) (c f : Nat) : State :=
  (Tab.members (s.core c).srcs).foldl (fun s p =>
    if p.2.frames.contains f && !p.2.sealed then sendPkt s p.2.group (dieOf c) (grpDie p.2.group) (.srcAbort c 4) else s) s

/-- A killed task's stores in unsealed source entries abort their groups (R329, R333). -/
def abortSources (s : State) (x : Nat) : State := abortFrame s (coreOf x) (s.ctx x).frame.toNat

end Sys2Proof.Machine
end

