-- ==== Sys2Proof/Machine/KernelSave.lean ====
section
/-! DEFINITION. The kernel save area: an invocation stopped at an iteration boundary, its owed writes, the caddy's state, and the
tiles (R169 to R175, R244, R245). -/

namespace Sys2Proof.Machine

/-- The core is held or stopped: its invocations are frozen (R310, R391). -/
def frozen (s : State) (c : Nat) : Bool := s.stopped (dieOf c)

/-- The kernel save area of the frame at an address (R170). -/
def saveBase (frame : Nat) : Nat := frame + 0x1000

/-- Bytes written at an offset of a save area. -/
def putSave (s : State) (c frame off : Nat) (bs : List Byte) : State := writeVaD s (dieOf c) (saveBase frame + off) bs

/-- n bytes read at an offset of a save area; where the area cannot be read, free bytes, one for each offset (log 12). -/
def getSave (s : State) (c frame off n : Nat) : List Byte :=
  match (readRange s (dieOf c) (saveBase frame + off) n).1 with
  | .ok bs => bs
  | _ => (List.range n).map (fun i => fld (Config.freeWord (s.free + (off + i) / 8)) ((off + i) % 8 * 8) 8)

/-- What such a read leaves at the homes that serve it (R255, R271); withArea comes before it (R385). -/
def noteSave (s : State) (c frame off n : Nat) : State := (readRange s (dieOf c) (saveBase frame + off) n).2

/-- The first machine check that reads of a frame's save area would meet, by offset and length: at the entries that the walk reads, or in
the area (R255, R385). What can be corrected is corrected and counted. -/
def areaCheck (s : State) (c frame : Nat) : List (Nat × Nat) → State × Option Flt
  | [] => (s, none)
  | (off, n) :: rs =>
    let va := saveBase frame + off
    let cuts := pageCuts va n
    let ws := cuts.flatMap (fun q => (walk s (dieOf c) ((va + q.1) / 2 ^ 16) []).reads)
    let ls := match (placesOf s (dieOf c) va 0 cuts).1 with
      | .ok ps => lineReads ps
      | _ => []
    match checkHomes s (ws ++ ls) with
    | (s, some f) => (s, some f)
    | (s, none) => areaCheck s c frame rs

/-- Reads of the save area of context x's task, for an invocation of core c: one that meets an uncorrectable word ends the task, and bad
withdraws what asked for it (R385). -/
def withArea (s : State) (x c frame : Nat) (rs : List (Nat × Nat)) (bad k : State → State) : State :=
  if s.errs.isEmpty then k s else checkedFor x (areaCheck s c frame rs) bad k

/-- The save area of a frame cannot be reached yet: a migration locks a node on the way, or holds a page (R289, R291). -/
def areaWaits (s : State) (c frame : Nat) : Bool := rangeWaits s (dieOf c) (saveBase frame) (2 ^ 16)

/-- The save area of a task, or of the owner of a tile of core c, cannot be reached yet. -/
def tilesWait (s : State) (c frame : Nat) : Bool :=
  areaWaits s c frame || (List.range 8).any (fun t =>
    let v := (s.core c).ca.tile t
    v.own ≠ 0 && v.v && v.d && areaWaits s c (v.own * 2 ^ 10))

def getSaveN (s : State) (c frame off n : Nat) : Nat := ofLe (getSave s c frame off n)

/-- The free values of a whole save area, which has 2^16 bytes, have been taken (log 12). -/
def spendSave (s : State) : State := s.spendFree (2 ^ 13)

/-! ## Tiles -/

/-- OWN of a frame (R173), and the frame that OWN names. -/
def ownOf (frame : Nat) : Nat := frame / 2 ^ 10 % 2 ^ 45
def frameOf (own : Nat) : Nat := own * 2 ^ 10

/-- The shape word of a tile (R170, R173). -/
def shapeOf (t : Tile) : Nat := b2n t.v * 2 ^ 63 + t.rmask.toNat * 2 ^ 16 + t.cmask.toNat

/-- The state of tile t of core c is replaced. -/
def setTile (s : State) (c t : Nat) (v : Tile) : State :=
  s.modCore c (fun k => { k with ca := { k.ca with tiles := Tab.set Tile.reset k.ca.tiles t v } })

/-- A tile and its shape are written to the save area of its owner (R175). A tile with an uncorrectable word is lost, with a machine check
of the die, and its shape is saved with V = 0 (R385, log 23). -/
def saveTile (s : State) (c t : Nat) : State :=
  let ca := (s.core c).ca
  let v := ca.tile t
  let f := frameOf v.own
  match checkRead s (dieOf c) (.store c) (tileKey (t * 256)) 1024 with
  | (s, some e) => putSave (machineCheckDie s (dieOf c) e) c f (0x100 + 8 * t) (leBytes 8 0)
  | (s, none) =>
    let cells := (List.range 256).flatMap (fun n => leBytes 4 (ca.cell t (n / 16) (n % 16)).toNat)
    putSave (putSave s c f (0x100 + 8 * t) (leBytes 8 (shapeOf v))) c f (0x200 + 1024 * t) cells

/-- A tile and its shape are loaded from the save area of frame f (R175). -/
def loadTile (s : State) (c t f : Nat) : State :=
  let w : Word := BitVec.ofNat 64 (getSaveN s c f (0x100 + 8 * t) 8)
  let bs := getSave s c f (0x200 + 1024 * t) 1024
  let s := (noteSave s c f (0x200 + 1024 * t) 1024).modCore c (fun k => { k with ca := { k.ca with
    tcell := (List.range 256).foldl (fun m n => Tab.set 0 m (t * 256 + n) (BitVec.ofNat 32 (packedElem bs 32 n))) k.ca.tcell } })
  setTile s c t { v := true, d := false, rmask := fld w 16 16, cmask := fld w 0 16, own := ownOf f }

/-- One tile of TMASK at the start of an invocation of the task with frame f: the state and the moves that took place (R175). -/
def moveTile (c f : Nat) (a : State × Nat) (t : Nat) : State × Nat :=
  let (s, n) := a
  let v := (s.core c).ca.tile t
  if v.own = ownOf f then (s, n)
  else
    let (s, n) := if v.own ≠ 0 ∧ v.v ∧ v.d then (saveTile s c t, n + 1) else (s, n)
    let u := noteSave s c f (0x100 + 8 * t) 8
    if getSaveN s c f (0x100 + 8 * t) 8 / 2 ^ 63 = 1 then (spendSave (loadTile u c t f), n + 1)
    else (spendSave (setTile u c t { (u.core c).ca.tile t with v := false, own := ownOf f }), n)

/-- What the tile moves of an invocation read of the save area of frame f: the shapes of the tiles that its task does not own, and the
contents of those that are saved (R175). -/
def tileReads (s : State) (c f : Nat) (tmask : BitVec 8) : List (Nat × Nat) :=
  ((setBits 8 tmask.toNat).filter (fun t => ((s.core c).ca.tile t).own ≠ ownOf f)).flatMap (fun t =>
    (0x100 + 8 * t, 8) :: (if getSaveN s c f (0x100 + 8 * t) 8 / 2 ^ 63 = 1 then [(0x200 + 1024 * t, 1024)] else []))

/-- The tile moves of an invocation and their number (R175). -/
def moveTiles (s : State) (c f : Nat) (tmask : BitVec 8) : State × Nat := (setBits 8 tmask.toNat).foldl (moveTile c f) (s, 0)

/-- The tiles that a task owns are cleared, written first when they are dirty and the task goes on elsewhere (R175). -/
def dropTiles (s : State) (c f : Nat) (save : Bool) : State :=
  (List.range 8).foldl (fun s t =>
    let v := (s.core c).ca.tile t
    if v.own ≠ ownOf f ∨ f = 0 then s
    else setTile (if save ∧ v.v ∧ v.d then saveTile s c t else s) c t { v with v := false, d := false, own := 0 }) s

/-! ## Owed writes -/

/-- DEST of an owed write that is logged; other writes have landed (R171). -/
def destOf (d : KDst) : Option Nat :=
  match d with
  | .d n => some n
  | .m n => some (0x80 + n)
  | .g n => some (0xC0 + n)
  | .row t i => some (0x100 + 16 * t + i)
  | .col t j => some (0x180 + 16 * t + j)
  | _ => none

/-- The destination that DEST names. -/
def dstOf (n : Nat) : KDst :=
  if n < 0x80 then .d n
  else if n < 0xC0 then .m (n - 0x80)
  else if n < 0x100 then .g (n - 0xC0)
  else if n < 0x180 then .row ((n - 0x100) / 16) (n % 16)
  else .col ((n - 0x180) / 16) (n % 16)

/-- The 272 bytes of log entry number i, at a boundary in cycle b (R171). -/
def logBytes (b i : Nat) (o : Owed) : List Byte :=
  let lanes := (o.act.map (fun c => 2 ^ c)).foldl (· + ·) 0
  leBytes 8 (lanes * 2 ^ 32 + (destOf o.dst).getD 0 * 2 ^ 16 + o.slot * 2 ^ 8 + (o.land - b)) ++ leBytes 8 i ++
    (List.range 16).flatMap (fun c => leBytes 16 (((o.lanes.find? (fun l => l.1 = c)).map (fun l => l.2)).getD 0))

/-- The clusters that each owed write reaches: of a row or column of a tile only those that its masks held active at issue, which the log
does not tell (R171, R203, log 62). -/
def reachOf (ca : Ca) : List (List Nat) := ca.owed.map (fun o => o.lanes.map (fun l => l.1))

/-- A log entry as an owed write of an array whose next bundle issues in cycle t (R172). -/
def ofLog (reach : List (List Nat)) (t i : Nat) (bs : List Byte) : Owed :=
  let w := packedElem bs 64 0
  let act := setBits 16 (w / 2 ^ 32 % 2 ^ 16)
  { land := t + w % 2 ^ 8, slot := w / 2 ^ 8 % 2 ^ 8, order := i, dst := dstOf (w / 2 ^ 16 % 2 ^ 10), act := act,
    lanes := (act.filter (fun c => (reach.getD i act).contains c)).map (fun c => (c, packedElem (bs.drop 16) 128 c)) }

/-! ## The caddy's part -/

/-- Whether a fetch is under way into bank b. -/
def inFlight (z : Caddy) (b : Nat) : Option Fetch := z.fetches.find? (fun f => f.bank = b)

/-- The 16-bit tag of bank b (R245). A fetch that has failed is not in flight (R226). -/
def tagBits (z : Caddy) (b : Nat) : Nat :=
  match inFlight z b with
  | some f => b2n f.m16 * 2 ^ 14 + 2 ^ 13 + f.plane
  | none => let t := z.tag b; b2n t.v * 2 ^ 15 + b2n t.m16 * 2 ^ 14 + t.plane

/-- The failed fetch that the running CUBE has yet to stop for (R226, R233). -/
def failOf (z : Caddy) : Option (Nat × Nat) := z.cube.bind (fun q => q.fail)

/-- Word 0 of CDESC in the save area (R245). -/
def cdescWord (d : BitVec 96) : Nat := fldN d 0 49 * 2 ^ 15

/-- NEXT and TBLK from the boundary in cycle b (R245). -/
def schedWord (z : Caddy) (b : Nat) : Nat :=
  match z.cube with
  | some q => (q.next - b) * 2 ^ 32 + (q.tblk - b).emod (2 ^ 32) |>.toNat
  | none => 0

/-- The caddy state at an offset from 0xE800 (R245). -/
def caddySave (z : Caddy) (b : Nat) : List (Nat × List Byte) :=
  [(0x000, leBytes 8 (2 ^ 56 + b2n z.run * 2 + 1)),
   (0x008, leBytes 8 (z.fmtC.toNat * 2 ^ 32 + z.fmtB.toNat * 2 ^ 16 + z.fmtA.toNat)),
   (0x010, leBytes 8 z.bind.toNat), (0x018, leBytes 8 (z.cprog.toNat * 2 ^ 32 + z.csts.toNat)),
   (0x020, leBytes 16 z.psb.toNat), (0x030, leBytes 16 z.psc.toNat), (0x040, leBytes 16 (cdescWord z.cdesc)),
   (0x050, leBytes 8 (((List.range 4).map (fun i => tagBits z i * 2 ^ (16 * i))).foldl (· + ·) 0)),
   (0x058, leBytes 8 (schedWord z b))] ++
  (List.range 4).map (fun i => (0x100 + 768 * i, (Tab.get [] z.bankData i ++ List.replicate 768 0).take 768))

/-- The caddy as a save area with CV = 1 describes it, for an array whose next bundle issues in cycle t (R244). The save area does not tell
of a fetch that had failed before the stop, which is not retried (R226, log 63). -/
def caddyOf (rd : Nat → Nat → Nat) (bytes : Nat → Nat → List Byte) (t : Nat) (fail : Option (Nat × Nat)) (old : Caddy) : Caddy :=
  let fm := rd 8 8
  let ps := rd 0x18 8
  let tag := fun i => rd (0x50 + 2 * i) 2
  let sch := rd 0x58 8
  let tblk : Int := t + sextN (sch % 2 ^ 32) 32
  let psb : Quad := BitVec.ofNat 128 (rd 0x20 16)
  let psc : Quad := BitVec.ofNat 128 (rd 0x30 16)
  let bind : BitVec 33 := BitVec.ofNat 33 (rd 0x10 8)
  let blk := ps / 2 ^ 48 % 2 ^ 12
  let run := (rd 0 8) / 2 % 2 = 1
  let fetches := ((List.range 4).filter (fun i => tag i / 2 ^ 13 % 2 = 1)).map (fun i =>
    let src := if i < 2 then psb else psc
    let plane := tag i % 2 ^ 12
    let lat : Int := if psRemote src then 40 else 24
    ({ bank := i, plane := plane, m16 := (tag i).testBit 14,
       ready := if run ∧ plane = blk + 1 then max t (tblk + lat).toNat else t,
       remote := psRemote src, served := false, bytes := [], fail := none } : Fetch))
  { fmtA := BitVec.ofNat 16 fm, fmtB := BitVec.ofNat 16 (fm / 2 ^ 16), fmtC := BitVec.ofNat 16 (fm / 2 ^ 32),
    bind := bind, psb := psb, psc := psc,
    banks := (List.range 4).map (fun i => ⟨(tag i).testBit 15, tag i % 2 ^ 12, (tag i).testBit 14⟩),
    bankData := (List.range 4).foldl (fun m i => Tab.set [] m i (bytes (0x100 + 768 * i) 768)) [],
    cdesc := BitVec.ofNat 96 (bind.toNat * 2 ^ 63 + rd 0x40 8 / 2 ^ 15), csts := BitVec.ofNat 32 (ps % 2 ^ 32),
    cprog := BitVec.ofNat 32 (ps / 2 ^ 32),
    cube := if run then some { tblk := tblk, next := t + sch / 2 ^ 32, fail := fail } else none,
    steps := [], fetches := fetches, z := old.z }

/-- The caddy that a save area describes; a save area without caddy state leaves it as R220 starts it (R245). -/
def caddyLoad (rd : Nat → Nat → Nat) (bytes : Nat → Nat → List Byte) (t : Nat) (fail : Option (Nat × Nat)) (old : Caddy) : Caddy :=
  if rd 0 8 % 2 = 1 then caddyOf rd bytes t fail old else { Caddy.reset with z := old.z }

/-! ## The array's part -/

/-- Predicates, cursors, first-read flags and tags of the save area (R170). -/
def gWord (ca : Ca) (c : Nat) : Nat := (Tab.get (0 : BitVec 12) ca.g c ||| 1).toNat
def firstFlags (i : Inv) : Nat := ((List.range 8).map (fun p => b2n (i.ports.getD p ⟨0, 0, 0, 0, false, 0⟩).first * 2 ^ p)).foldl (· + ·) 0
def cursorBytes (i : Inv) : List Byte := (List.range 8).flatMap (fun p => leBytes 4 (i.ports.getD p ⟨0, 0, 0, 0, false, 0⟩).cursor)
def expectBytes (i : Inv) : List Byte := (List.range 8).map (fun p => (i.ports.getD p ⟨0, 0, 0, 0, false, 0⟩).expect)

/-- The kernel save area of an invocation stopped in cycle b: offsets and contents (R170, R171, R245). -/
def kernelSave (v : Core) (i : Inv) (b : Nat) : List (Nat × List Byte) :=
  let ca := v.ca
  let log := ca.owed
  [(0x0000, leBytes 8 (2 ^ 56 + i.recaddr * 2 ^ 44 + log.length * 2 ^ 8 + 1)), (0x0008, leBytes 8 (i.trip * 2 ^ 32 + ca.k % 2 ^ 32)),
   (0x0010, leBytes 8 0), (0x0018, leBytes 8 (firstFlags i)),
   (0x0020, (List.range 16).flatMap (fun c => leBytes 2 (gWord ca c))), (0x0040, cursorBytes i), (0x0060, expectBytes i),
   (0x0068, leBytes 8 i.bind.toNat),
   (0x2200, (List.range 2048).flatMap (fun n => leBytes 4 (Tab.get (0 : Word32) ca.d n).toNat)),
   (0x4200, (List.range 1024).flatMap (fun n => leBytes 16 (Tab.get (0 : Quad) ca.m n).toNat)),
   (0x8200, (List.range log.length).flatMap (fun n => match log[n]? with
     | some o => logBytes b n o
     | none => []))] ++
  (caddySave v.cz b).map (fun p => (0xE800 + p.1, p.2))

/-- The array as a save area describes it: its next bundle issues in cycle t (R172). reach, fail and count: what the KRUN entry kept of the
stop; the save area has the low 32 bits of the count k (log 90). -/
def kernelLoad (rd : Nat → Nat → Nat) (bytes : Nat → Nat → List Byte) (t : Nat) (reach : List (List Nat)) (fail : Option (Nat × Nat))
    (count : Nat) (v : Core) (i : Inv) : Core :=
  let n := rd 0x0001 1
  let ds := bytes 0x2200 8192
  let ms := bytes 0x4200 16384
  let i := { i with
    ports := (List.range 8).map (fun p => { i.ports.getD p ⟨0, 0, 0, 0, false, 0⟩ with
      cursor := rd (0x40 + 4 * p) 4, first := (rd 0x18 1).testBit p, expect := BitVec.ofNat 8 (rd (0x60 + p) 1) }),
    phase := .body, left := recKlen i.rec_, index := recKer i.rec_, reload := false, boundary := false, delay := 0 }
  { v with
    cz := caddyLoad (fun o n => rd (0xE800 + o) n) (fun o n => bytes (0xE800 + o) n) t fail v.cz,
    ca := { v.ca with
      cycle := t, k := count / 2 ^ 32 * 2 ^ 32 + rd 0x0008 4, inv := some i,
      d := (List.range 2048).foldl (fun m j => Tab.set 0 m j (BitVec.ofNat 32 (packedElem ds 32 j))) [],
      m := (List.range 1024).foldl (fun m j => Tab.set 0 m j (BitVec.ofNat 128 (packedElem ms 128 j))) [],
      g := (List.range 16).foldl (fun m c => Tab.set 0 m c (BitVec.ofNat 12 (rd (0x20 + 2 * c) 2))) [],
      owed := (List.range n).map (fun j => ofLog reach t j (bytes (0x8200 + 272 * j) 272)), order := n } }

end Sys2Proof.Machine
end

