-- ==== Sys2Proof/Machine/Sequencer.lean ====
section
/-! DEFINITION. KRUN, the start, issue, stop and restart of invocations, and the start and retirement of scoreboard entries (R122 to
R127, R143, R153, R163 to R172, R175, R176, R205, R243, R244). -/

namespace Sys2Proof.Machine

/-! ## KRUN -/

/-- The eight words of a microcode entry (R154). -/
def storeWords (v : Core) (i : Nat) : List Word :=
  let e := Tab.get (0 : BitVec 512) v.ca.store i
  (List.range 8).map (fun j => fld e (64 * j) 64)

/-- A range of bundles lies in the entries of a package, and none of its entries is a loop record (R163). -/
def rangeOk (at_ : Nat → List Word) (l : Loaded) (idx len : Nat) : Bool :=
  len = 0 || (l.ubase ≤ idx && idx + len ≤ l.ubase + l.ulen &&
    (List.range len).all (fun j => kOp ((at_ (idx + j)).getD 0 0) ≠ 0xFE))

/-- A legal loop record of a package (R163). -/
def recordLegal (at_ : Nat → List Word) (l : Loaded) (r : Nat) : Bool :=
  let ws := at_ r
  l.ubase ≤ r && r < l.ubase + l.ulen && kOp (ws.getD 0 0) = 0xFE && (scanRecord ws).isNone &&
    rangeOk at_ l (recKer ws) (recKlen ws) && rangeOk at_ l (recPro ws) (recPlen ws) && rangeOk at_ l (recEpi ws) (recElen ws)

/-- Fields of a port binding (R164). -/
def bindByte (b : Word) (p : Nat) : BitVec 8 := fld b (8 * p) 8
def bindOn (b : Word) (p : Nat) : Bool := bit (bindByte b p) 7
def bindWrites (b : Word) (p : Nat) : Bool := bit (bindByte b p) 6
def bindHn (b : Word) (p : Nat) : Nat := fldN (bindByte b p) 0 5

/-- The binding of port p breaks R165: of two ports bound to one stall that of the higher one (log 92). -/
def badBinding (c : Ctx) (rec : List Word) (b : Word) (p : Nat) : Bool :=
  let on := bindOn b p
  let w := bindWrites b p
  let h := c.rh (bindHn b p)
  (!on && bindByte b p ≠ 0) || bit (bindByte b p) 5 || (on && w) ≠ (recPortW rec).testBit p ||
    (on && !w) ≠ (recPortR rec).testBit p ||
    (on && (!hV h || hRsz h % 4 ≠ 0 || (List.range p).any (fun q => bindOn b q && hBase (c.rh (bindHn b q)) = hBase h)))

/-- The package that a context's task runs, if it is loaded: another package that has since been loaded under the same handle is not it
(R165, R362, R363). -/
def loadedOf (s : State) (x : Nat) : Option Loaded :=
  match (s.ctx x).task with
  | none => none
  | some t => (Tab.get none (s.pkg (pkgOfCtx x)).loaded t.ph).filter (fun l => l.id = t.load)

/-- R164, R165: the checks of KRUN and its acceptance. Fault 0x41 names the lowest port whose binding fails (log 92). A KRUN waits for the
zero fill of its task's save area (R371). -/
def krunBody (a b c : BitVec 5) (s : State) : SlotRes :=
  let x := s.cur.x
  let va := s.rx a
  let vb := s.rx b
  let _ := c
  let unzeroed : Bool := match s.me.task with
    | some t => !t.zeroed
    | none => false
  if unzeroed then .wait s
  else
    match checkRead s (dieOfCtx x) (.store (coreOf x)) (ucKey (fldN va 0 12)) 64 with
    | (s, some f) => .check f s
    | (s, none) =>
    let at_ := storeWords (s.core (coreOf x))
    let r := fldN va 0 12
    let legal := match loadedOf s x with
      | some l => recordLegal at_ l r
      | none => false
    if fldN va 48 16 ≠ 0 ∨ fldN va 12 4 ≠ 0 ∨ !legal then .fault (cmdFault s 0x40 r) s
    else
      match (List.range 8).find? (badBinding s.me (at_ r) vb) with
      | some p => .fault (cmdFault s 0x41 p) s
      | none =>
        let on := (List.range 8).filter (bindOn vb)
        .done (accept ((on.filter (fun p => !bindWrites vb p)).map (bindHn vb)) ((on.filter (bindWrites vb)).map (bindHn vb)) s)

/-- R164. -/
def execKrun (g : Guard) (a b c : BitVec 5) (s : State) : Out := slotE g [a.toNat, b.toNat, c.toNat] (krunBody a b c) s

/-! ## Start of entries -/

/-- The stream ports that a binding names, at their start (R152, R153, R165). -/
def portsOf (e : Entry) (b : Word) : List Port :=
  (List.range 8).map (fun p =>
    let hn := bindHn b p
    if !bindOn b p then ⟨0, 0, 0, 0, false, 0⟩
    else if bindWrites b p then ⟨2, hn, ((e.writes.find? (fun w => w.1 = hn)).map (fun w => w.2)).getD 0, 0, false, 0⟩
    else
      let r := (e.reads.find? (fun w => w.1 = hn)).getD (0, 0, 0)
      ⟨1, hn, r.2.1, 0, false, r.2.2⟩)

/-- RECADDR, TRIP and the bindings of a KRUN entry: its operands, or what the save area keeps of a stopped invocation (R164, R172). -/
def krunArgs (s : State) (c frame : Nat) (e : Entry) : Nat × Nat × Word :=
  if e.resume = 1 then
    (fldN (BitVec.ofNat 64 (getSaveN s c frame 0 8)) 44 12, getSaveN s c frame 0xC 4, BitVec.ofNat 64 (getSaveN s c frame 0x68 8))
  else (fldN (e.rx (en1 e.word)) 0 12, fldN (e.rx (en1 e.word)) 16 32, e.rx (en2 e.word))

/-- The sequencer takes a KRUN entry: it reads the record, then come tile moves and the start of the invocation, or its reload (R166, R172,
R175). An uncorrectable word of the record, or of what is read of the save area, ends the entry and its task (R385). -/
def startKernel (s : State) (c i : Nat) (e : Entry) : State :=
  let x := c * 4 + e.ctx
  let frame := (s.ctx x).frame.toNat
  let bad := fun s => endEntry s c i
  withArea s x c frame (if e.resume = 1 then [(0, 0x10), (0x68, 8)] else []) bad (fun s =>
  let (r, trip, bind) := krunArgs s c frame e
  readStore s x c (ucKey r) 64 bad (fun s =>
  let ws := storeWords (s.core c) r
  withArea s x c frame (tileReads s c frame (recTmask ws)) bad (fun s =>
  let (s, n) := moveTiles s c frame (recTmask ws)
  let v : Inv := {
    slot := i, word := e.word, ctx := e.ctx, frame := frame, recaddr := r, rec_ := ws, trip := trip,
    scalar := e.rx (en3 e.word), bind := bind, phase := .start, left := 0, index := 0, bundle := none,
    ports := portsOf e bind, touches := e.touches, touch := e.touch, flt := none, boundary := false, reload := e.resume = 1,
    delay := 64 * n }
  s.modCore c (fun k => { k with ca := { k.ca with inv := some v } }))))

/-- An entry starts: an SRECV takes 1 from the push counter of its stall (R125, R138). -/
def startEntry (s : State) (c i : Nat) (e : Entry) : State :=
  let s := s.setEntry c i (some { e with st := .started, held := false })
  if opOf e.word = 0x1E then startKernel s c i e
  else if isSrecv e.word then e.writes.foldl (fun s w => modStall s c (hBase w.2) (fun t => { t with push := t.push - 1 })) s
  else s

/-- R125: ENTRY_START of entry i of core c. -/
def execEntryStart (c i : Nat) (s : State) : Out :=
  match s.entry c i with
  | none => .next s
  | some e =>
    let waits := opOf e.word = 0x1E && tilesWait s c (s.ctx (c * 4 + e.ctx)).frame.toNat
    .next (if mayStart s c e && !frozen s c && !waits then startEntry s c i e else s)

/-! ## Retirement -/

/-- The invocation of entry i has ended: its owed writes and the caddy's steps have landed (R166, R243). -/
def invEnded (v : Core) (i : Nat) : Bool :=
  match v.ca.inv with
  | none => false
  | some k => k.slot = i && k.phase = .ended && v.ca.owed.isEmpty && v.cz.cube.isNone && v.cz.steps.isEmpty

/-- The entry's effect is complete (R126). One that ends early keeps its place until the stores that it sent are complete (R127,
R340). -/
def entryComplete (s : State) (c i : Nat) (e : Entry) : Bool :=
  e.st = .started && (e.stop && e.owed = 0 ||
    match opOf e.word, subOf e.word with
    | 0x1D, 1 => true
    | 0x1D, 6 => isSrecv e.word || (if isPull e.word then e.sub = 1 && e.resume = e.count else e.sub = 2)
    | 0x1D, _ => e.resume = e.count
    | 0x1E, _ => invEnded (s.core c) i
    | _, sub => e.resume = e.count && (sub ≤ 1 || e.owed = 0))

/-- The record of fault 0x27 (R143). -/
def touchRec (s : State) (c i : Nat) (v : Inv) : List Rec :=
  match v.touch with
  | none => []
  | some (bank, off, t) => [mkRecAt s (c * 4 + v.ctx) false
      ⟨0x27, 3, bank * 2 ^ 18 + off % 2 ^ 18, v.word.toNat * 2 ^ 32 + i * 2 ^ 24 + min v.touches 0xFFFFFF, bank⟩ t]

/-- R126: ENTRY_RETIRE of entry i of core c. The invocation of a KRUN that has one is over with it. -/
def execEntryRetire (c i : Nat) (s : State) : Out :=
  match s.entry c i with
  | none => .next s
  | some e =>
    if !entryComplete s c i e || frozen s c then .next s
    else
      match opOf e.word, (s.core c).ca.inv.filter (fun v => v.slot = i) with
      | 0x1E, some v =>
        let recs := v.flt.toList ++ touchRec s c i v
        .next (retireEntry (s.modCore c (fun k => { k with ca := { k.ca with inv := none } })) c i recs)
      | _, _ => .next (retireEntry s c i [])

/-! ## Issue -/

/-- The state of R153 and of R220, and the first bundle's cycle (R166). -/
def firstState (v : Core) (i : Inv) : Core :=
  let lo := fldN i.scalar 0 32
  let hi := fldN i.scalar 32 32
  { v with
    cz := { Caddy.reset with z := v.cz.z },
    ca := { v.ca with
      cycle := v.ca.cycle + 18 + i.delay, k := 0, m := [], inv := some (toPrologue i),
      d := (List.range 16).foldl (fun m c =>
        Tab.set 0 (Tab.set 0 (Tab.set 0 m (c * 128) (BitVec.ofNat 32 lo)) (c * 128 + 1) (BitVec.ofNat 32 hi)) (c * 128 + 2)
          (BitVec.ofNat 32 c)) [],
      g := (List.range 16).foldl (fun m c => Tab.set 0 m c (setStages 0 i.trip 0)) [] } }

/-- R153, R166: INVOCATION_FIRST_BUNDLE on core c. -/
def execInvocationFirstBundle (c : Nat) (s : State) : Out :=
  match (s.core c).ca.inv with
  | none => .next s
  | some i => .next (if i.phase = .start && !i.reload && !frozen s c then s.modCore c (fun v => firstState v i) else s)

/-- R205: the checks of a tile operation; idx is the row or column, with its mask. -/
def tileCheck (v : Core) (i : Inv) (t : Nat) (cfg : Bool) (idx : Option (Nat × BitVec 16)) : Option KFlt :=
  firstOf [(!bit (recTmask i.rec_) t, ⟨0x43, t, 0, 0⟩), (!cfg && !(v.ca.tile t).v, ⟨0x43, t, 1, 0⟩),
    (match idx with
     | some (n, m) => !bit m n
     | none => false, ⟨0x44, t, (idx.getD (0, 0)).1, 0⟩)]

/-- The pass ends with this bundle: it must hold the LOOP (R167). -/
def lastOfBody (i : Inv) : Bool := i.phase = .body && i.left = 1

/-- The fault that a slot of the next bundle would raise (R176, R198, R205, R167, R243): a LOOP that is missing comes before the fault of
what stands in its slot (log 92). -/
def slotFault (v : Core) (c : Nat) (i : Inv) (slot : Nat) (w : Word) : Option KFlt :=
  let act := fun g => actOf v.ca g
  let some_ := fun g => act g ≠ []
  let lead := fun g => (act g).contains 0
  let tile := fun t => v.ca.tile t
  let ins := decodeKernel w
  let loopMiss : Option KFlt :=
    if slot = 7 ∧ lastOfBody i ∧ w ≠ 0x4000000000000000 then some ⟨0x45, 0, 1, 0⟩ else none
  match loopMiss with
  | some f => some f
  | none =>
    match ins with
    | .ok (.srd g _ p _) =>
      if some_ g then firstOf [(notRead v p.toNat, ⟨0x46, p.toNat, 0, 0⟩), (badTag v p.toNat, tagFlt v p.toNat)] else none
    | .ok (.swr g _ p _) => if some_ g ∧ (v.ca.port p.toNat).dir ≠ 2 then some ⟨0x46, p.toNat, 1, 0⟩ else none
    | .ok (.trow g _ t n) => if some_ g then tileCheck v i t.toNat false (some (n.toNat, (tile t.toNat).rmask)) else none
    | .ok (.trowr g _ t n) => if some_ g then tileCheck v i t.toNat false (some (n.toNat, (tile t.toNat).rmask)) else none
    | .ok (.tcol g _ t n) => if some_ g then tileCheck v i t.toNat false (some (n.toNat, (tile t.toNat).cmask)) else none
    | .ok (.tcolr g _ t n) => if some_ g then tileCheck v i t.toNat false (some (n.toNat, (tile t.toNat).cmask)) else none
    | .ok (.tzero g t) => if some_ g then tileCheck v i t.toNat false none else none
    | .ok (.tcfg t _ _) => tileCheck v i t.toNat true none
    | .ok .loop => if lastOfBody i then none else some ⟨0x45, 0, 0, 0⟩
    | .ok (.cfmt g _ _) => if lead g ∧ v.cz.run then some ⟨0x60, 0, 0x48, 0⟩ else none
    | .ok (.cbind g _) => if lead g ∧ v.cz.run then some ⟨0x60, 0, 0x4A, 0⟩ else none
    | .ok (.clatch g _ p _ _ _) => if lead g then latchCheck v p.toNat else none
    | .ok (.clatchr g _ r _ _ _) => if lead g then latchRefCheck v c r else none
    | .ok (.cube g p sc dm _ _ zb) => if lead g then cubeCheck v p.toNat sc dm zb.toNat else none
    | .ok (.czero g dz zo n) => zCheck v (act g) dz zo (n.toNat + 1)
    | .ok (.cmovzToM g _ dz zo _) => zCheck v (act g) dz zo 1
    | .ok (.cmovzToZ g _ dz zo _) => zCheck v (act g) dz zo 1
    | _ => none

/-- The slot whose fault a bundle reports: the lowest (R28). -/
def bundleFault (v : Core) (c : Nat) (i : Inv) (ws : List Word) : Option (Nat × KFlt) :=
  (List.range 8).findSome? (fun n => (slotFault v c i n (ws.getD n 0)).map (fun f => (n, f)))

/-- The record of a fault inside an invocation (R176). -/
def kernelRec (s : State) (c : Nat) (i : Inv) (k slot : Nat) (f : KFlt) : Rec :=
  mkRec s (c * 4 + i.ctx) false
    ⟨f.code, 0, 0, i.index % 2 ^ 12 * 2 ^ 52 + f.idx * 2 ^ 48 + f.a % 2 ^ 8 * 2 ^ 40 + f.b % 2 ^ 8 * 2 ^ 32 + k % 2 ^ 32, slot⟩

/-- A fault ends the invocation: no slot of the bundle is performed, and a running CUBE stops (R176, R243). -/
def kernelFault (s : State) (c : Nat) (i : Inv) (slot : Nat) (f : KFlt) : State :=
  let r := kernelRec s c i (s.core c).ca.k slot f
  s.modCore c (fun v => { v with
    cz := if v.cz.run then v.cz.stop 5 0 else v.cz,
    ca := { v.ca with inv := some { i with phase := .ended, left := 0, bundle := none, flt := some r } } })

/-- A save of the invocation's context is requested (R82, R169), and its task is not at its end, which waits for the invocation
(R372, R375). Before the save for a fault that stopped an entry of the task the invocation runs to completion (R145). -/
def saveWanted (s : State) (c : Nat) (i : Inv) : Bool :=
  let x := s.ctx (c * 4 + i.ctx)
  x.save.isSome && !faulted s (c * 4 + i.ctx) && !(match x.issue with
    | some is => is.exit
    | none => false)

/-- The next bundle of core c may issue: everything due before it has happened. -/
def mayIssueKernel (s : State) (c : Nat) (i : Inv) : Bool :=
  i.bundle.isNone && (i.phase = .prologue || i.phase = .body || i.phase = .epilogue) && settled (s.core c) && !frozen s c &&
    !(i.boundary && saveWanted s c i)

/-- R154, R166: KERNEL_BUNDLE_ISSUE on core c. A bundle that the microcode store cannot give ends the invocation (R385). The turns that
follow perform the slots. -/
def execKernelBundleIssue (c : Nat) (s : State) : Out :=
  match (s.core c).ca.inv with
  | none => .next s
  | some i =>
    if !mayIssueKernel s c i then .next s
    else
      match checkRead s (dieOf c) (.store c) (ucKey i.index) 64 with
      | (s, some f) =>
        .next (machineCheck (modInv s c (fun i => { i with phase := .ended, left := 0 })) (c * 4 + i.ctx) f)
      | (s, none) =>
      let ws := storeWords (s.core c) i.index
      match bundleFault (s.core c) c i ws with
      | some (slot, f) => .next (kernelFault s c i slot f)
      | none =>
        let b : KIssue := { words := ws, todo := (List.range 8).filter (fun n => ws.getD n 0 ≠ 0), wait := 0, taken := false }
        .next (closeKernel (modInv s c (fun i => { i with bundle := some b, boundary := false })) c)

/-! ## Stop and reload -/

/-- What lands in cycle t while the array is stopping: steps, then writes to the banks and accumulators (R169, R244). -/
def landStopCycle (v : Core) (t : Nat) : Core :=
  let v := landSteps v t
  let due := v.ca.owed.filter (fun o => (destOf o.dst).isNone && o.land ≤ t)
  let v := { v with ca := { v.ca with owed := v.ca.owed.filter (fun o => (destOf o.dst).isSome || t < o.land) } }
  (due.foldl (fun l o => insertOwed o l) []).foldl landWrite v

/-- Steps land, stores reach the bank and accumulator writes land; the other owed writes are kept (R169, R244). -/
def landAtStop (v : Core) : Core :=
  let b := v.ca.cycle
  let lands := (v.cz.steps.map (fun p => p.land) ++ v.ca.owed.map (fun o => o.land)).foldl max b
  (List.range (lands + 1 - b)).foldl (fun v n => landStopCycle v (b + n)) v

/-- R169: ITERATION_BOUNDARY_STOP on core c, when a save of the invocation's context is requested. Fetches in flight complete or fail with
no effect that is kept: they start again at the restore (R244). -/
def execIterationBoundaryStop (c : Nat) (s : State) : Out :=
  match (s.core c).ca.inv with
  | none => .next s
  | some i =>
    if !(i.boundary && i.bundle.isNone && saveWanted s c i && settled (s.core c) && !frozen s c) || areaWaits s c i.frame then .next s
    else
      let b := (s.core c).ca.cycle
      let s := s.modCore c landAtStop
      let v := s.core c
      let s := (kernelSave v i b).foldl (fun s p => putSave s c i.frame p.1 p.2) s
      let s := s.modCore c (fun v => { v with
        cz := { v.cz with cube := none, fetches := [] }, ca := { v.ca with inv := none, owed := [] } })
      .next (s.setEntry c i.slot ((s.entry c i.slot).map (fun e => { e with
        st := .stopped, resume := 1, touches := i.touches, touch := i.touch, reach := reachOf v.ca, cfail := failOf v.cz, kcount := v.ca.k })))

/-- Remote fetches that restart are served before the first bundle (R244). -/
def serveAll (s : State) (c : Nat) : State :=
  (s.core c).cz.fetches.foldl (fun s f =>
    if f.remote then
      readRemote c f.bank f s (fun s =>
        let f := serveFetch s c f
        match f.fail with
        | some (why, core) => s.modCore c (fun v => failFetch v f why core)
        | none => answerFetch s c f.bank (fun _ => f))
    else s) s

/-- The invocation of core c is taken from its save area (R172). -/
def reload (s : State) (c : Nat) (i : Inv) : State :=
  let rd := getSaveN s c i.frame
  let bytes := getSave s c i.frame
  let t := (s.core c).ca.cycle + 18 + i.delay
  let u := noteSave (spendSave s) c i.frame 0 (2 ^ 16)
  let e := s.entry c i.slot
  let count := (e.map (·.kcount)).getD 0
  serveAll (u.setCore c (kernelLoad rd bytes t ((e.map (·.reach)).getD []) (e.bind (·.cfail)) count (u.core c) i)) c

/-- R172: KERNEL_RELOAD on core c. A save area with an uncorrectable word ends the invocation and its task (R385). -/
def execKernelReload (c : Nat) (s : State) : Out :=
  match (s.core c).ca.inv with
  | none => .next s
  | some i =>
    if !(i.phase = .start && i.reload && !frozen s c) || areaWaits s c i.frame then .next s
    else
      .next (withArea s (c * 4 + i.ctx) c i.frame [(0, 2 ^ 16)]
        (fun s => modInv s c (fun i => { i with phase := .ended, left := 0, reload := false })) (fun s => reload s c i))

end Sys2Proof.Machine
end

