-- ==== Sys2Proof/Machine/System.lean ====
section
/-! DEFINITION. The system registers and the cycle counter (R57, R109, R110). -/

namespace Sys2Proof.Machine

/-- CTXID (R57). -/
def ctxidOf (x : Nat) : Word := BitVec.ofNat 64 (pkgOfCtx x * 2 ^ 11 + coreId (coreOf x) * 4 + x % 4)

/-- WB of CSTAT: the B bits of the windows (R57). -/
def boundMask (c : Ctx) : Nat :=
  ((List.range 8).map (fun n => b2n (bit (Tab.get (0 : Quad) c.w n) 96) * 2 ^ n)).foldl (· + ·) 0

/-- CSTAT (R57). -/
def cstatOf (c : Ctx) : Word :=
  BitVec.ofNat 64 (boundMask c * 2 ^ 8 + b2n c.pend.isSome * 4 + b2n c.rb.isSome * 2 + b2n c.t)

/-- RBSTAT: OCC and PERF of the replay buffer (R57). -/
def rbstatOf (c : Ctx) : Word :=
  match c.rb with
  | some is => BitVec.ofNat 64 (is.occ.toNat * 16 + is.perf.toNat)
  | none => 0

/-- The value that MFS reads (R57, R109). -/
def sysRead (x : Nat) (c : Ctx) (n : Nat) : Word :=
  match n with
  | 0 => ctxidOf x
  | 1 => c.wid
  | 2 => cstatOf c
  | 3 => c.tvec
  | 4 => c.epc
  | 5 => rbstatOf c
  | 6 => c.lease.setWidth 64
  | 7 => c.ldpstk
  | 8 => c.gixstk
  | 9 => c.frame
  | _ => 0

/-- RBSTAT.SKIP marks slots performed without performing them (R57, R109). -/
def skipSlots (is : Issue) (v : Word) : Issue := { is with perf := is.perf ||| (fld v 8 4 &&& is.occ) }

/-- The fields that MTS writes (R57, R109). -/
def sysWrite (c : Ctx) (n : Nat) (v : Word) : Ctx :=
  match n with
  | 3 => { c with tvec := v &&& 0x007FFFFFFFFFFF80 }
  | 4 => { c with epc := v &&& 0x007FFFFFFFFFFFFC }
  | 5 => { c with rb := c.rb.map (fun is => skipSlots is v) }
  | 7 => { c with ldpstk := if bit v 63 then setBit c.ldpstk 63 false else c.ldpstk }
  | 8 => { c with gixstk := if bit v 63 then setBit c.gixstk 63 false else c.gixstk }
  | _ => c

/-- R109. -/
def execMfs (g : Guard) (d : BitVec 5) (n : BitVec 12) (s : State) : Out :=
  slotABM g [d] (fun s => setX d (sysRead s.cur.x s.me n.toNat) s) s

/-- R109. MTS to EPC or RBSTAT outside the trap handler raises fault 0x06. -/
def execMts (g : Guard) (d : BitVec 5) (n : BitVec 12) (s : State) : Out :=
  slotABM g [d] (fun s =>
    if (n.toNat = 4 ∨ n.toNat = 5) ∧ s.me.t = false then .fault (Flt.mk0 0x06 n.toNat) s
    else .done (s.modMe (fun c => sysWrite c n.toNat (s.rx d)))) s

/-- The cycle counter as it stood in the issue cycle of the open bundle (R109). -/
def State.issueTick (s : State) : Word :=
  match s.me.issue with
  | some is => is.tick
  | none => s.tickOf (dieOfCtx s.cur.x)

/-- R109. -/
def execRdtick (g : Guard) (d : BitVec 5) (s : State) : Out := slotABM g [d] (fun s => setX d s.issueTick s) s

end Sys2Proof.Machine
end

