-- ==== Sys2Proof/Machine/TransEvents.lean ====
section
/-! DEFINITION. What translation units, pagers and hotness counters do outside instructions (R22, R23, R272, R282 to R289). -/

namespace Sys2Proof.Machine

/-! ## Hotness counters -/

/-- A page of a die's counter region is held by a migration (R272, R291). -/
def hotHeld (s : State) (d : Nat) : Bool :=
  let m := (s.pkg (pkgOfDie d)).mig
  let b := fldN (s.die d).hotbase 16 28
  [m.old, m.new].any (fun n => b ≤ n && n * 2 ^ 16 < b * 2 ^ 16 + 8 * hotBlocks && gate s ⟨pkgOfDie d, n * 2 ^ 16, 0, 0, 0⟩ ≠ .go)

/-- The cached counter words of a die are written to its region; a word that is in error raises a machine check of the die and is not
written (R255, R272, R385). -/
def flushWords (s : State) (d : Nat) : State :=
  (Tab.members (s.die d).hot).foldl (fun s p =>
    let q := hotPlace s d p.1
    match checkRead s d .mss (memKey q.pkg q.pa) 8 with
    | (s, some f) => machineCheckDie s d f
    | (s, none) => s.writePhys q.pkg false q.pa (leBytes 8 p.2.toNat)) s

/-- FLUSH of a die; it waits while a migration holds a page of the region (R272, R291, log 86). -/
def hotFlush (s : State) (d : Nat) : State := if hotHeld s d then holdJob s d .flush else flushWords s d

/-- Every counter word of a die becomes zero: the cached ones, and the 48 MiB of the region (R272). -/
def clearWords (s : State) (d : Nat) : State :=
  let b := memKey (pkgOfDie d) (fldN (s.die d).hotbase 16 28 * 2 ^ 16)
  let s := s.modDie d (fun v => { v with hot := [] })
  { s with mem := s.mem.filter (fun c => c.1 < b || b + 8 * hotBlocks ≤ c.1) }

/-- CLEAR of a die; it waits while a migration holds a page of the region (R272, R291, log 86). -/
def hotClear (s : State) (d : Nat) : State := if hotHeld s d then holdJob s d .clear else clearWords s d

/-- A job of a die's home controllers that has waited for a migration is done (R271 to R273, R291). -/
def runJob (s : State) (d : Nat) (j : HotJob) : State :=
  match j with
  | .touch src pa => hotTouch s src d pa
  | .note rec => if bit (s.die d).hotq 0 then pushNote (fun s src b => countHome s src b) s d rec else s
  | .flush => hotFlush s d
  | .clear => hotClear s d

/-- The jobs of the dies of package p that waited for its migration, which is over (R291, log 86). -/
def runJobs (s : State) (p : Nat) : State :=
  (List.range 4).foldl (fun s i =>
    let d := p * 4 + i
    if (s.die d).hotJobs.isEmpty then s
    else (s.die d).hotJobs.foldl (fun s j => runJob s d j) (s.modDie d (fun v => { v with hotJobs := [] }))) s

/-- R272. -/
def execHotctlFlush (d : Nat) (s : State) : Out := .next (hostWrite s d (fun s => hotFlush s d))
/-- R272. -/
def execHotctlClear (d : Nat) (s : State) : Out := .next (hostWrite s d (fun s => hotClear s d))

/-! ## Walks and scans -/

/-- R282: TABLE_WALK of core c fills its TLB and node cache. -/
def execTableWalk (c : Nat) (va : BitVec 64) (kind : BitVec 4) (s : State) : Out :=
  whileRuns s (dieOf c) (.next ((translate s c [] va kind.toNat).state c))

/-- R22, R23: PAGE_SCAN of the executable page that a TLB entry of core c translates. -/
def execPageScan (c : Nat) (va : BitVec 64) (s : State) : Out :=
  whileRuns s (dieOf c) (match tlbHit (s.core c).tlb (va.toNat / 2 ^ 16) with
  | none => .next s
  | some e => if 2 ≤ eKind e.pte && !e.scanned.contains (va.toNat / 2 ^ 16) then .next ((useExec s c va.toNat e).state c) else .next s)

/-- The n-th walk of core c changes, or is over and forgotten. -/
def setWalk (s : State) (c n : Nat) (w : Option Walking) : State :=
  s.modCore c (fun k => { k with walks := k.walks.take n ++ w.toList ++ k.walks.drop (n + 1) })

/-- R289: the n-th walk of core c, which waits on a migration lock, rereads its entry; once M is 0 the walk ends, gives up its slot, and its
result awaits the misses that share it (R282). A walk that meets a machine check is dropped: they walk themselves, and it is logged where
there are none (R385). -/
def execMigrationLockReread (c n : Nat) (s : State) : Out :=
  match (s.core c).walks[n]? with
  | none => .next s
  | some v =>
    if v.res.isSome || s.stopped (dieOf c) then .next s
    else
      let w := walk s (dieOf c) v.page []
      match serveReads s (dieOf c) w.reads with
      | (s, some f) => .next (setWalk (if v.takers.isEmpty then machineCheckDie s (dieOf c) f else s) c n none)
      | (s, none) =>
        match w.res with
        | .lock level => .next (setWalk s c n (some { v with level := level }))
        | r =>
          let s := s.modCore c (fun k => { k with nodes := nodesAdd k.nodes w.nodes })
          .next (setWalk s c n (if v.takers.isEmpty then none else some { v with res := some r }))

/-! ## Upcalls -/

/-- The next ticket of die d: none of its outstanding upcalls has it (R287). -/
def freeTicket (s : State) (d : Nat) : Nat :=
  let us := (s.die d).upcalls
  ((List.range (us.length + 1)).map (fun i => ((s.die d).ticket + i) % 2 ^ 32)).find? (fun t => us.all (fun u => u.ticket ≠ t)) |>.getD 0

/-- An upcall is pushed into the queue of its region; it stays unpushed when the queue is full, or while a migration holds the
region table or the queue (R285, R288, R291). -/
def pushUpcall (s : State) (d : Nat) (u : Upcall) : State :=
  if gate s (regionPlace s d u.region) ≠ .go then s
  else readDie (countHome s d (regionPlace s d u.region)) [(regionPlace s d u.region, 8)] id (fun s =>
    match regionQueue s d u.region with
    | none => s
    | some q =>
      let b := queuePlaceOf d q
      if gate s b ≠ .go then s
      else readDie (countHome s d b) (qReads s b false) id (fun s =>
        if !qOk s (pkgOfDie d) q then s
        else
          match qPush s (pkgOfDie d) q (u.fields.map BitVec.toNat) with
          | (s, true) => s.modDie d (fun v => { v with
              upcalls := v.upcalls.map (fun w => if w.ticket = u.ticket then { w with pushed := true } else w) })
          | (s, false) => s))

/-- R288: UPCALL_RETRY of the n-th upcall of die d. -/
def execUpcallRetry (d n : Nat) (s : State) : Out :=
  match (s.die d).upcalls[n]? with
  | none => .next s
  | some u => .next (if u.pushed then s else pushUpcall s d u)

/-- The answer for a ticket makes its saved task ready; a failure is passed on (R288). -/
def answerTicket (s : State) (d ticket : Nat) (fail : Option Nat) : State :=
  let s := s.modPkg (pkgOfDie d) (fun k => { k with saved := k.saved.map (fun t =>
    if t.core / 128 = d ∧ t.ticket = some ticket then { t with ticket := none, fail := fail, ready := true } else t) })
  s.modDie d (fun v => { v with upcalls := v.upcalls.filter (fun u => u.ticket ≠ ticket) })

/-- R287, R288: PAGER_ANSWER pops a record of RESQ of die d, once no migration holds its block (R291). -/
def execPagerAnswer (d : Nat) (s : State) : Out :=
  let q := fldN (s.die d).resq 8 36 * 2 ^ 8
  let p := pkgOfDie d
  if !bit (s.die d).resq 0 then .next s
  else
    let b := queuePlaceOf d q
    if gate s b ≠ .go then .next s
    else .next (readDie (countHome s d b) (qReads s b true) id (fun s =>
      if !qOk s p q then s
      else
        match qPop s p q with
        | (s, none) => s
        | (s, some r) => answerTicket s d (r.getD 0 0 + 2 ^ 32 * r.getD 1 0) (if r.getD 2 0 = 0 then none else some (r.getD 3 0))))

/-! ## Invalidation -/

/-- The cores of a die. -/
def coresOfDie (d : Nat) : List Nat := (List.range 128).map (fun i => d * 128 + i)

/-- A TLB entry covers one of the pages: all, or VPN. -/
def tinvDrops (all : Bool) (vpn : Nat) (e : TlbE) : Bool := all || e.covers vpn

/-- An invalidation starts on die d: its translation units drop the entries, every node-cache entry, the results of walks that nothing has
taken yet, and the instruction cache (log 71); a write while BUSY is 1 is ignored (R284). -/
def tinvStart (s : State) (d : Nat) (all : Bool) (vpn : Nat) : State :=
  if bit (s.die d).tinv 63 then s
  else
    let cs := (s.cores.map (fun p => p.1)).filter (fun c => dieOf c = d)
    let dropped := cs.flatMap (fun c => ((s.core c).tlb.filter (tinvDrops all vpn)).map (fun e => (e.page, e.lg)))
    let s := cs.foldl (fun s c => s.modCore c (fun k => { k with
      tlb := k.tlb.filter (fun e => !tinvDrops all vpn e), nodes := [], ic := [], walks := k.walks.filter (·.res.isNone) })) s
    s.modDie d (fun v => { v with
      tinv := BitVec.ofNat 64 (2 ^ 63 + b2n all * 2 ^ 62 + vpn % 2 ^ 39), tinvMark := s.nextId, tinvCover := (vpn, 0) :: dropped })

/-- R284. -/
def execTinvVpn (d : Nat) (vpn : BitVec 39) (s : State) : Out := .next (hostWrite s d (fun s => tinvStart s d false vpn.toNat))
/-- R284. -/
def execTinvAll (d : Nat) (s : State) : Out := .next (hostWrite s d (fun s => tinvStart s d true 0))

/-- The die and the address of an access that a packet makes by a translation of its source: a tagged store on its way to the shed that it
names (R339), or a GPEEK (R343). -/
def Pkt.translated (p : Pkt) : Option (Nat × Nat) :=
  match p.kind with
  | .store _ _ _ (some _) va => some (p.from_, va)
  | .command _ x _ _ (some _) va _ _ => some (dieOfCtx x, va)
  | .peek x _ (some _) va _ _ => some (dieOfCtx x, va)
  | _ => none

/-- An access of die d that was translated through a dropped entry before the invalidation is not performed (R284). -/
def tinvPending (s : State) (d : Nat) : Bool :=
  let v := s.die d
  let covers := fun va => bit v.tinv 62 || v.tinvCover.any (fun e => va / 2 ^ 16 % 2 ^ 39 / 2 ^ e.2 = e.1 / 2 ^ e.2)
  (Tab.members s.reqs).any (fun p => p.1 < v.tinvMark && dieOfCtx p.2.x = d && p.2.ans.isNone && covers p.2.va) ||
    (Tab.members s.verbs).any (fun p => p.1 < v.tinvMark && dieOfCtx p.2.x = d && p.2.busy) ||
    (Tab.members s.pkts).any (fun p => p.1 < v.tinvMark && p.2.translated.any (fun t => t.1 = d && covers t.2)) ||
    s.cores.any (fun p => dieOf p.1 = d && (Tab.members p.2.sb).any (fun e => !e.2.places.isEmpty))

/-- R284: TINV_COMPLETE of die d. -/
def execTinvComplete (d : Nat) (s : State) : Out :=
  .next (if bit (s.die d).tinv 63 && !tinvPending s d then s.modDie d (fun v => { v with tinv := setBit v.tinv 63 false }) else s)

end Sys2Proof.Machine
end

