-- ==== Sys2Proof/Machine/Verbs.lean ====
section
/-! DEFINITION. The verbs PUT, GET, SIGNAL and LAMO, and SYNCT (R296 to R303, R305, R306, R309, R311). -/

namespace Sys2Proof.Machine

/-! ## Acceptance -/

/-- The addresses at which a range of n bytes enters pages. -/
def pagesOf (a n : Nat) : List Word :=
  if n = 0 then []
  else (List.range ((a % 2 ^ 16 + n + 2 ^ 16 - 1) / 2 ^ 16)).map (fun i =>
    if i = 0 then BitVec.ofNat 64 a else BitVec.ofNat 64 ((a / 2 ^ 16 + i) * 2 ^ 16))

/-- Every page of a list is translated (R298). -/
def withPlaces (kind : Nat) : List Word → (List Place → State → SlotRes) → State → SlotRes
  | [], k, s => k [] s
  | va :: vs, k, s => withPlace s va kind (fun p s => withPlaces kind vs (fun ps s => k (p :: ps) s) s)

/-- Pages that an atomic or a signal add reaches; host memory raises fault 0x71 (R297). -/
def withHomes (va : Nat) (on : Bool) (k : List Place → State → SlotRes) (s : State) : SlotRes :=
  if on then
    withPlaces 2 [BitVec.ofNat 64 va] (fun ps s =>
      if ps.any (fun p => p.pl = 2) then .fault ⟨0x71, 1, va, cmdDetail s.word 0xFF 0, 0⟩ s else k ps s) s
  else k [] s

/-- The operands of a verb. -/
structure VerbOp where
  kind : VerbKind
  l : Nat
  v : Nat
  target : Nat
  len : Nat
  sig : Nat
  op : Nat
  cmp : Nat
  deriving DecidableEq, Repr

/-- The operand group of a verb (R297). -/
def verbOp (kind : VerbKind) (q : Nat) (s : State) : VerbOp :=
  let r := fun i => (s.rxn (4 * q + i)).toNat
  let c := s.rxn (4 * q + 2)
  match kind with
  | .put => ⟨kind, r 0, r 1, fldN c 32 10, fldN c 0 25, r 3, 0, 0⟩
  | .get => ⟨kind, r 0, r 1, fldN c 32 10, fldN c 0 25, 0, 0, 0⟩
  | .signal => ⟨kind, 0, r 0, fldN c 32 10, 0, 0, r 1, 0⟩
  | .lamo _ n => ⟨kind, 0, r 0, fldN c 32 10, 0, 0, r 1 % 2 ^ (8 * n), r 3 % 2 ^ (8 * n)⟩

/-- R297: field offences of the operand group, in the order of R129. -/
def verbBad (kind : VerbKind) (q : Nat) (s : State) : List (Bool × Nat × Nat) :=
  let n := 4 * q + 2
  let c := s.rxn n
  let move := kind = .put ∨ kind = .get
  [(move && 2 ^ 24 < fldN c 0 25, 0x90, locator n 0), (move && fldN c 25 7 ≠ 0, 0x90, locator n 25),
   (!move && fldN c 0 32 ≠ 0, 0x90, locator n 0), (fldN c 42 22 ≠ 0, 0x90, locator n 42),
   ((kind = .get || kind = .signal) && s.rxn (4 * q + 3) ≠ 0, 0x90, locator (4 * q + 3) 0)]

/-- R297: the alignment that V, SIG or a LAMO address breaks. -/
def verbMisaligned (o : VerbOp) : Bool :=
  match o.kind with
  | .put => o.sig % 8 ≠ 0
  | .get => false
  | .signal => o.v % 8 ≠ 0
  | .lamo _ n => o.v % n ≠ 0

/-- The verb enters the link engine: numbered, routed and leased; without a route it ends with fault 0x93 (R301, R303, R305). -/
def enterVerb (o : VerbOp) (xd : Nat) (rel acq : Bool) (lps vps sps : List Place) (s : State) : State :=
  let x := s.cur.x
  let d := dieOfCtx x
  let here := pkgOfCtx x
  let seq := Tab.get 0 (s.die d).vseq o.target
  let port := if o.target = here then some 0 else routePort s d o.target o.v
  let v : Verb := {
    x := x, kind := o.kind, xd := xd, word := s.word, l := o.l, v := o.v, target := o.target, len := o.len, sig := o.sig,
    op := o.op, cmp := o.cmp, rel := rel, acq := acq, lps := lps, vps := vps, sps := sps, seq := seq, gen := genOf s here,
    port := port.getD 0, redirects := 0, start := timerNow s here, sent := false, moved := 0, performed := false, sigDone := false,
    ans := 0, flt := if port.isNone then some (0x93, o.target, s.tickOf d) else none }
  let s := s.modDie d (fun k => { k with vseq := Tab.set 0 k.vseq o.target ((seq + 1) % 2 ^ 32) })
  lease (s.addVerb v) xd

/-- The checks of R301, the translations of R298, and acceptance. -/
def verbBody (kind : VerbKind) (xd q : Nat) (rel acq : Bool) (s : State) : SlotRes :=
  let o := verbOp kind q s
  let here := pkgOfCtx s.cur.x
  let inPkg := o.target = here
  checked (verbBad kind q s ++ [(verbMisaligned o, 0x91, 0), (!linked s (dieOfCtx s.cur.x) o.target, 0x92, o.target)]) (fun s =>
    let wr := kind = .put
    withPlaces (if wr then 0 else 1) (if kind.moves then pagesOf o.l o.len else []) (fun lps s =>
      withPlaces (if wr then 1 else 0) (if kind.moves && inPkg then pagesOf o.v o.len else []) (fun vps s =>
        withHomes o.v (!kind.moves && inPkg) (fun hps s =>
          withHomes o.sig (wr && inPkg && o.sig ≠ 0) (fun sps s =>
            .done (enterVerb o xd rel acq lps (vps ++ hps) sps s)) s) s) s) s) s

/-- A verb of class E (R296). -/
def verbCmd (g : Guard) (d : BitVec 5) (q : BitVec 3) (kind : VerbKind) (rel acq : Bool) (s : State) : Out :=
  slotE g (d.toNat :: regRun (4 * q.toNat) 4) (verbBody kind d.toNat q.toNat rel acq) s

/-- R296, R298. -/
def execPut (g : Guard) (d : BitVec 5) (q : BitVec 3) (o : BitVec 2) (s : State) : Out :=
  verbCmd g d q .put (ordRel o) (ordAcq o) s
/-- R296, R298. -/
def execGet (g : Guard) (d : BitVec 5) (q : BitVec 3) (o : BitVec 2) (s : State) : Out :=
  verbCmd g d q .get (ordRel o) (ordAcq o) s
/-- R296, R299: SIGNAL acts as a release. -/
def execSignal (g : Guard) (d : BitVec 5) (q : BitVec 3) (s : State) : Out := verbCmd g d q .signal true false s
/-- R296, R300. -/
def execLamo (g : Guard) (d : BitVec 5) (q : BitVec 3) (f : BitVec 4) (o : BitVec 2) (z : BitVec 1) (s : State) : Out :=
  verbCmd g d q (.lamo f.toNat (if z = 1 then 8 else 4)) (ordRel o) (ordAcq o) s

/-! ## Performance -/

/-- The die of the target that translates and performs a request: the one that owns the port (R297, log 22). -/
def targetDie (v : Verb) : Nat := v.target * 4 + v.port / 4

/-- Translation at the target of another package: host memory is refused with 0x71 (R311). -/
def targetPlace (s : State) (v : Verb) (a kind : Nat) : Acc Place × State :=
  match translateDie s (targetDie v) (BitVec.ofNat 64 a) kind with
  | (.ok p, s) => (if p.pl = 2 then .bad 0x71 a else .ok p, s)
  | r => r

/-- The place of a target address. -/
def vPlace (s : State) (v : Verb) (a kind : Nat) : Acc Place × State :=
  if v.remote then targetPlace s v a kind else (.ok (placeIn v.vps v.v a), s)

/-- Ends a verb with an imprecise fault (R301), which is found in this cycle (R26). -/
def failVerb (s : State) (n : Nat) (v : Verb) (code val : Nat) : State :=
  s.setVerb n (some { v with flt := some (code, val, s.tickOf (dieOfCtx v.x)) })

/-- The target refuses a request (R311). -/
def refuseVerb (s : State) (n : Nat) (v : Verb) (code : Nat) : State := failVerb s n v 0x94 (code * 2 ^ 16 + v.target)

/-- A verb goes on at the place of a target address, waits for it (R289, R291), or is refused (R311). -/
def atTarget (s : State) (n : Nat) (v : Verb) (a kind : Nat) (k : Place → State → State) : State :=
  match vPlace s v a kind with
  | (.ok p, s) => k p s
  | (.wait, s) => s
  | (.bad c _, s) => refuseVerb s n v c

/-- A home reads n bytes for a verb: what it counts and corrects; a word that it cannot correct ends the verb and its task (R255, R271,
R385). -/
def verbRead (s : State) (n : Nat) (v : Verb) (p : Place) (len : Nat) (k : State → State) : State :=
  checkedFor v.x (serveRead s (dieOfCtx v.x) p len) (fun s => endLease (s.setVerb n none) v.x v.xd 0) k

/-- A request is for a page of a list, at whichever page of a migration (R291). -/
def Req.onPages (s : State) (q : Req) (ps : List Place) : Bool :=
  ps.any (fun p => p.pkg = q.pkg && (p.pl = 2) = (q.pl = 2) && (movedTo s p).pa / 2 ^ 16 = (movedTo s q.place).pa / 2 ^ 16)

/-- Requests of the context that come before the verb (R18, R259, R298 to R300, R302): all of them for a release, those to the bytes of its
own package that it accesses otherwise; for SIGNAL earlier verbs too. For a range of bytes these are the requests to its pages (log 89). -/
def verbWaits (s : State) (n : Nat) (v : Verb) : Bool :=
  (unperformed s v.x).any (fun p => p.1 < n &&
      (v.atomAt s p.2.va p.2.place || (v.kind.moves && p.2.onPages s (v.lps ++ v.vps ++ v.sps)))) ||
    (v.rel && !released s v.x n) ||
    (v.kind = .signal && (Tab.members s.verbs).any (fun p => p.2.x = v.x && p.1 < n && p.2.kind ≠ .signal))

/-- The bytes that a chunk writes at address b: those of the overlap of the two ranges in one package are undefined (R298). -/
def overlapBytes (s : State) (v : Verb) (b : Nat) (bs : List Byte) : List Byte :=
  let fs := freeBytes s bs.length
  (List.range bs.length).map (fun i =>
    let a := b + i
    if !v.remote && v.l ≤ a && a < v.l + v.len && v.v ≤ a && a < v.v + v.len then fs.getD i 0 else bs.getD i 0)

/-- A verb's access to a place waits for or is redirected by a migration (R291); a frozen core acts on no redirect (R310). -/
def verbGate (s : State) (c va : Nat) (p : Place) (k : State → State) : State :=
  match gate s p with
  | .go => k s
  | .hold => s
  | .redirect => if s.stopped (dieOf c) then s else dropTlb s c va

/-- The pages of a range at a0 of verb n that meet a redirect are walked again, unless the issuing core is frozen; the first machine check
ends this (R291, R310). -/
def rewalkPages (s : State) (n x kind : Nat) : List (Nat × Place) → (State × Option Flt) × List Place
  | [] => ((s, none), [])
  | (a, old) :: ps =>
    let r := if gate s old ≠ .redirect || s.stopped (dieOfCtx x) then TrRes.ok old s
      else translateFor s (coreOf x) (some (64 + n)) [] (BitVec.ofNat 64 a) kind
    match r with
    | .check f s => ((s, some f), old :: ps.map (·.2))
    | .ok p s => let q := rewalkPages s n x kind ps; (q.1, p :: q.2)
    | r => let q := rewalkPages (r.state (coreOf x)) n x kind ps; (q.1, old :: q.2)

/-- The kind of the access that a verb makes to its target range (R298 to R300). -/
def VerbKind.there (k : VerbKind) : Nat :=
  match k with
  | .put => 1
  | .get => 0
  | _ => 2

/-- After a redirect the pages of a verb that the issuing core translated are walked again, for the access that each of them is made
for (R291, R298). -/
def rewalk (s : State) (n : Nat) (v : Verb) : State × Option Flt :=
  let l := rewalkPages s n v.x (if v.kind = .put then 0 else 1) (pagesAt v.l v.lps)
  let t := rewalkPages l.1.1 n v.x v.kind.there (pagesAt v.v v.vps)
  let g := rewalkPages t.1.1 n v.x 2 (pagesAt v.sig v.sps)
  (g.1.1.setVerb n (some { v with lps := l.2, vps := t.2, sps := g.2 }), (l.1.2.or t.1.2).or g.1.2)

/-- A verb goes on once its pages have been walked again; a machine check ends it and its task (R291, R385). -/
def withWalked (s : State) (n : Nat) (v : Verb) (k : Verb → State → State) : State :=
  checkedFor v.x (rewalk s n v) (fun s => endLease (s.setVerb n none) v.x v.xd 0) (fun s => k ((s.verb n).getD v) s)

/-- The next bytes of a PUT or GET move from one place to the other: within a line at both ends (R298). -/
def moveChunk (s : State) (n : Nat) (v : Verb) : State :=
  let a := v.l + v.moved
  let b := v.v + v.moved
  let k := min (v.len - v.moved) (min (64 - a % 64) (64 - b % 64))
  let put := v.kind = .put
  atTarget s n v b (if put then 1 else 0) (fun tp s =>
    let lp := placeIn v.lps v.l a
    let src := if put then lp else tp
    let dst := if put then tp else lp
    let c := coreOf v.x
    verbGate s c a lp (fun s => verbGate s c b tp (fun s => verbRead s n v src k (fun s =>
      let bs := overlapBytes s v (if put then b else a) (s.readBytes src.pkg (src.pl = 2) src.pa k)
      let s := (countHome s (dieOfCtx v.x) dst).writePhys dst.pkg (dst.pl = 2) dst.pa bs
      let done := v.len ≤ v.moved + k
      { s.setVerb n (some { v with moved := v.moved + k, performed := done, ans := 2 ^ 63 + v.len }) with free := s.free + 8 }))))

/-- SIGNAL and LAMO at the home of V (R299, R300). -/
def atomicVerb (s : State) (n : Nat) (v : Verb) : State :=
  let (fn, size) := match v.kind with
    | .lamo fn size => (fn, size)
    | _ => (0, 8)
  atTarget s n v v.v 2 (fun p s =>
    verbGate s (coreOf v.x) v.v p (fun s => verbRead s n v p size (fun s =>
      let old := s.readPhys p.pkg false p.pa size
      let s := s.writePhys p.pkg false p.pa (leBytes size (amoNew fn size old v.op v.cmp))
      s.setVerb n (some { v with performed := true, ans := if v.kind = .signal then 2 ^ 63 else old }))))

/-- A performed request's sequence number is remembered (R303). -/
def rememberSeq (s : State) (v : Verb) : State :=
  let d := dieOfCtx v.x
  s.modPkg v.target (fun k => { k with
    vdone := (d, v.seq) :: (k.vdone.filter (fun p => p.1 = d)).take 65535 ++ k.vdone.filter (fun p => p.1 ≠ d) })

/-- The target has performed the request before (R303). -/
def repeated (s : State) (v : Verb) : Bool := (s.pkg v.target).vdone.contains (dieOfCtx v.x, v.seq)

/-- R298 to R300: VERB_AT_TARGET of verb v: the port sends the request, and the target performs its next access. -/
def execVerbAtTarget (v : Nat) (s : State) : Out :=
  match s.verb v with
  | none => .next s
  | some w =>
    if !w.busy || w.performed || verbWaits s v w then .next s
    else if w.remote && !w.sent && !portSends s (pkgOfCtx w.x) w.port w.gen then .next s
    else
      let s := withWalked s v { w with sent := true } (fun w s =>
        if repeated s w then s.setVerb v (some { w with performed := true })
        else if !w.kind.moves then atomicVerb s v w
        else if w.len = 0 then s.setVerb v (some { w with performed := true, ans := 2 ^ 63 })
        else moveChunk s v w)
      .next (match s.verb v with
        | some u => if u.performed then rememberSeq s u else s
        | none => s)

/-- R298: PUT_SIGNAL_ADD of verb v: 1 is added to the signal word once every byte is performed. -/
def execPutSignalAdd (v : Nat) (s : State) : Out :=
  match s.verb v with
  | none => .next s
  | some w =>
    if w.flt.isSome || w.kind ≠ .put || !w.performed || w.sig = 0 || w.sigDone then .next s
    else
      .next (withWalked s v w (fun w s =>
        match if w.remote then targetPlace s w w.sig 2 else (.ok (placeIn w.sps w.sig w.sig), s) with
        | (.wait, s) => s
        | (.bad c _, s) => refuseVerb s v w c
        | (.ok p, s) =>
          verbGate s (coreOf w.x) w.sig p (fun s => verbRead s v w p 8 (fun s =>
            let old := s.readPhys p.pkg false p.pa 8
            let s := s.writePhys p.pkg false p.pa (leBytes 8 (amoNew 0 8 old 1 0))
            s.setVerb v (some { w with sigDone := true })))))

/-- The link port that reports a fault of a verb (R26). -/
def Verb.unit (v : Verb) : Nat := if v.remote then v.port else 0

/-- R298, R301: VERB_ANSWER of verb v: the core's copies of what it wrote go (R18, R258), and the lease ends with the status, or with zero
and an imprecise record. -/
def execVerbAnswer (v : Nat) (s : State) : Out :=
  match s.verb v with
  | none => .next s
  | some w =>
    if w.busy || s.stopped (dieOfCtx w.x) then .next s
    else
      let s := dropWritten (s.setVerb v none) w
      match w.flt with
      | some (code, val, t) =>
        .next (postRec (endLease s w.x w.xd 0) w.x (mkRecAt s w.x false ⟨code, 0, 0, cmdDetail w.word 0xFF val, w.unit⟩ t))
      | none =>
        let s := endLease s w.x w.xd (BitVec.ofNat 64 w.ans)
        .next (if w.acq then acquire s (coreOf w.x) 4 else s)

/-- R306, R308: ROUTE_REDIRECT of verb v, whose port does not send it: it is routed again; the eighth redirect ends it with fault
0x92. A request already sent whose port is down is sent again. -/
def execRouteRedirect (v : Nat) (s : State) : Out :=
  match s.verb v with
  | none => .next s
  | some w =>
    let p := pkgOfCtx w.x
    if !w.busy || !w.remote || portSends s p w.port w.gen || (w.sent && portUp s p w.port) then .next s
    else
      let n := if w.sent then w.redirects else w.redirects + 1
      if n = 8 then .next (failVerb s v w 0x92 w.target)
      else
        match routePort s (dieOfCtx w.x) w.target w.v with
        | none => .next (failVerb s v w 0x93 w.target)
        | some port => .next (s.setVerb v (some { w with port := port, gen := genOf s p, redirects := n, sent := false }))

/-- R311: VERB_TIMEOUT of verb v: no answer within LTO, whether or not the target has performed it. -/
def execVerbTimeout (v : Nat) (s : State) : Out :=
  match s.verb v with
  | none => .next s
  | some w =>
    let lto := fldN (s.die (dieOfCtx w.x)).lto 0 32
    .next (if w.flt.isNone && lto ≠ 0 && lto * 1024 ≤ elapsed s (pkgOfCtx w.x) w.start then failVerb s v w 0x95 w.target else s)

/-! ## SYNCT -/

/-- The dies that a SYNCT of context x reaches (R309). -/
def syncDies (s : State) (x : Nat) (sys : Bool) : List Nat :=
  let p := pkgOfCtx x
  let others := if sys then (List.range 1024).filter (fun q => q ≠ p && bit (ilvOf s (dieOfCtx x) q) 63) else []
  (p :: others).flatMap (fun q => (List.range 4).map (fun i => q * 4 + i))

/-- R309: the proposal is on its way; a die with none in progress takes it up. -/
def execSynct (g : Guard) (d a : BitVec 5) (sys : BitVec 1) (s : State) : Out :=
  slotE g [d.toNat, a.toNat] (fun s =>
    let x := s.cur.x
    let id := s.nextId
    let ds := syncDies s x (sys = 1)
    let s := ds.foldl (fun s n => s.modDie n (fun v => { v with sync := some (v.sync.getD id) })) s
    let s := { s with nextId := id + 1 }
    .done ((lease s d.toNat).modMe (fun c => { c with syncts := c.syncts ++ [⟨id, d.toNat, s.rx a, ds⟩] }))) s

/-- A die refuses a proposal (R309). -/
def syncRefuses (s : State) (y : Sync) (d : Nat) : Bool :=
  y.t0.toNat ≤ (s.tickOf d).toNat || dhold s (pkgOfDie d) || (s.die d).sync ≠ some y.id

/-- R309: SYNCT_ALIGN of the first SYNCT of context x. -/
def execSynctAlign (x : Nat) (s : State) : Out :=
  if s.stopped (dieOfCtx x) then .next s
  else
  match (s.ctx x).syncts with
  | [] => .next s
  | y :: rest =>
    let ds := y.dies
    let no := (ds.filter (syncRefuses s y)).length
    let s := s.modCtx x (fun c => { c with syncts := rest })
    let s := ds.foldl (fun s d => s.modDie d (fun v => { v with
      tick := if no = 0 then y.t0 - s.ticks d else v.tick, sync := if v.sync = some y.id then none else v.sync })) s
    .next (endLease s x y.xd (if no = 0 then BitVec.ofNat 64 (2 ^ 63 + ds.length) else BitVec.ofNat 64 (no % 2 ^ 16 * 2 ^ 32)))

end Sys2Proof.Machine
end

