-- ==== Sys2Proof/Machine/Packages.lean ====
section
/-! DEFINITION. Graph packages: their records, the checks of LOAD, loading and unloading, the launch ring and completion records
(R355 to R367). -/

namespace Sys2Proof.Machine

/-! ## Records of a package -/

/-- Words of node n; fields of node records (R358). -/
def Loaded.node (l : Loaded) (n : Nat) : List Word := l.nodes.getD n []
def nodeW (l : Loaded) (n i : Nat) : Word := (l.node n).getD i 0
def nType (l : Loaded) (n : Nat) : Nat := fldN (nodeW l n 0) 60 4
def nEfirst (l : Loaded) (n : Nat) : Nat := fldN (nodeW l n 0) 42 14
def nEcnt (l : Loaded) (n : Nat) : Nat := fldN (nodeW l n 0) 28 14
def nNin (l : Loaded) (n : Nat) : Nat := fldN (nodeW l n 0) 14 14
def nEntry (l : Loaded) (n : Nat) : Nat := fldN (nodeW l n 1) 32 32
def nAcc (l : Loaded) (n : Nat) : Bool := bit (nodeW l n 1) 31
def nAff (l : Loaded) (n k : Nat) : Nat := fldN (nodeW l n 1) (3 * k - 3) 3
def nBfirst (l : Loaded) (n : Nat) : Nat := fldN (nodeW l n 3) 48 16
def nWmask (l : Loaded) (n : Nat) : BitVec 8 := fld (nodeW l n 3) 40 8
def nAoff (l : Loaded) (n : Nat) : Nat := fldN (nodeW l n 1) 0 32
def loopFirst (l : Loaded) (n : Nat) : Nat := fldN (nodeW l n 2) 52 12
def loopLast (l : Loaded) (n : Nat) : Nat := fldN (nodeW l n 2) 40 12
def loopMax (l : Loaded) (n : Nat) : Nat := fldN (nodeW l n 2) 0 32

/-- Fields of edge records (R359), and the source of an edge. -/
def eTo (l : Loaded) (e : Nat) : Nat := fldN (l.edges.getD e 0) 0 12
def eLevel (l : Loaded) (e : Nat) : Nat := fldN (l.edges.getD e 0) 12 3
def eBr (l : Loaded) (e : Nat) : Nat := fldN (l.edges.getD e 0) 15 2
def eSource (l : Loaded) (e : Nat) : Option Nat :=
  (List.range l.nodes.length).find? (fun n => nEfirst l n ≤ e && e < nEfirst l n + nEcnt l n)

/-- The edges that name a node. -/
def incoming (l : Loaded) (n : Nat) : List Nat := (List.range l.edges.length).filter (fun e => eTo l e = n)

/-- The fields of a WID (R357). -/
def widFields : List Nat → Nat → List Nat
  | [], _ => []
  | w :: ws, v => v % 2 ^ w :: widFields ws (v / 2 ^ w)

/-- The extents of a node; a node that is no task has one instance (R357). -/
def extents (l : Loaded) (n : Nat) : List Nat :=
  if nType l n = 0 then (widFields l.widths (nodeW l n 2).toNat).map (· + 1) else l.widths.map (fun _ => 1)

/-- The number of instances of a node. -/
def instCount (l : Loaded) (n : Nat) : Nat := (extents l n).foldl (· * ·) 1

/-- The WIDs of extents, in ascending order. -/
def widsOf : List Nat → List Nat → List Nat
  | w :: ws, e :: es => (widsOf ws es).flatMap (fun hi => (List.range e).map (fun lo => hi * 2 ^ w + lo))
  | _, _ => [0]

/-- The work identifiers of a node's instances (R357). -/
def instances (l : Loaded) (n : Nat) : List Nat := widsOf l.widths (extents l n)

/-- Two WIDs agree in fields k to 5: they are in one level-k set (R357). -/
def agree (l : Loaded) (k a b : Nat) : Bool := (widFields l.widths a).drop k = (widFields l.widths b).drop k

/-- The number of instances of node n in the level-k set of a WID (R368). -/
def setCount (l : Loaded) (n k wid : Nat) : Nat :=
  let es := extents l n
  let fs := widFields l.widths wid
  if (List.range es.length).all (fun i => i < k || fs.getD i 0 < es.getD i 0) then (es.take k).foldl (· * ·) 1 else 0

/-! ## The checks of LOAD -/

/-- A header as read: SIZE and the offsets and counts of the sections (R355). -/
structure Hdr where
  w : List Word
  deriving DecidableEq, Repr

def Hdr.word (h : Hdr) (i : Nat) : Word := h.w.getD i 0
def Hdr.size (h : Hdr) : Nat := fldN (h.word 0) 0 32
def Hdr.width (h : Hdr) (i : Nat) : Nat := fldN (h.word 1) (7 * i) 7
def Hdr.widths (h : Hdr) : List Nat := (List.range 6).map h.width
def Hdr.codeoff (h : Hdr) : Nat := fldN (h.word 2) 32 32
def Hdr.codelen (h : Hdr) : Nat := fldN (h.word 2) 0 32
def Hdr.microoff (h : Hdr) : Nat := fldN (h.word 3) 32 32
def Hdr.ulen (h : Hdr) : Nat := fldN (h.word 3) 16 13
def Hdr.ubase (h : Hdr) : Nat := fldN (h.word 3) 0 12
def Hdr.nodeoff (h : Hdr) : Nat := fldN (h.word 4) 32 32
def Hdr.nnode (h : Hdr) : Nat := fldN (h.word 4) 0 13
def Hdr.edgeoff (h : Hdr) : Nat := fldN (h.word 5) 32 32
def Hdr.nedge (h : Hdr) : Nat := fldN (h.word 5) 0 15
def Hdr.bindoff (h : Hdr) : Nat := fldN (h.word 6) 32 32
def Hdr.nbind (h : Hdr) : Nat := fldN (h.word 6) 0 16
def Hdr.planoff (h : Hdr) : Nat := fldN (h.word 7) 32 32
def Hdr.planWords (h : Hdr) : Nat := 1 + (h.nnode + 63) / 64
/-- Whole pages of the code and microcode sections (R356). -/
def Hdr.codePages (h : Hdr) : Nat := (h.codelen + 65535) / 65536
def Hdr.microPages (h : Hdr) : Nat := (h.ulen + 1023) / 1024

/-- Two ranges of bytes meet. -/
def meets (a n b m : Nat) : Bool := 0 < n && 0 < m && a < b + m && b < a + n

/-- A range meets the pages of the code or the microcode section (R356). -/
def Hdr.inSections (h : Hdr) (a n : Nat) : Bool :=
  meets a n h.codeoff (h.codePages * 65536) || meets a n h.microoff (h.microPages * 65536)

/-- A table that is not aligned, lies beyond SIZE or in the pages of a section (R356). -/
def Hdr.badTable (h : Hdr) (a n : Nat) : Bool := a % 64 ≠ 0 || h.size < a + n || h.inSections a n

/-- R356: the widths of the fields of a WID. -/
def badWidths (ws : List Nat) : Bool :=
  ws.getD 0 0 = 0 || 64 < ws.foldl (· + ·) 0 ||
    (List.range 5).any (fun i => ws.getD i 0 = 0 && ws.getD (i + 1) 0 ≠ 0)

/-- The header words that break R355 or R356, by offset. -/
def hdrBad (h : Hdr) : List (Bool × Nat) :=
  [(fldN (h.word 0) 48 16 ≠ 0x4750 || fldN (h.word 0) 40 8 ≠ 1 || fldN (h.word 0) 32 8 ≠ 0, 0x00),
   (fldN (h.word 1) 42 22 ≠ 0 || badWidths h.widths, 0x08),
   (h.codeoff % 65536 ≠ 0 || meets h.codeoff (h.codePages * 65536) 0 64 ||
      meets h.codeoff (h.codePages * 65536) h.microoff (h.microPages * 65536), 0x10),
   (h.microoff % 65536 ≠ 0 || fldN (h.word 3) 29 3 ≠ 0 || fldN (h.word 3) 12 4 ≠ 0 || 4096 < h.ulen || 4096 < h.ubase + h.ulen ||
      meets h.microoff (h.microPages * 65536) 0 64, 0x18),
   (h.badTable h.nodeoff (64 * h.nnode) || fldN (h.word 4) 13 19 ≠ 0 || h.nnode = 0 || 4096 < h.nnode, 0x20),
   (h.badTable h.edgeoff (4 * h.nedge) || fldN (h.word 5) 15 17 ≠ 0 || 16384 < h.nedge, 0x28),
   (h.badTable h.bindoff (16 * h.nbind) || fldN (h.word 6) 16 16 ≠ 0, 0x30),
   (h.badTable h.planoff (8 * h.planWords) || fldN (h.word 7) 0 32 ≠ 0, 0x38)]

/-- The lowest offset that offends. -/
def firstOffset (l : List (Bool × Nat)) : Option Nat :=
  (l.filter (fun p => p.1)).foldl (fun m p => some (match m with
    | some a => min a p.2
    | none => p.2)) none

/-- R358, R361: word 0 of a node. -/
def badNode0 (l : Loaded) (n : Nat) : Bool :=
  4 < nType l n || fldN (nodeW l n 0) 56 4 ≠ 0 || fldN (nodeW l n 0) 0 14 ≠ 0 || l.edges.length < nEfirst l n + nEcnt l n ||
    nNin l n ≠ (incoming l n).length ||
    (List.range n).any (fun m => meets (nEfirst l m) (nEcnt l m) (nEfirst l n) (nEcnt l n))

/-- R358, R361: word 1 of a node, ENTRY apart; acc is the plan's bit. -/
def badNode1 (l : Loaded) (n : Nat) (acc : Bool) : Bool :=
  if nType l n = 0 then
    fldN (nodeW l n 1) 18 13 ≠ 0 || nAcc l n ≠ acc || (List.range 6).any (fun k => 4 < nAff l n (k + 1))
  else fldN (nodeW l n 1) 32 32 ≠ 0 || nAoff l n % 8 ≠ 0

/-- A node lies in the body of a loop node. -/
def inBody (l : Loaded) (n m : Nat) : Bool := loopFirst l n ≤ m && m ≤ loopLast l n

/-- The body of loop m lies within that of loop n. -/
def bodyIn (l : Loaded) (m n : Nat) : Bool := inBody l n (loopFirst l m) && inBody l n (loopLast l m)

/-- Loop m has nodes in common with the body of loop n without being nested in it with its node, and n's body is no proper part of
m's: n breaks the last rule of R367. -/
def badNest (l : Loaded) (n m : Nat) : Bool :=
  m ≠ n && loopFirst l m ≤ loopLast l n && loopFirst l n ≤ loopLast l m && !(bodyIn l m n && inBody l n m) &&
    !(bodyIn l n m && !bodyIn l m n)

/-- R367. -/
def badLoop (l : Loaded) (n : Nat) : Bool :=
  !(loopFirst l n ≤ loopLast l n && loopLast l n < n) ||
    (List.range l.edges.length).any (fun e => match eSource l e with
      | some m => if inBody l n m then !(inBody l n (eTo l e) || eTo l e = n) else eTo l e = n
      | none => false) ||
    (List.range l.nodes.length).any (fun m => nType l m = 4 && (badNest l n m || (inBody l n m && !bodyIn l m n)))

/-- R357, R358, R367: word 2 of a node. -/
def badNode2 (l : Loaded) (n : Nat) : Bool :=
  match nType l n with
  | 0 => 2 ^ (l.widths.foldl (· + ·) 0) ≤ (nodeW l n 2).toNat || 2 ^ 32 < instCount l n
  | 4 => fldN (nodeW l n 2) 32 8 ≠ 0 || loopMax l n = 0 || badLoop l n
  | _ => nodeW l n 2 ≠ 0

/-- R358, R360: word 3 of a node. -/
def badNode3 (l : Loaded) (n : Nat) : Bool :=
  if nType l n = 0 then
    fldN (nodeW l n 3) 0 40 ≠ 0 || l.binds.length < nBfirst l n + popcount (nWmask l n)
  else nodeW l n 3 ≠ 0

/-- Nodes reached from a set of nodes by edges. -/
def reach (l : Loaded) : Nat → List Nat → List Nat
  | 0, ns => ns
  | k + 1, ns =>
    let more := ((List.range l.edges.length).filter (fun e => match eSource l e with
      | some m => ns.contains m
      | none => false)).map (eTo l)
    reach l k (ns ++ (more.filter (fun m => !ns.contains m)).eraseDups)

/-- The edge closes a cycle (R359). -/
def onCycle (l : Loaded) (e : Nat) : Bool :=
  match eSource l e with
  | some m => (reach l l.nodes.length [eTo l e]).contains m
  | none => false

/-- R359, R361: an edge record. -/
def badEdge (l : Loaded) (e : Nat) : Bool :=
  fldN (l.edges.getD e 0) 17 15 ≠ 0 || eBr l e = 3 || 6 < eLevel l e || l.nodes.length ≤ eTo l e ||
    match eSource l e with
    | none => true
    | some m =>
      (eLevel l e ≠ 6 && !(nType l m = 0 && nType l (eTo l e) = 0)) || (decide (eBr l e ≠ 0) != decide (nType l m = 3)) || onCycle l e

/-- R360: a word of a binding record. -/
def badBind0 (b : Word × Word) : Bool := fldN b.1 0 32 % 8 ≠ 0
def badBind1 (b : Word × Word) : Bool := fldN b.2 35 29 ≠ 0 || 5 < fldN b.2 32 3 || fldN b.2 0 32 % 8 ≠ 0

/-- The plan's bit of node n: words from word 1 on (R356). -/
def planBit (plan : List Word) (n : Nat) : Bool := bit (plan.getD (1 + n / 64) 0) (n % 64)

/-- The offsets of the tables that break R356 to R361. -/
def tableBad (h : Hdr) (l : Loaded) (plan : List Word) : List (Bool × Nat) :=
  (List.range l.nodes.length).flatMap (fun n =>
    let a := h.nodeoff + 64 * n
    [(badNode0 l n, a), (badNode1 l n (planBit plan n), a + 8), (badNode2 l n, a + 16), (badNode3 l n, a + 24)] ++
      (List.range 4).map (fun i => (decide (nodeW l n (4 + i) ≠ 0), a + 32 + 8 * i))) ++
  (List.range l.edges.length).map (fun e => (badEdge l e, h.edgeoff + 4 * e)) ++
  (List.range l.binds.length).flatMap (fun b =>
    let v := l.binds.getD b (0, 0)
    [(badBind0 v, h.bindoff + 16 * b), (badBind1 v, h.bindoff + 16 * b + 8)]) ++
  (List.range (64 * (h.planWords - 1))).map (fun n =>
    (planBit plan n && !(n < l.nodes.length && nType l n = 0), h.planoff + 8 * (1 + n / 64)))

/-- A check of LOAD: it goes on, waits for a page (R289, R291), or refuses with a code and a DETAIL. -/
abbrev LoadRes (α : Type) := Acc α × State

/-- A read of LOAD that fails is a refusal with fault 0xB0 that names a header word (R361, R378). -/
def blame {α : Type} (off : Nat) (r : LoadRes α) : LoadRes α :=
  match r with
  | (.bad _ _, s) => (.bad 0xB0 off, s)
  | r => r

/-- The pages of the two sections, with the access kind that each must allow and the offset of the header word that names it (R356). -/
def sectionPages (h : Hdr) : List (Nat × Nat × Nat) :=
  (List.range h.codePages).map (fun i => (h.codeoff + 65536 * i, 3, 0x10)) ++
    (List.range h.microPages).map (fun i => (h.microoff + 65536 * i, 4, 0x18))

/-- Pages translated for their kind: the first that fails, or that lies in host memory, refuses (R355, R356). -/
def kindPages (s : State) (d va : Nat) : List (Nat × Nat × Nat) → LoadRes (List Place)
  | [] => (.ok [], s)
  | p :: ps =>
    accBind (blame p.2.2 (translateDie s d (BitVec.ofNat 64 (va + p.1)) p.2.1)) (fun q s =>
      if q.pl = 2 then (.bad 0xB0 p.2.2, s) else accBind (kindPages s d va ps) (fun qs s => (.ok (q :: qs), s)))

/-- n bytes of a package, which lies in device memory (R355, R361, log 95). -/
def deviceRead (s : State) (d va n : Nat) : LoadRes (List Byte) :=
  accBind (placesOf s d va 0 (pageCuts va n)) (fun ps s =>
    if ps.any (fun p => p.2.pl = 2) then (.bad 0xB0 va, s) else readPieces s d va ps)

/-- R355, R356: the header, its pages of the wrong kind among the words that it may offend at: the lowest offset is named. -/
def checkHdr (s : State) (d va : Nat) (h : Hdr) : LoadRes (List Place) :=
  match firstOffset (hdrBad h) with
  | none => kindPages s d va (sectionPages h)
  | some off => accBind (kindPages s d va ((sectionPages h).filter (fun p => p.2.2 < off))) (fun _ s => (.bad 0xB0 off, s))

/-- R362 step 1: the header and the tables; the places of the pages of the sections. -/
def readPackage (s : State) (d va : Nat) : LoadRes (Hdr × Loaded × List Place) :=
  let rd := fun off n s => deviceRead s d (va + off) n
  if va % 65536 ≠ 0 then (.bad 0xB0 0, s)
  else
    accBind (blame 0 (rd 0 64 s)) (fun hb s =>
      let h : Hdr := ⟨words64 8 hb⟩
      accBind (checkHdr s d va h) (fun qs s =>
        accBind (blame 0x20 (rd h.nodeoff (64 * h.nnode) s)) (fun nb s =>
        accBind (blame 0x28 (rd h.edgeoff (4 * h.nedge) s)) (fun eb s =>
        accBind (blame 0x30 (rd h.bindoff (16 * h.nbind) s)) (fun bb s =>
        accBind (blame 0x38 (rd h.planoff (8 * h.planWords) s)) (fun pb s =>
          let plan := words64 h.planWords pb
          let bw := words64 (2 * h.nbind) bb
          let l : Loaded := {
            id := 0, hdr := hb, pkgva := va, codeoff := h.codeoff, codelen := h.codelen, ubase := h.ubase, ulen := h.ulen, widths := h.widths,
            nodes := (List.range h.nnode).map (fun n => words64 8 (nb.drop (64 * n))), edges := words32 h.nedge eb,
            binds := (List.range h.nbind).map (fun b => (bw.getD (2 * b) 0, bw.getD (2 * b + 1) 0)),
            nframe := fldN (plan.getD 0 0) 32 32, argmin := fldN (plan.getD 0 0) 0 32 }
          match firstOffset (tableBad h l plan) with
          | some off => (.bad 0xB0 off, s)
          | none => (.ok (h, l, qs), s)))))))

/-- R362 step 2: PH is free, and the microcode range meets that of no loaded package. -/
def conflict (s : State) (p ph : Nat) (l : Loaded) : LoadRes Unit :=
  match (Tab.members (s.pkg p).loaded).find? (fun q => q.1 = ph || meets q.2.ubase q.2.ulen l.ubase l.ulen) with
  | some q => (.bad 0xB2 q.2.ubase, s)
  | none => (.ok (), s)

/-- The offset of the header word that names the section of a page (R356). -/
def sectionWord (q : Place) : Nat := if eKind q.pte = 2 then 0x10 else 0x18

/-- R362 step 3: every page passes the scan of R22, which reads it at its homes (R255, R271). -/
def scanSections (s : State) (d : Nat) : List Place → LoadRes Unit
  | [] => (.ok (), s)
  | q :: qs =>
    match serveReads s d (scanReads q) with
    | (s, some f) => (.bad 0xB0 (sectionWord q), machineCheckDie s d f)
    | (s, none) =>
      match scanPage s q with
      | some (off, why) => (.bad 0xB1 (off * 2 ^ 16 + why), s)
      | none => scanSections s d qs

/-- The microcode section's entries, eight words each: read as the microcode loader reads them (R281). -/
def microWords (s : State) (d va : Nat) (h : Hdr) : LoadRes (List Word) :=
  accBind (blame 0x18 (readAs s d (va + h.microoff) (64 * h.ulen) 4)) (fun bs s => (.ok (words64 (8 * h.ulen) bs), s))

/-- R163, R362 step 3: the ranges of loop records, against the package's own section. -/
def badRanges (ws : List Word) (l : Loaded) : Option Nat :=
  let at_ := fun i => (ws.drop (8 * (i - l.ubase))).take 8
  (List.range l.ulen).findSome? (fun i =>
    let r := at_ (l.ubase + i)
    if kOp (r.getD 0 0) ≠ 0xFE then none
    else if !(rangeOk at_ l (recKer r) (recKlen r) && rangeOk at_ l (recPro r) (recPlen r)) then some (64 * (i % 1024))
    else if !rangeOk at_ l (recEpi r) (recElen r) then some (64 * (i % 1024) + 8)
    else none)

/-- R362 step 3: the ranges of the loop records. -/
def checkRanges (s : State) (ws : List Word) (l : Loaded) : LoadRes Unit :=
  match badRanges ws l with
  | some off => (.bad 0xB1 (off * 2 ^ 16 + 3), s)
  | none => (.ok (), s)

/-- R362 step 4: the ENTRY of each task node among those left names a word marked in TGT of a scanned line. -/
def checkEntries (s : State) (d : Nat) (h : Hdr) (l : Loaded) : List Nat → LoadRes Unit
  | [] => (.ok (), s)
  | n :: ns =>
    let e := nEntry l n
    let bad := fun (s : State) => ((.bad 0xB0 (h.nodeoff + 64 * n + 8), s) : LoadRes Unit)
    if nType l n ≠ 0 then checkEntries s d h l ns
    else if e % 4 ≠ 0 ∨ h.codePages ≤ e / 65536 then bad s
    else
      accBind (blame (h.nodeoff + 64 * n + 8) (readAs s d (l.pkgva + l.codeoff + e / 128 * 128) 128 3)) (fun bs s =>
        if targetOk (words32 32 bs) e then checkEntries s d h l ns else bad s)

/-- R362: the checks of LOAD, in order: the package and its microcode entries. -/
def checkLoad (s : State) (p ph va : Nat) : LoadRes (Loaded × List Word) :=
  let d := p * 4
  accBind (readPackage s d va) (fun r s =>
    let (h, l, qs) := r
    accBind (conflict s p ph l) (fun _ s =>
      accBind (scanSections s d qs) (fun _ s =>
        accBind (microWords s d va h) (fun ws s =>
          accBind (checkRanges s ws l) (fun _ s =>
            accBind (checkEntries s d h l (List.range l.nodes.length)) (fun _ s => (.ok (l, ws), s)))))))

/-- R362 steps 5 and 6: the microcode goes to every core's store, and PH is loaded, under the number of this load. -/
def installPackage (s : State) (p ph : Nat) (l : Loaded) (ws : List Word) : State :=
  let entry := fun i => (BitVec.ofNat 512 (((List.range 8).map (fun j => (ws.getD (8 * i + j) 0).toNat * 2 ^ (64 * j))).foldl (· + ·) 0))
  let put := fun (v : Core) => { v with ca := { v.ca with
    store := (List.range l.ulen).foldl (fun m i => Tab.set 0 m (l.ubase + i) (entry i)) v.ca.store } }
  let s := (List.range 512).foldl (fun s c => s.modCore (p * 512 + c) put) s
  s.modPkg p (fun k => { k with loaded := Tab.set none k.loaded ph (some { l with id := k.loads }), loads := k.loads + 1 })

/-! ## Completion records -/

/-- The completion record of an address cannot be written yet (R289, R291). -/
def doneWaits (s : State) (p caddr : Nat) : Bool := caddr % 64 = 0 && rangeWaits s (p * 4) caddr 64

/-- A completion record (R366): the lost record raises fault 0xB6 in die 0's log; else vector 5 is raised (R382). -/
def writeDone (s : State) (p caddr st code ph tag tasks iters : Nat) (r : Option Rec) : State :=
  let lost := fun (s : State) => logRec s (p * 4) (mkRecDie s (p * 4) ⟨0xB6, 1, caddr, 2 ^ 12, 0⟩)
  if caddr % 64 ≠ 0 then lost s
  else
    match translateDie s (p * 4) (BitVec.ofNat 64 caddr) 1 with
    | (.ok q, s) =>
      let s := countHome s (p * 4) q
      let w0 := 2 ^ 63 + st * 2 ^ 60 + code * 2 ^ 52 + ph * 2 ^ 40 + tag
      let tail := leBytes 8 (min tasks 0xFFFFFFFF) ++ leBytes 8 (min iters 0xFFFFFFFF) ++ leBytes 8 0 ++ (r.getD Rec.zero).bytes
      let s := (s.writePhys q.pkg (q.pl = 2) (q.pa + 8) tail).writePhys q.pkg (q.pl = 2) q.pa (leBytes 8 w0)
      raiseVector s p 5
    | (_, s) => lost s

/-! ## The launch ring -/

/-- Entries of the launch ring (R364). -/
def lqSize (v : Word) : Nat := if 6 ≤ fldN v 0 5 ∧ fldN v 0 5 ≤ 16 then 2 ^ fldN v 0 5 else 64
def lqHead (k : Pkg) : Nat := fldN k.lqp 0 32
def lqTail (k : Pkg) : Nat := fldN k.lqp 32 32

/-- R364, R390: a write of LQP.TAIL. -/
def tailWrite (s : State) (p : Nat) (v : BitVec 32) : State :=
  let k := s.pkg p
  let diff := fun t => (t + 2 ^ 32 - lqHead k) % 2 ^ 32
  if !bit k.lq 63 || bit k.sresn 3 then s
  else if diff v.toNat ≤ lqSize k.lq ∧ diff (lqTail k) ≤ diff v.toNat then
    s.modPkg p (fun k => { k with lqp := BitVec.ofNat 64 (v.toNat * 2 ^ 32 + lqHead k) })
  else s.modPkg p (fun k => { k with lq := setBit k.lq 62 true })

/-- R364. -/
def execLqpTailWrite (p : Nat) (v : BitVec 32) (s : State) : Out := .next (hostWrite s (p * 4) (fun s => tailWrite s p v))

/-- Where the record at HEAD lies (R364). -/
def ringPlace (s : State) (p : Nat) : Place :=
  let k := s.pkg p
  ⟨p, fldN k.lq 12 32 * 2 ^ 12 + 64 * (lqHead k % lqSize k.lq), 0, 0, 0⟩

/-- The record at HEAD, when the ring is not empty (R364, R365). -/
def nextRecord (s : State) (p : Nat) : Option (List Word) :=
  let k := s.pkg p
  if !bit k.lq 63 || lqHead k = lqTail k then none
  else some (words64 8 (s.readBytes p false (ringPlace s p).pa 64))

/-- The record has been taken (R364). -/
def takeRecord (s : State) (p : Nat) : State :=
  s.modPkg p (fun k => { k with lqp := BitVec.ofNat 64 (lqTail k * 2 ^ 32 + (lqHead k + 1) % 2 ^ 32) })

/-- The dispatch engine acts on the record at HEAD, which its home serves: a record that cannot be read is passed over (R255, R271, R385,
log 23). A record waits while its completion record cannot be written, or while a migration holds its own page (R289, R291). -/
def withRecord (s : State) (p : Nat) (r : List Word) (k : State → State) : State :=
  if doneWaits s p (r.getD 2 0).toNat || gate s (ringPlace s p) ≠ .go then s
  else readDie (countHome s (p * 4) (ringPlace s p)) [(ringPlace s p, 64)] (takeRecord · p) k

/-- Fields of a launch record (R365). -/
def lrKind (r : List Word) : Nat := fldN (r.getD 0 0) 60 4
def lrPh (r : List Word) : Nat := fldN (r.getD 0 0) 40 8
def lrTag (r : List Word) : Nat := fldN (r.getD 0 0) 0 32
def lrCaddr (r : List Word) : Nat := (r.getD 2 0).toNat

/-- The bits of word i that a record of a kind may set (R365). -/
def lrMask (kind i : Nat) : Word :=
  match kind, i with
  | _, 2 => 0xFFFFFFFFFFFFFFFF
  | 1, 0 => 0xF0003F00FFFFFFFF
  | 1, 1 => 0xFFFFFFFFFFFFFFFF
  | 2, 0 => 0xF200FF00FFFFFFFF
  | 3, 0 => 0xFC00FF00FFFFFFFF
  | 3, 1 => 0xFFFFFFFFFFFFFFC0
  | 3, 3 => 0xFFFFFFFFFFFE0000
  | 3, 4 => 0x00000000FFFFFFFF
  | 1, _ => 0
  | 2, _ => 0
  | 3, _ => 0
  | _, 0 => 0x0E00FF00FFFFFFFF
  | _, _ => 0xFFFFFFFFFFFFFFFF

/-- The lowest offending bit of the lowest offending word, as DETAIL of fault 0xB5; an unknown KIND offends at bit 60 (R365). -/
def lrBad (r : List Word) : Option Nat :=
  let kind := lrKind r
  (List.range 8).findSome? (fun i =>
    let w := r.getD i 0 &&& ~~~(lrMask kind i)
    let w := if i = 0 ∧ (kind = 0 ∨ 3 < kind) then w ||| 0x1000000000000000 else w
    ((List.range 64).find? (fun b => bit w b)).map (fun b => b * 2 ^ 8 + i))

/-- A refused record: its fault is logged, and its completion record has ST 2; it has no graph, so words 4 to 7 are zero (R365, R366,
R378). -/
def refuseRecord (s : State) (p : Nat) (r : List Word) (code detail : Nat) : State :=
  let f := mkRecDie s (p * 4) (Flt.mk0 code detail)
  writeDone (logRec (takeRecord s p) (p * 4) f) p (lrCaddr r) 2 code (lrPh r) (lrTag r) 0 0 none

/-- R362: LOAD_RECORD of package p: the next record when it is a LOAD, or one whose KIND is unknown. -/
def execLoadRecord (p : Nat) (s : State) : Out :=
  match nextRecord s p with
  | none => .next s
  | some r =>
    if lrKind r = 2 ∨ lrKind r = 3 then .next s
    else
      .next (withRecord s p r (fun s =>
        match lrBad r with
        | some detail => refuseRecord s p r 0xB5 detail
        | none =>
          match checkLoad s p (lrPh r) (r.getD 1 0).toNat with
          | (.wait, s) => s
          | (.bad code detail, s) => refuseRecord s p r code detail
          | (.ok (l, ws), s) =>
            writeDone (installPackage (takeRecord s p) p (lrPh r) l ws) p (lrCaddr r) 0 0 (lrPh r) (lrTag r) 0 0 none))

/-! ## Unloading -/

/-- A PC lies inside a package's code section, which has whole pages (R356, R363). -/
def inCode (l : Loaded) (pc : Nat) : Bool :=
  l.pkgva + l.codeoff ≤ pc && pc < l.pkgva + l.codeoff + (l.codelen + 65535) / 65536 * 65536

/-- The PC of a saved task, in its frame; none where the frame cannot be read (R80, R363). -/
def savedPc (s : State) (t : Saved) : Option Nat :=
  match (readRange s (dieOf t.core) (t.frame + 8) 8).1 with
  | .ok bs => some (ofLe bs % 2 ^ 55)
  | _ => none

/-- A saved task stands in a package's code (R363). -/
def savedIn (s : State) (l : Loaded) (t : Saved) : Bool := (savedPc s t).any (inCode l)

/-- The frame of a saved task cannot be read and written yet (R289, R291). -/
def savedWaits (s : State) (t : Saved) : Bool := rangeWaits s (dieOf t.core) t.frame 16

/-- The placed tasks of package p: their contexts (R363). -/
def placed (s : State) (p : Nat) : List Nat :=
  (s.ctxs.filter (fun c => pkgOfCtx c.1 = p && c.2.task.isSome)).map (fun c => c.1)

/-- The package is unloaded and its record completes (R363). -/
def finishUnload (s : State) (p : Nat) (r : List Word) : State :=
  let s := s.modPkg p (fun k => { k with loaded := Tab.set none k.loaded (lrPh r) none, unloading := none })
  writeDone (takeRecord s p) p (lrCaddr r) 0 0 (lrPh r) (lrTag r) 0 0 none

/-- A forced unload concerns a placed task: one of a graph of the package, or one whose PC lies in its code (R363). -/
def unloadTakes (s : State) (p : Nat) (l : Loaded) (x : Nat) : Bool :=
  inCode l (s.ctx x).pc || match (s.ctx x).task with
    | some t => (Tab.get none (s.pkg p).runs t.run).any (fun r => r.l.id = l.id)
    | none => false

/-- A dispatch-engine access for a node of a run fails at an address: fault 0xB6, logged on die d, and the run's first fault (R26, R369,
R374). -/
def failAccess (s : State) (p run d node va : Nat) : State :=
  let f := mkRecDie s d ⟨0xB6, 1, va, node, 0⟩
  (logRec s d f).modPkg p (fun k => { k with
    runs := Tab.set none k.runs run ((Tab.get none k.runs run).map (fun (r : Run) => { r with failed := some (r.failed.getD f) })) })

/-- The frames of saved tasks are examined: a frame that cannot be read fails its graph (R363, R369). -/
def examine (s : State) (p : Nat) : State :=
  (s.pkg p).saved.foldl (fun s t =>
    match readRange s (dieOf t.core) (t.frame + 8) 8 with
    | (.bad _ a, s) => failAccess s p t.task.run (dieOf t.core) t.task.node a
    | (_, s) => s) s

/-- ORPH of the frame of a saved task becomes 1 (R81, R363). A frame that cannot be written fails its graph (R369). -/
def orphan (s : State) (p : Nat) (t : Saved) : State :=
  let d := dieOf t.core
  match accBind (readRange s d t.frame 1) (fun bs s => writeRange s d t.frame (leBytes 1 (ofLe bs ||| 2))) with
  | (.bad _ a, s) => failAccess s p t.task.run d t.task.node a
  | (_, s) => s

/-- FORCE = 1: no further node of a graph of PH starts, and its placed tasks are saved, as are those whose PC lies in its code; once
they are, the frames are marked and the package goes (R363). A graph that has failed keeps its state (R374). -/
def forceUnload (s : State) (p : Nat) (r : List Word) (l : Loaded) : State :=
  let ph := lrPh r
  let s := s.modPkg p (fun k => { k with
    unloading := some ph,
    runs := k.runs.map (fun q => (q.1, q.2.map (fun (v : Run) => if v.l.id = l.id ∧ v.failed.isNone then { v with stopped := true } else v))) })
  let xs := (placed s p).filter (unloadTakes s p l)
  if xs.isEmpty then
    if (s.pkg p).saved.any (savedWaits s) then s
    else finishUnload (((s.pkg p).saved.filter (savedIn s l)).foldl (orphan · p ·) (examine s p)) p r
  else xs.foldl (fun s x => s.modCtx x (fun c => if c.kill.isSome then c else { c with save := some (c.save.getD .preempt) })) s

/-- R363: UNLOAD_RECORD of package p. -/
def execUnloadRecord (p : Nat) (s : State) : Out :=
  match nextRecord s p with
  | none => .next s
  | some r =>
    if lrKind r ≠ 2 then .next s
    else
      .next (withRecord s p r (fun s =>
        match lrBad r, Tab.get none (s.pkg p).loaded (lrPh r) with
        | some detail, _ => refuseRecord s p r 0xB5 detail
        | none, none => refuseRecord s p r 0xB5 (40 * 2 ^ 8)
        | none, some l =>
          if bit (r.getD 0 0) 57 then forceUnload s p r l
          else if (s.pkg p).saved.any (savedWaits s) then s
          else
            let s := examine s p
            let busy := (Tab.members (s.pkg p).runs).any (fun q => q.2.l.id = l.id) ||
              (placed s p).any (fun x => inCode l (s.ctx x).pc) || (s.pkg p).saved.any (savedIn s l)
            if busy then refuseRecord s p r 0xB7 (lrPh r) else finishUnload s p r))

end Sys2Proof.Machine
end

