-- ==== Sys2Proof/Machine/Wants.lean ====
section
/-! DEFINITION. What of the running graphs may start, and in which order: edges, readiness, affinity (R368, R371, R374 to R376). -/

namespace Sys2Proof.Machine

/-! ## Nodes and edges of a run -/

def runOf (s : State) (p run : Nat) : Option Run := Tab.get none (s.pkg p).runs run
def setRun (s : State) (p run : Nat) (r : Option Run) : State := s.modPkg p (fun k => { k with runs := Tab.set none k.runs run r })
def modRun (s : State) (p run : Nat) (f : Run → Run) : State := setRun s p run ((runOf s p run).map f)

def Run.node (r : Run) (n : Nat) : RunNode := Tab.get RunNode.reset r.nodes n
def Run.setNode (r : Run) (n : Nat) (v : RunNode) : Run := { r with nodes := Tab.set RunNode.reset r.nodes n v }
def Run.modNode (r : Run) (n : Nat) (f : RunNode → RunNode) : Run := r.setNode n (f (r.node n))

/-- Every instance of a node is complete (R368). -/
def Run.complete (r : Run) (n : Nat) : Bool := (r.node n).done.length = instCount r.l n

/-- An edge is skipped: its source is, or is a conditional node whose predicate chose the other branch (R368, R369). -/
def Run.edgeSkipped (r : Run) (e : Nat) : Bool :=
  match eSource r.l e with
  | none => true
  | some n =>
    (r.node n).skip ||
      (nType r.l n = 3 && r.complete n && ((eBr r.l e = 1 && !(r.node n).pred) || (eBr r.l e = 2 && (r.node n).pred)))

/-- An edge is resolved for an instance: every instance of the source in its level set is complete (R368). -/
def Run.edgeResolved (r : Run) (e wid : Nat) : Bool :=
  match eSource r.l e with
  | none => true
  | some n => ((r.node n).done.filter (agree r.l (eLevel r.l e) wid)).length = setCount r.l n (eLevel r.l e) wid

/-- A node with incoming edges, all of them skipped, is skipped whole (R368). -/
def Run.skipPass (r : Run) : Run :=
  (List.range r.l.nodes.length).foldl (fun r n =>
    let es := incoming r.l n
    if !es.isEmpty && es.all r.edgeSkipped then r.modNode n (fun v => { v with skip := true }) else r) r

/-- Skips settle over the whole graph. -/
def Run.settleSkips (r : Run) : Run := (List.range r.l.nodes.length).foldl (fun r _ => r.skipPass) r

/-- The body of a loop node has run: each of its nodes is complete or skipped (R370). -/
def Run.bodyOver (r : Run) (n : Nat) : Bool :=
  (List.range r.l.nodes.length).all (fun m => !inBody r.l n m || (r.node m).skip || r.complete m)

/-- The instance may start: the graph goes on, the instance has not started, each incoming edge is resolved or skipped, and the body of a
loop has run (R368, R370, R374). -/
def Run.ready (r : Run) (n wid : Nat) : Bool :=
  r.failed.isNone && !r.stopped && n < r.l.nodes.length && !(r.node n).skip && !(r.node n).done.contains wid &&
    !(r.node n).live.contains wid && (instances r.l n).contains wid &&
    (incoming r.l n).all (fun e => r.edgeSkipped e || r.edgeResolved e wid) && (nType r.l n ≠ 4 || r.bodyOver n)

/-- A graph fails with its first fault (R374). -/
def failRun (s : State) (p run : Nat) (f : Rec) : State := modRun s p run (fun r => { r with failed := some (r.failed.getD f) })

/-! ## Who may take a context -/

/-- The context holds no task, and its core is neither frozen nor stopped (R51, R310, R390, R391). -/
def idle (s : State) (x : Nat) : Bool := (s.ctx x).task.isNone && (s.ctx x).kill.isNone && !s.stopped (dieOfCtx x)

/-- The unit of a scope that holds core c; scopes of the package and above impose nothing (R17, R371). -/
def unitOf (scope c : Nat) : Nat :=
  match scope with
  | 0 => c
  | 1 => c / 8
  | 2 => c / 128
  | _ => c / 512

/-- R371: each level set of an instance lies within one unit, fixed by its first placement. -/
def affinity (r : Run) (n wid c : Nat) : Bool :=
  [1, 2, 3, 4, 5, 6].all (fun k =>
    match (r.node n).homes.find? (fun h => agree r.l k h.1 wid) with
    | some h => unitOf (nAff r.l n k) h.2 = unitOf (nAff r.l n k) c
    | none => true)

/-- A task that waits for a context: 3 minus its PRIO, launch, node and WID, in the order of R368. -/
structure Want where
  low : Nat
  order : Nat
  node : Nat
  wid : Nat
  deriving DecidableEq, Repr

/-- The order in which ready instances start (R368). -/
def Want.before (a b : Want) : Bool :=
  a.low < b.low || (a.low = b.low && (a.order < b.order || (a.order = b.order &&
    (a.node < b.node || (a.node = b.node && a.wid < b.wid)))))

/-- The ready instances of a run that meet their affinity on core c (R368, R371). -/
def runReady (r : Run) (c : Nat) : List Want :=
  ((List.range r.l.nodes.length).filter (fun n => nType r.l n = 0)).flatMap (fun n =>
    ((instances r.l n).filter (fun w => r.ready n w && affinity r n w c)).map (fun w => ⟨3 - r.prio, r.order, n, w⟩))

/-- The ready instances of a run that may be placed on core c: a frame block is free for them (R371). -/
def runWants (r : Run) (c : Nat) : List Want := if r.blocks.length < r.nfpool then runReady r c else []

/-- A task holds a valid stall handle, in its frame (R146). -/
def holdsStall (s : State) (t : Saved) : Bool :=
  match (readRange s (dieOf t.core) (t.frame + 0x120) 256).1 with
  | .ok bs => (List.range 32).any (fun n => (bs.getD (8 * n + 7) 0).toNat.testBit 7)
  | _ => false

/-- A task holds a source entry of its core (R320). -/
def holdsSource (s : State) (t : Saved) : Bool :=
  (Tab.members (s.core t.core).srcs).any (fun v => v.2.frames.contains t.frame)

/-- A forced unload under way concerns the saved task: it is not restored meanwhile (R363). -/
def unloadHolds (s : State) (p : Nat) (t : Saved) : Bool :=
  match (s.pkg p).unloading with
  | none => false
  | some ph => (Tab.get none (s.pkg p).loaded ph).any (fun l => savedIn s l t || (runOf s p t.task.run).any (fun r => r.l.id = l.id))

/-- A saved task may be restored on core c (R371, R376). -/
def mayRestore (s : State) (p : Nat) (t : Saved) (c : Nat) : Bool :=
  t.ready && !unloadHolds s p t && (c = t.core || !(t.task.acc || holdsStall s t || holdsSource s t)) &&
    (match runOf s p t.task.run with
     | some r => affinity r t.task.node t.task.wid.toNat c
     | none => true)

/-- The place of a node that is no task, and of a saved task, in the order of R368. -/
def nodeWant (r : Run) (n : Nat) : Want := ⟨3 - r.prio, r.order, n, 0⟩
def savedWant (s : State) (p : Nat) (t : Saved) : Want :=
  ⟨3 - t.task.prio, (match runOf s p t.task.run with
    | some r => r.order
    | none => 0), t.task.node, t.task.wid.toNat⟩

/-- The saved tasks that may be restored on core c (R368, R376). -/
def savedWants (s : State) (p c : Nat) : List Want := ((s.pkg p).saved.filter (fun t => mayRestore s p t c)).map (savedWant s p)

/-- The tasks that are ready and meet their affinity on core c, whether or not a frame block is free for them (R368, R375). -/
def readyWants (s : State) (p c : Nat) : List Want :=
  ((Tab.members (s.pkg p).runs).flatMap (fun r => runReady r.2 c)) ++ savedWants s p c

/-- The tasks that wait for a context of core c and nothing else (R368, R375, log 96). -/
def wants (s : State) (p c : Nat) : List Want := ((Tab.members (s.pkg p).runs).flatMap (fun r => runWants r.2 c)) ++ savedWants s p c

/-- An idle context of core c can take n scoreboard entries at once (R122). -/
def roomOn (s : State) (c n : Nat) : Bool := (List.range 4).any (fun k => idle s (c * 4 + k) && sbRoomFor s (c * 4 + k) n)

/-- What could be placed or restored on core c now: a saved task also needs room for its entries (R122, R368). -/
def wantsNow (s : State) (p c : Nat) : List Want :=
  ((Tab.members (s.pkg p).runs).flatMap (fun r => runWants r.2 c)) ++
    ((s.pkg p).saved.filter (fun t => mayRestore s p t c && roomOn s c t.ents.length)).map (savedWant s p)

/-- The nodes that are no tasks and may start (R368). -/
def nodeWants (s : State) (p : Nat) : List Want :=
  (Tab.members (s.pkg p).runs).flatMap (fun r =>
    ((List.range r.2.l.nodes.length).filter (fun n => nType r.2.l n ≠ 0 && r.2.ready n 0)).map (nodeWant r.2))

/-- The contexts of a package. -/
def ctxsOf (p : Nat) : List Nat := (List.range 2048).map (fun i => p * 2048 + i)

/-- A context of core c is idle. -/
def idleOn (s : State) (c : Nat) : Bool := (List.range 4).any (fun k => idle s (c * 4 + k))

/-- Nothing that comes before could start now: no node that is no task, and no task on an idle context of any core (R368). -/
def firstWant (s : State) (p : Nat) (w : Want) : Bool :=
  (nodeWants s p).all (fun v => !v.before w) &&
    (List.range 512).all (fun i => !idleOn s (p * 512 + i) || (wantsNow s p (p * 512 + i)).all (fun v => !v.before w))

end Sys2Proof.Machine
end

