-- ==== Sys2Proof/Machine/Graphs.lean ====
section
/-! DEFINITION. Running graphs: edges, readiness, the nodes that are no tasks, and completion (R365, R366, R368 to R370, R373, R374). -/

namespace Sys2Proof.Machine

/-! ## RUN -/

/-- R365: the checks of a RUN record against its package; it is refused with fault 0xB5 at a word and bit. -/
def checkRun (s : State) (p : Nat) (r : List Word) (l : Loaded) : LoadRes Unit :=
  if fldN (r.getD 4 0) 0 32 < l.nframe then (.bad 0xB5 4, s)
  else if l.argmin = 0 then (.ok (), s)
  else
    match translateDie s (p * 4) (r.getD 1 0 + BitVec.ofNat 64 (l.argmin - 1)) 0 with
    | (.ok _, s) => (.ok (), s)
    | (.wait, s) => (.wait, s)
    | (.bad _ _, s) => (.bad 0xB5 1, s)

/-- The run of a record. -/
def newRun (r : List Word) (l : Loaded) (order : Nat) : Run :=
  { ph := lrPh r, l := l, prio := fldN (r.getD 0 0) 58 2, tag := lrTag r, args := (r.getD 1 0).toNat, caddr := lrCaddr r,
    fpool := (r.getD 3 0).toNat, nfpool := fldN (r.getD 4 0) 0 32, order := order, nodes := [], blocks := [], tasks := 0, iters := 0,
    maxit := false, failed := none, stopped := false }

/-- R365, R368: RUN_RECORD of package p. -/
def execRunRecord (p : Nat) (s : State) : Out :=
  match nextRecord s p with
  | none => .next s
  | some r =>
    if lrKind r ≠ 3 then .next s
    else
      .next (withRecord s p r (fun s =>
        match lrBad r, Tab.get none (s.pkg p).loaded (lrPh r) with
        | some detail, _ => refuseRecord s p r 0xB5 detail
        | none, none => refuseRecord s p r 0xB5 (40 * 2 ^ 8)
        | none, some l =>
          match checkRun s p r l with
          | (.wait, s) => s
          | (.bad code detail, s) => refuseRecord s p r code detail
          | (.ok _, s) =>
            (takeRecord s p).modPkg p (fun k => { k with
              runs := Tab.set none k.runs k.nextRun (some (newRun r l k.nextRun)), nextRun := k.nextRun + 1 })))

/-! ## Nodes that are no tasks -/

/-- A node that is no task, when it may start and nothing that comes before it could (R368). -/
def readyNode (s : State) (p run n ty : Nat) : Option Run :=
  match runOf s p run with
  | none => none
  | some r => if nType r.l n = ty && r.ready n 0 && firstWant s p (nodeWant r n) then some r else none

/-- The node is complete (R368). -/
def finishNode (s : State) (p run n : Nat) : State :=
  modRun s p run (fun r => (r.modNode n (fun v => { v with done := [0] })).settleSkips)

/-- An 8-byte word of the argument block (R369). -/
def argWord (s : State) (p : Nat) (r : Run) (n i : Nat) : Acc Nat × State :=
  accBind (readRange s (p * 4) ((r.args + nAoff r.l n + 8 * i) % 2 ^ 64) 8) (fun bs s => (.ok (ofLe bs), s))

/-- A node's accesses have been made: it goes on, waits for a page (R289, R291), or fails its graph with fault 0xB6 (R369, R374). -/
def nodeStep {α : Type} (p run n : Nat) (r : Acc α × State) (k : α → State → State) : Out :=
  match r with
  | (.ok a, s) => .next (k a s)
  | (.wait, s) => .next s
  | (.bad _ va, s) => .next (failAccess s p run (p * 4) n va)

/-- The bytes of a copy; those that lie in both ranges are undefined and free (R298, R369). -/
def copyBytes (s : State) (src dst n : Nat) (bs : List Byte) : List Byte :=
  let fs := freeBytes s n
  (List.range n).map (fun i => if src ≤ dst + i ∧ dst + i < src + n then fs.getD i 0 else bs.getD i 0)

/-- R369: what a copy node moves. -/
def copyNode (s : State) (p : Nat) (r : Run) (node : Nat) : Acc Unit × State :=
  accBind (argWord s p r node 0) (fun src s =>
  accBind (argWord s p r node 1) (fun dst s =>
  accBind (argWord s p r node 2) (fun n s =>
    if 2 ^ 32 ≤ n then (.bad 0xB6 ((r.args + nAoff r.l node + 16) % 2 ^ 64), s)
    else
      accBind (readRange s (p * 4) src n) (fun bs s =>
        accBind (writeRange s (p * 4) dst (copyBytes s src dst n bs)) (fun _ s => (.ok (), s.spendFree ((n + 7) / 8)))))))

/-- R369: COPY_NODE. -/
def execCopyNode (p run node : Nat) (s : State) : Out :=
  match readyNode s p run node 1 with
  | none => .next s
  | some r => nodeStep p run node (copyNode s p r node) (fun _ s => finishNode s p run node)

/-- R369: what an event node stores. -/
def eventNode (s : State) (p : Nat) (r : Run) (node : Nat) : Acc Unit × State :=
  accBind (argWord s p r node 0) (fun ea s =>
  accBind (argWord s p r node 1) (fun v s =>
    if ea % 8 ≠ 0 then (.bad 0xB6 ea, s) else writeRange s (p * 4) ea (leBytes 8 v)))

/-- R369: EVENT_NODE. -/
def execEventNode (p run node : Nat) (s : State) : Out :=
  match readyNode s p run node 2 with
  | none => .next s
  | some r => nodeStep p run node (eventNode s p r node) (fun _ s => finishNode s p run node)

/-- R369: CONDITIONAL_NODE. -/
def execConditionalNode (p run node : Nat) (s : State) : Out :=
  match readyNode s p run node 3 with
  | none => .next s
  | some r =>
    nodeStep p run node (argWord s p r node 0) (fun v s =>
      finishNode (modRun s p run (fun r => r.modNode node (fun k => { k with pred := v ≠ 0 }))) p run node)

/-- The body of loop node n starts again, and counts of inner loops are zero (R370). -/
def rearm (r : Run) (n : Nat) : Run :=
  ((List.range r.l.nodes.length).foldl (fun r m => if inBody r.l n m then r.setNode m RunNode.reset else r) r).settleSkips

/-- A run of the body of a loop node is counted (R370). -/
def countBody (s : State) (p run node : Nat) : State :=
  modRun s p run (fun r => { (r.modNode node (fun k => { k with loops := k.loops + 1 })) with iters := r.iters + 1 })

/-- The end of a run of the body, with the predicate read: once more, or the loop is complete (R370). -/
def closeLoop (s : State) (p run node v : Nat) : State :=
  let again : Bool := (runOf s p run).any (fun r => v ≠ 0 && (r.node node).loops < loopMax r.l node)
  if again then modRun s p run (fun r => rearm r node)
  else
    finishNode (modRun s p run (fun r => { (r.modNode node (fun k => { k with loops := 0 })) with maxit := r.maxit || v ≠ 0 })) p run node

/-- R370: LOOP_NODE: counts the run of its body, then reads its predicate. -/
def execLoopNode (p run node : Nat) (s : State) : Out :=
  match readyNode s p run node 4 with
  | none => .next s
  | some r =>
    match argWord s p r node 0 with
    | (.wait, s) => .next s
    | (a, s) => nodeStep p run node (a, countBody s p run node) (fun v s => closeLoop s p run node v)

/-! ## Completion -/

/-- Nothing of the graph is left to wait for: no task is placed or saved, and every node is complete or skipped unless the graph
failed or was stopped (R363, R374). -/
def Run.over (r : Run) : Bool :=
  (List.range r.l.nodes.length).all (fun n =>
    (r.node n).live.isEmpty && (r.failed.isSome || r.stopped || (r.node n).skip || r.complete n))

/-- ST of a graph that is over (R363, R366, R370, R374). -/
def Run.st (r : Run) : Nat := if r.stopped then 4 else if r.failed.isSome then 1 else if r.maxit then 3 else 0

/-- R366, R374: GRAPH_COMPLETE. -/
def execGraphComplete (p run : Nat) (s : State) : Out :=
  match runOf s p run with
  | none => .next s
  | some r =>
    if !r.over || doneWaits s p r.caddr then .next s
    else
      let code := match r.failed with
        | some f => f.code
        | none => 0
      .next (writeDone (setRun s p run none) p r.caddr r.st code r.ph r.tag r.tasks r.iters r.failed)

end Sys2Proof.Machine
end

