-- ==== Sys2Proof/Machine/GroupCmd.lean ====
section
/-! DEFINITION. The commit commands, and the records that stream forms send (R336 to R344). -/

namespace Sys2Proof.Machine

/-! ## Checks -/

/-- Fields of a group word (R337). -/
def gwNum (w : Word) : Nat := fldN w 0 32
def gwR (w : Word) : Bool := bit w 42
def gwPkg (w : Word) : Nat := fldN w 32 10

/-- R337: a group word that breaks a rule; addr: the command uses R and PKG. -/
def grpBad (s : State) (w : Word) (addr : Bool) : Bool :=
  let d := dieOfCtx s.cur.x
  fldN w 43 21 ≠ 0 || grpGen (gwNum w) = 0 || !linked s d (gwNum w / 2 ^ 22) ||
    (if gwR w then !addr || !linked s d (gwPkg w) else gwPkg w ≠ 0)

/-- R319, R337: a committer word that breaks a rule. -/
def comBad (w : Word) : Bool := fldN w 45 8 ≠ 0 || (!bit w 53 && w ≠ 0)

/-- Package and FB that a committer word names; V = 0 names the issuing task (R319). -/
def comOf (s : State) (w : Word) : Nat × Nat :=
  if bit w 53 then (fldN w 54 10, fldN w 0 45) else (pkgOfCtx s.cur.x, fldN s.me.frame 10 45)

/-- A fault of a commit command: DETAIL holds the group number (R345). -/
def grpFault (code g : Nat) : Flt := Flt.mk0 code g

/-- R320, R339: the core's source entry for a tagged store or a GSEAL: fault 0xA2 once it is sealed, 0xA4 where none is free. -/
def withSrc (g : Nat) (flt : Nat → Flt) (k : State → SlotRes) (s : State) : SlotRes :=
  let c := coreOf s.cur.x
  match srcAt s c g with
  | some (_, v) => if v.sealed then .fault (flt 0xA2) s else k s
  | none => if (freeSrc s c).isNone then .fault (flt 0xA4) s else k s

/-- The issuing task's core takes or shares its source entry. -/
def enlistMe (s : State) (g : Nat) : State := enlistSrc s (coreOf s.cur.x) g s.me.frame.toNat

/-! ## Commands -/

/-- The lowest slot that GOPEN may take (R338). -/
def freeSlot (s : State) (c : Nat) : Option Nat :=
  (List.range 16).find? (fun n =>
    let v := Tab.get GSlot.reset (s.core c).slots n
    v.state = 0 || ((v.state = 4 || v.state = 5) && v.settled))

/-- The answer of a command on the issuing core is on its way (R337). -/
def answerHere (s : State) (g xd : Nat) (v : Word) : State :=
  let d := dieOfCtx s.cur.x
  sendPkt s g d d (.answer s.cur.x xd v none)

/-- R338. -/
def openGroup (com opn : Word) (xd : Nat) (s : State) : State :=
  let c := coreOf s.cur.x
  match freeSlot s c with
  | none => answerHere s 0 xd 0
  | some n =>
    let old := Tab.get GSlot.reset (s.core c).slots n
    let gen := old.gen % 511 + 1
    let lease := fldN opn 48 16
    let v : GSlot := { GSlot.reset with
      state := 1, gen := gen, comPkg := (comOf s com).1, comFb := (comOf s com).2, nsrc := fldN opn 42 6 + 1,
      deadline := if lease = 0 then none else some (lease * 65536), resumed := some (timerNow s (pkgOf c)),
      done := setBit old.done gen false, appl := setBit old.appl gen false }
    let g := grpOf c n gen
    let s := setSlot s g v
    answerHere s g xd (stateWord s g)

/-- R338. It names no group, so DETAIL of its fault 0xA0, which R345 fills with the group number, is free (log 8). -/
def execGopen (g : Guard) (d : BitVec 5) (a : BitVec 4) (s : State) : Out :=
  slotE g [d.toNat, 2 * a.toNat, 2 * a.toNat + 1] (fun s =>
    let com := s.rxn (2 * a.toNat)
    let opn := s.rxn (2 * a.toNat + 1)
    if comBad com ∨ fldN opn 0 42 ≠ 0 then .fault (grpFault 0xA0 (s.freeVal.toNat % 2 ^ 32)) s.nextFree
    else .done (openGroup com opn d.toNat (lease s d.toNat))) s

/-- A command on its way to the originator (R337, R342). -/
def sendCommand (g fn xd : Nat) (arg : Word) (dest : Option Nat) (va pa : Nat) (s : State) : SlotRes :=
  let x := s.cur.x
  .done (lease (sendPkt s g (dieOfCtx x) (grpDie g) (.command fn x xd arg dest va pa s.word)) xd)

/-- GCOMMIT, GABORT and GSTAT (R342, R344). -/
def plainCommand (g : Guard) (d k : BitVec 5) (fn : Nat) (s : State) : Out :=
  slotE g [d.toNat, k.toNat] (fun s =>
    let w := s.rx k
    if grpBad s w false then .fault (grpFault 0xA0 (gwNum w)) s
    else sendCommand (gwNum w) fn d.toNat 0 none 0 0 s) s

/-- R342. -/
def execGcommit (g : Guard) (d k : BitVec 5) (s : State) : Out := plainCommand g d k 0 s
/-- R342. -/
def execGabort (g : Guard) (d k : BitVec 5) (s : State) : Out := plainCommand g d k 1 s
/-- R344. -/
def execGstat (g : Guard) (d k : BitVec 5) (s : State) : Out := plainCommand g d k 4 s

/-- R342. -/
def execGdeleg (g : Guard) (d : BitVec 5) (a : BitVec 4) (s : State) : Out :=
  slotE g [d.toNat, 2 * a.toNat, 2 * a.toNat + 1] (fun s =>
    let w := s.rxn (2 * a.toNat)
    let com := s.rxn (2 * a.toNat + 1)
    if grpBad s w false ∨ comBad com ∨ !bit com 53 then .fault (grpFault 0xA0 (gwNum w)) s
    else sendCommand (gwNum w) 3 d.toNat com none 0 0 s) s

/-- R343: GPEEK is checked, and translated where its address lies on the issuing package. -/
def execGpeek (g : Guard) (d : BitVec 5) (a : BitVec 4) (s : State) : Out :=
  slotE g [d.toNat, 2 * a.toNat, 2 * a.toNat + 1] (fun s =>
    let w := s.rxn (2 * a.toNat)
    let ea := s.rxn (2 * a.toNat + 1)
    let n := gwNum w
    if grpBad s w true then .fault (grpFault 0xA0 n) s
    else if ea.toNat % 8 ≠ 0 then .fault ⟨0xA5, 1, ea.toNat, n + 8 * 2 ^ 32, 0⟩ s
    else if gwR w && gwPkg w ≠ pkgOfCtx s.cur.x then sendCommand n 2 d.toNat w none ea.toNat 0 s
    else withPlace s ea 0 (fun p s => sendCommand n 2 d.toNat w (some (destOfPlace p)) ea.toNat p.pa s)) s

/-- R342: GWAIT leases xd and waits; GWAIT_RETURN performs the slot. -/
def execGwait (g : Guard) (d k : BitVec 5) (s : State) : Out :=
  match s.me.issue with
  | none => .next s
  | some is =>
    if is.gwait then .next s
    else
      slotE g [d.toNat, k.toNat] (fun s =>
        let w := s.rx k
        if grpBad s w false then .fault (grpFault 0xA0 (gwNum w)) s
        else .wait ((lease s d.toNat).modIssue s.cur.x (fun is => { is with gwait := true }))) s

/-- R342, R326: GWAIT_RETURN of context x: the group is applied or aborted everywhere, or is unknown. Neither core is frozen (R310). -/
def execGwaitReturn (x : Nat) (s : State) : Out :=
  match (s.ctx x).issue with
  | none => .next s
  | some is =>
    let w := is.words.getD 3 0
    let g := gwNum (is.rx 3 (en2 w))
    let v := stateWord s g
    let p := pkgOfCtx x
    let q := pkgOf (grpCore g)
    if is.gwait && !s.stopped (dieOfCtx x) && !s.stopped (grpDie g) && (fldN v 61 3 = 0 || (4 ≤ fldN v 61 3 && bit v 60)) &&
        (p = q || (packetPort s (dieOfCtx x) q (g * 2 ^ 12)).isSome) then
      let s := endLease (s.modIssue x (fun is => { is with gwait := false })) x (en1 w) v
      let s := if fldN v 61 3 = 4 then acquire s (coreOf x) 4 else s
      .next (closeBundle (performSlot s x 3) x)
    else .next s

/-! ## Tagged stores -/

/-- R339, in its order: the checks, the enlistment, the translation, and the store. -/
def gstoreBody (xs xa xg : BitVec 5) (n : Nat) (s : State) : SlotRes :=
  let w := s.rx xg
  let g := gwNum w
  let ea := s.rx xa
  let c := coreOf s.cur.x
  let data := leBytes n (s.rx xs).toNat
  if grpBad s w true then .fault (grpFault 0xA0 g) s
  else if ea.toNat % n ≠ 0 then .fault ⟨0xA5, 1, ea.toNat, g + n * 2 ^ 32, 0⟩ s
  else
    withSrc g (fun code => grpFault code g) (fun s =>
      let s := enlistMe s g
      if gwR w && gwPkg w ≠ pkgOf c then
        .done (sendTagged s c g s.me.frame.toNat none 0 (gwPkg w) [⟨none, ea.toNat, 0, data⟩])
      else
        withPlace s ea 1 (fun p s =>
          .done (sendTagged s c g s.me.frame.toNat none 0 (pkgOf c) [⟨some (destOfPlace p), ea.toNat, p.pa, data⟩]))) s

/-- R339. -/
def execGstore (g : Guard) (x a k : BitVec 5) (z : BitVec 1) (s : State) : Out :=
  slotE g [x.toNat, a.toNat, k.toNat] (gstoreBody x a k (if z = 1 then 8 else 4)) s

/-- The group checks of SSTOREG and SSCADDG, and the enlistment; DETAIL's value is not stated and is free (R340, R345). -/
def streamGroup (xa : Nat) (k : State → SlotRes) (s : State) : SlotRes :=
  let w := s.rxn (xa + 2)
  let f := fun code => cmdFault s code s.freeVal.toNat
  if grpBad s w true then .fault (f 0xA0) s.nextFree
  else withSrc (gwNum w) f (fun s => k (enlistMe s (gwNum w))) s.nextFree

/-- R340. -/
def execSstoreg (g : Guard) (h : BitVec 5) (a : BitVec 3) (s : State) : Out :=
  let xa := 4 * a.toNat
  slotE g (regRun xa 3) (needHandles [h.toNat] (fun s =>
    checked (shapeBad (xa + 1) (s.rxn (xa + 1)) false h.toNat (s.rh h.toNat))
      (streamGroup xa (fun s => .done (accept [h.toNat] [] s))) s)) s

/-- R340. -/
def execSscaddg (g : Guard) (v i : BitVec 5) (a : BitVec 3) (s : State) : Out :=
  let xa := 4 * a.toNat
  slotE g (regRun xa 3) (needHandles [v.toNat, i.toNat] (fun s =>
    checked (scatterBad s v i xa) (baseAligned (s.rxn xa) (eszOf (fldN (s.rxn (xa + 1)) 62 2))
      (streamGroup xa (fun s => .done (accept [v.toNat, i.toNat] [] s)))) s)) s

/-- R341: GSEAL is on its way; the lease ends with the state word after the seal. -/
def execGseal (g : Guard) (d : BitVec 5) (a : BitVec 4) (s : State) : Out :=
  slotE g [d.toNat, 2 * a.toNat, 2 * a.toNat + 1] (fun s =>
    let w := s.rxn (2 * a.toNat)
    let n := gwNum w
    let exp := s.rxn (2 * a.toNat + 1)
    let x := s.cur.x
    let c := coreOf x
    if grpBad s w false ∨ fldN exp 32 32 ≠ 0 then .fault (grpFault 0xA0 n) s
    else
      withSrc n (fun code => grpFault code n) (fun s =>
        .done (lease (sendPkt (enlistMe s n) n (dieOf c) (grpDie n) (.seal c exp.toNat x d.toNat none)) d.toNat)) s) s

/-! ## Records of the stream forms -/

/-- The pieces of n bytes at an address that lie in one 4 KiB granule each: offset and length (R340). -/
def granules (va n : Nat) : List (Nat × Nat) :=
  (List.range ((va % 4096 + n + 4095) / 4096)).map (fun i =>
    let lo := i * 4096 - va % 4096
    (lo, min n ((i + 1) * 4096 - va % 4096) - lo))

/-- Translation of a record's pages for an entry (R263, R331). -/
def rangePlaces (s : State) (c i va n kind : Nat) : Except State (List Place × State) :=
  match entryPlace s c i va kind with
  | .error s => .error s
  | .ok (p, s) =>
    let n1 := 2 ^ 16 - va % 2 ^ 16
    if n ≤ n1 then .ok ([p], s)
    else
      match entryPlace s c i ((va + n1) % 2 ^ 64) kind with
      | .error s => .error s
      | .ok (q, s) => .ok ([p, q], s)

/-- The next record or row of entry i of core c is sent as a tagged store (R340). It is discarded, and complete, once the source entry
is gone under which its command was accepted (R320, log 64). An address of the issuing package is translated at the source (R297,
R331). -/
def sendRecord (s : State) (c i : Nat) (e : Entry) (kind va : Nat) (bs : List Byte) : State :=
  let w := e.rx (e.xa + 2)
  let g := gwNum w
  let frame := (s.ctx (c * 4 + e.ctx)).frame.toNat
  let gs := granules va bs.length
  let cut := fun (p : Nat × Nat) => (bs.drop p.1).take p.2
  if e.void || (srcAt s c g).isNone then finishRec s c i e.resume
  else if gwR w && gwPkg w ≠ pkgOf c then
    finishRec (sendTagged s c g frame (some i) kind (gwPkg w) (gs.map (fun p => ⟨none, (va + p.1) % 2 ^ 64, 0, cut p⟩))) c i e.resume
  else
    match rangePlaces s c i va bs.length (if kind = 0 then 6 else 2) with
    | .error s => s
    | .ok (ps, s) =>
      if kind ≠ 0 ∧ ps.any (fun p => p.pl = 2) then failEntry s c i ⟨0x71, 1, va, cmdDetail e.word i e.resume, 0⟩
      else
        finishRec (sendTagged s c g frame (some i) kind (pkgOf c) (gs.map (fun p =>
          let q := placeAt ps va p.1
          ⟨some (destOfPlace q), (va + p.1) % 2 ^ 64, q.pa, cut p⟩))) c i e.resume

/-- SSTOREG and SSCADDG send their next record or row (R340). -/
def sendNext (s : State) (c i : Nat) (e : Entry) : State :=
  let h := e.rd 0
  let rsz := hRsz h
  let r := e.resume
  let send := fun (kind va : Nat) (s : State) =>
    readYard s c i c (recKey (hBase h) rsz r 0) rsz e (fun s => sendRecord s c i e kind va (readRec s c (hBase h) rsz r 0 rsz))
  if subOf e.word = 0x1A then send 0 (BitVec.ofInt 64 ((e.rx e.xa).toInt + shStride e.ctl * r)).toNat s
  else
    readYard s c i c (recKey (hBase (e.rd 1)) 4 r 0) 4 e (fun s =>
      let idx := recWord s c (hBase (e.rd 1)) 4 r 0
      if fldN e.ctl 32 30 ≤ idx then finishRec (noteIndex s (c * 4 + e.ctx) idx) c i r
      else send (1 + fldN e.ctl 62 2) (((e.rx e.xa).toNat + idx * rsz) % 2 ^ 64) s)

/-- Record r of an entry of the commit path is sent, in record order (R340). -/
def groupAccess (s : State) (c i r : Nat) : State :=
  match running s c i with
  | none => s
  | some e =>
    if engineOf e.word ≠ 3 ∨ e.count ≤ r ∨ r ≠ e.resume then s
    else firstRead s c i e (fun s => sendNext s c i { e with tagOk := true })

/-- R254: HOME_PLAIN_ACCESS of a control processor's request, or of record r of a stream entry. -/
def execHomePlainAccess (q : HomeReq) (s : State) : Out :=
  match q with
  | .cp r => .next (cpPlainAccess s r)
  | .stream c e r => .next (groupAccess (streamAccess s c e r) c e r)

end Sys2Proof.Machine
end

