-- ==== Sys2Proof/Machine/GroupEvents.lean ====
section
/-! DEFINITION. What the commit channel, sources, destinations and originators do (R318 to R335, R341 to R343, R346, R392). -/

namespace Sys2Proof.Machine

/-! ## Commands at the originator -/

/-- The answer of a command goes back to the issuing context. -/
def reply (s : State) (p : Pkt) (x xd : Nat) (v : Word) (flt : Option (Nat × Nat × Nat × Word)) : State :=
  sendPkt s p.group p.to_ (dieOfCtx x) (.answer x xd v flt)

/-- GPEEK goes on to its destination, for the entries of group g, under its own number: an earlier TINV waits for its access (R284,
R343). -/
def forwardPeek (s : State) (k : Nat) (p : Pkt) (g x xd : Nat) (arg : Word) (dest : Option Nat) (va pa : Nat) (word : Word32) : State :=
  let to_ := match dest with
    | some d => d / 33
    | none => gwPkg arg * 4
  s.setPkt k (some (mkPkt s g p.to_ to_ (.peek x xd dest va pa word)))

/-- GDELEG in OPEN or SEALED (R330, R342). -/
def delegate (s : State) (g : Nat) (com : Word) : State :=
  let v := slotOf s g
  if v.state = 1 ∨ v.state = 2 then
    setSlot s g { v with comPkg := fldN com 54 10, comFb := fldN com 0 45, resumed := some (v.resumed.getD (timerNow s (pkgOf (grpCore g)))) }
  else s

/-- Command k, of packet p, at its originator (R342 to R344). GPEEK of an older generation reads memory as it stands: number 0 names no
group. -/
def performCommand (s : State) (k : Nat) (p : Pkt) (fn x xd : Nat) (arg : Word) (dest : Option Nat) (va pa : Nat) (word : Word32) : State :=
  let g := p.group
  if fn = 4 then reply s p x xd (stateWord s g) none
  else if !current s g then
    if fn = 2 then forwardPeek s k p 0 x xd arg dest va pa word else reply s p x xd (stateWord s g) none
  else if !isCommitter s g x then reply s p x xd 0 (some (0xA1, g, 0, s.tickOf (dieOfCtx x)))
  else
    match fn with
    | 0 => let s := commitGroup s g; reply s p x xd (stateWord s g) none
    | 1 => let s := abortGroup s g 1; reply s p x xd (stateWord s g) none
    | 3 => let s := delegate s g arg; reply s p x xd (stateWord s g) none
    | _ => forwardPeek s k p g x xd arg dest va pa word

/-- The 8 bytes with the group's held entries applied, of which nothing stays (R343). -/
def peekValue (s : State) (dest g pa : Nat) : Word :=
  BitVec.ofNat 64 ((performGroup s dest g).readPhys (dest / 132) (isPaddock dest) pa 8)

/-- What a GPEEK reads: the 8 bytes, and the held entries that it applies to them (R255, R322). -/
def peekReads (s : State) (src d g : Nat) (q : Place) : State × Option Flt :=
  match serveRead s src q 8 with
  | (s, some f) => (s, some f)
  | (s, none) =>
    match shedGroup s d g with
    | none => (s, none)
    | some v => v.held.foldl (fun a h =>
        match a with
        | (s, none) => checkHeld s d g h
        | r => r) (s, none)

/-- GPEEK's one access at its destination (R328, R343): packet k ends with the answer, or with the machine check of its task. -/
def peekAt (s : State) (k : Nat) (p : Pkt) (x xd : Nat) (q : Place) : State :=
  let d := destOfPlace q
  let s := touchShed (s.setPkt k none) d p.group
  checkedFor x (peekReads s (dieOfCtx x) d p.group q) (fun s => endLease s x xd 0)
    (fun s => reply s p x xd (peekValue s d p.group q.pa) none)

/-- A GPEEK that meets a migration's redirect is translated again at its source, unless that is frozen (R291, R310). -/
def redirectPeek (s : State) (k : Nat) (p : Pkt) (x xd va : Nat) (word : Word32) : State :=
  if s.stopped (dieOfCtx x) then s
  else
  match translateFor (dropTlb s (coreOf x) va) (coreOf x) (some (64 + k)) [] (BitVec.ofNat 64 va) 0 with
  | .ok q s => s.setPkt k (some { p with to_ := destOfPlace q / 33, kind := .peek x xd (some (destOfPlace q)) va q.pa word })
  | r => r.state (coreOf x)

/-- GPEEK at its destination; an address of package PKG is translated there (R289, R291, R343). -/
def performPeek (s : State) (k : Nat) (p : Pkt) (x xd : Nat) (dest : Option Nat) (va pa : Nat) (word : Word32) : State :=
  match dest with
  | some d =>
    let q := placeOfDest d pa
    match gate s q with
    | .hold => s
    | .redirect => redirectPeek s k p x xd va word
    | .go => peekAt s k p x xd q
  | none =>
    match translateDie s p.arrivalDie (BitVec.ofNat 64 va) 0 with
    | (.wait, s) => s
    | (.bad c _, s) =>
      let flt := (0x94, cmdDetail word 0xFF (c * 2 ^ 16 + p.to_ / 4), p.port, s.tickOf (dieOfCtx x))
      reply (s.setPkt k none) p x xd 0 (some flt)
    | (.ok q, s) => peekAt s k p x xd q

/-- A lease of a commit command moves on: at the originator, at GPEEK's destination, or back at the context (R337, R342 to R344). -/
def groupLeaseEnd (s : State) (k : Nat) : State :=
  match arrived s k with
  | none => s
  | some p =>
    match p.kind with
    | .command fn x xd arg dest va pa word =>
      if (fn = 0 && !released s x k) || s.stopped p.to_ then s else performCommand (s.setPkt k none) k p fn x xd arg dest va pa word
    | .peek x xd dest va pa word => performPeek s k p x xd dest va pa word
    | .answer x xd v flt =>
      if s.stopped (dieOfCtx x) then s
      else
      let s := endLease (s.setPkt k none) x xd v
      match flt with
      | some (code, detail, unit, t) => postRec s x (mkRecAt s x false ⟨code, 0, 0, detail, unit⟩ t)
      | none => s
    | _ => s

/-- R72, R258, R269, R337: LEASE_END of request or command r. -/
def execLeaseEnd (r : Nat) (s : State) : Out :=
  .next (if (s.pkt r).isSome then groupLeaseEnd s r
    else if (s.req r).any (fun q => s.stopped (dieOfCtx q.x)) then s else reqLeaseEnd s r)

/-! ## Enlisting -/

/-- The originator acts on the messages of one source in the order they arrive (R346): no earlier one of the group is left. -/
def sourceFirst (s : State) (k g src : Nat) : Bool :=
  (Tab.members s.pkts).all (fun p => !(p.1 < k && p.2.group = g && match p.2.kind with
    | .enlist c => c = src
    | .srcAbort c _ => c = src
    | .seal c _ _ _ (some _) => c = src
    | _ => false))

/-- R320, R329: ENLIST_REQUEST k. -/
def execEnlistRequest (k : Nat) (s : State) : Out :=
  match arrivedAt s k with
  | none => .next s
  | some p =>
    match p.kind with
    | .enlist src =>
      if !sourceFirst s k p.group src then .next s
      else
        let g := p.group
        let v := slotOf s g
        let ok := current s g && v.state = 1 && v.enlisted.length < v.nsrc
        let s := s.setPkt k none
        let s := if ok then setSlot s g { v with enlisted := src :: v.enlisted }
          else if current s g && v.nsrc ≤ v.enlisted.length then abortGroup s g 3
          else s
        .next (sendPkt s g p.to_ p.from_ (.enlistAns src ok))
    | _ => .next s

/-- A tagged store of core c that the refusal of its source entry discards (R320): packet number, frame, stream entry. -/
def refusedPkt (g c first : Nat) (q : Nat × Pkt) : Option (Nat × Nat × Option Nat) :=
  if q.2.group = g ∧ first ≤ q.1 then
    match q.2.kind with
    | .store h frame ent _ _ => if h.key = c then some (q.1, frame, ent) else none
    | _ => none
  else none

/-- Stream forms of core c with stores that such a refusal discards before they are sent: frame and entry. -/
def refusedEnts (s : State) (c g : Nat) : List (Nat × Option Nat) :=
  ((entries s c).filter (fun e => e.2.sendsTo g && !e.2.void && e.2.resume < e.2.count)).map
    (fun e => ((s.ctx (c * 4 + e.2.ctx)).frame.toNat, some e.1))

/-- Fault 0xA3 for a discarded store of context x: DETAIL holds the group number, or follows R129, where the value is not stated and is
free (R345). -/
def refuseCtx (s : State) (c g x : Nat) (ent : Option Nat) : State :=
  match ent.bind (s.entry c) with
  | none => postRec s x (mkRec s x false (grpFault 0xA3 g))
  | some e => postRec s.nextFree x (mkRec s x false (Flt.mk0 0xA3 (cmdDetail e.word (ent.getD 0) s.freeVal.toNat)))

/-- A refused source entry (R320): the stores held for it are discarded and complete, and each context that issued one has fault 0xA3,
for the first of its own. -/
def refuseSrc (s : State) (c n g : Nat) (v : Src) : State :=
  let ps := (Tab.members s.pkts).filterMap (refusedPkt g c v.first)
  let all := ps.map (fun q => q.2) ++ refusedEnts s c g
  let s := ps.foldl (fun s q => completeOf (s.setPkt q.1 none) c q.2.1 q.2.2) (freeSrcAt s c n g)
  ((all.map (fun r => r.1)).eraseDups.filterMap (fun f => (ctxOfFrame s c f).map (fun x => (f, x)))).foldl (fun s r =>
    refuseCtx s c g r.2 ((all.find? (fun q => q.1 = r.1)).bind (fun q => q.2))) s

/-- R320, R345: ENLIST_ANSWER k. -/
def execEnlistAnswer (k : Nat) (s : State) : Out :=
  match arrivedAt s k with
  | none => .next s
  | some p =>
    match p.kind with
    | .enlistAns c ok =>
      let g := p.group
      let s := s.setPkt k none
      match srcAt s c g with
      | none => .next s
      | some (n, v) =>
        .next (if ok then setSrc s c n (some { v with enlist := .ok }) else refuseSrc s c n g v)
    | _ => .next s

/-! ## Tagged stores -/

/-- A tagged store may leave its core: the enlist request has been accepted, or the entry was freed by a decision (R320). -/
def mayLeave (s : State) (c g : Nat) : Bool :=
  match srcAt s c g with
  | some (_, v) => v.enlist = .ok
  | none => true

/-- The destination refuses a store: an answer in place of the acknowledgement (R322, R331). -/
def refuseStore (s : State) (k : Nat) (p : Pkt) (h : Held) (frame : Nat) (ent : Option Nat) (die why : Nat) : State :=
  sendPkt (s.setPkt k none) p.group die (dieOf h.key) (.refuse h.key frame ent why)

/-- The destination admits a store: one to an aborted group is discarded; without room it is refused (R322, R328, R339). -/
def admitStore (s : State) (k : Nat) (p : Pkt) (h : Held) (frame : Nat) (ent : Option Nat) (d : Nat) : State :=
  let g := p.group
  let s := touchShed s d g
  let ack := fun (s : State) => sendPkt (s.setPkt k none) g (d / 33) (dieOf h.key) (.ack h.key frame ent d)
  if grpState s g = 5 then ack s
  else if hasRoom s d g h then ack (holdEntry s d g h)
  else refuseStore s k p h frame ent (d / 33) 2

/-- A store that meets a migration's redirect is translated again at its source, unless that is frozen (R291, R310). -/
def redirectStore (s : State) (k : Nat) (p : Pkt) (h : Held) (frame : Nat) (ent : Option Nat) (va kind : Nat) : State :=
  if s.stopped (dieOf h.key) then s
  else
  match translateFor (dropTlb s h.key va) h.key (some (64 + k)) [] (BitVec.ofNat 64 va) kind with
  | .ok q s => s.setPkt k (some { p with kind := .store { h with pa := q.pa } frame ent (some (destOfPlace q)) va })
  | r => r.state h.key

/-- The access kind of a tagged store (R287). -/
def taggedKind (h : Held) (ent : Option Nat) : Nat := if h.kind ≠ 0 then 2 else if ent.isSome then 6 else 1

/-- R322, R331, R334: SHED_ADMIT of packet k. -/
def execShedAdmit (k : Nat) (s : State) : Out :=
  match arrived s k with
  | none => .next s
  | some p =>
    match p.kind with
    | .store h frame ent dest va =>
      if !mayLeave s h.key p.group then .next s
      else
        match dest with
        | some d =>
          let q := placeOfDest d h.pa
          .next (match gate s q with
            | .hold => s
            | .redirect => redirectStore s k p h frame ent va (taggedKind h ent)
            | .go => admitStore (if isPaddock d then s else hotTouch s (dieOf h.key) (d / 33) h.pa) k p h frame ent d)
        | none =>
          let die := p.arrivalDie
          .next (match translateDie s die (BitVec.ofNat 64 va) (taggedKind h ent) with
            | (.wait, s) => s
            | (.bad _ _, s) => refuseStore s k p h frame ent die 6
            | (.ok q, s) =>
              if q.pl = 2 ∧ h.kind ≠ 0 then refuseStore s k p h frame ent die 6
              else admitStore (countHome s (dieOf h.key) q) k p { h with pa := q.pa } frame ent (destOfPlace q))
    | _ => .next s

/-- R323: STORE_ACK of packet k. -/
def execStoreAck (k : Nat) (s : State) : Out :=
  match arrivedAt s k with
  | none => .next s
  | some p =>
    match p.kind with
    | .ack c frame ent d =>
      let s := completeOf (s.setPkt k none) c frame ent
      .next (match srcAt s c p.group with
        | some (n, v) => setSrc s c n (some { v with dests := if v.dests.contains d then v.dests else v.dests ++ [d] })
        | none => s)
    | _ => .next s

/-- R322, R323, R346: STORE_REFUSAL of packet k: the store is complete, and the abort goes to the originator. -/
def execStoreRefusal (k : Nat) (s : State) : Out :=
  match arrivedAt s k with
  | none => .next s
  | some p =>
    match p.kind with
    | .refuse c frame ent why => .next (sendPkt (completeOf (s.setPkt k none) c frame ent) p.group (dieOf c) (grpDie p.group) (.srcAbort c why))
    | _ => .next s

/-- R346, R329: SOURCE_ABORT_REPORT of packet k. -/
def execSourceAbortReport (k : Nat) (s : State) : Out :=
  match arrivedAt s k with
  | none => .next s
  | some p =>
    match p.kind with
    | .srcAbort c why => .next (if sourceFirst s k p.group c then abortGroup (s.setPkt k none) p.group why else s)
    | _ => .next s

/-! ## Seals -/

/-- The seal leaves its core once every tagged store of the core is complete and the release holds (R341). It leaves too where the core has
no source entry any more (log 65). -/
def sendSeal (s : State) (k : Nat) (p : Pkt) (c exp x xd : Nat) : State :=
  if !mayLeave s c p.group || taggedOut s c p.group || !released s x k || s.stopped (dieOf c) then s
  else
    let s := s.setPkt k none
    let go := fun (s : State) (n : Nat) (ds : List Nat) => sendPkt s p.group p.from_ p.to_ (.seal c exp x xd (some (n, ds)))
    match srcAt s c p.group with
    | some (n, v) => go (setSrc s c n (some { v with sealed := true })) v.next v.dests
    | none => go s 0 []

/-- The seal at the originator (R329, R341): a set beyond 8 packages or a count that EXP contradicts aborts the group. -/
def takeSeal (s : State) (g src exp count : Nat) (ds : List Nat) : State :=
  let v := slotOf s g
  if !(current s g && v.state = 1 && v.enlisted.contains src && !v.sealed.contains src) then s
  else
    let v := { v with dests := v.dests ++ ds.filter (fun d => !v.dests.contains d) }
    if 8 < (destPkgs v.dests).length then abortGroup (setSlot s g v) g 7
    else if exp ≠ 0 ∧ exp ≠ count then abortGroup (setSlot s g v) g 3
    else
      let v := { v with sealed := src :: v.sealed }
      setSlot s g { v with state := if v.sealed.length = v.nsrc then 2 else 1 }

/-- R341, R346: SEAL_REPORT of packet k. -/
def execSealReport (k : Nat) (s : State) : Out :=
  match s.pkt k with
  | none => .next s
  | some p =>
    match p.kind with
    | .seal c exp x xd none => .next (sendSeal s k p c exp x xd)
    | .seal c exp x xd (some (n, ds)) =>
      if !arrives s p || s.stopped p.to_ || !sourceFirst s k p.group c then .next s
      else
        let s := takeSeal (s.setPkt k none) p.group c exp n ds
        .next (reply s p x xd (stateWord s p.group) none)
    | _ => .next s

/-! ## Decisions -/

/-- R325, R334: GROUP_APPLY of packet k. -/
def execGroupApply (k : Nat) (s : State) : Out :=
  match arrived s k with
  | none => .next s
  | some p =>
    match p.kind with
    | .apply d => .next (applyAt (s.setPkt k none) d p.group)
    | _ => .next s

/-- R318: APPLY_ACK of packet k. -/
def execApplyAck (k : Nat) (s : State) : Out :=
  match arrivedAt s k with
  | none => .next s
  | some p =>
    match p.kind with
    | .applyAck d => .next (ackSlot (s.setPkt k none) p.group 3 d)
    | _ => .next s

/-- R327: GROUP_DISCARD of packet k. -/
def execGroupDiscard (k : Nat) (s : State) : Out :=
  match arrived s k with
  | none => .next s
  | some p =>
    match p.kind with
    | .abort d why => .next (discardAt (s.setPkt k none) d p.group why)
    | _ => .next s

/-- R318: DISCARD_ACK of packet k. -/
def execDiscardAck (k : Nat) (s : State) : Out :=
  match arrivedAt s k with
  | none => .next s
  | some p =>
    match p.kind with
    | .discardAck d => .next (ackSlot (s.setPkt k none) p.group 5 d)
    | _ => .next s

/-- R320: DECISION_AT_SOURCE of packet k. -/
def execDecisionAtSource (k : Nat) (s : State) : Out :=
  match arrivedAt s k with
  | none => .next s
  | some p =>
    match p.kind with
    | .decision c => .next (dropSrc (s.setPkt k none) c p.group)
    | _ => .next s

/-! ## Leases and queries -/

/-- CELEASE of a die in cycles (R332). -/
def celease (s : State) (d : Nat) : Nat := max 16 (fldN (s.die d).celease 0 32) * 1024

/-- R328: LEASE_QUERY of destination h for a group, an orphan among them. -/
def execLeaseQuery (h : Nat) (grp : BitVec 32) (s : State) : Out :=
  let g := grp.toNat
  match shedGroup s h g with
  | none => .next s
  | some v =>
    if elapsed s (h / 132) v.timer < celease s (h / 33) then .next s
    else
      let s := modShed s h g (fun v => { v with timer := timerNow s (h / 132), query := true })
      .next (sendPkt s g (h / 33) (grpDie g) (.query h))

/-- The originator's answer: 0 PENDING, 1 COMMIT, 2 ABORT, 3 UNKNOWN, with WHY (R328). -/
def queryState (s : State) (g : Nat) : Nat × Nat :=
  match grpState s g with
  | 3 => (1, 0)
  | 4 => (1, 0)
  | 5 => (2, if current s g then (slotOf s g).why else 0)
  | 0 => (3, 0)
  | _ => (0, 0)

/-- A destination's act on an answer (R328). -/
def actOnAnswer (s : State) (d g ans why : Nat) : State :=
  match ans with
  | 1 => applyAt s d g
  | 2 => discardAt s d g why
  | 3 => modShed s d g (fun v => { v with orphan := true })
  | _ => s

/-- R328: QUERY_ANSWER of packet k: at the originator, then at the destination. -/
def execQueryAnswer (k : Nat) (s : State) : Out :=
  match arrived s k with
  | none => .next s
  | some p =>
    match p.kind with
    | .query d =>
      .next (if s.stopped p.to_ then s
        else sendPkt (s.setPkt k none) p.group p.to_ p.from_ (.queryAns d (queryState s p.group).1 (queryState s p.group).2))
    | .queryAns d ans why =>
      let s := s.setPkt k none
      match shedGroup s d p.group with
      | none => .next s
      | some _ =>
        .next (actOnAnswer (modShed s d p.group (fun v => { v with query := false, timer := timerNow s (d / 132) })) d p.group ans why)
    | _ => .next s

/-! ## Deadlines and notices -/

/-- Cycles of a slot's deadline that are left (R330). -/
def deadlineLeft (s : State) (p : Nat) (v : GSlot) : Option Nat :=
  v.deadline.map (fun n => match v.resumed with
    | some t => n - elapsed s p t
    | none => n)

/-- R330: DEADLINE_EXPIRY of a slot of core c. -/
def execDeadlineExpiry (c slot : Nat) (s : State) : Out :=
  let v := Tab.get GSlot.reset (s.core c).slots slot
  .next (if deadlineLeft s (pkgOf c) v = some 0 ∧ s.stopped (dieOf c) = false then abortGroup s (grpOf c slot v.gen) 5 else s)

/-- A notice acts on a slot whose committer is the task (R330). -/
def noticeSlot (s : State) (c slot ev : Nat) (v : GSlot) : State :=
  let g := grpOf c slot v.gen
  let p := pkgOf c
  match ev with
  | 0 => setSlot s g { v with deadline := deadlineLeft s p v, resumed := none }
  | 1 => setSlot s g { v with resumed := some (v.resumed.getD (timerNow s p)) }
  | _ => abortGroup s g 4

/-- R330: PLACEMENT_NOTICE of packet k, in the order in which the notices of a task were sent. -/
def execPlacementNotice (k : Nat) (s : State) : Out :=
  match arrivedAt s k with
  | none => .next s
  | some p =>
    match p.kind with
    | .notice ev fb =>
      let earlier := (Tab.members s.pkts).any (fun q => q.1 < k && q.2.to_ = p.to_ && match q.2.kind with
        | .notice _ f => f = fb
        | _ => false)
      if earlier then .next s
      else
        let cs := s.cores.filter (fun c => dieOf c.1 = p.to_)
        .next (cs.foldl (fun s c =>
          (c.2.slots.filter (fun v => v.2.comPkg = p.from_ / 4 && v.2.comFb = fb && (v.2.state = 1 || v.2.state = 2))).foldl
            (fun s v => noticeSlot s c.1 v.1 ev v.2) s) (s.setPkt k none))
    | _ => .next s

/-! ## Orphans -/

/-- The groups that the destinations of package p hold for an originator on package q become orphans (R332). -/
def orphanAll (s : State) (p q : Nat) : State :=
  { s with sheds := s.sheds.map (fun t =>
    if t.1 / 132 = p then (t.1, t.2.map (fun g => if g.group / 2 ^ 22 = q then { g with orphan := true } else g)) else t) }

/-- Packages that are linked with package q (R304, R332). -/
def linkedWith (s : State) (q : Nat) : List Nat :=
  (List.range 1024).filter (fun p => p ≠ q && (List.range 4).any (fun i => bit (ilvOf s (q * 4 + i) p) 63))

/-- The service processor of package q, which is reset, sends its notice to every linked package (R332). -/
def sendResetNotices (s : State) (q : Nat) : State :=
  (linkedWith s q).foldl (fun s p => s.modPkg p (fun k => { k with notices := k.notices ++ [q] })) s

/-- R332: RESET_NOTICE from package q arrives at package p. -/
def execResetNotice (p q : Nat) (s : State) : Out :=
  .next (if (s.pkg p).notices.contains q then
    orphanAll (s.modPkg p (fun k => { k with notices := k.notices.erase q })) p q
  else s)

/-- The destinations of die d that hold a group as an orphan (R332). -/
def orphanHolds (s : State) (d g : Nat) : List Nat :=
  (s.sheds.filter (fun t => t.1 / 33 = d && t.2.any (fun v => v.group = g && v.orphan))).map (fun t => t.1)

/-- SHFORCE applies or discards a group on die d (R332). -/
def forceApply (s : State) (d g : Nat) : State := (orphanHolds s d g).foldl (fun s h => applyAt s h g) s
def forceDiscard (s : State) (d g : Nat) : State := (orphanHolds s d g).foldl (fun s h => discardAt s h g 0) s

/-- R332. -/
def execShforceApply (d : Nat) (grp : BitVec 32) (s : State) : Out := .next (hostWrite s d (fun s => forceApply s d grp.toNat))
/-- R332. -/
def execShforceDiscard (d : Nat) (grp : BitVec 32) (s : State) : Out := .next (hostWrite s d (fun s => forceDiscard s d grp.toNat))

/-! ## Routes -/

/-- R392: HELD_PACKET_REROUTE of packet k, which cannot be delivered: it is routed again; without a route, or after eight
redirects, it is held. -/
def execHeldPacketReroute (k : Nat) (s : State) : Out :=
  match s.pkt k with
  | none => .next s
  | some p =>
    if arrives s p then .next s
    else
      let n := if p.held then 0 else p.redirects + 1
      match packetPort s p.from_ (p.to_ / 4) (p.group * 2 ^ 12) with
      | none => .next (s.setPkt k (some { p with held := true, redirects := n }))
      | some port => .next (s.setPkt k (some { p with port := port, gen := genOf s (p.from_ / 4), held := 8 ≤ n, redirects := n }))

/-! ## The paddock -/

/-- The number of entries of the completion ring (R335). -/
def ringSize (v : Word) : Nat := if 6 ≤ fldN v 0 5 ∧ fldN v 0 5 ≤ 20 then 2 ^ fldN v 0 5 else 64

/-- The completion ring is full (R335). -/
def ringFull (k : Pkg) : Bool := bit k.padcq 63 && (fldN k.padcqp 0 32 + 1) % ringSize k.padcq = fldN k.padcqp 32 32

/-- One completion entry is written to host memory, and vector 4 is raised (R335, R382). -/
def writeCompletion (s : State) (p g st why n : Nat) : State :=
  let k := s.pkg p
  if !bit k.padcq 63 then s
  else
    let tail := fldN k.padcqp 0 32
    let next := (tail + 1) % ringSize k.padcq
    let bs := leBytes 8 (n * 2 ^ 32 + g) ++ leBytes 8 (b2n k.padPhase * 2 ^ 63 + st * 2 ^ 60 + why * 2 ^ 56)
    let s := s.writePhys p true (fldN k.padcq 12 40 * 2 ^ 12 + 16 * tail) bs
    raiseVector (s.modPkg p (fun k => { k with
      padcqp := BitVec.ofNat 64 (fldN k.padcqp 32 32 * 2 ^ 32 + next), padPhase := if next = 0 then !k.padPhase else k.padPhase })) p 4

/-- R334, R335: PADDOCK_APPLY of package p: the next decided group. -/
def execPaddockApply (p : Nat) (s : State) : Out :=
  match (s.pkg p).padq with
  | [] => .next s
  | (g, st, why) :: rest =>
    if ringFull (s.pkg p) then .next s
    else
      let d := p * 132 + 32
      let n := match shedGroup s d g with
        | some v => if st = 4 then (v.held.map (fun h => h.data.length)).foldl (· + ·) 0 else 0
        | none => 0
      let s := s.modPkg p (fun k => { k with padq := rest })
      let s := if st = 4 then performGroup s d g else s
      let s := writeCompletion (dropGroup s d g) p g st why n
      .next (sendPkt s g (p * 4) (grpDie g) (if st = 4 then .applyAck d else .discardAck d))

/-- The host writes PADCQP.HEAD (R335). -/
def padcqpSet (s : State) (p head : Nat) : State :=
  s.modPkg p (fun k => { k with padcqp := BitVec.ofNat 64 (head * 2 ^ 32 + fldN k.padcqp 0 32) })

/-- R335: PADCQP_HEAD_WRITE on package p. -/
def execPadcqpHeadWrite (p : Nat) (v : BitVec 32) (s : State) : Out := .next (hostWrite s (p * 4) (fun s => padcqpSet s p v.toNat))

end Sys2Proof.Machine
end

