-- ==== Sys2Proof/Machine/LinkEvents.lean ====
section
/-! DEFINITION. Events of the package links and of the debugger hold (R306 to R308, R310). -/

namespace Sys2Proof.Machine

/-- R306: SWAP makes the other bank current; while the old generation is still accepted it sets ERR and does nothing. -/
def itSwap (s : State) (p : Nat) : State :=
  let v := (s.pkg p).itctl
  if itOv s p then s.modPkg p (fun k => { k with itctl := setBit v 62 true })
  else
    let gen := genOf s p
    s.modPkg p (fun k => { k with
      itctl := BitVec.ofNat 64 (b2n (bit v 62) * 2 ^ 62 + 2 ^ 52 + gen * 2 ^ 48 + (gen + 1) % 16 * 2 ^ 44) })

/-- R304, R306. -/
def execItctlSwap (p : Nat) (s : State) : Out := .next (hostWrite s (p * 4) (fun s => itSwap s p))

/-- ITCTL as it reads (R304). -/
def itctlRead (s : State) (p : Nat) : Word :=
  let v := (s.pkg p).itctl
  if itOv s p then (v ||| BitVec.ofNat 64 (min (drainOf s p) 0xFFFFFFFF)) else setBit v 52 false

/-- The SM4 key of a port and direction, by port * 2 + direction (R307). -/
def keyOf (s : State) (p port dir : Nat) : Option (BitVec 128) := Tab.get none (s.die (p * 4 + port / 4)).keys (port % 4 * 2 + dir)

/-- A port has the keys that its modes need (R307). -/
def keysPresent (s : State) (p port : Nat) : Bool :=
  fldN (lpcfgOf s p port) 0 8 = 0 || ((keyOf s p port 0).isSome && (keyOf s p port 1).isSome)

/-- R307: PORT_TRAINING_ATTEMPT: an attempt of a port that is down and not disabled ends, agreed (why 0) or with a reason. -/
def execPortTrainingAttempt (p port why : Nat) (s : State) : Out :=
  let v := lpcfgOf s p port
  if bit v 63 || bit v 8 then .next s
  else if why % 8 ≠ 0 then .next (setLpcfg s p port (setWhy v why))
  else if keysPresent s p port then .next (setLpcfg s p port (setBit v 63 true))
  else .next (setLpcfg s p port (setWhy v 3))

/-- A mode field of LPCFG after a write: 3 leaves it unchanged (R307). -/
def modeWrite (old new : Word) (i : Nat) : Nat := if fldN new (2 * i) 2 = 3 then fldN old (2 * i) 2 else fldN new (2 * i) 2

/-- R307: a write of LPCFG of port q of die d. -/
def lpcfgSet (s : State) (d q : Nat) (v : Word) : State :=
  let p := pkgOfDie d
  let port := d % 4 * 4 + q % 4
  let old := lpcfgOf s p port
  let modes := if bit old 63 then fldN old 0 8
    else ((List.range 4).map (fun i => modeWrite old v i * 4 ^ i)).foldl (· + ·) 0
  let new : Word := (old &&& ~~~(0x1FF : Word)) ||| BitVec.ofNat 64 (b2n (bit v 8) * 2 ^ 8 + modes)
  if bit v 8 && !bit old 8 then portDown (setLpcfg s p port new) p port 5 else setLpcfg s p port new

/-- R307. -/
def execLpcfgWrite (d q : Nat) (v : BitVec 64) (s : State) : Out := .next (hostWrite s d (fun s => lpcfgSet s d q v))

/-- R308: GROUP_TAG_FAILURE of a flit group on a port: at the third failed request of one group the port goes down with WHY 2
(log 14). -/
def execGroupTagFailure (p : Nat) (port : FlitGroup) (s : State) : Out :=
  if !portUp s p port.port || fldN (lpcfgOf s p port.port) 0 8 = 0 then .next s
  else
    let d := p * 4 + port.port / 4
    let key := port.grp * 4 + port.port % 4
    let n := Tab.get 0 (s.die d).tagFails key + 1
    .next (if n = 3 then portDown s p port.port 2 else s.modDie d (fun v => { v with tagFails := Tab.set 0 v.tagFails key n }))

/-- R307, R308: PORT_PEER_LOST. -/
def execPortPeerLost (p port : Nat) (s : State) : Out := .next (if portUp s p port then portDown s p port 4 else s)

/-- The 16 cycles of a YIELD count only those in which the core is not frozen (R108, R310). -/
def shiftYields (s : State) (d n : Nat) : State :=
  { s with ctxs := s.ctxs.map (fun p =>
      (p.1, if dieOfCtx p.1 = d then { p.2 with yield := p.2.yield.map (fun y => (y.1, y.2 + n)) } else p.2)) }

/-- HALT of a die changes: its cores freeze, or go on (R310). -/
def setHalt (s : State) (d : Nat) (b : Bool) : State :=
  let v := s.die d
  let t := s.cycles (pkgOfDie d)
  let s := s.modDie d (fun k => { k with halt := b, haltAt := if b && !v.halt then t else k.haltAt })
  if v.halt && !b then shiftYields s d (t - v.haltAt) else s

/-- R310: a write of DBGCTL of die d. -/
def haltSet (s : State) (d : Nat) (v : Word) : State := updateHold (setHalt s d (bit v 0)) (pkgOfDie d)

/-- R310. -/
def execDbgctlHalt (d : Nat) (v : BitVec 64) (s : State) : Out := .next (hostWrite s d (fun s => haltSet s d v))

/-- R310: LINKED_HOLD_REPORT from package q to package p. -/
def execLinkedHoldReport (p q : Nat) (held : Bool) (s : State) : Out :=
  .next (updateHold (s.modPkg p (fun k => { k with
    linkHold := if held then q :: k.linkHold.filter (· ≠ q) else k.linkHold.filter (· ≠ q) })) p)

end Sys2Proof.Machine
end

