-- ==== Sys2Proof/Machine/Migration.lean ====
section
/-! DEFINITION. Page migration (R290, R291). -/

namespace Sys2Proof.Machine

def modMig (s : State) (p : Nat) (f : Mig → Mig) : State := s.modPkg p (fun k => { k with mig := f k.mig })

/-- A command in a state that does not accept it sets ERR and is ignored (R290). -/
def migErr (s : State) (p : Nat) : State := modMig s p (fun m => { m with err := true })

/-- R291: COPY, from IDLE. -/
def migStart (s : State) (p old new : Nat) : State :=
  if (s.pkg p).mig.st = .idle then modMig s p (fun m => { m with st := .copying, old := old, new := new, copied := 0, marked := [] })
  else migErr s p

/-- R291: FINALISE, from COPIED. -/
def migFin (s : State) (p : Nat) : State :=
  if (s.pkg p).mig.st = .copied then modMig s p (fun m => { m with st := .finalising }) else migErr s p

/-- The migration is over; what waited for it at the hotness counters is done (R291, log 86). -/
def migEnd (s : State) (p : Nat) : State := runJobs (modMig s p (fun m => { m with st := .idle, marked := [] })) p

/-- R291: RELEASE, from MOVED. -/
def migRel (s : State) (p : Nat) : State := if (s.pkg p).mig.st = .moved then migEnd s p else migErr s p

/-- R291: CANCEL, from COPYING or COPIED. -/
def migCan (s : State) (p : Nat) : State :=
  let st := (s.pkg p).mig.st
  if st = .copying ∨ st = .copied then migEnd s p else migErr s p

/-- A write of MIGCMD (R290). -/
def migCommand (s : State) (p : Nat) (v : Word) : State :=
  match fldN v 62 2 with
  | 0 => migStart s p (fldN v 28 28) (fldN v 0 28)
  | 1 => migFin s p
  | 2 => migRel s p
  | _ => migCan s p

/-- R291. -/
def execMigCopy (p : Nat) (old new : BitVec 28) (s : State) : Out := .next (hostWrite s (p * 4) (fun s => migStart s p old.toNat new.toNat))
/-- R291. -/
def execMigFinalise (p : Nat) (s : State) : Out := .next (hostWrite s (p * 4) (fun s => migFin s p))
/-- R291. -/
def execMigRelease (p : Nat) (s : State) : Out := .next (hostWrite s (p * 4) (fun s => migRel s p))
/-- R291. -/
def execMigCancel (p : Nat) (s : State) : Out := .next (hostWrite s (p * 4) (fun s => migCan s p))

/-- Line n of a page of package p. MIGCMD names no placement: the homes of its pages are those of interleaved pages (log 73). -/
def linePlace (p page n : Nat) : Place := ⟨p, page * 2 ^ 16 + 64 * n, 0, 0, 0⟩

/-- One line is copied from its old home to its new one, which counts the request, unless a word of it is in error: the copy then stops
there (R271, R291, R385). -/
def copyLine (s : State) (p n : Nat) (k : State → State) : State :=
  let src := linePlace p (s.pkg p).mig.old n
  let dst := linePlace p (s.pkg p).mig.new n
  readDie (countHome s (homeDieOf src) dst) [(src, 64)] id (fun s => k (s.writePhys p false dst.pa (s.readBytes p false src.pa 64)))

/-- R291: MIGRATION_LINE_COPY: the next line in COPYING, a marked line in FINALISING once requests are held. -/
def execMigrationLineCopy (p : Nat) (s : State) : Out :=
  let m := (s.pkg p).mig
  if m.st = .copying then
    .next (copyLine s p m.copied (fun s =>
      modMig s p (fun m => { m with copied := m.copied + 1, st := if m.copied + 1 = 1024 then .copied else .copying })))
  else if m.st = .finalising ∧ shedHolds s p m.old = false then
    match m.marked with
    | [] => .next s
    | n :: _ => .next (copyLine s p n (fun s => modMig s p (fun m => { m with marked := m.marked.filter (· ≠ n) })))
  else .next s

/-- R291: MIGRATION_MOVED. What has waited for the new page at the hotness counters is done (log 86). -/
def execMigrationMoved (p : Nat) (s : State) : Out :=
  let m := (s.pkg p).mig
  .next (if m.st = .finalising ∧ shedHolds s p m.old = false ∧ m.marked = [] then
    runJobs (modMig s p (fun m => { m with st := .moved })) p else s)

/-- MIGSTS (R290). -/
def migStatus (m : Mig) : Word :=
  let st := match m.st with
    | .idle => 0
    | .copying => 1
    | .copied => 2
    | .finalising => 3
    | .moved => 4
  BitVec.ofNat 64 (b2n m.err * 2 ^ 63 + st * 2 ^ 56 + min m.marked.length 0xFFFF)

end Sys2Proof.Machine
end

