-- ==== Sys2Proof/Machine/Tasks.lean ====
section
/-! DEFINITION. Placement, end, save and restore of tasks (R80 to R83, R106, R144 to R146, R170, R245, R285, R330, R333, R342,
R360, R371 to R376). -/

namespace Sys2Proof.Machine

/-! ## Placement -/

/-- A window as the launch binds it (R53, R360). -/
def windowOf (r : Run) (b : Word × Word) (wid : Nat) : Quad :=
  let base := r.args + fldN b.1 0 32 + fldN b.2 0 32 * (widFields r.l.widths wid).getD (fldN b.2 32 3) 0
  BitVec.ofNat 128 ((2 ^ 32 + fldN b.1 32 32) * 2 ^ 64 + base % 2 ^ 55)

/-- The windows of an instance: one binding for each set bit of WMASK, ascending (R360). -/
def windowsOf (r : Run) (n wid : Nat) : Tab Quad :=
  let ws := (List.range 8).filter (fun i => bit (nWmask r.l n) i)
  (List.range ws.length).foldl (fun t i =>
    Tab.set 0 t (ws.getD i 0) (windowOf r (r.l.binds.getD (nBfirst r.l n + i) (0, 0)) wid)) []

/-- The context of a task that is placed (R51 to R57, R371). -/
def newCtx (r : Run) (run n wid blk start order : Nat) : Ctx :=
  let frame := r.fpool + 2 ^ 17 * blk
  { Ctx.reset with
    x := Tab.set 0 [] 31 exitVa, w := windowsOf r n wid, pc := (r.l.pkgva + r.l.codeoff + nEntry r.l n) % 2 ^ 55,
    wid := BitVec.ofNat 64 wid, frame := BitVec.ofNat 64 (frame % 2 ^ 55),
    task := some { run := run, node := n, wid := BitVec.ofNat 64 wid, ph := r.ph, load := r.l.id, prio := r.prio, blk := blk, acc := nAcc r.l n,
                   zeroed := false, start := start, since := order, pops := [] } }

/-- FHDR and NENT of a new frame (R81, R371); no double-fault record, and zero to the frame's end (R80). The fault record keeps what the
block held (log 77). -/
def clearFrame (s : State) (d frame : Nat) : Acc Unit × State :=
  accBind (writeRange s d frame (leBytes 8 (2 ^ 56))) (fun _ s =>
  accBind (writeRange s d (frame + 0x3D0) (List.replicate 48 0)) (fun _ s =>
    writeRange s d (frame + 0x400) (leBytes 8 0)))

/-- R371: TASK_PLACEMENT of an instance on context x with frame block blk. -/
def execTaskPlacement (p run node : Nat) (wid : BitVec 64) (x blk : Nat) (s : State) : Out :=
  match runOf s p run with
  | none => .next s
  | some r =>
    let w := wid.toNat
    let c := coreOf x
    let ok := nType r.l node = 0 && r.ready node w && pkgOfCtx x = p && idle s x && affinity r node w c && blk < r.nfpool &&
      !r.blocks.contains blk && firstWant s p ⟨3 - r.prio, r.order, node, w⟩
    if !ok then .next s
    else
      match clearFrame s (dieOfCtx x) (r.fpool + 2 ^ 17 * blk) with
      | (.wait, s) => .next s
      | (.bad _ a, s) => .next (failAccess s p run (dieOfCtx x) node a)
      | (.ok _, s) =>
        let k := (s.pkg p).order
        let s := (s.setCtx x (newCtx r run node w blk (s.cycles p) k)).modPkg p (fun v => { v with order := k + 1 })
        let s := modRun s p run (fun r => { (r.modNode node (fun v => { v with live := w :: v.live, homes := v.homes ++ [(w, c)] })) with
          blocks := blk :: r.blocks })
        .next (acquire s c 4)

/-- The kernel save area of a task's frame block is zeroed, page by page; a page that cannot be written fails the graph (R369 to R371, log
12). -/
def fillArea (s : State) (x : Nat) (t : Task) : State :=
  let d := dieOfCtx x
  let base := saveBase (s.ctx x).frame.toNat
  (pageCuts base 65536).foldl (fun s c =>
    match writeRange s d (base + c.1) (List.replicate c.2 0) with
    | (.bad _ a, s) => failAccess s (pkgOfCtx x) t.run d t.node a
    | (_, s) => s) s

/-- The zero fill is complete (R371). -/
def finishFill (s : State) (x : Nat) (t : Task) : State :=
  if t.zeroed then s else (fillArea s x t).modCtx x (fun c => { c with task := some { t with zeroed := true } })

/-- R170, R371: SAVE_AREA_FILL_DONE of context x. -/
def execSaveAreaFillDone (x : Nat) (s : State) : Out :=
  match (s.ctx x).task with
  | none => .next s
  | some t => .next (if areaWaits s (coreOf x) (s.ctx x).frame.toNat then s else finishFill s x t)

/-! ## End -/

/-- Loads have landed, leases and answers have ended, and nothing of the context is under way but its scoreboard entries (R82,
R372). -/
def quiet (s : State) (x : Nat) : Bool :=
  let c := s.ctx x
  c.await = 0 && c.lease = 0 && c.out0 = 0 && (outstanding s x).isEmpty && c.wins.isEmpty && c.allocs.isEmpty && c.syncts.isEmpty

/-- Entries of a context that a condition selects are dropped (R372). -/
def dropEntries (s : State) (x : Nat) (f : Entry → Bool) : State :=
  let c := coreOf x
  wakeEntries (((entriesOf s x).filter (fun p => f p.2)).foldl (fun s p => s.setEntry c p.1 none) s) c

/-- The stalls whose handle has V = 1 are freed (R372). -/
def freeStalls (s : State) (x : Nat) : State :=
  let bases := (((s.ctx x).h.map (fun p => p.2)).filter hV).map hBase
  s.modCore (coreOf x) (fun k => { k with stalls := k.stalls.filter (fun t => !bases.contains t.base) })

/-- The instance of a task is complete, or failed with a record, and its frame block returns to the pool (R372, R374). -/
def endInstance (s : State) (p : Nat) (t : Task) (f : Option Rec) : State :=
  modRun s p t.run (fun r =>
    let w := t.wid.toNat
    let r := { (r.modNode t.node (fun v => { v with done := w :: v.done, live := v.live.filter (· ≠ w) })) with
      blocks := r.blocks.filter (· ≠ t.blk), tasks := r.tasks + 1,
      failed := match r.failed, f with
        | some a, _ => some a
        | none, b => b }
    r.settleSkips)

/-- Steps 3, 4 and 6 of R372: stalls, tiles and frame block; no source entry keeps the frame, and the context is idle. -/
def leaveCtx (s : State) (x : Nat) (t : Task) (f : Option Rec) : State :=
  let frame := (s.ctx x).frame.toNat
  let s := forgetFrame (dropTiles (freeStalls s x) (coreOf x) frame false) (coreOf x) frame
  (dropMiss (endInstance s (pkgOfCtx x) t f) (coreOf x) (x % 4)).setCtx x Ctx.reset

/-- A killed task: its stores abort unsealed groups, and its end is told (R329, R330, R333, R372). -/
def endKilled (s : State) (x : Nat) (t : Task) (f : Rec) : State :=
  leaveCtx (sendNotice (abortSources s x) x 2) x t (some f)

/-- The wait at EXITVA is over: a pending record is delivered at the branch bundle, once its frame can be written, else the task ends
(R372). -/
def endNormal (s : State) (x : Nat) (t : Task) (is : Issue) : State :=
  match (s.ctx x).pend with
  | some r =>
    if frameWaits s x then s
    else deliver (s.modCtx x (fun c => { c with pend := none })) x r (some { is with exit := false }) is.addr is.addr
  | none => leaveCtx s x t none

/-- R372: TASK_END of context x. -/
def execTaskEnd (x : Nat) (s : State) : Out :=
  if s.stopped (dieOfCtx x) then .next s
  else
  match (s.ctx x).task, (s.ctx x).kill, (s.ctx x).issue with
  | some t, some f, _ =>
    let s := dropEntries s x (fun e => e.st ≠ .started)
    .next (if quiet s x && (entriesOf s x).isEmpty then endKilled s x t f else s)
  | some t, none, some is =>
    if !is.exit then .next s
    else
      let s := dropEntries s x (fun e => isSrecv e.word && e.st ≠ .started && !pushWaiting s (coreOf x) e)
      .next (if quiet s x && (entriesOf s x).isEmpty then endNormal s x t is else s)
  | _, _, _ => .next s

/-! ## The frame -/

/-- The values that a slot reads at issue are kept under these numbers, ascending: x registers, and 32 and above handles (R75). -/
def capKeys (i : Nat) (w : Word32) : List Nat :=
  (List.range 32).filter (fun n => (xReads w).contains n) ++
    (if i = 2 then ((List.range 32).filter (fun n => (hReads w).contains n)).map (32 + ·) else [])

/-- The captured values of a slot in the frame (R75, R106). -/
def capVals (is : Issue) (i : Nat) : List Nat :=
  if !bit is.occ i || bit is.perf i then []
  else
    let w := is.words.getD i 0
    match i, is.bar with
    | 2, .arrived gen => [(is.rx 2 (fldN w 12 5)).toNat, gen, 1]
    | _, _ => (capKeys i w).map (fun n => if n = 0 then 0 else (Tab.get (0 : Word) (is.cap.getD i []) n).toNat)

/-- n values of 8 bytes. -/
def valBytes (n : Nat) (vs : List Nat) : List Byte := (List.range n).flatMap (fun i => leBytes 8 (vs.getD i 0))

/-- The frame from offset 8 to 0x390 (R80). -/
def frameBytes (c : Ctx) (rb : Option Issue) : List Byte :=
  let is := rb.getD { addr := 0, words := [], occ := 0, perf := 0, cap := [], g := 0, re := false, taken := none, bar := .none,
                      sync := false, gwait := false, exit := false, tick := 0, lease := 0, ld := none }
  let cs := cstatOf { c with rb := rb }
  leBytes 8 (c.pc % 2 ^ 55) ++ leBytes 8 (c.g ||| 1).toNat ++ leBytes 8 0 ++
  (List.range 32).flatMap (fun n => leBytes 8 (c.rx n).toNat) ++ (List.range 32).flatMap (fun n => leBytes 8 (c.rh n).toNat) ++
  (List.range 8).flatMap (fun n => leBytes 16 (Tab.get (0 : Quad) c.w n).toNat) ++
  valBytes 8 [c.tvec.toNat, c.epc.toNat, cs.toNat, c.ldpstk.toNat, c.gixstk.toNat, c.wid.toNat] ++
  leBytes 8 (b2n rb.isSome * 2 ^ 8 + is.occ.toNat * 16 + is.perf.toNat) ++
  (List.range 4).flatMap (fun i => leBytes 4 (is.words.getD i 0).toNat) ++
  valBytes 3 (capVals is 0) ++ valBytes 3 (capVals is 1) ++ valBytes 3 (capVals is 2) ++ valBytes 9 (capVals is 3) ++ leBytes 8 0

/-- The entry stands for an operation that was stopped, and has not started again since (R145, R146). -/
def Entry.isHeld (e : Entry) : Bool := e.st = .stopped || e.held

/-- One entry of the continuation area (R146). -/
def entryBytes (e : Entry) : List Byte :=
  let vs := (capKeys 3 e.word).map (fun n => (e.rx n).toNat)
  let tags := (List.range 8).map (fun i => ((e.reads.map (fun r => r.2.2)).getD i 0))
  leBytes 8 e.word.toNat ++ valBytes 3 vs ++ tags ++ leBytes 8 e.resume ++ leBytes 8 (b2n e.isHeld) ++
    leBytes 8 (vs.getD 3 0)

/-- The frame and the continuation area of a task that is saved: offsets and contents (R80, R81, R146). KHDR says that no invocation
is saved unless one was stopped and has not gone on since (R170). -/
def saveBytes (c : Ctx) (rb : Option Issue) (es : List Entry) : List (Nat × List Byte) :=
  [(0x000, leBytes 8 (2 ^ 56 + 1)), (0x008, frameBytes c rb), (0x3B0, (c.pend.getD Rec.zero).bytes ++ List.replicate 48 0),
   (0x400, leBytes 8 es.length ++ List.replicate 56 0 ++ es.flatMap entryBytes)] ++
  (if es.any (fun e => opOf e.word = 0x1E && e.isHeld) then [] else [(0x1000, leBytes 8 (2 ^ 56))])

/-! ## Save -/

/-- The BAR of an open bundle has arrived and not departed (R106). -/
def Issue.barred (is : Issue) : Bool :=
  !bit is.perf 2 && match is.bar with
    | .arrived _ => true
    | _ => false

/-- The bundle does nothing but wait: at EXITVA, at a BAR that has arrived, whatever else of it is still to be performed, or in GWAIT, with
at most a late slot B behind it (R82, R106, R342, R372). -/
def Issue.idles (is : Issue) : Bool :=
  is.exit || is.barred || (is.gwait && is.todo.all (fun i => i = 3 || (i = 1 && lateB is (is.words.getD 1 0))))

/-- The bundle that the frame's replay buffer takes: none where the save has to wait (R82). A handler's bundle that waits while the buffer
keeps the bundle that entered the handler has no place in the frame, so that the save waits (log 67). -/
def saveBundle (c : Ctx) : Option (Option Issue) :=
  match c.issue with
  | none => some c.rb
  | some is => if is.idles && !(c.t && c.rb.isSome && !is.re) then some (some { is with gwait := false, exit := false }) else none

/-- The bundle that a frame takes belongs to the running trap handler itself (log 66). -/
def ownBundle (c : Ctx) : Bool := c.t && (c.issue.isSome || (c.reissue && c.rb.isSome))

/-- The entries of a context in acceptance order. -/
def entryOrder (l : List (Nat × Entry)) (e : Nat × Entry) : List (Nat × Entry) :=
  match l with
  | [] => [e]
  | a :: r => if e.2.seq < a.2.seq then e :: a :: r else a :: entryOrder r e

def orderedEntries (s : State) (x : Nat) : List (Nat × Entry) := (entriesOf s x).foldl entryOrder []

/-- The core has asked to be enlisted for stores of context x, and awaits the answer (R320). -/
def enlisting (s : State) (x : Nat) : Bool :=
  (Tab.members (s.core (coreOf x)).srcs).any (fun p => p.2.frames.contains (s.ctx x).frame.toNat && p.2.enlist = .asked)

/-- What a save waits for (R82, R145, R333): the context is quiet, its tagged stores are complete, the answer to an enlist request for them
is there (log 78), and no entry is started or starts before the save. -/
def saveReady (s : State) (x : Nat) : Bool :=
  quiet s x && !taggedOf s (s.ctx x).frame.toNat && !enlisting s x &&
  (entriesOf s x).all (fun p => p.2.st ≠ .started && !startable s (coreOf x) p.2)

/-- The frame block cannot be written yet: a migration locks a node on the way, or holds a page (R289, R291). -/
def saveWaits (s : State) (x : Nat) (t : Task) : Bool :=
  let f := (s.ctx x).frame.toNat
  rangeWaits s (dieOfCtx x) f 0x1008 || (!t.zeroed && areaWaits s (coreOf x) f)

/-- The upcall of a page or node fault: a ticket of the die, and the push into the queue of its region, or of region 0 for a node (R285 to
R288). -/
def makeUpcall (s : State) (x va kind : Nat) (node : Bool) (region level : Nat) : State × Nat :=
  let d := dieOfCtx x
  let n := freeTicket s d
  let u : Upcall := {
    ticket := n, region := queueRegion node region, pushed := false,
    fields := [BitVec.ofNat 32 va, BitVec.ofNat 32 (va / 2 ^ 32), BitVec.ofNat 32 (kind * 2 ^ 16 + region * 2 ^ 8 + level),
      BitVec.ofNat 32 n, (ctxidOf x).setWidth 32] ++ List.replicate 11 0 }
  let s := s.modDie d (fun v => { v with ticket := n + 1, upcalls := v.upcalls ++ [u] })
  (pushUpcall s d u, n)

/-- The bytes of a task go into its frame block. A place that cannot be written fails the graph (R369). -/
def writeSave (s : State) (x : Nat) (t : Task) (ws : List (Nat × List Byte)) : State :=
  let f := (s.ctx x).frame.toNat
  ws.foldl (fun s w =>
    match writeRange s (dieOfCtx x) (f + w.1) w.2 with
    | (.bad _ a, s) => failAccess s (pkgOfCtx x) t.run (dieOfCtx x) t.node a
    | (_, s) => s) s

/-- What the dispatch engine keeps of a task that is saved: its core, its entries, the fault that is serviced, and the predicates of the
bundle that goes into the frame, its GSEALs that wait, and the failed answers that it has not met (R75, R285, R288, R341, R375, R376, logs
68, 78). -/
def savedOf (x : Nat) (c : Ctx) (t : Task) (why : SaveWhy) (rb : Option Issue) (es : List (Nat × Entry))
    (seals : List (Nat × Nat × Nat)) (ticket : Option Nat) : Saved :=
  let v : Saved := {
    task := { t with zeroed := true }, core := coreOf x, frame := c.frame.toNat, ticket := ticket, fail := none, ready := ticket.isNone,
    ents := es.map (fun e => e.2), failEnt := none, failKind := 0, failVa := 0, own := ownBundle c, bg := rb.map (·.g),
    seals := seals, unmet := c.pagerFail }
  match why with
  | .preempt => v
  | .fault va kind _ _ _ ent =>
    { v with failVa := va, failKind := kind, failEnt := ent.bind (fun i => (es.map (fun e => e.1)).findIdx? (· = i)) }

/-- The task of context x goes into its frame (R82), after the zero fill of its save area (log 12). -/
def saveTask (s : State) (x : Nat) (t : Task) (why : SaveWhy) (rb : Option Issue) : State :=
  let seals := (heldSeals s x).map (fun q => q.2)
  let s := liftSeals s x
  let c := s.ctx x
  let es := orderedEntries s x
  let s := writeSave (finishFill s x t) x t (saveBytes c rb (es.map (fun e => e.2)))
  let s := es.foldl (fun s e => s.setEntry (coreOf x) e.1 none) (sendNotice (dropMiss s (coreOf x) (x % 4)) x 0)
  let (s, ticket) := match why with
    | .fault va kind node region level _ => let u := makeUpcall s x va kind node region level; (u.1, some u.2)
    | .preempt => (s, none)
  (s.modPkg (pkgOfCtx x) (fun k => { k with saved := k.saved ++ [savedOf x c t why rb es seals ticket] })).setCtx x Ctx.reset

/-- A save that is no service of a fault is dropped: what it stopped can start again (R169, R375). -/
def dropSave (s : State) (x : Nat) : State :=
  (entriesOf s x).foldl (fun s p => if p.2.st = .stopped then s.setEntry (coreOf x) p.1 (some { p.2 with st := .ready, held := true }) else s)
    (s.modCtx x (fun c => { c with save := none }))

/-- R82, R375: TASK_SAVE of context x. A save that is no service of a fault is dropped once the task waits at EXITVA. -/
def execTaskSave (x : Nat) (s : State) : Out :=
  if s.stopped (dieOfCtx x) then .next s
  else
  let c := s.ctx x
  match c.task, c.save, c.kill with
  | some t, some why, none =>
    if why = .preempt && c.issue.any (·.exit) then .next (dropSave s x)
    else
      match saveBundle c with
      | none => .next s
      | some rb =>
        let u := dropGwait s x
        .next (if saveReady (liftSeals u x) x && !saveWaits u x t then saveTask u x t why rb else s)
  | _, _, _ => .next s

/-! ## Restore -/

/-- What has been read of a frame block, by offset. -/
abbrev Pieces := List (Nat × List Byte)

/-- n bytes at an offset of the block, which lie in one piece. -/
def Pieces.rd (ps : Pieces) (off n : Nat) : Nat :=
  match ps.find? (fun p => p.1 ≤ off && off + n ≤ p.1 + p.2.length) with
  | some p => ofLe ((p.2.drop (off - p.1)).take n)
  | none => 0

/-- What a restore reads: the frame, the continuation area and the head of the save area; the rest of that when an invocation is saved
(R376). -/
def readFrame (s : State) (d frame : Nat) : Acc Pieces × State :=
  accBind (readRange s d frame 0xC40) (fun a s =>
  accBind (readRange s d (saveBase frame) 0x140) (fun b s =>
    let ps : Pieces := [(0, a), (0x1000, b)]
    if ps.rd 0x1000 8 % 2 = 0 then (.ok ps, s)
    else accBind (readRange s d (saveBase frame + 0x140) (0x10000 - 0x140)) (fun r s => (.ok (ps ++ [(0x1140, r)]), s))))

/-- A check of a restore: offset and size of a field of the frame block, and whether a value of it is reserved. -/
abbrev Check := Nat × Nat × (Nat → Bool)

/-- A field whose bits outside a mask are reserved. -/
def maskCheck (off n mask : Nat) : Check := (off, n, fun v => v &&& mask ≠ v)

/-- The kernel save area (R164, R170, R173). -/
def kernelChecks : List Check :=
  [maskCheck 0x1010 8 0, maskCheck 0x1018 8 0xFF] ++ (List.range 16).map (fun c => maskCheck (0x1020 + 2 * c) 2 0xFFF) ++
    [maskCheck 0x1068 8 0xDFDFDFDFDFDFDFDF] ++ (List.range 18).map (fun i => maskCheck (0x1070 + 8 * i) 8 0) ++
    (List.range 24).map (fun i => maskCheck (0x1140 + 8 * i) 8 0)

/-- A DEST that R171 does not assign. -/
def badDest (n : Nat) : Bool := (0xC0 ≤ n && n < 0x100 && !(0xC1 ≤ n && n ≤ 0xCB)) || 0x200 ≤ n

/-- Entries of the owed-write log (R171). -/
def logChecks (n : Nat) : List Check :=
  (List.range n).flatMap (fun i =>
    [((0x9200 + 272 * i, 8, fun v =>
       v &&& 0x0000FFFF03FFFFFF ≠ v || badDest (v / 2 ^ 16 % 2 ^ 10) || 7 < v / 2 ^ 8 % 2 ^ 8 || v % 2 ^ 8 = 0 || 11 < v % 2 ^ 8) : Check),
     maskCheck (0x9200 + 272 * i + 8) 8 0xFFFFFFFF])

/-- The scanner refuses a slot word with these fields below its OP (R6, R159). -/
def refused (op v : Nat) : Bool :=
  match decodeKernel (BitVec.ofNat 64 (op * 2 ^ 56 + v)) with
  | .ok _ => false
  | .error _ => true

/-- A format that CFMT could not have set for operand opd (R31, R219, R235). -/
def badFmt (opd v : Nat) : Bool := refused 0x48 (opd * 2 ^ 49 + v % 2 ^ 16 * 2 ^ 33)

/-- Word 0 of a plane source that CLATCH could not have set for B (pl = 0) or C (R31, R237, R245). -/
def badSource (pl v : Nat) : Bool :=
  v.testBit 62 ||
    (v.testBit 63 && (badFmt (pl + 1) (v / 2 ^ 46) || v / 2 ^ 45 % 2 ≠ pl || refused 0x49 (v % 2 ^ 46 * 2 ^ 5)))

/-- The caddy area beside CHDR (R221, R222, R225, R238, R245). -/
def caddyChecks : List Check :=
  [(0xF808, 8, fun v => 2 ^ 48 ≤ v || badFmt 0 v || badFmt 1 (v / 2 ^ 16) || badFmt 2 (v / 2 ^ 32)),
   (0xF810, 8, fun v => 2 ^ 33 ≤ v || refused 0x4A (v * 2 ^ 18)),
   (0xF818, 8, fun v => v &&& 0x0FFF07FFFF9FF000 ≠ v || 5 < v / 2 ^ 27 % 2 ^ 3),
   (0xF820, 8, badSource 0), (0xF830, 8, badSource 1),
   (0xF840, 8, fun v => v % 2 ^ 15 ≠ 0 || 1535 < v / 2 ^ 25 % 2 ^ 11), maskCheck 0xF848 8 0, maskCheck 0xF850 8 0xEFFFEFFFEFFFEFFF] ++
    (List.range 20).map (fun i => maskCheck (0xF860 + 8 * i) 8 0) ++ (List.range 352).map (fun i => maskCheck (0x10500 + 8 * i) 8 0)

/-- The fields that a restore checks, with KHDR and CHDR as read: always FHDR, KHDR and the saved tile states; where they are saved, the
invocation and the caddy (R81, R170, R173, R245, R376). -/
def frameChecks (khdr chdr : Nat) : List Check :=
  [(0, 8, fun v => v / 2 ^ 56 ≠ 1 || v / 4 % 2 ^ 54 ≠ 0),
   (0x1000, 8, fun v => v / 2 ^ 56 ≠ 1 || v / 2 ^ 16 % 2 ^ 28 ≠ 0 || v / 2 % 2 ^ 7 ≠ 0 || 96 < v / 2 ^ 8 % 2 ^ 8)] ++
  (List.range 8).map (fun t => maskCheck (0x1100 + 8 * t) 8 0x80000000FFFFFFFF) ++
  (if khdr % 2 = 0 then []
   else
    kernelChecks ++ logChecks (khdr / 2 ^ 8 % 2 ^ 8) ++ [((0xF800, 8, fun v => v / 2 ^ 56 ≠ 1 || v / 4 % 2 ^ 54 ≠ 0) : Check)] ++
      (if chdr % 2 = 1 then caddyChecks else []))

/-- The lowest offset of a frame block at which a restore finds a reserved value; 0xB3 names it (R81, R376). -/
def frameBad (ps : Pieces) : Option Nat :=
  firstOffset ((frameChecks (ps.rd 0x1000 8) (ps.rd 0xF800 8)).map (fun k => (k.2.2 (ps.rd k.1 k.2.1), k.1)))

/-- The replay buffer's bundle as the frame holds it (R75, R80, R106), with the predicates g that it read when it first issued (R75, log
68). -/
def frameBundle (rd : Nat → Nat → Nat) (addr : Nat) (g : BitVec 12) : Option Issue :=
  let h := rd 0x2E0 8
  let ws : List Word32 := (List.range 4).map (fun i => BitVec.ofNat 32 (rd (0x2E8 + 4 * i) 4))
  let occ : BitVec 4 := BitVec.ofNat 4 (h / 16)
  let perf : BitVec 4 := BitVec.ofNat 4 h
  let off := fun i => if i < 3 then 0x2F8 + 24 * i else 0x340
  let cap := (List.range 4).map (fun i =>
    let ks := capKeys i (ws.getD i 0)
    (List.range ks.length).foldl (fun t j => Tab.set (0 : Word) t (ks.getD j 0) (BitVec.ofNat 64 (rd (off i + 8 * j) 8))) [])
  let w2 := ws.getD 2 0
  let isBar := opOf w2 = 0x1B ∧ fldN w2 0 6 = 1
  if h / 2 ^ 8 % 2 = 0 then none
  else some {
    addr := addr, words := ws, occ := occ, perf := perf, cap := cap, g := g, re := true, taken := none,
    bar := if isBar ∧ !bit perf 2 ∧ rd (off 2 + 16) 8 % 2 = 1 then .arrived (rd (off 2 + 8) 8) else .none,
    sync := false, gwait := false, exit := false, tick := 0, lease := 0, ld := none }

/-- The pending record that the frame holds (R80). -/
def framePend (rd : Nat → Nat → Nat) (imp : Bool) : Option Rec :=
  let w := fun i => BitVec.ofNat 64 (rd (0x3B0 + 8 * i) 8)
  if imp then some ⟨w 0, w 1, w 2, w 3⟩ else none

/-- A context as its frame describes it (R80, R83). It reissues the frame's bundle first; but the bundle that a fault left to a running trap
handler stays in the buffer while the handler goes on at the PC, unless it is the handler's own (log 66). The frame has no place for the
predicates that the bundle read, which the dispatch engine keeps: bg (log 68). -/
def frameCtx (rd : Nat → Nat → Nat) (frame : Nat) (t : Task) (own : Bool) (bg : Option (BitVec 12)) : Ctx :=
  let r64 := fun off => (BitVec.ofNat 64 (rd off 8) : Word)
  let cs := rd 0x2B0 8
  let g : BitVec 12 := BitVec.ofNat 12 (rd 0x10 8)
  let pc := rd 8 8 % 2 ^ 55
  let tr := cs % 2 = 1
  let first := !tr || own
  let rb := frameBundle rd (if first then pc else rd 0x2A8 8) (bg.getD g)
  { Ctx.reset with
    x := (List.range 32).foldl (fun m n => if n = 0 then m else Tab.set 0 m n (r64 (0x20 + 8 * n))) [],
    h := (List.range 32).foldl (fun m n => Tab.set 0 m n (r64 (0x120 + 8 * n))) [],
    w := (List.range 8).foldl (fun m n => Tab.set 0 m n (BitVec.ofNat 128 (rd (0x220 + 16 * n) 16))) [],
    g := g, pc := pc, wid := r64 0x2C8, t := tr, tvec := r64 0x2A0, epc := r64 0x2A8, ldpstk := r64 0x2B8, gixstk := r64 0x2C0,
    frame := BitVec.ofNat 64 frame, rb := rb, reissue := rb.isSome && first, pend := framePend rd (cs.testBit 2), task := some t }

/-- A saved entry as its continuation record describes it, with the stalls it named, for slot i of the scoreboard (R145, R146). An entry
that the pager failed ends with fault 0x87, also where it is saved again first (R129, R288). An open bag starts anew with its first index,
and the number of bags is kept beside the frame (log 83); the tags are compared again (log 84). -/
def frameEntry (s : State) (x : Nat) (rd : Nat → Nat → Nat) (v : Saved) (j i : Nat) (e : Entry) : Entry :=
  let o := 0x440 + 64 * j
  let w : Word32 := BitVec.ofNat 32 (rd o 4)
  let ks := capKeys 3 w
  let cap := (List.range ks.length).foldl (fun t i =>
    Tab.set (0 : Word) t (ks.getD i 0) (BitVec.ofNat 64 (rd (if i = 3 then o + 0x38 else o + 8 + 8 * i) 8))) []
  let bad := v.failEnt = some j && v.fail.isSome
  let flt := mkRec s x false ⟨0x87, 1, v.failVa, cmdDetail w i (v.failKind * 2 ^ 16 + v.fail.getD 0 % 2 ^ 16), 0⟩
  { e with
    ctx := x % 4, word := w, cap := cap, st := .waiting, resume := rd (o + 0x28) 8,
    reads := (List.range e.reads.length).map (fun i =>
      let r := e.reads.getD i (0, 0, 0)
      (r.1, r.2.1, BitVec.ofNat 8 (rd (o + 0x20 + i) 1))),
    done := [], tagOk := false, part := [], idx := [], snap := [], places := [], k := 0, acc := [], owed := 0, held := rd (o + 0x30) 8 % 2 = 1,
    flt := if bad then some (e.flt.getD flt) else e.flt, stop := bad || e.stop }

/-- The old core writes the dirty tiles of a saved task that goes to another core, before its frame is read (R175, R376). -/
def leaveTiles (s : State) (v : Saved) (c : Nat) : State := if c = v.core then s else dropTiles s v.core v.frame true

/-- The t-th saved task leaves its place. -/
def takeSaved (s : State) (p t : Nat) : State := s.modPkg p (fun k => { k with saved := k.saved.eraseIdx t })

/-- A restore that raises a fault fails the graph; the task is placed only to be killed (R374, R376). Its FHDR stays as it is, VALID among
it (log 91). -/
def restoreKilled (s : State) (x : Nat) (c : Ctx) (f : Flt) : State :=
  let s := s.setCtx x { c with rb := none, reissue := false, pend := none }
  let r := mkRec s x true f
  let s := killTask (writeFrameRec s x 0x390 r) x r
  match c.task with
  | some t => failRun s (pkgOfCtx x) t.run r
  | none => s

/-- The task goes on: its entries are accepted again in order, its GSEALs wait again, the failed answers that it has not met wait for their
operations, and its frame holds it no longer (R81 to R83, R146, R288, log 78). -/
def restoreOn (s : State) (x : Nat) (c : Ctx) (rd : Nat → Nat → Nat) (v : Saved) : State :=
  let s := s.setCtx x { c with
    pagerFail := v.unmet ++ if v.failEnt.isSome then [] else (v.fail.map (fun w => ⟨w, v.failVa, v.failKind, c.reissue⟩)).toList }
  let s := (List.range (min (rd 0x400 1) v.ents.length)).foldl (fun s j =>
    match v.ents[j]? with
    | some e => enterEntry s x (frameEntry s x rd v j (freeEntry s (coreOf x)) e)
    | none => s) s
  let s := match writeRange s (dieOfCtx x) v.frame (leBytes 8 (2 ^ 56)) with
    | (.bad _ a, s) => failAccess s (pkgOfCtx x) v.task.run (dieOfCtx x) v.task.node a
    | (_, s) => s
  acquire (sendNotice (resumeSeals s x v.seals) x 1) (coreOf x) 4

/-- A saved task whose frame cannot be read ends without a context, as a killed task does, and its graph fails (R333, R369, R372, R374, log
29). -/
def loseSaved (s : State) (p d : Nat) (v : Saved) (va : Nat) : State :=
  let s := tellDies (forgetFrame (abortFrame (dropTiles s v.core v.frame false) v.core v.frame) v.core v.frame) p v.frame 2
  endInstance (failAccess s p v.task.run d v.task.node va) p v.task none

/-- The frame block cannot be read and written yet, or the tiles of a task that moves not be written: its old core is frozen, or a migration
holds the area (R175, R289, R291, R310). -/
def restoreWaits (s : State) (d c : Nat) (v : Saved) : Bool :=
  rangeWaits s d v.frame 0x11000 || (c ≠ v.core && (s.stopped (dieOf v.core) || areaWaits s v.core v.frame))

/-- The saved task goes to context x with what was read of its frame block (R376); ORPH is looked at before the reserved values (log 76). -/
def restoreTask (s : State) (p t x : Nat) (v : Saved) (ps : Pieces) : State :=
  let k := (s.pkg p).order
  let s := (takeSaved s p t).modPkg p (fun k => { k with order := k.order + 1 })
  let y := frameCtx ps.rd v.frame { v.task with start := s.cycles p, since := k } v.own v.bg
  if (ps.rd 0 1).testBit 1 then restoreKilled s x y (Flt.mk0 0xB4 v.task.ph)
  else
    match frameBad ps with
    | some off => restoreKilled s x y (Flt.mk0 0xB3 off)
    | none => restoreOn s x y ps.rd v

/-- R376: TASK_RESTORE of the t-th saved task of package p on context x. -/
def execTaskRestore (p t x : Nat) (s : State) : Out :=
  match (s.pkg p).saved[t]? with
  | none => .next s
  | some v =>
    let c := coreOf x
    let d := dieOfCtx x
    if !(pkgOfCtx x = p && idle s x && mayRestore s p v c && sbRoomFor s x v.ents.length && firstWant s p (savedWant s p v)) ||
        restoreWaits s d c v then .next s
    else
      match readFrame (leaveTiles s v c) d v.frame with
      | (.wait, s) => .next s
      | (.bad _ a, s) => .next (loseSaved (takeSaved s p t) p d v a)
      | (.ok ps, s) => .next (restoreTask s p t x v ps)

/-! ## Pre-emption -/

/-- A save is requested for a placed task (R375). -/
def requestSave (s : State) (x : Nat) : State :=
  s.modCtx x (fun c => if c.kill.isSome then c else { c with save := some (c.save.getD .preempt) })

/-- A context of package p that meets the affinity of a ready task is idle (R371, R375). -/
def idleFor (s : State) (p : Nat) (w : Want) : Bool := (ctxsOf p).any (fun y => idle s y && (readyWants s p (coreOf y)).contains w)

/-- R375: QUANTUM_EXPIRY of context x: a task of equal PRIO waits for a context of its core, and none that is idle can take it (log 96). -/
def execQuantumExpiry (x : Nat) (s : State) : Out :=
  match (s.ctx x).task with
  | none => .next s
  | some t =>
    let q := fldN (s.die (dieOfCtx x)).dquant 0 32
    .next (if q ≠ 0 && q * 1024 ≤ s.cycles (pkgOfCtx x) - t.start &&
        (wants s (pkgOfCtx x) (coreOf x)).any (fun w => w.low = 3 - t.prio && !idleFor s (pkgOfCtx x) w) then
      requestSave s x else s)

/-- The contexts that hold a task of lower PRIO than a task that waits and meets its affinity there (R375). -/
def victims (s : State) (p : Nat) (w : Want) : List (Nat × Task) :=
  (ctxsOf p).filterMap (fun y => match (s.ctx y).task with
    | some t => if w.low < 3 - t.prio && (readyWants s p (coreOf y)).contains w then some (y, t) else none
    | none => none)

/-- A victim is saved before another: lower PRIO, then placed more recently (R375). -/
def worse (a b : Task) : Bool := a.prio < b.prio || (a.prio = b.prio && b.since < a.since)

/-- R375: PRIORITY_PREEMPTION of context x, for a ready task of higher PRIO that no idle context can take. -/
def execPriorityPreemption (x : Nat) (s : State) : Out :=
  let p := pkgOfCtx x
  match (s.ctx x).task with
  | none => .next s
  | some t =>
    let pushes := fun (w : Want) =>
      !idleFor s p w &&
        (victims s p w).any (fun v => v.1 = x) && (victims s p w).all (fun v => v.1 = x || worse t v.2)
    .next (if (readyWants s p (coreOf x)).any pushes then requestSave s x else s)

end Sys2Proof.Machine
end

