-- ==== Sys2Proof/Machine/Alu.lean ====
section
/-! DEFINITION. Integer arithmetic, constants, selection and bit fields of the control processor (R84 to R95). -/

namespace Sys2Proof.Machine

/-- A register operation of R87: x[XD] := result. -/
def aluRR (g : Guard) (d a b : BitVec 5) (v : Word → Word → Word) (s : State) : Out :=
  slotABM g [d, a, b] (fun s => setX d (v (s.rx a) (s.rx b)) s) s

/-- A one-operand or immediate operation of R87 to R89. -/
def aluR (g : Guard) (d a : BitVec 5) (v : Word → Word) (s : State) : Out :=
  slotABM g [d, a] (fun s => setX d (v (s.rx a)) s) s

/-- The shift count of R87: bits [5:0]. -/
def shiftBy (b : Word) : Nat := fldN b 0 6

/-- R64. -/
def execNop (s : State) : Out := .next (perform s)

/-- R87. -/
def execAdd (g : Guard) (d a b : BitVec 5) (s : State) : Out := aluRR g d a b (fun a b => a + b) s
/-- R87. -/
def execSub (g : Guard) (d a b : BitVec 5) (s : State) : Out := aluRR g d a b (fun a b => a - b) s
/-- R87. -/
def execAnd (g : Guard) (d a b : BitVec 5) (s : State) : Out := aluRR g d a b (fun a b => a &&& b) s
/-- R87. -/
def execOr (g : Guard) (d a b : BitVec 5) (s : State) : Out := aluRR g d a b (fun a b => a ||| b) s
/-- R87. -/
def execXor (g : Guard) (d a b : BitVec 5) (s : State) : Out := aluRR g d a b (fun a b => a ^^^ b) s
/-- R87. -/
def execAndn (g : Guard) (d a b : BitVec 5) (s : State) : Out := aluRR g d a b (fun a b => a &&& ~~~b) s
/-- R87. -/
def execShl (g : Guard) (d a b : BitVec 5) (s : State) : Out := aluRR g d a b (fun a b => a <<< shiftBy b) s
/-- R87. -/
def execShr (g : Guard) (d a b : BitVec 5) (s : State) : Out := aluRR g d a b (fun a b => a >>> shiftBy b) s
/-- R87. -/
def execSar (g : Guard) (d a b : BitVec 5) (s : State) : Out := aluRR g d a b (fun a b => a.sshiftRight (shiftBy b)) s
/-- R87. -/
def execRor (g : Guard) (d a b : BitVec 5) (s : State) : Out := aluRR g d a b (fun a b => a.rotateRight (shiftBy b)) s
/-- R87. -/
def execMul (g : Guard) (d a b : BitVec 5) (s : State) : Out := aluRR g d a b (fun a b => a * b) s
/-- R87. -/
def execMulhu (g : Guard) (d a b : BitVec 5) (s : State) : Out := aluRR g d a b (fun a b => BitVec.ofNat 64 (a.toNat * b.toNat / 2 ^ 64)) s
/-- R87. -/
def execMulhs (g : Guard) (d a b : BitVec 5) (s : State) : Out := aluRR g d a b (fun a b => BitVec.ofInt 64 (a.toInt * b.toInt / 2 ^ 64)) s
/-- R87. -/
def execMin (g : Guard) (d a b : BitVec 5) (s : State) : Out := aluRR g d a b (fun a b => if b.slt a then b else a) s
/-- R87. -/
def execMax (g : Guard) (d a b : BitVec 5) (s : State) : Out := aluRR g d a b (fun a b => if a.slt b then b else a) s
/-- R87. -/
def execMinu (g : Guard) (d a b : BitVec 5) (s : State) : Out := aluRR g d a b (fun a b => if b.ult a then b else a) s
/-- R87. -/
def execMaxu (g : Guard) (d a b : BitVec 5) (s : State) : Out := aluRR g d a b (fun a b => if a.ult b then b else a) s
/-- R87. -/
def execClz (g : Guard) (d a : BitVec 5) (s : State) : Out := aluR g d a (fun a => BitVec.ofNat 64 (clzN 64 a.toNat)) s
/-- R87. -/
def execCtz (g : Guard) (d a : BitVec 5) (s : State) : Out := aluR g d a (fun a => BitVec.ofNat 64 (ctzN 64 a.toNat)) s
/-- R87. -/
def execPopc (g : Guard) (d a : BitVec 5) (s : State) : Out := aluR g d a (fun a => BitVec.ofNat 64 (popcount a)) s
/-- R88. -/
def execAddi (g : Guard) (d a : BitVec 5) (i : BitVec 12) (s : State) : Out := aluR g d a (fun a => a + i.signExtend 64) s
/-- R88. -/
def execAndi (g : Guard) (d a : BitVec 5) (i : BitVec 12) (s : State) : Out := aluR g d a (fun a => a &&& i.signExtend 64) s
/-- R88. -/
def execOri (g : Guard) (d a : BitVec 5) (i : BitVec 12) (s : State) : Out := aluR g d a (fun a => a ||| i.signExtend 64) s
/-- R88. -/
def execXori (g : Guard) (d a : BitVec 5) (i : BitVec 12) (s : State) : Out := aluR g d a (fun a => a ^^^ i.signExtend 64) s
/-- R89. -/
def execShli (g : Guard) (d a : BitVec 5) (k : BitVec 6) (s : State) : Out := aluR g d a (fun a => a <<< k.toNat) s
/-- R89. -/
def execShri (g : Guard) (d a : BitVec 5) (k : BitVec 6) (s : State) : Out := aluR g d a (fun a => a >>> k.toNat) s
/-- R89. -/
def execSari (g : Guard) (d a : BitVec 5) (k : BitVec 6) (s : State) : Out := aluR g d a (fun a => a.sshiftRight k.toNat) s
/-- R89. -/
def execRori (g : Guard) (d a : BitVec 5) (k : BitVec 6) (s : State) : Out := aluR g d a (fun a => a.rotateRight k.toNat) s

/-- R90. -/
def execMovi (g : Guard) (d : BitVec 5) (i : BitVec 17) (s : State) : Out :=
  slotABM g [d] (setX d (i.signExtend 64)) s

/-- R92. The predicate is read at issue. -/
def execSel (g : Guard) (d a b : BitVec 5) (p : BitVec 4) (s : State) : Out :=
  slotABM g [d, a, b] (fun s => setX d (if s.rg p then s.rx a else s.rx b) s) s

/-- A bit field of len = LM1 + 1 bits at POS (R94). -/
def bitField (a : Word) (p l : BitVec 6) : Nat := a.toNat / 2 ^ p.toNat % 2 ^ (l.toNat + 1)

/-- R94. -/
def execBfx (g : Guard) (d a : BitVec 5) (p l : BitVec 6) (s : State) : Out :=
  aluR g d a (fun a => BitVec.ofNat 64 (bitField a p l)) s

/-- R94. -/
def execBfxs (g : Guard) (d a : BitVec 5) (p l : BitVec 6) (s : State) : Out :=
  aluR g d a (fun a => BitVec.ofInt 64 (sextN (bitField a p l) (l.toNat + 1))) s

/-- R95: the low bits of a inserted into a field of d. -/
def insertField (d a : Word) (p l : BitVec 6) : Word :=
  let mask : Word := BitVec.ofNat 64 ((2 ^ (l.toNat + 1) - 1) * 2 ^ p.toNat)
  (d &&& ~~~mask) ||| ((a <<< p.toNat) &&& mask)

/-- R95. -/
def execBfi (g : Guard) (d a : BitVec 5) (p l : BitVec 6) (s : State) : Out :=
  slotABM g [d, a] (fun s => setX d (insertField (s.rx d) (s.rx a) p l) s) s

end Sys2Proof.Machine
end

