-- ==== Sys2Proof/Machine/HostRegs.lean ====
section
/-! DEFINITION. Management registers through BAR0, and device memory through BAR2 (R5, R304, R382 to R384, R390). -/

namespace Sys2Proof.Machine

/-! ## Starts -/

/-- SRESN as it reads (R390). -/
def sresnOf (k : Pkg) : Word := k.sresn ||| BitVec.ofNat 64 (k.fails * 2 ^ 4)

/-- Vector 6 is raised when SRESN has changed (R382). -/
def noteSresn (before s : State) (p : Nat) : State :=
  if sresnOf (before.pkg p) = sresnOf (s.pkg p) then s else raiseVector s p 6

/-- CLRFAIL sets FAILS to 0 (R390). -/
def clrFail (s : State) (p : Nat) : State := noteSresn s (s.modPkg p (fun k => { k with fails := 0 })) p

/-- A start with CAUSE 2 is ordered; a RESTART is ignored while a start is running (R390). -/
def orderStart (s : State) (p : Nat) : State :=
  s.modPkg p (fun k => { k with starting := some (k.starting.getD 2) })

/-- RESTART from the host: after a thermal trip the package waits for the service port or a power cycle (R390, R391). -/
def restart (s : State) (p : Nat) : State := if (s.pkg p).thermal then s else orderStart s p

/-- A write of SCTL (R390): CLRFAIL acts before RESTART. -/
def sctlSet (s : State) (p : Nat) (v : Word) : State :=
  let s := if bit v 1 then clrFail s p else s
  if bit v 0 then restart s p else s

/-- A write of SCTL is taken from the host, and from a message of type 0x7E only inside an SPDM secured session (R387, R390, log 69). -/
def sctlTaken (p : SvcCmd) : Bool := p.msg.getD true

/-- R390. -/
def execSctlClrfail (p : SvcCmd) (s : State) : Out := .next (if sctlTaken p then clrFail s p.pkg else s)
/-- R390. -/
def execSctlRestart (p : SvcCmd) (s : State) : Out :=
  .next (if !sctlTaken p then s else if p.msg.isSome then orderStart s p.pkg else restart s p.pkg)

/-! ## Register writes -/

/-- The bits of a write from bit lo, n of them, in their place. -/
def keep (v : Word) (lo n : Nat) : Word := BitVec.ofNat 64 (fldN v lo n * 2 ^ lo)

/-- The value of TBASE for a write: PL 10 and 11 read as 00 (R278). -/
def tbaseValue (v : Word) : Word := keep v 63 1 ||| keep v 16 28 ||| (if bit v 15 then 0 else keep v 14 1) ||| keep v 12 2

/-- FLOGP after a write: HEAD is written, OVF is write-1-to-clear (R384). -/
def flogpWrite (old v : Word) : Word :=
  (if bit v 63 then 0 else keep old 63 1) ||| keep v 8 8 ||| keep old 0 8

/-- A write of TINV: with BUSY 0 the fields are written, with BUSY 1 an invalidation starts (R284). -/
def tinvWrite (s : State) (d : Nat) (v : Word) : State :=
  if bit v 63 then tinvStart s d (bit v 62) (fldN v 0 39)
  else if bit (s.die d).tinv 63 then s
  else s.modDie d (fun k => { k with tinv := keep v 62 1 ||| keep v 0 39 })

/-- A write of HOTCTL: FLUSH, then CLEAR (R272). -/
def hotctlWrite (s : State) (d : Nat) (v : Word) : State :=
  let s := if bit v 1 then hotFlush s d else s
  if bit v 0 then hotClear s d else s

/-- A write of ITCTL: ERR is write-1-to-clear, then SWAP acts (R304). -/
def itctlWrite (s : State) (p : Nat) (v : Word) : State :=
  let s := if bit v 62 then s.modPkg p (fun k => { k with itctl := setBit k.itctl 62 false }) else s
  if bit v 63 then itSwap s p else s

/-- A write of SHFORCE (R332). -/
def shforceWrite (s : State) (d : Nat) (v : Word) : State :=
  match fldN v 62 2 with
  | 1 => forceApply s d (fldN v 0 32)
  | 2 => forceDiscard s d (fldN v 0 32)
  | _ => s

/-- A write of LQ: ERR is write-1-to-clear (R364). -/
def lqWrite (old v : Word) : Word :=
  keep v 63 1 ||| (if bit v 62 then 0 else keep old 62 1) ||| keep v 12 32 ||| keep v 0 5

/-- A write of an interleave entry; the bank of an accepted old generation is not written (R304). -/
def ilvWrite (s : State) (d b i : Nat) (v : Word) : State :=
  let p := pkgOfDie d
  if itOv s p && oldOf s p % 2 = b then s
  else s.modDie d (fun k => { k with ilv := Tab.set 0 k.ilv (b * 1024 + i) (keep v 63 1 ||| keep v 0 16) })

/-- A write of a register that each die has (R383). -/
def dieWrite (s : State) (d off : Nat) (v : Word) : State :=
  match off with
  | 0x18 => s.modDie d (fun k => { k with flogp := flogpWrite k.flogp v })
  | 0x20 => s.modDie d (fun k => { k with cecnt := v })
  | 0x1000 => s.modDie d (fun k => { k with tbase := tbaseValue v })
  | 0x1008 => tinvWrite s d v
  | 0x1010 => s.modDie d (fun k => { k with pgrbase := keep v 63 1 ||| keep v 11 33 })
  | 0x1018 => s.modDie d (fun k => { k with resq := keep v 8 36 ||| keep v 0 1 })
  | 0x2000 => s.modDie d (fun k => { k with hotcfg := keep v 32 16 ||| keep v 0 4 })
  | 0x2008 => s.modDie d (fun k => { k with hotq := keep v 8 36 ||| keep v 0 1 })
  | 0x2010 => s.modDie d (fun k => { k with hotbase := keep v 16 28 })
  | 0x2018 => hotctlWrite s d v
  | 0x2020 => s.modDie d (fun k => { k with hotdrop := k.hotdrop &&& ~~~v })
  | 0x3008 => haltSet s d v
  | 0x3010 => s.modDie d (fun k => { k with lto := keep v 0 32 })
  | 0x3018 => s.modDie d (fun k => { k with lsreq := v })
  | 0x4000 => s.modDie d (fun k => { k with celease := keep v 0 32 })
  | 0x4010 => shforceWrite s d v
  | 0x5010 => s.modDie d (fun k => { k with dquant := keep v 0 32 })
  | _ =>
    if 0x3100 ≤ off ∧ off < 0x3120 then lpcfgSet s d ((off - 0x3100) / 8) v
    else if 0x10000 ≤ off ∧ off < 0x14000 then ilvWrite s d ((off - 0x10000) / 0x2000) ((off - 0x10000) % 0x2000 / 8) v
    else s

/-- A write of a register that only die 0 of package p has (R383). -/
def pkgWrite (s : State) (p off : Nat) (v : Word) : State :=
  match off with
  | 0x10 => sctlSet s p v
  | 0x1020 => migCommand s p v
  | 0x1028 => if bit v 63 then modMig s p (fun m => { m with err := false }) else s
  | 0x3000 => itctlWrite s p v
  | 0x4018 => s.modPkg p (fun k => { k with padcq := keep v 63 1 ||| keep v 12 40 ||| keep v 0 5 })
  | 0x4020 => padcqpSet s p (fldN v 32 32)
  | 0x5000 => s.modPkg p (fun k => { k with lq := lqWrite k.lq v })
  | 0x5008 => tailWrite s p (fld v 32 32)
  | _ => s

/-- The offsets of the registers that only die 0 has (R383). -/
def dieZero (off : Nat) : Bool :=
  [0x08, 0x10, 0x1020, 0x1028, 0x3000, 0x4018, 0x4020, 0x5000, 0x5008].contains off

/-- An access to a management register acts: it is an aligned one of 8 bytes (R383). -/
def barOk (off n : Nat) : Bool := n = 8 && off % 8 = 0

/-- A write of n bytes of a management register of die d (R383): only aligned 8-byte accesses act, a register of die 0 is ignored
elsewhere, and in the safe state only die 0's SCTL responds (R390). -/
def regWrite (s : State) (d off n : Nat) (v : Word) : State :=
  if !barOk off n then s
  else if off = 0x10 then (if d % 4 = 0 then sctlSet s (pkgOfDie d) v else s)
  else hostWrite s d (fun s =>
    if dieZero off then (if d % 4 = 0 then pkgWrite s (pkgOfDie d) off v else s) else dieWrite s d off v)

/-- R5, R383: REGISTER_WRITE. -/
def execRegisterWrite (d : Nat) (off : BarAt) (v : BitVec 64) (s : State) : Out := .next (regWrite s d off.off off.n v)

/-! ## Register reads -/

/-- SHSTAT of die d (R332): orphans, groups whose query has no answer, and free room in KiB. -/
def shstat (s : State) (d : Nat) : Word :=
  let hs := (List.range 33).map (fun i => d * 33 + i)
  let mine := if d % 4 = 0 then hs else hs.take 32
  let gs := mine.flatMap (shedOf s)
  let room := (mine.map (fun h => (shedRoom h).1 - shedUsed s h)).foldl (· + ·) 0
  BitVec.ofNat 64 (min (gs.filter (·.orphan)).length 0xFFFF * 2 ^ 48 + min (gs.filter (·.query)).length 0xFFFF * 2 ^ 32 + room / 1024)

/-- DBGCTL (R310). -/
def dbgctl (s : State) (d : Nat) : Word := BitVec.ofNat 64 (b2n (dhold s (pkgOfDie d)) * 2 + b2n (s.die d).halt)

/-- A word of the fault log (R384). -/
def flogWord (s : State) (d n i : Nat) : Word :=
  let r := (Tab.get none (s.die d).flog n).getD Rec.zero
  match i with
  | 0 => r.w0
  | 1 => r.w1
  | 2 => r.w2
  | _ => r.w3

/-- A read of a register that each die has. -/
def dieRead (s : State) (d off : Nat) : Word :=
  let k := s.die d
  match off with
  | 0x00 => 0x5347000400000200
  | 0x18 => k.flogp
  | 0x20 => k.cecnt
  | 0x1000 => k.tbase
  | 0x1008 => k.tinv
  | 0x1010 => k.pgrbase
  | 0x1018 => k.resq
  | 0x2000 => k.hotcfg
  | 0x2008 => k.hotq
  | 0x2010 => k.hotbase
  | 0x2020 => k.hotdrop
  | 0x3008 => dbgctl s d
  | 0x3010 => k.lto
  | 0x3018 => k.lsreq
  | 0x4000 => k.celease
  | 0x4008 => shstat s d
  | 0x5010 => k.dquant
  | _ =>
    if 0x3100 ≤ off ∧ off < 0x3120 then lpcfgOf s (pkgOfDie d) (d % 4 * 4 + (off - 0x3100) / 8)
    else if 0x6000 ≤ off ∧ off < 0x6400 then scap s (d * 128 + (off - 0x6000) / 8)
    else if 0x10000 ≤ off ∧ off < 0x14000 then
      Tab.get 0 k.ilv ((off - 0x10000) / 0x2000 * 1024 + (off - 0x10000) % 0x2000 / 8)
    else if 0x20000 ≤ off ∧ off < 0x22000 then flogWord s d ((off - 0x20000) / 32) ((off - 0x20000) % 32 / 8)
    else 0

/-- A read of a register of die 0 of package p. -/
def pkgRead (s : State) (p off : Nat) : Word :=
  let k := s.pkg p
  match off with
  | 0x08 => sresnOf k
  | 0x1028 => migStatus k.mig
  | 0x3000 => itctlRead s p
  | 0x4018 => k.padcq
  | 0x4020 => k.padcqp
  | 0x5000 => k.lq
  | 0x5008 => k.lqp
  | _ => 0

/-- What a read of n bytes of a management register of die d returns; zero unless it is an aligned one of 8 bytes (R383, R390). -/
def regRead (s : State) (d off n : Nat) : Word :=
  if !barOk off n then 0
  else if (s.pkg (pkgOfDie d)).safe && !(d % 4 = 0 && off < 0x18) then 0
  else if dieZero off then (if d % 4 = 0 then pkgRead s (pkgOfDie d) off else 0)
  else dieRead s d off

/-- What a read through a BAR or of the service port returns. -/
def hostOut (s : State) (p : Nat) (bs : List Byte) : State := s.modPkg p (fun k => { k with out := k.out ++ [bs] })

/-- The host reads n bytes of a management register of die d through BAR0 (R383). -/
def barRead (s : State) (d off n : Nat) : State := hostOut s (pkgOfDie d) (leBytes n (regRead s d off n).toNat)

/-! ## BAR2 -/

/-- A BAR2 read is performed at the home; an uncorrectable word is a machine check with no context, and is not returned (R385). -/
def bar2Read (s : State) (p pa n : Nat) : State :=
  readDie s [(⟨p, pa, 0, 0, 0⟩, n)] id (fun s => hostOut s p (s.readBytes p false pa n))

/-- R382: a host access of n bytes, at most 8, to device address pa of package p. In the safe state a read returns zero (R390). -/
def execBar2Access (p pa : Nat) (wr : Bool) (n : Nat) (data : BitVec 64) (s : State) : Out :=
  if n = 0 ∨ 8 < n ∨ 2 ^ 39 < pa + n then .next s
  else if (s.pkg p).safe then .next (if wr then s else hostOut s p (List.replicate n 0))
  else if gate s ⟨p, pa, 0, 0, 0⟩ ≠ .go then .next s
  else if wr then .next (s.writePhys p false pa (leBytes n data.toNat))
  else .next (bar2Read s p pa n)

end Sys2Proof.Machine
end

