-- ==== Sys2Proof/Machine/KernelFloat.lean ====
section
/-! DEFINITION. Floating-point operations, seeds and conversions of the cluster array (R187 to R197). -/

namespace Sys2Proof.Machine

/-- An FP32 operation on two d registers (R188). -/
def kFp2 (g : Guard) (d a b : BitVec 7) (v : Nat → Nat → Nat) (s : State) : Out :=
  kslot g (fun act s => oweD d 4 act (fun c => v (s.ca.rd c a).toNat (s.ca.rd c b).toNat) s) s

/-- An FP32 operation on three d registers (R189). -/
def kFp3 (g : Guard) (d a b c : BitVec 7) (v : Nat → Nat → Nat → Nat) (s : State) : Out :=
  kslot g (fun act s =>
    oweD d 4 act (fun l => v (s.ca.rd l a).toNat (s.ca.rd l b).toNat (s.ca.rd l c).toNat) s) s

/-- A rule on each of two packed FP16 elements (R191). -/
def packed2 (v : Nat → Nat → Nat) (a b : Nat) : Nat := v (a % 2 ^ 16) (b % 2 ^ 16) + 2 ^ 16 * v (a / 2 ^ 16) (b / 2 ^ 16)
def packed3 (v : Nat → Nat → Nat → Nat) (a b c : Nat) : Nat :=
  v (a % 2 ^ 16) (b % 2 ^ 16) (c % 2 ^ 16) + 2 ^ 16 * v (a / 2 ^ 16) (b / 2 ^ 16) (c / 2 ^ 16)

/-- A one-operand operation that lands after off cycles (R188, R193, R194, R196). -/
def kFp1 (g : Guard) (d a : BitVec 7) (off : Nat) (v : Nat → Nat) (s : State) : Out :=
  kslot g (fun act s => oweD d off act (fun c => v (s.ca.rd c a).toNat) s) s

/-- R188. -/
def execFadd (g : Guard) (d a b : BitVec 7) (rm : BitVec 3) (s : State) : Out := kFp2 g d a b (fadd Fmt.fp32 rm.toNat) s
/-- R188. -/
def execFsub (g : Guard) (d a b : BitVec 7) (rm : BitVec 3) (s : State) : Out := kFp2 g d a b (fsub Fmt.fp32 rm.toNat) s
/-- R188. -/
def execFmul (g : Guard) (d a b : BitVec 7) (rm : BitVec 3) (s : State) : Out := kFp2 g d a b (fmul Fmt.fp32 rm.toNat) s
/-- R188. -/
def execFmin (g : Guard) (d a b : BitVec 7) (s : State) : Out := kFp2 g d a b (fmin Fmt.fp32) s
/-- R188. -/
def execFmax (g : Guard) (d a b : BitVec 7) (s : State) : Out := kFp2 g d a b (fmax Fmt.fp32) s
/-- R188. -/
def execFabs (g : Guard) (d a : BitVec 7) (s : State) : Out := kFp1 g d a 4 fabs s
/-- R188. -/
def execFneg (g : Guard) (d a : BitVec 7) (s : State) : Out := kFp1 g d a 4 fneg s
/-- R189. -/
def execFfma (g : Guard) (d a b c : BitVec 7) (rm : BitVec 3) (s : State) : Out := kFp3 g d a b c (ffma Fmt.fp32 false false rm.toNat) s
/-- R189. -/
def execFfms (g : Guard) (d a b c : BitVec 7) (rm : BitVec 3) (s : State) : Out := kFp3 g d a b c (ffma Fmt.fp32 false true rm.toNat) s
/-- R189. -/
def execFnfma (g : Guard) (d a b c : BitVec 7) (rm : BitVec 3) (s : State) : Out := kFp3 g d a b c (ffma Fmt.fp32 true false rm.toNat) s
/-- R189. -/
def execFnfms (g : Guard) (d a b c : BitVec 7) (rm : BitVec 3) (s : State) : Out := kFp3 g d a b c (ffma Fmt.fp32 true true rm.toNat) s
/-- R190. -/
def execFcmpeq (g : Guard) (p : BitVec 4) (a b : BitVec 7) (s : State) : Out :=
  kslot g (fun act s => oweG p 2 act (fun c => fcmpTest 0 (s.ca.rd c a) (s.ca.rd c b)) s) s
/-- R190. -/
def execFcmplt (g : Guard) (p : BitVec 4) (a b : BitVec 7) (s : State) : Out :=
  kslot g (fun act s => oweG p 2 act (fun c => fcmpTest 1 (s.ca.rd c a) (s.ca.rd c b)) s) s
/-- R190. -/
def execFcmple (g : Guard) (p : BitVec 4) (a b : BitVec 7) (s : State) : Out :=
  kslot g (fun act s => oweG p 2 act (fun c => fcmpTest 2 (s.ca.rd c a) (s.ca.rd c b)) s) s
/-- R190. -/
def execFcmpun (g : Guard) (p : BitVec 4) (a b : BitVec 7) (s : State) : Out :=
  kslot g (fun act s => oweG p 2 act (fun c => fcmpTest 3 (s.ca.rd c a) (s.ca.rd c b)) s) s
/-- R191. -/
def execHadd (g : Guard) (d a b : BitVec 7) (rm : BitVec 3) (s : State) : Out := kFp2 g d a b (packed2 (fadd Fmt.fp16 rm.toNat)) s
/-- R191. -/
def execHsub (g : Guard) (d a b : BitVec 7) (rm : BitVec 3) (s : State) : Out := kFp2 g d a b (packed2 (fsub Fmt.fp16 rm.toNat)) s
/-- R191. -/
def execHmul (g : Guard) (d a b : BitVec 7) (rm : BitVec 3) (s : State) : Out := kFp2 g d a b (packed2 (fmul Fmt.fp16 rm.toNat)) s
/-- R191. -/
def execHmin (g : Guard) (d a b : BitVec 7) (s : State) : Out := kFp2 g d a b (packed2 (fmin Fmt.fp16)) s
/-- R191. -/
def execHmax (g : Guard) (d a b : BitVec 7) (s : State) : Out := kFp2 g d a b (packed2 (fmax Fmt.fp16)) s
/-- R191. -/
def execHfma (g : Guard) (d a b c : BitVec 7) (rm : BitVec 3) (s : State) : Out := kFp3 g d a b c (packed3 (ffma Fmt.fp16 false false rm.toNat)) s
/-- R191. -/
def execHfms (g : Guard) (d a b c : BitVec 7) (rm : BitVec 3) (s : State) : Out := kFp3 g d a b c (packed3 (ffma Fmt.fp16 false true rm.toNat)) s

/-- R193. -/
def execFrsqs (g : Guard) (d a : BitVec 7) (s : State) : Out := kFp1 g d a 6 seedRsqrt s
/-- R193. -/
def execFrcps (g : Guard) (d a : BitVec 7) (s : State) : Out := kFp1 g d a 6 seedRcp s
/-- R194. -/
def execFdivs (g : Guard) (d a : BitVec 7) (s : State) : Out := kFp1 g d a 4 divScale s

/-- The format of a conversion's descriptor (R195). -/
def cvtFmt (fd : BitVec 16) : Fmt := (fmtOf fd).getD Fmt.fp32

/-- R196. -/
def execCvtto (g : Guard) (d a : BitVec 7) (fd : BitVec 16) (rm : BitVec 3) (s : State) : Out :=
  kFp1 g d a 3 (convert Fmt.fp32 (cvtFmt fd) rm.toNat) s

/-- R196. -/
def execCvtfrom (g : Guard) (d a : BitVec 7) (fd : BitVec 16) (rm : BitVec 3) (s : State) : Out :=
  kFp1 g d a 3 (fun v => convert (cvtFmt fd) Fmt.fp32 rm.toNat (v % 2 ^ (cvtFmt fd).w)) s

/-- Elements that a packing conversion moves (R197). -/
def packCount (f : Fmt) : Nat := if f.w ≤ 8 then 4 else 2

/-- CVTPACK of a 128-bit value, and CVTUNPK of a 32-bit value (R197). -/
def cvtPack (f : Fmt) (rm : Nat) (m : Quad) : Nat :=
  ((List.range (packCount f)).map (fun e => convert Fmt.fp32 f rm (fldN m (32 * e) 32) * 2 ^ (f.w * e))).foldl (· + ·) 0
def cvtUnpack (f : Fmt) (rm v : Nat) : Nat :=
  ((List.range (packCount f)).map (fun e => convert f Fmt.fp32 rm (v / 2 ^ (f.w * e) % 2 ^ f.w) * 2 ^ (32 * e))).foldl (· + ·) 0

/-- R197. -/
def execCvtpack (g : Guard) (d a : BitVec 7) (fd : BitVec 16) (rm : BitVec 3) (s : State) : Out :=
  kslot g (fun act s => oweD d 3 act (fun c => cvtPack (cvtFmt fd) rm.toNat (s.ca.rm c a)) s) s

/-- R197. -/
def execCvtunpk (g : Guard) (d a : BitVec 7) (fd : BitVec 16) (rm : BitVec 3) (s : State) : Out :=
  kslot g (fun act s => oweM d 3 act (fun c => cvtUnpack (cvtFmt fd) rm.toNat (s.ca.rd c a).toNat) s) s

end Sys2Proof.Machine
end

