-- ==== Sys2Proof/Machine/KernelInt.lean ====
section
/-! DEFINITION. Integer and predicate operations of the cluster array (R181 to R186). -/

namespace Sys2Proof.Machine

/-- OP 0x01: d[c][DD] := v(d[c][DA], d[c][DB]) (R181). -/
def kInt (g : Guard) (d a b : BitVec 7) (off : Nat) (v : Word32 → Word32 → Word32) (s : State) : Out :=
  kslot g (fun act s => oweD d off act (fun c => (v (s.ca.rd c a) (s.ca.rd c b)).toNat) s) s

/-- One operand and possibly an immediate (R181, R182). -/
def kInt1 (g : Guard) (d a : BitVec 7) (off : Nat) (v : Word32 → Word32) (s : State) : Out :=
  kslot g (fun act s => oweD d off act (fun c => (v (s.ca.rd c a)).toNat) s) s

/-- A compare that writes a predicate (R184). -/
def kCmp (g : Guard) (p : BitVec 4) (cc : Nat) (x y : Nat → Ca → Word32) (s : State) : Out :=
  kslot g (fun act s => oweG p 1 act (fun c => cmpTest cc (x c s.ca) (y c s.ca)) s) s

/-- A predicate operation (R186). -/
def kPred (g : Guard) (p a b : BitVec 4) (fn : Nat) (s : State) : Out :=
  kslot g (fun act s => oweG p 1 act (fun c => predOp fn (s.ca.rg c a) (s.ca.rg c b)) s) s

/-- R181. -/
def execIadd (g : Guard) (d a b : BitVec 7) (s : State) : Out := kInt g d a b 1 (fun a b => a + b) s
/-- R181. -/
def execIsub (g : Guard) (d a b : BitVec 7) (s : State) : Out := kInt g d a b 1 (fun a b => a - b) s
/-- R181. -/
def execIand (g : Guard) (d a b : BitVec 7) (s : State) : Out := kInt g d a b 1 (fun a b => a &&& b) s
/-- R181. -/
def execIor (g : Guard) (d a b : BitVec 7) (s : State) : Out := kInt g d a b 1 (fun a b => a ||| b) s
/-- R181. -/
def execIxor (g : Guard) (d a b : BitVec 7) (s : State) : Out := kInt g d a b 1 (fun a b => a ^^^ b) s
/-- R181. -/
def execIandn (g : Guard) (d a b : BitVec 7) (s : State) : Out := kInt g d a b 1 (fun a b => a &&& ~~~b) s
/-- R181. -/
def execIshl (g : Guard) (d a b : BitVec 7) (s : State) : Out := kInt g d a b 1 (fun a b => a <<< fldN b 0 5) s
/-- R181. -/
def execIshr (g : Guard) (d a b : BitVec 7) (s : State) : Out := kInt g d a b 1 (fun a b => a >>> fldN b 0 5) s
/-- R181. -/
def execIsar (g : Guard) (d a b : BitVec 7) (s : State) : Out := kInt g d a b 1 (fun a b => a.sshiftRight (fldN b 0 5)) s
/-- R181. -/
def execImul (g : Guard) (d a b : BitVec 7) (s : State) : Out := kInt g d a b 3 (fun a b => a * b) s
/-- R181. -/
def execImulhu (g : Guard) (d a b : BitVec 7) (s : State) : Out := kInt g d a b 3 (fun a b => BitVec.ofNat 32 (a.toNat * b.toNat / 2 ^ 32)) s
/-- R181. -/
def execImulhs (g : Guard) (d a b : BitVec 7) (s : State) : Out := kInt g d a b 3 (fun a b => BitVec.ofInt 32 (a.toInt * b.toInt / 2 ^ 32)) s
/-- R181. -/
def execImin (g : Guard) (d a b : BitVec 7) (s : State) : Out := kInt g d a b 1 (fun a b => if b.slt a then b else a) s
/-- R181. -/
def execImax (g : Guard) (d a b : BitVec 7) (s : State) : Out := kInt g d a b 1 (fun a b => if a.slt b then b else a) s
/-- R181. -/
def execIminu (g : Guard) (d a b : BitVec 7) (s : State) : Out := kInt g d a b 1 (fun a b => if b.ult a then b else a) s
/-- R181. -/
def execImaxu (g : Guard) (d a b : BitVec 7) (s : State) : Out := kInt g d a b 1 (fun a b => if a.ult b then b else a) s
/-- R181. -/
def execIclz (g : Guard) (d a : BitVec 7) (s : State) : Out := kInt1 g d a 1 (fun a => BitVec.ofNat 32 (clzN 32 a.toNat)) s
/-- R181. -/
def execIpopc (g : Guard) (d a : BitVec 7) (s : State) : Out := kInt1 g d a 1 (fun a => BitVec.ofNat 32 (popcount a)) s
/-- R182. -/
def execIaddi (g : Guard) (d a : BitVec 7) (i : BitVec 32) (s : State) : Out := kInt1 g d a 1 (fun a => a + i) s
/-- R182. -/
def execIandi (g : Guard) (d a : BitVec 7) (i : BitVec 32) (s : State) : Out := kInt1 g d a 1 (fun a => a &&& i) s
/-- R182. -/
def execIori (g : Guard) (d a : BitVec 7) (i : BitVec 32) (s : State) : Out := kInt1 g d a 1 (fun a => a ||| i) s
/-- R182. -/
def execIxori (g : Guard) (d a : BitVec 7) (i : BitVec 32) (s : State) : Out := kInt1 g d a 1 (fun a => a ^^^ i) s
/-- R182. -/
def execIshli (g : Guard) (d a : BitVec 7) (i : BitVec 32) (s : State) : Out := kInt1 g d a 1 (fun a => a <<< i.toNat) s
/-- R182. -/
def execIshri (g : Guard) (d a : BitVec 7) (i : BitVec 32) (s : State) : Out := kInt1 g d a 1 (fun a => a >>> i.toNat) s
/-- R182. -/
def execIsari (g : Guard) (d a : BitVec 7) (i : BitVec 32) (s : State) : Out := kInt1 g d a 1 (fun a => a.sshiftRight i.toNat) s
/-- R182. -/
def execImuli (g : Guard) (d a : BitVec 7) (i : BitVec 32) (s : State) : Out := kInt1 g d a 3 (fun a => a * i) s

/-- R183. -/
def execMoviKernel (g : Guard) (d : BitVec 7) (i : BitVec 32) (s : State) : Out :=
  kslot g (fun act s => oweD d 1 act (fun _ => i.toNat) s) s

/-- R184. -/
def execIcmpeq (g : Guard) (p : BitVec 4) (a b : BitVec 7) (s : State) : Out := kCmp g p 0 (fun c v => v.rd c a) (fun c v => v.rd c b) s
/-- R184. -/
def execIcmpne (g : Guard) (p : BitVec 4) (a b : BitVec 7) (s : State) : Out := kCmp g p 1 (fun c v => v.rd c a) (fun c v => v.rd c b) s
/-- R184. -/
def execIcmplt (g : Guard) (p : BitVec 4) (a b : BitVec 7) (s : State) : Out := kCmp g p 2 (fun c v => v.rd c a) (fun c v => v.rd c b) s
/-- R184. -/
def execIcmpge (g : Guard) (p : BitVec 4) (a b : BitVec 7) (s : State) : Out := kCmp g p 3 (fun c v => v.rd c a) (fun c v => v.rd c b) s
/-- R184. -/
def execIcmpltu (g : Guard) (p : BitVec 4) (a b : BitVec 7) (s : State) : Out := kCmp g p 4 (fun c v => v.rd c a) (fun c v => v.rd c b) s
/-- R184. -/
def execIcmpgeu (g : Guard) (p : BitVec 4) (a b : BitVec 7) (s : State) : Out := kCmp g p 5 (fun c v => v.rd c a) (fun c v => v.rd c b) s
/-- R184. -/
def execIcmptst (g : Guard) (p : BitVec 4) (a b : BitVec 7) (s : State) : Out := kCmp g p 6 (fun c v => v.rd c a) (fun c v => v.rd c b) s
/-- R184. -/
def execIcmpeqi (g : Guard) (p : BitVec 4) (a : BitVec 7) (i : BitVec 32) (s : State) : Out := kCmp g p 0 (fun c v => v.rd c a) (fun _ _ => i) s
/-- R184. -/
def execIcmpnei (g : Guard) (p : BitVec 4) (a : BitVec 7) (i : BitVec 32) (s : State) : Out := kCmp g p 1 (fun c v => v.rd c a) (fun _ _ => i) s
/-- R184. -/
def execIcmplti (g : Guard) (p : BitVec 4) (a : BitVec 7) (i : BitVec 32) (s : State) : Out := kCmp g p 2 (fun c v => v.rd c a) (fun _ _ => i) s
/-- R184. -/
def execIcmpgei (g : Guard) (p : BitVec 4) (a : BitVec 7) (i : BitVec 32) (s : State) : Out := kCmp g p 3 (fun c v => v.rd c a) (fun _ _ => i) s
/-- R184. -/
def execIcmpltui (g : Guard) (p : BitVec 4) (a : BitVec 7) (i : BitVec 32) (s : State) : Out := kCmp g p 4 (fun c v => v.rd c a) (fun _ _ => i) s
/-- R184. -/
def execIcmpgeui (g : Guard) (p : BitVec 4) (a : BitVec 7) (i : BitVec 32) (s : State) : Out := kCmp g p 5 (fun c v => v.rd c a) (fun _ _ => i) s
/-- R184. -/
def execIcmptsti (g : Guard) (p : BitVec 4) (a : BitVec 7) (i : BitVec 32) (s : State) : Out := kCmp g p 6 (fun c v => v.rd c a) (fun _ _ => i) s

/-- R185. -/
def execSelKernel (g : Guard) (d a b : BitVec 7) (q : BitVec 4) (s : State) : Out :=
  kslot g (fun act s => oweD d 1 act (fun c => (if s.ca.rg c q then s.ca.rd c a else s.ca.rd c b).toNat) s) s

/-- R186. -/
def execGand (g : Guard) (p a b : BitVec 4) (s : State) : Out := kPred g p a b 0 s
/-- R186. -/
def execGor (g : Guard) (p a b : BitVec 4) (s : State) : Out := kPred g p a b 1 s
/-- R186. -/
def execGxor (g : Guard) (p a b : BitVec 4) (s : State) : Out := kPred g p a b 2 s
/-- R186. -/
def execGandn (g : Guard) (p a b : BitVec 4) (s : State) : Out := kPred g p a b 3 s
/-- R186. -/
def execGnot (g : Guard) (p a : BitVec 4) (s : State) : Out := kPred g p a 0 4 s

end Sys2Proof.Machine
end

