-- ==== Sys2Proof/Machine/Params.lean ====
section
/-! DEFINITION. Reads of parameter windows (R53, R102). -/

namespace Sys2Proof.Machine

/-- Fields of a window (R53): bound, size, base. -/
def winB (w : Quad) : Bool := bit w 96
def winSize (w : Quad) : Nat := fldN w 64 32
def winBase (w : Quad) : Word := (fld w 0 55 : BitVec 55).setWidth 64

/-- LDPSTK keeps the first access beyond a window (R57, R102). -/
def noteLdp (wn o : Nat) (c : Ctx) : Ctx :=
  if bit c.ldpstk 63 then c
  else { c with ldpstk := BitVec.ofNat 64 (2 ^ 63 + wn * 2 ^ 32 + min o 0xFFFFFFFF) }

/-- The access of R102 at byte offset o of window wn. -/
def windowRead (wn o sz : Nat) (d : BitVec 5) (s : State) : SlotRes :=
  let w : Quad := Tab.get 0 s.me.w wn
  let va := winBase w + BitVec.ofNat 64 o
  if winSize w < o + 2 ^ sz then .done ((s.wx d 0).modMe (noteLdp wn o))
  else withPlace s va 0 (loadFrom va d.toNat (2 ^ sz) false)

/-- LDP (R102). -/
def ldpOp (g : Guard) (d : BitVec 5) (wn : BitVec 3) (o : BitVec 12) (sz : Nat) (s : State) : Out :=
  slotABM g [d] (fun s =>
    if !winB (Tab.get 0 s.me.w wn.toNat) then .fault (Flt.mk0 0x04 wn.toNat) s
    else windowRead wn.toNat (o.toNat * 2 ^ sz) sz d s) s

/-- LDPR (R102). -/
def ldprOp (g : Guard) (d : BitVec 5) (wn : BitVec 3) (b : BitVec 5) (sz : Nat) (s : State) : Out :=
  slotABM g [d, b] (fun s =>
    let w : Quad := Tab.get 0 s.me.w wn.toNat
    if !winB w then .fault (Flt.mk0 0x04 wn.toNat) s
    else if (s.rx b).toNat % 2 ^ sz ≠ 0 then .fault ⟨0x05, 1, (winBase w + s.rx b).toNat, sz, 0⟩ s
    else windowRead wn.toNat (s.rx b).toNat sz d s) s

/-- R102. -/
def execLdpb (g : Guard) (d : BitVec 5) (w : BitVec 3) (o : BitVec 12) (s : State) : Out := ldpOp g d w o 0 s
/-- R102. -/
def execLdph (g : Guard) (d : BitVec 5) (w : BitVec 3) (o : BitVec 12) (s : State) : Out := ldpOp g d w o 1 s
/-- R102. -/
def execLdpw (g : Guard) (d : BitVec 5) (w : BitVec 3) (o : BitVec 12) (s : State) : Out := ldpOp g d w o 2 s
/-- R102. -/
def execLdpd (g : Guard) (d : BitVec 5) (w : BitVec 3) (o : BitVec 12) (s : State) : Out := ldpOp g d w o 3 s
/-- R102. -/
def execLdprb (g : Guard) (d : BitVec 5) (w : BitVec 3) (b : BitVec 5) (s : State) : Out := ldprOp g d w b 0 s
/-- R102. -/
def execLdprh (g : Guard) (d : BitVec 5) (w : BitVec 3) (b : BitVec 5) (s : State) : Out := ldprOp g d w b 1 s
/-- R102. -/
def execLdprw (g : Guard) (d : BitVec 5) (w : BitVec 3) (b : BitVec 5) (s : State) : Out := ldprOp g d w b 2 s
/-- R102. -/
def execLdprd (g : Guard) (d : BitVec 5) (w : BitVec 3) (b : BitVec 5) (s : State) : Out := ldprOp g d w b 3 s

end Sys2Proof.Machine
end

