-- ==== Sys2Proof/Machine/Pred.lean ====
section
/-! DEFINITION. Compares and predicate logic of the control processor (R91, R93). -/

namespace Sys2Proof.Machine

/-- A register compare (R91). -/
def cmpRR (g : Guard) (p : BitVec 4) (a b : BitVec 5) (cc : Nat) (s : State) : Out :=
  slotABM g [a, b] (fun s => .done (s.wg p (cmpTest cc (s.rx a) (s.rx b)))) s

/-- An immediate compare: b is the sign-extended immediate (R91). -/
def cmpRI (g : Guard) (p : BitVec 4) (a : BitVec 5) (i : BitVec 9) (cc : Nat) (s : State) : Out :=
  slotABM g [a] (fun s => .done (s.wg p (cmpTest cc (s.rx a) (i.signExtend 64)))) s

/-- A predicate operation (R93). -/
def predOps (g : Guard) (p a b : BitVec 4) (fn : Nat) (s : State) : Out :=
  slotABM g [] (fun s => .done (s.wg p (predOp fn (s.rg a) (s.rg b)))) s

/-- R91. -/
def execCmpeq (g : Guard) (p : BitVec 4) (a b : BitVec 5) (s : State) : Out := cmpRR g p a b 0 s
/-- R91. -/
def execCmpne (g : Guard) (p : BitVec 4) (a b : BitVec 5) (s : State) : Out := cmpRR g p a b 1 s
/-- R91. -/
def execCmplt (g : Guard) (p : BitVec 4) (a b : BitVec 5) (s : State) : Out := cmpRR g p a b 2 s
/-- R91. -/
def execCmpge (g : Guard) (p : BitVec 4) (a b : BitVec 5) (s : State) : Out := cmpRR g p a b 3 s
/-- R91. -/
def execCmpltu (g : Guard) (p : BitVec 4) (a b : BitVec 5) (s : State) : Out := cmpRR g p a b 4 s
/-- R91. -/
def execCmpgeu (g : Guard) (p : BitVec 4) (a b : BitVec 5) (s : State) : Out := cmpRR g p a b 5 s
/-- R91. -/
def execCmptst (g : Guard) (p : BitVec 4) (a b : BitVec 5) (s : State) : Out := cmpRR g p a b 6 s
/-- R91. -/
def execCmpeqi (g : Guard) (p : BitVec 4) (a : BitVec 5) (i : BitVec 9) (s : State) : Out := cmpRI g p a i 0 s
/-- R91. -/
def execCmpnei (g : Guard) (p : BitVec 4) (a : BitVec 5) (i : BitVec 9) (s : State) : Out := cmpRI g p a i 1 s
/-- R91. -/
def execCmplti (g : Guard) (p : BitVec 4) (a : BitVec 5) (i : BitVec 9) (s : State) : Out := cmpRI g p a i 2 s
/-- R91. -/
def execCmpgei (g : Guard) (p : BitVec 4) (a : BitVec 5) (i : BitVec 9) (s : State) : Out := cmpRI g p a i 3 s
/-- R91. -/
def execCmpltui (g : Guard) (p : BitVec 4) (a : BitVec 5) (i : BitVec 9) (s : State) : Out := cmpRI g p a i 4 s
/-- R91. -/
def execCmpgeui (g : Guard) (p : BitVec 4) (a : BitVec 5) (i : BitVec 9) (s : State) : Out := cmpRI g p a i 5 s
/-- R91. -/
def execCmptsti (g : Guard) (p : BitVec 4) (a : BitVec 5) (i : BitVec 9) (s : State) : Out := cmpRI g p a i 6 s
/-- R93. -/
def execPand (g : Guard) (p a b : BitVec 4) (s : State) : Out := predOps g p a b 0 s
/-- R93. -/
def execPor (g : Guard) (p a b : BitVec 4) (s : State) : Out := predOps g p a b 1 s
/-- R93. -/
def execPxor (g : Guard) (p a b : BitVec 4) (s : State) : Out := predOps g p a b 2 s
/-- R93. -/
def execPandn (g : Guard) (p a b : BitVec 4) (s : State) : Out := predOps g p a b 3 s
/-- R93. -/
def execPnot (g : Guard) (p a : BitVec 4) (s : State) : Out := predOps g p a 0 4 s

end Sys2Proof.Machine
end

