-- ==== Sys2Proof/Machine/Service.lean ====
section
/-! DEFINITION. The service processor: starts, firmware, measurements, keys, sensors, clock and temperature (R386 to R391). -/

namespace Sys2Proof.Machine

/-! ## Starts -/

/-- The units of package p at reset; each die's SD is what its fuses leave, and its cycle counter starts at 0 (R309, R390). -/
def resetUnits (s : State) (p : Nat) (sd : Nat → Bool) : State :=
  let s : State := { s with
    ctxs := s.ctxs.filter (fun t => t.1 / 2048 ≠ p), cores := s.cores.filter (fun t => t.1 / 512 ≠ p),
    sheds := s.sheds.filter (fun t => t.1 / 132 ≠ p),
    reqs := s.reqs.filter (fun t => t.2.all (fun q => pkgOfCtx q.x ≠ p)),
    verbs := s.verbs.filter (fun t => t.2.all (fun v => pkgOfCtx v.x ≠ p)),
    pkts := s.pkts.filter (fun t => t.2.all (fun k => k.from_ / 4 ≠ p)) }
  (List.range 4).foldl (fun s i => s.setDie (p * 4 + i) { Die.reset with sd := sd i, tick := 0 - BitVec.ofNat 64 s.now }) s

/-- The firmware image that runs after a start: a staged one takes effect, unless the start fails to verify it, when it is discarded
(R388, R390). -/
def startedImage (k : Pkg) (fail : Nat) : Option Image := if fail = 1 then k.image else k.staged.or k.image

/-- The package after a start in cycle now, of the given CAUSE, that failed in step fail, or passed with fail 0 (R390). -/
def startedPkg (k : Pkg) (now cause fail code : Nat) : Pkg :=
  let min := k.fails = 3
  { Pkg.reset with
    sresn := BitVec.ofNat 64 (fail * 2 ^ 24 + (if fail = 0 then 0 else code * 2 ^ 16) + b2n min * 2 ^ 3 + cause),
    fails := if fail ≠ 0 then Nat.min 3 (k.fails + 1) else if min then k.fails else 0,
    image := startedImage k fail, clockAt := now,
    vectors := k.vectors, out := k.out }

/-- A start of package p. A failure of step 4 fuses stacked dies off and is no start failure (R390). -/
def startPkg (s : State) (p cause fail code : Nat) (sd : BitVec 4) : State :=
  let k := s.pkg p
  let bad := if fail = 4 then 0 else fail
  let tested := fun i => (bad = 0 || 4 < bad) && (k.fails ≠ 3 || i = 0)
  let keep := fun i => (s.die (p * 4 + i)).sd && (!tested i || bit sd i)
  noteSresn s ((resetUnits (sendResetNotices s p) p keep).setPkg p (startedPkg k s.now cause bad code)) p

/-- A start may begin: after a thermal trip, only a power cycle or the service port brings one about (R391). While a die is held the
watchdogs pause and order none (R310, R390). -/
def mayStartUp (s : State) (p cause : Nat) : Bool :=
  let k := s.pkg p
  k.starting.isSome || ((!k.thermal || cause = 0 || cause = 2) && !(cause = 3 && dhold s p))

/-- R390: START_UP. The cause is 4 after a thermal trip, that of a start which was ordered, or the one given. -/
def execStartUp (p : Nat) (cause : BitVec 3) (fail : Nat) (code : BitVec 8) (sd : BitVec 4) (s : State) : Out :=
  let k := s.pkg p
  let c := if k.thermal then 4 else k.starting.getD cause.toNat
  if 7 < fail ∨ 4 < c ∨ !mayStartUp s p cause.toNat then .next s else .next (startPkg s p c fail code.toNat sd)

/-! ## Firmware and keys -/

/-- R388: an image is staged when the key's hash, the signature and the security version are accepted; else it is discarded. -/
def execFirmwareUpdate (p : Nat) (img key : List (BitVec 8)) (ver : BitVec 16) (sig : List (BitVec 8)) (s : State) : Out :=
  let digest := Config.sm3 img
  .next (if Config.sm3 key = Config.fusedKeyHash ∧ Config.sm2Verify key digest sig = true ∧ Config.fusedMinVersion.toNat ≤ ver.toNat
    then s.modPkg p (fun k => { k with staged := some ⟨ver, digest⟩ })
    else s)

/-- The measurement of an index (R389). -/
def measurement (s : State) (p idx : Nat) : Option (List Byte) :=
  let k := s.pkg p
  match idx with
  | 1 => some (Config.firmwareDigest 1 (k.image.map (·.digest)))
  | 2 => some (Config.firmwareDigest 2 (k.image.map (·.digest)))
  | 3 => some (Config.fuseMeasurement ((List.range 4).map (fun i => (s.die (p * 4 + i)).sd)))
  | 4 => some ((Tab.members k.loaded).flatMap (fun l => Config.sm3 l.2.hdr))
  | _ => none

/-- R389: SPDM_MEASUREMENT: the measurement, signed with the identity key. -/
def execSpdmMeasurement (p idx : Nat) (s : State) : Out :=
  match measurement s p idx with
  | none => .next s
  | some m => .next (hostOut s p (m ++ Config.sm2Sign p (Config.sm3 m)))

/-- R387: LINK_KEY_LOAD: accepted only in a message inside an SPDM secured session (log 69), and only while the port's UP is 0. -/
def execLinkKeyLoad (p : SvcCmd) (port : Nat) (dir : Bool) (key : BitVec 128) (s : State) : Out :=
  if 16 ≤ port ∨ portUp s p.pkg port = true ∨ p.msg ≠ some true then .next s
  else .next (s.modDie (p.pkg * 4 + port / 4) (fun d => { d with keys := Tab.set none d.keys (port % 4 * 2 + b2n dir) (some key) }))

/-! ## Sensors, clock and temperature -/

/-- A corrected-error count, summed over the four dies (R386). -/
def errorCount (s : State) (p lo : Nat) : Nat := ((List.range 4).map (fun i => fldN (s.die (p * 4 + i)).cecnt lo 16)).foldl (· + ·) 0

/-- Sensors (log 24): 0 to 3 the counts SRF, MSS, HBM and STORE, 4 the arithmetic clock in MHz. The others measure what the spec
gives no value of. -/
def sensor (s : State) (p i : Nat) : Option Nat :=
  match i with
  | 0 => some (errorCount s p 48)
  | 1 => some (errorCount s p 32)
  | 2 => some (errorCount s p 16)
  | 3 => some (errorCount s p 0)
  | 4 => some ((s.pkg p).clock * 100)
  | _ => none

/-- R387: PLDM_SENSOR_READ. Power and temperatures are free values. -/
def execPldmSensorRead (p sensor_ : Nat) (s : State) : Out :=
  match sensor s p sensor_ with
  | some v => .next (hostOut s p (leBytes 8 v))
  | none => .next (hostOut s.nextFree p (leBytes 8 s.freeVal.toNat))

/-- R391: CLOCK_STEP: 100 MHz less, down to 0.9 GHz, on every die in one cycle. What the package's counters have fallen behind so far
stays. -/
def execClockStep (p : Nat) (s : State) : Out :=
  .next (s.modPkg p (fun k => { k with clock := max 9 (k.clock - 1), lag := s.lagOf p, clockAt := s.now }))

/-- R385, R391: THERMAL_TRIP at a die: MCTHERM, and every core of the package stops. -/
def execThermalTrip (p die : Nat) (s : State) : Out :=
  if (s.pkg p).thermal then .next s
  else .next ((machineCheckDie s (p * 4 + die % 4) (Flt.mk0 0xF5 0)).modPkg p (fun k => { k with thermal := true }))

/-- R385: D2D_LINK_FAILURE of the link between dies a and b of package p, reported on die a. -/
def execD2dLinkFailure (p a b : Nat) (s : State) : Out :=
  if a % 4 = b % 4 then .next s else .next (machineCheckDie s (p * 4 + a % 4) (Flt.mk0 0xF4 0))

end Sys2Proof.Machine
end

