-- ==== Sys2Proof/Machine/Dispatch.lean ====
section
/-! DEFINITION. The meaning of every instruction: one arm per constructor. -/

namespace Sys2Proof.Machine

def exec (i : Instr) (s : State) : Host.Outcome State Fault Refusal :=
  match i with
  | .nop => Sys2Proof.Machine.execNop s
  | .add g d a b => Sys2Proof.Machine.execAdd g d a b s
  | .sub g d a b => Sys2Proof.Machine.execSub g d a b s
  | .and g d a b => Sys2Proof.Machine.execAnd g d a b s
  | .or g d a b => Sys2Proof.Machine.execOr g d a b s
  | .xor g d a b => Sys2Proof.Machine.execXor g d a b s
  | .andn g d a b => Sys2Proof.Machine.execAndn g d a b s
  | .shl g d a b => Sys2Proof.Machine.execShl g d a b s
  | .shr g d a b => Sys2Proof.Machine.execShr g d a b s
  | .sar g d a b => Sys2Proof.Machine.execSar g d a b s
  | .ror g d a b => Sys2Proof.Machine.execRor g d a b s
  | .mul g d a b => Sys2Proof.Machine.execMul g d a b s
  | .mulhu g d a b => Sys2Proof.Machine.execMulhu g d a b s
  | .mulhs g d a b => Sys2Proof.Machine.execMulhs g d a b s
  | .min g d a b => Sys2Proof.Machine.execMin g d a b s
  | .max g d a b => Sys2Proof.Machine.execMax g d a b s
  | .minu g d a b => Sys2Proof.Machine.execMinu g d a b s
  | .maxu g d a b => Sys2Proof.Machine.execMaxu g d a b s
  | .clz g d a => Sys2Proof.Machine.execClz g d a s
  | .ctz g d a => Sys2Proof.Machine.execCtz g d a s
  | .popc g d a => Sys2Proof.Machine.execPopc g d a s
  | .addi g d a ix => Sys2Proof.Machine.execAddi g d a ix s
  | .andi g d a ix => Sys2Proof.Machine.execAndi g d a ix s
  | .ori g d a ix => Sys2Proof.Machine.execOri g d a ix s
  | .xori g d a ix => Sys2Proof.Machine.execXori g d a ix s
  | .shli g d a s_ => Sys2Proof.Machine.execShli g d a s_ s
  | .shri g d a s_ => Sys2Proof.Machine.execShri g d a s_ s
  | .sari g d a s_ => Sys2Proof.Machine.execSari g d a s_ s
  | .rori g d a s_ => Sys2Proof.Machine.execRori g d a s_ s
  | .movi g d ix => Sys2Proof.Machine.execMovi g d ix s
  | .cmpeq g p a b => Sys2Proof.Machine.execCmpeq g p a b s
  | .cmpne g p a b => Sys2Proof.Machine.execCmpne g p a b s
  | .cmplt g p a b => Sys2Proof.Machine.execCmplt g p a b s
  | .cmpge g p a b => Sys2Proof.Machine.execCmpge g p a b s
  | .cmpltu g p a b => Sys2Proof.Machine.execCmpltu g p a b s
  | .cmpgeu g p a b => Sys2Proof.Machine.execCmpgeu g p a b s
  | .cmptst g p a b => Sys2Proof.Machine.execCmptst g p a b s
  | .cmpeqi g p a ix => Sys2Proof.Machine.execCmpeqi g p a ix s
  | .cmpnei g p a ix => Sys2Proof.Machine.execCmpnei g p a ix s
  | .cmplti g p a ix => Sys2Proof.Machine.execCmplti g p a ix s
  | .cmpgei g p a ix => Sys2Proof.Machine.execCmpgei g p a ix s
  | .cmpltui g p a ix => Sys2Proof.Machine.execCmpltui g p a ix s
  | .cmpgeui g p a ix => Sys2Proof.Machine.execCmpgeui g p a ix s
  | .cmptsti g p a ix => Sys2Proof.Machine.execCmptsti g p a ix s
  | .sel g d a b s_ => Sys2Proof.Machine.execSel g d a b s_ s
  | .bfx g d a p l => Sys2Proof.Machine.execBfx g d a p l s
  | .bfxs g d a p l => Sys2Proof.Machine.execBfxs g d a p l s
  | .bfi g d a p l => Sys2Proof.Machine.execBfi g d a p l s
  | .pand g p a b => Sys2Proof.Machine.execPand g p a b s
  | .por g p a b => Sys2Proof.Machine.execPor g p a b s
  | .pxor g p a b => Sys2Proof.Machine.execPxor g p a b s
  | .pandn g p a b => Sys2Proof.Machine.execPandn g p a b s
  | .pnot g p a => Sys2Proof.Machine.execPnot g p a s
  | .br g o => Sys2Proof.Machine.execBr g o s
  | .call g o => Sys2Proof.Machine.execCall g o s
  | .brr g a => Sys2Proof.Machine.execBrr g a s
  | .callr g a => Sys2Proof.Machine.execCallr g a s
  | .trap g ix => Sys2Proof.Machine.execTrap g ix s
  | .eret g => Sys2Proof.Machine.execEret g s
  | .yield g => Sys2Proof.Machine.execYield g s
  | .mfs g d s_ => Sys2Proof.Machine.execMfs g d s_ s
  | .mts g d s_ => Sys2Proof.Machine.execMts g d s_ s
  | .rdtick g d => Sys2Proof.Machine.execRdtick g d s
  | .ldub g d a o => Sys2Proof.Machine.execLdub g d a o s
  | .lduh g d a o => Sys2Proof.Machine.execLduh g d a o s
  | .lduw g d a o => Sys2Proof.Machine.execLduw g d a o s
  | .ldd g d a o => Sys2Proof.Machine.execLdd g d a o s
  | .ldsb g d a o => Sys2Proof.Machine.execLdsb g d a o s
  | .ldsh g d a o => Sys2Proof.Machine.execLdsh g d a o s
  | .ldsw g d a o => Sys2Proof.Machine.execLdsw g d a o s
  | .stb g d a o => Sys2Proof.Machine.execStb g d a o s
  | .sth g d a o => Sys2Proof.Machine.execSth g d a o s
  | .stw g d a o => Sys2Proof.Machine.execStw g d a o s
  | .std g d a o => Sys2Proof.Machine.execStd g d a o s
  | .ldpb g d w o => Sys2Proof.Machine.execLdpb g d w o s
  | .ldph g d w o => Sys2Proof.Machine.execLdph g d w o s
  | .ldpw g d w o => Sys2Proof.Machine.execLdpw g d w o s
  | .ldpd g d w o => Sys2Proof.Machine.execLdpd g d w o s
  | .ldprb g d w b => Sys2Proof.Machine.execLdprb g d w b s
  | .ldprh g d w b => Sys2Proof.Machine.execLdprh g d w b s
  | .ldprw g d w b => Sys2Proof.Machine.execLdprw g d w b s
  | .ldprd g d w b => Sys2Proof.Machine.execLdprd g d w b s
  | .fence g s_ => Sys2Proof.Machine.execFence g s_ s
  | .bar g s_ o a => Sys2Proof.Machine.execBar g s_ o a s
  | .lds4 g d h b => Sys2Proof.Machine.execLds4 g d h b s
  | .lds8 g d h b => Sys2Proof.Machine.execLds8 g d h b s
  | .sts4 g d h b => Sys2Proof.Machine.execSts4 g d h b s
  | .sts8 g d h b => Sys2Proof.Machine.execSts8 g d h b s
  | .saadd g d h b => Sys2Proof.Machine.execSaadd g d h b s
  | .safadd g d h b => Sys2Proof.Machine.execSafadd g d h b s
  | .samin g d h b => Sys2Proof.Machine.execSamin g d h b s
  | .samax g d h b => Sys2Proof.Machine.execSamax g d h b s
  | .saxchg g d h b => Sys2Proof.Machine.execSaxchg g d h b s
  | .sacas g d h b => Sys2Proof.Machine.execSacas g d h b s
  | .salloc g d h a => Sys2Proof.Machine.execSalloc g d h a s
  | .sfree g h => Sys2Proof.Machine.execSfree g h s
  | .sload g h a b => Sys2Proof.Machine.execSload g h a b s
  | .sloadx g h a b => Sys2Proof.Machine.execSloadx g h a b s
  | .sstore g h a b => Sys2Proof.Machine.execSstore g h a b s
  | .sgather g h ix a => Sys2Proof.Machine.execSgather g h ix a s
  | .sbag g h ix a => Sys2Proof.Machine.execSbag g h ix a s
  | .sbagm g h ix a => Sys2Proof.Machine.execSbagm g h ix a s
  | .scopy g h a b => Sys2Proof.Machine.execScopy g h a b s
  | .scopyp g h a b => Sys2Proof.Machine.execScopyp g h a b s
  | .srecv g h => Sys2Proof.Machine.execSrecv g h s
  | .swait g h => Sys2Proof.Machine.execSwait g h s
  | .swaitAll g => Sys2Proof.Machine.execSwaitAll g s
  | .krun g a b c => Sys2Proof.Machine.execKrun g a b c s
  | .lwait g x => Sys2Proof.Machine.execLwait g x s
  | .iadd g d a b => Sys2Proof.Machine.execIadd g d a b s
  | .isub g d a b => Sys2Proof.Machine.execIsub g d a b s
  | .iand g d a b => Sys2Proof.Machine.execIand g d a b s
  | .ior g d a b => Sys2Proof.Machine.execIor g d a b s
  | .ixor g d a b => Sys2Proof.Machine.execIxor g d a b s
  | .iandn g d a b => Sys2Proof.Machine.execIandn g d a b s
  | .ishl g d a b => Sys2Proof.Machine.execIshl g d a b s
  | .ishr g d a b => Sys2Proof.Machine.execIshr g d a b s
  | .isar g d a b => Sys2Proof.Machine.execIsar g d a b s
  | .imul g d a b => Sys2Proof.Machine.execImul g d a b s
  | .imulhu g d a b => Sys2Proof.Machine.execImulhu g d a b s
  | .imulhs g d a b => Sys2Proof.Machine.execImulhs g d a b s
  | .imin g d a b => Sys2Proof.Machine.execImin g d a b s
  | .imax g d a b => Sys2Proof.Machine.execImax g d a b s
  | .iminu g d a b => Sys2Proof.Machine.execIminu g d a b s
  | .imaxu g d a b => Sys2Proof.Machine.execImaxu g d a b s
  | .iclz g d a => Sys2Proof.Machine.execIclz g d a s
  | .ipopc g d a => Sys2Proof.Machine.execIpopc g d a s
  | .iaddi g d a imm => Sys2Proof.Machine.execIaddi g d a imm s
  | .iandi g d a imm => Sys2Proof.Machine.execIandi g d a imm s
  | .iori g d a imm => Sys2Proof.Machine.execIori g d a imm s
  | .ixori g d a imm => Sys2Proof.Machine.execIxori g d a imm s
  | .ishli g d a imm => Sys2Proof.Machine.execIshli g d a imm s
  | .ishri g d a imm => Sys2Proof.Machine.execIshri g d a imm s
  | .isari g d a imm => Sys2Proof.Machine.execIsari g d a imm s
  | .imuli g d a imm => Sys2Proof.Machine.execImuli g d a imm s
  | .moviKernel g d imm => Sys2Proof.Machine.execMoviKernel g d imm s
  | .icmpeq g p a b => Sys2Proof.Machine.execIcmpeq g p a b s
  | .icmpne g p a b => Sys2Proof.Machine.execIcmpne g p a b s
  | .icmplt g p a b => Sys2Proof.Machine.execIcmplt g p a b s
  | .icmpge g p a b => Sys2Proof.Machine.execIcmpge g p a b s
  | .icmpltu g p a b => Sys2Proof.Machine.execIcmpltu g p a b s
  | .icmpgeu g p a b => Sys2Proof.Machine.execIcmpgeu g p a b s
  | .icmptst g p a b => Sys2Proof.Machine.execIcmptst g p a b s
  | .icmpeqi g p a imm => Sys2Proof.Machine.execIcmpeqi g p a imm s
  | .icmpnei g p a imm => Sys2Proof.Machine.execIcmpnei g p a imm s
  | .icmplti g p a imm => Sys2Proof.Machine.execIcmplti g p a imm s
  | .icmpgei g p a imm => Sys2Proof.Machine.execIcmpgei g p a imm s
  | .icmpltui g p a imm => Sys2Proof.Machine.execIcmpltui g p a imm s
  | .icmpgeui g p a imm => Sys2Proof.Machine.execIcmpgeui g p a imm s
  | .icmptsti g p a imm => Sys2Proof.Machine.execIcmptsti g p a imm s
  | .selKernel g d a b q => Sys2Proof.Machine.execSelKernel g d a b q s
  | .gand g p a b => Sys2Proof.Machine.execGand g p a b s
  | .gor g p a b => Sys2Proof.Machine.execGor g p a b s
  | .gxor g p a b => Sys2Proof.Machine.execGxor g p a b s
  | .gandn g p a b => Sys2Proof.Machine.execGandn g p a b s
  | .gnot g p a => Sys2Proof.Machine.execGnot g p a s
  | .fadd g d a b rm => Sys2Proof.Machine.execFadd g d a b rm s
  | .fsub g d a b rm => Sys2Proof.Machine.execFsub g d a b rm s
  | .fmul g d a b rm => Sys2Proof.Machine.execFmul g d a b rm s
  | .fmin g d a b => Sys2Proof.Machine.execFmin g d a b s
  | .fmax g d a b => Sys2Proof.Machine.execFmax g d a b s
  | .fabs g d a => Sys2Proof.Machine.execFabs g d a s
  | .fneg g d a => Sys2Proof.Machine.execFneg g d a s
  | .ffma g d a b c rm => Sys2Proof.Machine.execFfma g d a b c rm s
  | .ffms g d a b c rm => Sys2Proof.Machine.execFfms g d a b c rm s
  | .fnfma g d a b c rm => Sys2Proof.Machine.execFnfma g d a b c rm s
  | .fnfms g d a b c rm => Sys2Proof.Machine.execFnfms g d a b c rm s
  | .fcmpeq g p a b => Sys2Proof.Machine.execFcmpeq g p a b s
  | .fcmplt g p a b => Sys2Proof.Machine.execFcmplt g p a b s
  | .fcmple g p a b => Sys2Proof.Machine.execFcmple g p a b s
  | .fcmpun g p a b => Sys2Proof.Machine.execFcmpun g p a b s
  | .hadd g d a b rm => Sys2Proof.Machine.execHadd g d a b rm s
  | .hsub g d a b rm => Sys2Proof.Machine.execHsub g d a b rm s
  | .hmul g d a b rm => Sys2Proof.Machine.execHmul g d a b rm s
  | .hmin g d a b => Sys2Proof.Machine.execHmin g d a b s
  | .hmax g d a b => Sys2Proof.Machine.execHmax g d a b s
  | .hfma g d a b c rm => Sys2Proof.Machine.execHfma g d a b c rm s
  | .hfms g d a b c rm => Sys2Proof.Machine.execHfms g d a b c rm s
  | .mvmw g d a w => Sys2Proof.Machine.execMvmw g d a w s
  | .mvwm g d a w => Sys2Proof.Machine.execMvwm g d a w s
  | .frsqs g d a => Sys2Proof.Machine.execFrsqs g d a s
  | .frcps g d a => Sys2Proof.Machine.execFrcps g d a s
  | .fdivs g d a => Sys2Proof.Machine.execFdivs g d a s
  | .cvtto g d a fd rm => Sys2Proof.Machine.execCvtto g d a fd rm s
  | .cvtfrom g d a fd rm => Sys2Proof.Machine.execCvtfrom g d a fd rm s
  | .cvtpack g d a fd rm => Sys2Proof.Machine.execCvtpack g d a fd rm s
  | .cvtunpk g d a fd rm => Sys2Proof.Machine.execCvtunpk g d a fd rm s
  | .srd g r port quad => Sys2Proof.Machine.execSrd g r port quad s
  | .swr g r port quad => Sys2Proof.Machine.execSwr g r port quad s
  | .xsend g d a cl => Sys2Proof.Machine.execXsend g d a cl s
  | .xbcast g d a cl => Sys2Proof.Machine.execXbcast g d a cl s
  | .xperm g d a b => Sys2Proof.Machine.execXperm g d a b s
  | .xsum g d a => Sys2Proof.Machine.execXsum g d a s
  | .xsumf g d a => Sys2Proof.Machine.execXsumf g d a s
  | .xmaxf g d a => Sys2Proof.Machine.execXmaxf g d a s
  | .xminf g d a => Sys2Proof.Machine.execXminf g d a s
  | .trow g d tile idx => Sys2Proof.Machine.execTrow g d tile idx s
  | .trowr g d tile idx => Sys2Proof.Machine.execTrowr g d tile idx s
  | .tcol g d tile idx => Sys2Proof.Machine.execTcol g d tile idx s
  | .tcolr g d tile idx => Sys2Proof.Machine.execTcolr g d tile idx s
  | .tzero g tile => Sys2Proof.Machine.execTzero g tile s
  | .tcfg tile rmask cmask => Sys2Proof.Machine.execTcfg tile rmask cmask s
  | .loop => Sys2Proof.Machine.execLoop s
  | .wait n => Sys2Proof.Machine.execWait n s
  | .cfmt g opd fd => Sys2Proof.Machine.execCfmt g opd fd s
  | .cbind g bind => Sys2Proof.Machine.execCbind g bind s
  | .clatch g pl port kc ofg psg => Sys2Proof.Machine.execClatch g pl port kc ofg psg s
  | .clatchr g pl dr kc ofg psg => Sys2Proof.Machine.execClatchr g pl dr kc ofg psg s
  | .cube g aport sc dm ds st zb => Sys2Proof.Machine.execCube g aport sc dm ds st zb s
  | .czero g dz zo n => Sys2Proof.Machine.execCzero g dz zo n s
  | .cmovzToM g m dz zo q => Sys2Proof.Machine.execCmovzToM g m dz zo q s
  | .cmovzToZ g m dz zo q => Sys2Proof.Machine.execCmovzToZ g m dz zo q s
  | .cstat g d sel clr => Sys2Proof.Machine.execCstat g d sel clr s
  | .cstop g => Sys2Proof.Machine.execCstop g s
  | .sscadd g v ix a => Sys2Proof.Machine.execSscadd g v ix a s
  | .srowupd g v ix a => Sys2Proof.Machine.execSrowupd g v ix a s
  | .aadd g d p s_ o z => Sys2Proof.Machine.execAadd g d p s_ o z s
  | .afadd g d p s_ o => Sys2Proof.Machine.execAfadd g d p s_ o s
  | .amin g d p s_ o z => Sys2Proof.Machine.execAmin g d p s_ o z s
  | .amax g d p s_ o z => Sys2Proof.Machine.execAmax g d p s_ o z s
  | .aand g d p s_ o z => Sys2Proof.Machine.execAand g d p s_ o z s
  | .aor g d p s_ o z => Sys2Proof.Machine.execAor g d p s_ o z s
  | .axor g d p s_ o z => Sys2Proof.Machine.execAxor g d p s_ o z s
  | .axchg g d p s_ o z => Sys2Proof.Machine.execAxchg g d p s_ o z s
  | .acas g d p s_ o z => Sys2Proof.Machine.execAcas g d p s_ o z s
  | .qpush g d a r s_ => Sys2Proof.Machine.execQpush g d a r s_ s
  | .qpop g d a r s_ => Sys2Proof.Machine.execQpop g d a r s_ s
  | .put g d q o => Sys2Proof.Machine.execPut g d q o s
  | .get g d q o => Sys2Proof.Machine.execGet g d q o s
  | .signal g d q => Sys2Proof.Machine.execSignal g d q s
  | .lamo g d q f o z => Sys2Proof.Machine.execLamo g d q f o z s
  | .synct g d a s_ => Sys2Proof.Machine.execSynct g d a s_ s
  | .gopen g d a => Sys2Proof.Machine.execGopen g d a s
  | .gstore g x a k z => Sys2Proof.Machine.execGstore g x a k z s
  | .sstoreg g h a => Sys2Proof.Machine.execSstoreg g h a s
  | .sscaddg g v ix a => Sys2Proof.Machine.execSscaddg g v ix a s
  | .gseal g d a => Sys2Proof.Machine.execGseal g d a s
  | .gcommit g d k => Sys2Proof.Machine.execGcommit g d k s
  | .gabort g d k => Sys2Proof.Machine.execGabort g d k s
  | .gwait g d k => Sys2Proof.Machine.execGwait g d k s
  | .gpeek g d a => Sys2Proof.Machine.execGpeek g d a s
  | .gdeleg g d a => Sys2Proof.Machine.execGdeleg g d a s
  | .gstat g d k => Sys2Proof.Machine.execGstat g d k s
  | .barDeparture x => Sys2Proof.Machine.execBarDeparture x s
  | .windowAnswer x => Sys2Proof.Machine.execWindowAnswer x s
  | .sallocAnswer x => Sys2Proof.Machine.execSallocAnswer x s
  | .remoteStallCopy c e => Sys2Proof.Machine.execRemoteStallCopy c e s
  | .entryStart c e => Sys2Proof.Machine.execEntryStart c e s
  | .entryRetire c e => Sys2Proof.Machine.execEntryRetire c e s
  | .invocationFirstBundle c => Sys2Proof.Machine.execInvocationFirstBundle c s
  | .kernelBundleIssue c => Sys2Proof.Machine.execKernelBundleIssue c s
  | .writeLanding c => Sys2Proof.Machine.execWriteLanding c s
  | .iterationBoundaryStop c => Sys2Proof.Machine.execIterationBoundaryStop c s
  | .kernelReload c => Sys2Proof.Machine.execKernelReload c s
  | .cubeStepIssue c => Sys2Proof.Machine.execCubeStepIssue c s
  | .cubeStepLanding c => Sys2Proof.Machine.execCubeStepLanding c s
  | .planeFetchReady c b => Sys2Proof.Machine.execPlaneFetchReady c b s
  | .planeFetchFailure c b => Sys2Proof.Machine.execPlaneFetchFailure c b s
  | .remotePlaneRead c b => Sys2Proof.Machine.execRemotePlaneRead c b s
  | .homePlainAccess q => Sys2Proof.Machine.execHomePlainAccess q s
  | .convertedAccess r => Sys2Proof.Machine.execConvertedAccess r s
  | .atomicAtHome r => Sys2Proof.Machine.execAtomicAtHome r s
  | .scatterAddAtHome c e => Sys2Proof.Machine.execScatterAddAtHome c e s
  | .rowUpdateAtHome c e => Sys2Proof.Machine.execRowUpdateAtHome c e s
  | .qpushAtHome r => Sys2Proof.Machine.execQpushAtHome r s
  | .qpopAtHome r => Sys2Proof.Machine.execQpopAtHome r s
  | .leaseEnd r => Sys2Proof.Machine.execLeaseEnd r s
  | .loadAnswer r => Sys2Proof.Machine.execLoadAnswer r s
  | .hotctlFlush d => Sys2Proof.Machine.execHotctlFlush d s
  | .hotctlClear d => Sys2Proof.Machine.execHotctlClear d s
  | .tableWalk c va kind => Sys2Proof.Machine.execTableWalk c va kind s
  | .pageScan c va => Sys2Proof.Machine.execPageScan c va s
  | .migrationLockReread c n => Sys2Proof.Machine.execMigrationLockReread c n s
  | .upcallRetry d n => Sys2Proof.Machine.execUpcallRetry d n s
  | .pagerAnswer d => Sys2Proof.Machine.execPagerAnswer d s
  | .tinvVpn d vpn => Sys2Proof.Machine.execTinvVpn d vpn s
  | .tinvAll d => Sys2Proof.Machine.execTinvAll d s
  | .tinvComplete d => Sys2Proof.Machine.execTinvComplete d s
  | .migCopy p old new => Sys2Proof.Machine.execMigCopy p old new s
  | .migFinalise p => Sys2Proof.Machine.execMigFinalise p s
  | .migRelease p => Sys2Proof.Machine.execMigRelease p s
  | .migCancel p => Sys2Proof.Machine.execMigCancel p s
  | .migrationLineCopy p => Sys2Proof.Machine.execMigrationLineCopy p s
  | .migrationMoved p => Sys2Proof.Machine.execMigrationMoved p s
  | .migrationRedirect r => Sys2Proof.Machine.execMigrationRedirect r s
  | .synctAlign x => Sys2Proof.Machine.execSynctAlign x s
  | .verbAtTarget v => Sys2Proof.Machine.execVerbAtTarget v s
  | .verbAnswer v => Sys2Proof.Machine.execVerbAnswer v s
  | .putSignalAdd v => Sys2Proof.Machine.execPutSignalAdd v s
  | .routeRedirect v => Sys2Proof.Machine.execRouteRedirect v s
  | .verbTimeout v => Sys2Proof.Machine.execVerbTimeout v s
  | .itctlSwap p => Sys2Proof.Machine.execItctlSwap p s
  | .portTrainingAttempt p port why => Sys2Proof.Machine.execPortTrainingAttempt p port why s
  | .lpcfgWrite d q v => Sys2Proof.Machine.execLpcfgWrite d q v s
  | .groupTagFailure p port => Sys2Proof.Machine.execGroupTagFailure p port s
  | .dbgctlHalt d v => Sys2Proof.Machine.execDbgctlHalt d v s
  | .gwaitReturn x => Sys2Proof.Machine.execGwaitReturn x s
  | .enlistRequest k => Sys2Proof.Machine.execEnlistRequest k s
  | .enlistAnswer k => Sys2Proof.Machine.execEnlistAnswer k s
  | .shedAdmit k => Sys2Proof.Machine.execShedAdmit k s
  | .storeAck k => Sys2Proof.Machine.execStoreAck k s
  | .storeRefusal k => Sys2Proof.Machine.execStoreRefusal k s
  | .sealReport k => Sys2Proof.Machine.execSealReport k s
  | .groupApply k => Sys2Proof.Machine.execGroupApply k s
  | .applyAck k => Sys2Proof.Machine.execApplyAck k s
  | .groupDiscard k => Sys2Proof.Machine.execGroupDiscard k s
  | .discardAck k => Sys2Proof.Machine.execDiscardAck k s
  | .decisionAtSource k => Sys2Proof.Machine.execDecisionAtSource k s
  | .leaseQuery h grp => Sys2Proof.Machine.execLeaseQuery h grp s
  | .queryAnswer k => Sys2Proof.Machine.execQueryAnswer k s
  | .deadlineExpiry c slot => Sys2Proof.Machine.execDeadlineExpiry c slot s
  | .placementNotice k => Sys2Proof.Machine.execPlacementNotice k s
  | .resetNotice p q => Sys2Proof.Machine.execResetNotice p q s
  | .shforceApply d grp => Sys2Proof.Machine.execShforceApply d grp s
  | .shforceDiscard d grp => Sys2Proof.Machine.execShforceDiscard d grp s
  | .heldPacketReroute k => Sys2Proof.Machine.execHeldPacketReroute k s
  | .paddockApply p => Sys2Proof.Machine.execPaddockApply p s
  | .padcqpHeadWrite p v => Sys2Proof.Machine.execPadcqpHeadWrite p v s
  | .lqpTailWrite p v => Sys2Proof.Machine.execLqpTailWrite p v s
  | .loadRecord p => Sys2Proof.Machine.execLoadRecord p s
  | .unloadRecord p => Sys2Proof.Machine.execUnloadRecord p s
  | .runRecord p => Sys2Proof.Machine.execRunRecord p s
  | .taskPlacement p run node wid x blk => Sys2Proof.Machine.execTaskPlacement p run node wid x blk s
  | .saveAreaFillDone x => Sys2Proof.Machine.execSaveAreaFillDone x s
  | .copyNode p run node => Sys2Proof.Machine.execCopyNode p run node s
  | .eventNode p run node => Sys2Proof.Machine.execEventNode p run node s
  | .conditionalNode p run node => Sys2Proof.Machine.execConditionalNode p run node s
  | .loopNode p run node => Sys2Proof.Machine.execLoopNode p run node s
  | .taskEnd x => Sys2Proof.Machine.execTaskEnd x s
  | .taskSave x => Sys2Proof.Machine.execTaskSave x s
  | .taskRestore p t x => Sys2Proof.Machine.execTaskRestore p t x s
  | .quantumExpiry x => Sys2Proof.Machine.execQuantumExpiry x s
  | .priorityPreemption x => Sys2Proof.Machine.execPriorityPreemption x s
  | .graphComplete p run => Sys2Proof.Machine.execGraphComplete p run s
  | .bar2Access p pa wr n data => Sys2Proof.Machine.execBar2Access p pa wr n data s
  | .sctlClrfail p => Sys2Proof.Machine.execSctlClrfail p s
  | .sctlRestart p => Sys2Proof.Machine.execSctlRestart p s
  | .startUp p cause fail code sd => Sys2Proof.Machine.execStartUp p cause fail code sd s
  | .firmwareUpdate p img key ver sig => Sys2Proof.Machine.execFirmwareUpdate p img key ver sig s
  | .spdmMeasurement p idx => Sys2Proof.Machine.execSpdmMeasurement p idx s
  | .linkKeyLoad p port dir key => Sys2Proof.Machine.execLinkKeyLoad p port dir key s
  | .pldmSensorRead p sensor => Sys2Proof.Machine.execPldmSensorRead p sensor s
  | .clockStep p => Sys2Proof.Machine.execClockStep p s
  | .thermalTrip p die => Sys2Proof.Machine.execThermalTrip p die s
  | .registerWrite d off v => Sys2Proof.Machine.execRegisterWrite d off v s
  | .portPeerLost p port => Sys2Proof.Machine.execPortPeerLost p port s
  | .d2dLinkFailure p a b => Sys2Proof.Machine.execD2dLinkFailure p a b s
  | .linkedHoldReport p q held => Sys2Proof.Machine.execLinkedHoldReport p q held s
  | .sourceAbortReport k => Sys2Proof.Machine.execSourceAbortReport k s
  | .windowStoreWrite x => Sys2Proof.Machine.execWindowStoreWrite x s

end Sys2Proof.Machine
end

