-- ==== Sys2Proof/Machine/Turns.lean ====
section
/-! DEFINITION. Turns: what a context, the cluster array or an engine does when it is its turn to move (log 5), and how an
instruction is placed where the next turn fetches it (log 7). -/

namespace Sys2Proof.Machine

/-- The instruction that the slot of an open bundle holds. -/
def slotInstr (s : State) (x i : Nat) : Except Reject Instr :=
  match (s.ctx x).issue with
  | some is => decodeCp (is.words.getD i 0)
  | none => .error .field

/-- Goes on with a next state; a stop stays a stop. -/
def andThen (o : Out) (f : State → State) : Out :=
  match o with
  | .next s => .next (f s)
  | .fault r => .fault r
  | .refused r => .refused r

/-- The state in which slot i of context x's open bundle is performed. -/
def atSlot (s : State) (x i : Nat) : State := { s with cur := ⟨x, i, coreOf x⟩ }

/-- Slot i of the open bundle of context x is decoded and performed; a bundle with no slot left ends (R58, R60, R74). -/
def runSlot (s : State) (x i : Nat) : Out :=
  match slotInstr s x i with
  | .error _ => .fault .reservedWord
  | .ok ins => andThen (exec ins (atSlot s x i)) (fun s => closeBundle s x)

/-- The turn of context x: one slot of its open bundle is performed; where none is open, the merge stage of its core first has a
cycle (R69). On a die that is stopped nothing is performed (R310). -/
def cpTurn (x : Nat) (s : State) : Out :=
  if s.stopped (dieOfCtx x) then .next s
  else
    let s := if (s.ctx x).issue.isSome then s else (issueCycle s (coreOf x)).2
    match (s.ctx x).issue with
    | none => .next s
    | some is =>
      match nextSlot s is with
      | none => .next (closeBundle s x)
      | some i => runSlot s x i

/-- The turn of the cluster array of core c: the next slot of its open bundle issues (R154, R158). -/
def kernelTurn (c : Nat) (s : State) : Out :=
  match (s.core c).ca.inv with
  | none => .next s
  | some v =>
    match v.bundle with
    | none => .next s
    | some b =>
      match b.todo with
      | [] => .next (closeKernel s c)
      | i :: _ =>
        match decodeKernel (b.words.getD i 0) with
        | .error _ => .fault .reservedWord
        | .ok ins => exec ins { s with cur := ⟨0, i, c⟩ }

/-- An event that is its turn to happen; an instruction with an encoding is no event. -/
def eventTurn (i : Instr) (s : State) : Out := if (encode i).isSome then .next s else exec i s

/-- One turn. -/
def runTurn (t : Turn) (s : State) : Out :=
  match t with
  | .cp x => cpTurn x s
  | .merge c => .next (mergeCycle s c)
  | .kernel c => kernelTurn c s
  | .event i => eventTurn i s
  | .barRead d off n => .next (barRead s d off n)
  | .tick n => .next (addCycles s n)

/-! ## Placing an instruction -/

/-- A task that a context holds (log 7). -/
def loadedTask : Task :=
  { run := 0, node := 0, wid := 0, ph := 0, load := 0, prio := 0, blk := 0, acc := false, zeroed := true, start := 0, since := 0, pops := [] }

/-- A word address that is not in a line's header. -/
def fetchPc (pc : Nat) : Nat := if pc / 4 % 32 < 2 then pc / 128 * 128 + 8 else pc / 4 * 4

/-- An execute translation of a page to the page of the same number, homed on die d (R279). -/
def loadedLeaf (d page : Nat) : TlbE :=
  ⟨page, 0, 0, BitVec.ofNat 64 (2 ^ 63 + 2 * 2 ^ 61 + 2 ^ 58 + 2 ^ 56 + d % 4 * 2 ^ 54 + page % hotBlocks * 2 ^ 16), [page]⟩

/-- A control-processor word placed at the PC of the current context, alone in its bundle: the context holds a task and may
issue, its page is translated, and the line's header marks the word. -/
def placeWord (s : State) (w : Word32) : State :=
  let x := s.cur.x
  let c := coreOf x
  let pc := fetchPc (s.ctx x).pc
  let e := loadedLeaf (dieOf c) (pc / 2 ^ 16)
  let pa := leafPage e (pc / 2 ^ 16) * 2 ^ 16 + pc % 2 ^ 16
  let key := memKey (pkgOf c) pa
  let line := key / 128 * 128
  let mem := Memory.write (Memory.write s.mem line (leBytes 4 0x3FFFFFFF)) key (leBytes 4 w.toNat)
  let k := s.core c
  let s := s.setCore c { k with
    tlb := e :: k.tlb.filter (fun f => f.page / 2 ^ f.lg ≠ pc / 2 ^ 16 / 2 ^ f.lg), ic := k.ic.filter (fun l => l.1 ≠ pa / 128),
    prev := some ((x + 3) % 4) }
  let s := s.modCtx x (fun v => { v with
    pc := pc, issue := none, rb := none, reissue := false, drain := false, yield := none, save := none, pagerFail := [], kill := none,
    task := some (v.task.getD loadedTask) })
  let s := (s.modDie (dieOf c) (fun d => { d with halt := false })).modPkg (pkgOf c) (fun p => { p with thermal := false, starting := none })
  { s with mem := mem, turns := [.cp x] }

/-- An invocation whose open bundle holds one slot word. -/
def loadedInv (slot : Nat) (w : Word) : Inv :=
  { slot := 0, word := 0, ctx := 0, frame := 0, recaddr := 0, rec_ := [], trip := 1, scalar := 0, bind := 0, phase := .body,
    left := 2, index := 0,
    bundle := some { words := (List.range 8).map (fun i => if i = slot then w else 0), todo := [slot], wait := 0, taken := false },
    ports := [], touches := 0, touch := none, flt := none, boundary := false, reload := false, delay := 0 }

/-- A kernel slot word placed in the open bundle of the current core's array, in the first slot that its OP allows (R158). -/
def placeSlot (s : State) (w : Word) : State :=
  let c := s.cur.c
  { s.modCore c (fun v => { v with ca := { v.ca with inv := some (loadedInv (kSlots (kOp w)).1 w) } }) with turns := [.kernel c] }

end Sys2Proof.Machine
end

