-- ==== Sys2Proof/Machine/Schedule.lean ====
section
/-! DEFINITION. The order in which agents move when the schedule names no turn (log 5). The spec leaves this order open (R14); here
whatever could move is listed, and takes its turn round by round. -/

namespace Sys2Proof.Machine

/-- What may move: a step of one agent. A move whose time has not come changes nothing. -/
abbrev Move := State → Out

/-- The contexts of core c, and its bundles and windows (R69, R142). -/
def ctxMoves (s : State) (x : Nat) : List Move :=
  let c := s.ctx x
  (if c.issue.isSome then [cpTurn x] else []) ++
  (if c.kill.isSome || (match c.issue with
    | some is => is.exit
    | none => false) then [execTaskEnd x] else []) ++
  (if c.save.isSome then [execTaskSave x] else []) ++
  (if c.wins.isEmpty then [] else [execWindowAnswer x, execWindowStoreWrite x]) ++
  (if c.allocs.isEmpty then [] else [execSallocAnswer x]) ++
  (if c.syncts.isEmpty then [] else [execSynctAlign x]) ++
  (match c.issue with
   | some is => execBarDeparture x :: (if is.gwait then [execGwaitReturn x] else [])
   | none => []) ++
  (match c.task with
   | some t => (if t.zeroed then [] else [execSaveAreaFillDone x]) ++ [execQuantumExpiry x]
   | none => [])

/-- A scoreboard entry starts, moves its next record and retires (R125, R126). -/
def entryMoves (c : Nat) (p : Nat × Entry) : List Move :=
  [execEntryStart c p.1, execHomePlainAccess (.stream c p.1 p.2.resume), execHomePlainAccess (.stream c p.1 (p.2.resume + p.2.k)),
   execRemoteStallCopy c p.1, execScatterAddAtHome c p.1, execRowUpdateAtHome c p.1, execEntryRetire c p.1]

/-- The cluster array and the cube multiplier of a core (R154, R224, R230). -/
def arrayMoves (c : Nat) (v : Core) : List Move :=
  (match v.ca.inv with
   | none => []
   | some i =>
     [execInvocationFirstBundle c, execKernelReload c, execIterationBoundaryStop c, execWriteLanding c] ++
     (if i.bundle.isSome then [kernelTurn c] else [execKernelBundleIssue c])) ++
  (if v.cz.cube.isSome then [execCubeStepIssue c] else []) ++
  (if v.cz.steps.isEmpty then [] else [execCubeStepLanding c]) ++
  (v.cz.fetches.flatMap (fun f => [execRemotePlaneRead c f.bank, execPlaneFetchReady c f.bank, execPlaneFetchFailure c f.bank]))

/-- A core: its merge stage, contexts, entries, array, slots and waiting walks (R69, R289, R330). -/
def coreMoves (s : State) (c : Nat) : List Move :=
  let v := s.core c
  let xs := (List.range 4).map (fun i => c * 4 + i)
  (if xs.any (fun x => (s.ctx x).task.isSome && (s.ctx x).issue.isNone) then [fun s => .next (mergeCycle s c)] else []) ++
  xs.flatMap (ctxMoves s) ++ (entries s c).flatMap (entryMoves c) ++ arrayMoves c v ++
  (v.slots.map (fun g => execDeadlineExpiry c g.1)) ++ (List.range v.walks.length).map (fun n => execMigrationLockReread c n)

/-- A request of a control processor (R254, R258, R269, R291, R295). -/
def reqMoves (r : Nat) : List Move :=
  [execHomePlainAccess (.cp r), execConvertedAccess r, execAtomicAtHome r, execQpushAtHome r, execQpopAtHome r, execMigrationRedirect r,
   execLoadAnswer r, execLeaseEnd r]

/-- A verb (R299, R302 to R306). -/
def verbMoves (v : Nat) : List Move :=
  [execVerbAtTarget v, execPutSignalAdd v, execVerbAnswer v, execRouteRedirect v, execVerbTimeout v]

/-- A packet of the commit channel (R320 to R343, R392). -/
def pktMoves (k : Nat) : List Move :=
  [execEnlistRequest k, execEnlistAnswer k, execShedAdmit k, execStoreAck k, execStoreRefusal k, execSourceAbortReport k,
   execSealReport k, execGroupApply k, execApplyAck k, execGroupDiscard k, execDiscardAck k, execDecisionAtSource k, execQueryAnswer k,
   execPlacementNotice k, execHeldPacketReroute k, execLeaseEnd k]

/-- A die: upcalls, answers, invalidations (R284, R287, R288). -/
def dieMoves (d : Nat) (v : Die) : List Move :=
  (List.range v.upcalls.length).map (fun n => execUpcallRetry d n) ++
  (if bit v.resq 0 then [execPagerAnswer d] else []) ++ (if bit v.tinv 63 then [execTinvComplete d] else [])

/-- The nodes of a run that are no tasks (R367, R369, R370). -/
def nodeMoves (p run : Nat) (r : Run) : List Move :=
  (List.range r.l.nodes.length).flatMap (fun n =>
    [execCopyNode p run n, execEventNode p run n, execConditionalNode p run n, execLoopNode p run n])

/-- The lowest free frame block of a run (R365). -/
def freeBlock (r : Run) : Nat := ((List.range (r.blocks.length + 1)).find? (fun b => !r.blocks.contains b)).getD 0

/-- Placements and restores on an idle context (R368, R371, R376). -/
def placeMoves (s : State) (p x : Nat) : List Move :=
  if !idle s x then []
  else
    ((Tab.members (s.pkg p).runs).flatMap (fun r => (runWants r.2 (coreOf x)).map (fun w =>
      execTaskPlacement p r.1 w.node (BitVec.ofNat 64 w.wid) x (freeBlock r.2)))) ++
    (List.range (s.pkg p).saved.length).map (fun t => execTaskRestore p t x)

/-- A package: the launch ring, migration, paddock, notices and graphs (R291, R332, R334, R364, R374). -/
def pkgMoves (s : State) (p : Nat) (k : Pkg) : List Move :=
  (if lqHead k ≠ lqTail k then [execLoadRecord p, execUnloadRecord p, execRunRecord p] else []) ++
  (if k.mig.st = .copying ∨ k.mig.st = .finalising then [execMigrationLineCopy p, execMigrationMoved p] else []) ++
  (if k.padq.isEmpty then [] else [execPaddockApply p]) ++ k.notices.map (fun q => execResetNotice p q) ++
  ((Tab.members k.runs).flatMap (fun r => nodeMoves p r.1 r.2 ++ [execGraphComplete p r.1])) ++
  (if (Tab.members k.runs).isEmpty && k.saved.isEmpty then []
   else (ctxsOf p).flatMap (fun x => placeMoves s p x ++ (if (s.ctx x).task.isSome then [execPriorityPreemption x] else [])))

/-- The leases of a destination (R328). -/
def shedMoves (h : Nat) (gs : List ShedGroup) : List Move := gs.map (fun g => execLeaseQuery h (BitVec.ofNat 32 g.group))

/-- Cores that hold something, or a context with a task. -/
def liveCores (s : State) : List Nat := (s.cores.map (fun p => p.1) ++ s.ctxs.map (fun p => coreOf p.1)).eraseDups

/-- Everything that may move; a cycle passes once a round. -/
def moves (s : State) : List Move :=
  (liveCores s).flatMap (coreMoves s) ++ (Tab.members s.reqs).flatMap (fun p => reqMoves p.1) ++
  (Tab.members s.verbs).flatMap (fun p => verbMoves p.1) ++ (Tab.members s.pkts).flatMap (fun p => pktMoves p.1) ++
  s.dies.flatMap (fun p => dieMoves p.1 p.2) ++ s.sheds.flatMap (fun p => shedMoves p.1 p.2) ++
  s.pkgs.flatMap (fun p => pkgMoves s p.1 p.2) ++ [fun s => .next (addCycles s 1)]

/-- The next move of the round (log 5). -/
def nextMove (s : State) : Out :=
  let ms := moves s
  match ms[s.round % ms.length]? with
  | some m => m { s with round := s.round + 1 }
  | none => .next s

end Sys2Proof.Machine
end

