-- ==== Sys2Proof/Machine/Step.lean ====
section
/-! DEFINITION. One step of the machine: one turn. -/

namespace Sys2Proof.Machine

/-- One step: the next turn of the schedule, or the next move of the model's own round when none is given (log 5). -/
def step (s : State) : Host.Outcome State Fault Refusal :=
  match s.turns with
  | t :: rest => runTurn t { s with turns := rest }
  | [] => nextMove s

/-- The state with an instruction placed where the next step fetches (log 7). -/
def State.withFetchWord (s : State) (nbits w : Nat) : State :=
  if nbits ≤ 32 then placeWord s (BitVec.ofNat 32 (w % 2 ^ nbits)) else placeSlot s (BitVec.ofNat 64 (w % 2 ^ nbits))

end Sys2Proof.Machine
end

