-- ==== Sys2Proof/Safety.lean ====
section
/-! DEFINITION. What a safe run is, and the terms in which claims are stated: when a slot has its own effect, what an effect leaves
unchanged, and the invariant of memory. -/

namespace Sys2Proof

open Sys2Proof.Machine

/-! ## Runs -/

/-- No run from s meets a fault within n steps. -/
def safeFor (n : Nat) (s : State) : Prop := ∀ k, k ≤ n → ∀ r, core.run k s ≠ .fault r

/-- No run from s meets a fault. -/
def safe (s : State) : Prop := ∀ n, safeFor n s

/-! ## When a slot has its own effect -/

/-- The current slot of a control processor has its own effect: a bundle is open, the slot's guard is true and none of the registers
it names is leased (R54, R72). -/
def slotRuns (s : State) (g : Guard) (rs : List Nat) : Prop :=
  ∃ is, s.me.issue = some is ∧ is.guardOk g = true ∧ leased s rs = none

/-- The current kernel slot issues: an invocation has a bundle open (R154, R155). -/
def kernelRuns (s : State) : Prop := ∃ i, s.ca.inv = some i ∧ i.bundle.isSome = true

/-- The queues that the current task has popped (R288). -/
def popsOf (s : State) : List Nat := (s.me.task.map (·.pops)).getD []

/-- What the translation of an address comes to for an access of the current context (R277 to R285). -/
def translation (s : State) (va : Word) (kind : Nat) : TrRes :=
  translateFor s (coreOf s.cur.x) (some (s.cur.x % 4)) (popsOf s) va kind

/-- The pager has not failed this access (R288). -/
def unfailed (s : State) (va : Word) (kind : Nat) : Prop := pagerHit s.me true va.toNat kind = none

/-- A translation succeeds at place p and leaves state t; the pager has not failed it (R281, R288). -/
def translates (s : State) (va : Word) (kind : Nat) (p : Place) (t : State) : Prop :=
  unfailed s va kind ∧ translation s va kind = .ok p t

/-- A translation succeeds at a place whose page no migration holds or redirects (R281, R291). -/
def reaches (s : State) (va : Word) (kind : Nat) (p : Place) (t : State) : Prop := translates s va kind p t ∧ gate t p = .go

/-- Translations succeed in turn at every address of a list (R298). -/
def translatesAll : State → List Word → Nat → List Place → State → Prop
  | s, [], _, ps, t => ps = [] ∧ t = s
  | s, va :: vas, kind, ps, t => ∃ p u qs, translates s va kind p u ∧ translatesAll u vas kind qs t ∧ ps = p :: qs

/-- The first address of a list whose translation fails is va: it faults with a code and a DETAIL, and the pager has not failed it
(R281, R288, R298). -/
def translationFails (s : State) (vas : List Word) (kind code : Nat) (va : Word) (detail : Nat) (u : State) : Prop :=
  ∃ xs rest ps t, vas = xs ++ va :: rest ∧ translatesAll s xs kind ps t ∧ unfailed t va kind ∧ translation t va kind = .fault code detail u

/-- A command that names a group finds room for it in its core: a source entry that is not sealed, or a free one (R320, R339). -/
def sourceFree (s : State) (g : Nat) : Prop :=
  match srcAt s (coreOf s.cur.x) g with
  | some (_, v) => v.sealed = false
  | none => (freeSrc s (coreOf s.cur.x)).isSome = true

/-- Host writes reach the registers of die d: its package is not in the safe state and the die is not held in reset (R390). -/
def hostReaches (s : State) (d : Nat) : Prop :=
  (s.pkg (pkgOfDie d)).safe = false ∧ (s.pkg (pkgOfDie d)).heldDie d = false

/-- A load of size bytes to register n is on its way to the home, and its register awaits it (R71, R74, R100). -/
def loadSent (t : State) (va : Word) (p : Place) (n size : Nat) (signed : Bool) : State :=
  let u := (t.addReq (mkReq t va p (.load n size signed) false none)).modIssue t.cur.x (fun is => { is with ld := some t.nextId })
  if n = 0 then u else u.modMe (fun c => { c with await := setBit c.await n true })

/-- The data cache's word of a place is read: what that corrects, and the machine check of a word that it cannot (R100, R385). -/
def dcRead (t : State) (p : Place) (size : Nat) : State × Option Flt :=
  checkRead t (dieOfCtx t.cur.x) (.store (coreOf t.cur.x)) (dcKey (memKey p.pkg p.pa)) size

/-! ## Numbers -/

/-- The magnitude m times 2^e, and the value of a sign and a magnitude. -/
def magOf (m : Nat) (e : Int) : ℚ := (m : ℚ) * (2 : ℚ) ^ e
def signed (neg : Bool) (x : ℚ) : ℚ := if neg = true then -x else x

/-- A magnitude rounded to an integer under a mode (R40, R41): k and fr as R41 names them. -/
def roundMag (mode : Nat) (neg : Bool) (x : ℚ) : Nat :=
  let k := ⌊x⌋₊
  let fr := x - k
  if (mode = 0 ∧ (1 / 2 < fr ∨ (fr = 1 / 2 ∧ k % 2 = 1))) ∨ (mode = 4 ∧ 1 / 2 ≤ fr) ∨ (mode = 2 ∧ 0 < fr ∧ neg = false) ∨
      (mode = 3 ∧ 0 < fr ∧ neg = true) then k + 1
  else k

/-- The exponent of the weight of the last mantissa bit of a magnitude in a format (R41). -/
def lastWeight (f : Fmt) (x : ℚ) : Int := max (Int.log 2 x) (1 - f.bias) - f.mb

/-- The largest finite magnitude of a floating format (R34). -/
def maxFin (f : Fmt) : ℚ :=
  match f.pol with
  | .ieee => (2 : ℚ) ^ ((2 : Int) ^ f.eb - 2 - f.bias) * (2 - (2 : ℚ) ^ (-(f.mb : Int)))
  | .finite =>
    if f.mb = 0 then (2 : ℚ) ^ ((2 : Int) ^ f.eb - 2 - f.bias)
    else (2 : ℚ) ^ ((2 : Int) ^ f.eb - 1 - f.bias) * (2 - (2 : ℚ) ^ (1 - (f.mb : Int)))
  | _ => (2 : ℚ) ^ ((2 : Int) ^ f.eb - 1 - f.bias) * (2 - (2 : ℚ) ^ (-(f.mb : Int)))

/-- The range of an integer format (R38). -/
def intLo (f : Fmt) : Int := if f.sg = true then -2 ^ (f.w - 1) else 0
def intHi (f : Fmt) : Int := if f.sg = true then 2 ^ (f.w - 1) - 1 else 2 ^ f.w - 1

/-- A code of a format reads as a finite value of a sign and a magnitude. -/
def readsAs (f : Fmt) (c : Nat) (neg : Bool) (x : ℚ) : Prop := ∃ m e, decodeNum f c = .fin neg m e ∧ magOf m e = x

/-- Codes read as R33 and R38 say: an integer by its sign, else by sign, exponent and mantissa fields. -/
def readsCodes (f : Fmt) : Prop :=
  (f.pol = .integer → ∀ c : Nat, c < 2 ^ f.w → let v : Int := if f.sg = true ∧ 2 ^ (f.w - 1) ≤ c then (c : Int) - 2 ^ f.w else c
    decodeNum f c = .fin (decide (v < 0)) v.natAbs 0) ∧
  (f.pol ≠ .integer → ∀ (s : Bool) (ex mn : Nat), (s = true → f.sg = true) → ex < 2 ^ f.eb → mn < 2 ^ f.mb →
    let c := (if s = true then 2 ^ (f.eb + f.mb) else 0) + ex * 2 ^ f.mb + mn
    (f.pol = .ieee → ex = 2 ^ f.eb - 1 → decodeNum f c = if mn = 0 then .inf s else .nan) ∧
    (f.pol = .finite → ex = 2 ^ f.eb - 1 → mn = 2 ^ f.mb - 1 → decodeNum f c = .nan) ∧
    (¬ (f.pol = .ieee ∧ ex = 2 ^ f.eb - 1) → ¬ (f.pol = .finite ∧ ex = 2 ^ f.eb - 1 ∧ mn = 2 ^ f.mb - 1) →
      readsAs f c s (if ex = 0 then magOf mn (1 - f.bias - f.mb) else magOf (2 ^ f.mb + mn) (ex - f.bias - f.mb))))

/-- The value of a decoded code that is no NaN, the infinities below and above all others. -/
def valueOf : Machine.Num → WithBot (WithTop ℚ)
  | .fin s m e => ((signed s (magOf m e) : ℚ) : WithTop ℚ)
  | .inf true => ⊥
  | _ => ((⊤ : WithTop ℚ) : WithBot (WithTop ℚ))

/-- The lesser and the greater of two codes, -0 below +0 (R188, R191): one NaN gives the other operand, two give the canonical NaN, and
otherwise the operand's own code is the result. -/
def picksRight (f : Fmt) (nan : Nat) : Prop :=
  ∀ a b : Nat, a < 2 ^ f.w → b < 2 ^ f.w →
    let x := decodeNum f a
    let y := decodeNum f b
    let picks := fun (lo hi : Nat) => fmin f a b = lo ∧ fmax f a b = hi
    (x = .nan → y = .nan → picks nan nan) ∧ (x = .nan → y ≠ .nan → picks b b) ∧ (x ≠ .nan → y = .nan → picks a a) ∧
    (x ≠ .nan → y ≠ .nan →
      (valueOf x < valueOf y → picks a b) ∧ (valueOf y < valueOf x → picks b a) ∧
      (valueOf x = valueOf y → if 2 ^ (f.w - 1) ≤ a then picks a b else picks b a))

/-- FABS, FNEG and FDIVS of an FP32 code (R188, R194), and the fix of a NaN code (R202). -/
def signsRight : Prop :=
  ∀ a : Nat, a < 2 ^ 32 →
    let x := decodeNum Fmt.fp32 a
    (x = .nan → fabs a = 0x7FC00000 ∧ fneg a = 0x7FC00000 ∧ divScale a = 0x7FC00000 ∧ canonNan a = 0x7FC00000) ∧
    (x ≠ .nan → fabs a = a % 2 ^ 31 ∧ fneg a = (if a < 2 ^ 31 then a + 2 ^ 31 else a - 2 ^ 31) ∧ canonNan a = a) ∧
    (∀ neg, x = .inf neg → divScale a = 0) ∧ (∀ neg e, x = .fin neg 0 e → divScale a = 0x7F800000) ∧
    (∀ neg m e, x = .fin neg m e → m ≠ 0 →
      readsAs Fmt.fp32 (divScale a) false ((2 : ℚ) ^ (-(max (-127) (min 127 (Int.log 2 (magOf m e)))))))

/-- The tests of FCMP on two FP32 codes (R190). -/
def comparesRight : Prop :=
  ∀ a b : Word32,
    let x := decodeNum Fmt.fp32 a.toNat
    let y := decodeNum Fmt.fp32 b.toNat
    (x = .nan ∨ y = .nan → fcmpTest 0 a b = false ∧ fcmpTest 1 a b = false ∧ fcmpTest 2 a b = false ∧ fcmpTest 3 a b = true) ∧
    (x ≠ .nan → y ≠ .nan → (fcmpTest 0 a b = true ↔ valueOf x = valueOf y) ∧ (fcmpTest 1 a b = true ↔ valueOf x < valueOf y) ∧
      (fcmpTest 2 a b = true ↔ valueOf x ≤ valueOf y) ∧ fcmpTest 3 a b = false)

/-- Entry i of the n-th level of a reduction tree, whose leaves are v; an absent one takes no part (R202). -/
def treeAt (op : Nat → Nat → Nat) (v : Nat → Option Nat) : Nat → Nat → Option Nat
  | 0, i => v i
  | n + 1, i =>
    match treeAt op v n (2 * i), treeAt op v n (2 * i + 1) with
    | some x, some y => some (op x y)
    | some x, none => some x
    | none, y => y

/-- Rounding to a format: R41, R42 and R44 for finite values other than zero, R43 for the rest. -/
def roundsRight (f : Fmt) : Prop :=
  ∀ (mode m : Nat) (neg : Bool) (e : Int), mode < 5 →
    let top : Nat := if neg = true then 2 ^ (f.w - 1) else 0
    let x := magOf m e
    let got := roundNum f mode (.fin neg m e)
    let r := magOf (roundMag mode neg (x / (2 : ℚ) ^ lastWeight f x)) (lastWeight f x)
    let toMax := f.pol = .satfinite ∨ f.pol = .unsigned ∨ mode = 1 ∨ (mode = 2 ∧ neg = true) ∨ (mode = 3 ∧ neg = false)
    (m ≠ 0 →
      (f.pol = .integer → (got : Int) = max (intLo f) (min (intHi f)
        (if neg = true then -(roundMag mode neg x : Int) else roundMag mode neg x)) % 2 ^ f.w) ∧
      (f.pol = .unsigned → neg = true → got = 0) ∧
      (f.pol ≠ .integer → ¬ (f.pol = .unsigned ∧ neg = true) →
        (r ≤ maxFin f → readsAs f got neg r) ∧
        (maxFin f < r → toMax → readsAs f got neg (maxFin f)) ∧
        (maxFin f < r → ¬ toMax → f.pol = .ieee → decodeNum f got = .inf neg) ∧
        (maxFin f < r → ¬ toMax → f.pol = .finite → got = top + (2 ^ (f.w - 1) - 1)))) ∧
    roundNum f mode (.fin neg 0 e) = (if f.pol = .integer ∨ f.pol = .unsigned then 0 else top) ∧
    roundNum f mode .nan = (if f.pol = .ieee then (2 ^ f.eb - 1) * 2 ^ f.mb + 2 ^ (f.mb - 1) else if f.pol = .finite then
      2 ^ (f.w - 1) - 1 else 0) ∧
    (let inf := roundNum f mode (.inf neg)
     (f.pol = .ieee → decodeNum f inf = .inf neg) ∧ (f.pol = .finite → inf = top + (2 ^ (f.w - 1) - 1)) ∧
     (f.pol = .satfinite → readsAs f inf neg (maxFin f)) ∧
     (f.pol = .unsigned → (neg = true → inf = 0) ∧ (neg = false → readsAs f inf false (maxFin f))) ∧
     (f.pol = .integer → (inf : Int) = (if neg = true then intLo f else intHi f) % 2 ^ f.w))

/-- The value with its sign inverted. -/
def flipped : Machine.Num → Machine.Num
  | .nan => .nan
  | .inf s => .inf (!s)
  | .fin s m e => .fin (!s) m e

/-- The exact product of two values, by the rules 1, 2, 4 and 5 of R187. -/
def exactProduct : Machine.Num → Machine.Num → Machine.Num → Prop
  | .nan, _, r => r = .nan
  | _, .nan, r => r = .nan
  | .inf s, .inf t, r => r = .inf (s != t)
  | .inf s, .fin t m _, r => r = if m = 0 then .nan else .inf (s != t)
  | .fin s m _, .inf t, r => r = if m = 0 then .nan else .inf (s != t)
  | .fin s m i, .fin t n j, r => ∃ k e, r = .fin (s != t) k e ∧ magOf k e = magOf m i * magOf n j

/-- The exact sum of two values, by the rules 1, 3, 4 and 5 of R187. -/
def exactSum (mode : Nat) : Machine.Num → Machine.Num → Machine.Num → Prop
  | .nan, _, r => r = .nan
  | _, .nan, r => r = .nan
  | .inf s, .inf t, r => r = if s = t then .inf s else .nan
  | .inf s, .fin .., r => r = .inf s
  | .fin .., .inf t, r => r = .inf t
  | .fin s m i, .fin t n j, r =>
    let v := signed s (magOf m i) + signed t (magOf n j)
    ∃ neg k e, r = .fin neg k e ∧ signed neg (magOf k e) = v ∧
      (v = 0 → neg = if m = 0 ∧ n = 0 ∧ s = t then s else decide (mode = 3))

/-- FADD, FSUB, FMUL and the FMA forms round the exact result once (R187 to R189, R191). -/
def computesRight (f : Fmt) : Prop :=
  ∀ (mode a b c : Nat) (r : Machine.Num),
    let x := decodeNum f a
    let y := decodeNum f b
    (exactSum mode x y r → fadd f mode a b = roundNum f mode r) ∧
    (exactSum mode x (flipped y) r → fsub f mode a b = roundNum f mode r) ∧
    (exactProduct x y r → fmul f mode a b = roundNum f mode r) ∧
    (∀ (np nc : Bool) (p : Machine.Num), exactProduct x y p →
      exactSum mode (if np = true then flipped p else p) (if nc = true then flipped (decodeNum f c) else decodeNum f c) r →
      ffma f np nc mode a b c = roundNum f mode r)

/-- The tables of the seeds: entries rounded to the nearest integer (R46, R47). -/
def seedTables : Prop :=
  (∀ i < 256, let d := (257 + 2 * (i % 128)) * 2 ^ (i / 128)
    (2 * rsqrtTable i - 1) ^ 2 * d < 2 ^ 34 ∧ 2 ^ 34 < (2 * rsqrtTable i + 1) ^ 2 * d) ∧
  (∀ t < 128, let d := 257 + 2 * t
    (2 * rcpTable t - 1) * d < 2 ^ 21 ∧ 2 ^ 21 < (2 * rcpTable t + 1) * d)

/-- seed_rsqrt and seed_rcp of a code that reads as m times 2^e, and of the special values (R48, R49): v is rounded to 16 significant
bits, then to FP32. -/
def seedsRight : Prop :=
  ∀ a : Nat,
    let twice := fun (neg : Bool) (v : ℚ) =>
      roundNum Fmt.fp32 0 (.fin neg (roundMag 0 false (v / (2 : ℚ) ^ (Int.log 2 v - 15))) (Int.log 2 v - 15))
    (∀ (neg : Bool) (m : Nat) (e : Int), decodeNum Fmt.fp32 a = .fin neg m e → m ≠ 0 →
      let x := magOf m e
      let ex := Int.log 2 x
      let fr := x / (2 : ℚ) ^ ex - 1
      let t := ⌊fr * 128⌋₊
      let p := ex % 2
      let mid : ℚ := (1 + (2 * t + 1) / 256) * (2 : ℚ) ^ p
      let one : ℚ := 1 + (2 * t + 1) / 256
      (neg = false → seedRsqrt a = twice false ((rsqrtTable (p.toNat * 128 + t) : ℚ) / 4096 *
        (1 - ((1 + fr) * (2 : ℚ) ^ p - mid) / (2 * mid)) * (2 : ℚ) ^ (-((ex - p) / 2)))) ∧
      (neg = true → seedRsqrt a = 0x7FC00000) ∧
      seedRcp a = twice neg ((rcpTable t : ℚ) / 4096 * (1 - ((1 + fr) - one) / one) * (2 : ℚ) ^ (-ex))) ∧
    (∀ (neg : Bool) (e : Int), decodeNum Fmt.fp32 a = .fin neg 0 e →
      seedRsqrt a = (if neg = true then 0xFF800000 else 0x7F800000) ∧ seedRcp a = (if neg = true then 0xFF800000 else 0x7F800000)) ∧
    (∀ neg : Bool, decodeNum Fmt.fp32 a = .inf neg →
      seedRsqrt a = (if neg = true then 0x7FC00000 else 0) ∧ seedRcp a = (if neg = true then 0x80000000 else 0)) ∧
    (decodeNum Fmt.fp32 a = .nan → seedRsqrt a = 0x7FC00000 ∧ seedRcp a = 0x7FC00000)

/-- A real number other than zero rounded to FP32, to nearest and ties to even (R41, R42, R44). -/
def nearestCode (x : ℝ) (c : Nat) : Prop :=
  let p : Int := max (Int.log 2 |x|) (-126) - 23
  let q : ℝ := |x| / (2 : ℝ) ^ p
  ∃ (k : Nat) (neg : Bool), (neg = true ↔ x < 0) ∧
    (1 / 2 < q - ⌊q⌋₊ ∨ q - ⌊q⌋₊ = 1 / 2 ∧ ⌊q⌋₊ % 2 = 1 → k = ⌊q⌋₊ + 1) ∧
    (¬ (1 / 2 < q - ⌊q⌋₊ ∨ q - ⌊q⌋₊ = 1 / 2 ∧ ⌊q⌋₊ % 2 = 1) → k = ⌊q⌋₊) ∧
    (magOf k p ≤ maxFin Fmt.fp32 → readsAs Fmt.fp32 c neg (magOf k p)) ∧
    (maxFin Fmt.fp32 < magOf k p → decodeNum Fmt.fp32 c = .inf neg)

/-- The Adagrad step of R265 on FP32 codes: W - lr·g / (√S + eps), exact and then rounded once, for eps finite and positive (R264). -/
def adagradRight (w lr g st eps out : Nat) : Prop :=
  let d := decodeNum Fmt.fp32
  let rounded := fun (y : Machine.Num) => ∀ r, exactSum 0 (d w) y r → out = roundNum Fmt.fp32 0 r
  ∀ (me : Nat) (ee : Int), d eps = .fin false me ee → me ≠ 0 →
    ((d w = .nan ∨ d lr = .nan ∨ d g = .nan ∨ d st = .nan ∨ exactProduct (d lr) (d g) .nan) → out = 0x7FC00000) ∧
    ((d st = .inf true ∨ ∃ m e, d st = .fin true m e ∧ m ≠ 0) → out = 0x7FC00000) ∧
    (d st = .inf false → (∀ neg, exactProduct (d lr) (d g) (.inf neg) → out = 0x7FC00000) ∧
      (∀ neg m e, exactProduct (d lr) (d g) (.fin neg m e) → rounded (.fin true 0 0))) ∧
    (∀ neg ms es, d st = .fin neg ms es → (neg = true → ms = 0) →
      (∀ sg, exactProduct (d lr) (d g) (.inf sg) → rounded (.inf (!sg))) ∧
      (∀ sg m e, exactProduct (d lr) (d g) (.fin sg m e) →
        (m = 0 → rounded (.fin (!sg) 0 0)) ∧
        (m ≠ 0 → (∀ t, d w = .inf t → out = roundNum Fmt.fp32 0 (.inf t)) ∧
          (∀ t mw ew, d w = .fin t mw ew →
            let x : ℝ := ((signed t (magOf mw ew) : ℚ) : ℝ) -
              ((signed sg (magOf m e) : ℚ) : ℝ) / (Real.sqrt ((magOf ms es : ℚ) : ℝ) + ((magOf me ee : ℚ) : ℝ))
            (x = 0 → out = 0) ∧ (x ≠ 0 → nearestCode x out)))))

/-- One element of an optimiser step, the new weight and the new state, for SGD, momentum and Adagrad (R265). -/
def optimisesRight : Prop :=
  ∀ mu lr eps w st g : Nat,
    optimise 0 mu lr eps w st g = (ffma Fmt.fp32 true false 0 lr g w, st) ∧
    (let s1 := ffma Fmt.fp32 false false 0 mu st g
     optimise 1 mu lr eps w st g = (ffma Fmt.fp32 true false 0 lr s1 w, s1)) ∧
    (let s1 := ffma Fmt.fp32 false false 0 g g st
     (optimise 2 mu lr eps w st g).2 = s1 ∧ adagradRight w lr g s1 eps (optimise 2 mu lr eps w st g).1)

/-- stage1 of R228: NaN and infinities, zeros, and the terms truncated to multiples of 2^(e - 38), summed and rounded once. -/
def stagesRight (ps : List Machine.Num) : Prop :=
  (Machine.Num.nan ∈ ps → stage1 ps = 0x7FC00000) ∧
  (Machine.Num.nan ∉ ps →
    (Machine.Num.inf false ∈ ps → Machine.Num.inf true ∈ ps → stage1 ps = 0x7FC00000) ∧
    (Machine.Num.inf false ∈ ps → Machine.Num.inf true ∉ ps → stage1 ps = 0x7F800000) ∧
    (Machine.Num.inf true ∈ ps → Machine.Num.inf false ∉ ps → stage1 ps = 0xFF800000) ∧
    (Machine.Num.inf false ∉ ps → Machine.Num.inf true ∉ ps →
      ((∀ s m e, Machine.Num.fin s m e ∈ ps → m = 0) → stage1 ps = 0) ∧
      (∀ top : Int, (∃ s m e, Machine.Num.fin s m e ∈ ps ∧ m ≠ 0 ∧ Int.log 2 (magOf m e) = top) →
        (∀ s m e, Machine.Num.fin s m e ∈ ps → m ≠ 0 → Int.log 2 (magOf m e) ≤ top) →
        let part : Machine.Num → Int := fun p => match p with
          | .fin s m e => if s = true then -(⌊magOf m e / (2 : ℚ) ^ (top - 38)⌋₊ : Int) else ⌊magOf m e / (2 : ℚ) ^ (top - 38)⌋₊
          | _ => 0
        let t := (ps.map part).sum
        (t = 0 → stage1 ps = 0) ∧
        (t ≠ 0 → stage1 ps = roundNum Fmt.fp32 0 (.fin (decide (t < 0)) t.natAbs (top - 38))))))

/-! ## The caddy -/

/-- R224, R231: the caddy after the planes of block x have been asked for in cycle n: of each bank that the block needs, a fetch of its
plane starts, unless the bank holds that plane or a fetch of it is under way; the other banks and fetches stay. -/
def planesAsked (z w : Caddy) (x n : Nat) (m16 : Bool) : Prop :=
  ∀ b < 4,
    let asks := (b = x % 2 ∨ (2 ≤ z.cb ∧ b = 2 + x % 2)) ∧
      ¬ (z.tag b = ⟨true, x, m16⟩ ∨ ∃ f ∈ z.fetches, f.bank = b ∧ f.plane = x ∧ f.m16 = m16)
    let remote := psRemote (if b < 2 then z.psb else z.psc)
    (asks → w.tag b = BankTag.reset ∧ w.fetches.filter (fun f => f.bank = b) = [{
      bank := b, plane := x, m16 := m16, ready := n + (if remote = true then 40 else 24), remote := remote, served := false,
      bytes := [], fail := none }]) ∧
    (¬ asks → w.tag b = z.tag b ∧ w.fetches.filter (fun f => f.bank = b) = z.fetches.filter (fun f => f.bank = b))

/-- R231: block x starts in cycle t, the first one not before n in which all its planes are there. -/
def blockStarts (w : Caddy) (x n t : Nat) : Prop :=
  let needed := fun (f : Fetch) => f.bank = x % 2 ∨ (2 ≤ w.cb ∧ f.bank = 2 + x % 2)
  n ≤ t ∧ (∀ f ∈ w.fetches, needed f → f.ready ≤ t) ∧ (t = n ∨ ∃ f ∈ w.fetches, needed f ∧ f.ready = t)

/-! ## Instructions by shape -/

/-- The guard of a control-processor instruction. -/
def cpGuard (i : Instr) : Option Guard :=
  match i with
  | .add g _ _ _ | .sub g _ _ _ | .and g _ _ _ | .or g _ _ _ | .xor g _ _ _ | .andn g _ _ _ | .shl g _ _ _ | .shr g _ _ _
  | .sar g _ _ _ | .ror g _ _ _ | .mul g _ _ _ | .mulhu g _ _ _ | .mulhs g _ _ _ | .min g _ _ _ | .max g _ _ _
  | .minu g _ _ _ | .maxu g _ _ _ | .clz g _ _ | .ctz g _ _ | .popc g _ _ | .addi g _ _ _ | .andi g _ _ _ | .ori g _ _ _
  | .xori g _ _ _ | .shli g _ _ _ | .shri g _ _ _ | .sari g _ _ _ | .rori g _ _ _ | .movi g _ _ | .cmpeq g _ _ _
  | .cmpne g _ _ _ | .cmplt g _ _ _ | .cmpge g _ _ _ | .cmpltu g _ _ _ | .cmpgeu g _ _ _ | .cmptst g _ _ _
  | .cmpeqi g _ _ _ | .cmpnei g _ _ _ | .cmplti g _ _ _ | .cmpgei g _ _ _ | .cmpltui g _ _ _ | .cmpgeui g _ _ _
  | .cmptsti g _ _ _ | .sel g _ _ _ _ | .bfx g _ _ _ _ | .bfxs g _ _ _ _ | .bfi g _ _ _ _ | .pand g _ _ _ | .por g _ _ _
  | .pxor g _ _ _ | .pandn g _ _ _ | .pnot g _ _ | .br g _ | .call g _ | .brr g _ | .callr g _ | .trap g _ | .eret g
  | .yield g | .mfs g _ _ | .mts g _ _ | .rdtick g _ | .ldub g _ _ _ | .lduh g _ _ _ | .lduw g _ _ _ | .ldd g _ _ _
  | .ldsb g _ _ _ | .ldsh g _ _ _ | .ldsw g _ _ _ | .stb g _ _ _ | .sth g _ _ _ | .stw g _ _ _ | .std g _ _ _
  | .ldpb g _ _ _ | .ldph g _ _ _ | .ldpw g _ _ _ | .ldpd g _ _ _ | .ldprb g _ _ _ | .ldprh g _ _ _ | .ldprw g _ _ _
  | .ldprd g _ _ _ | .fence g _ | .bar g _ _ _ | .lds4 g _ _ _ | .lds8 g _ _ _ | .sts4 g _ _ _ | .sts8 g _ _ _
  | .saadd g _ _ _ | .safadd g _ _ _ | .samin g _ _ _ | .samax g _ _ _ | .saxchg g _ _ _ | .sacas g _ _ _
  | .salloc g _ _ _ | .sfree g _ | .sload g _ _ _ | .sloadx g _ _ _ | .sstore g _ _ _ | .sgather g _ _ _ | .sbag g _ _ _
  | .sbagm g _ _ _ | .scopy g _ _ _ | .scopyp g _ _ _ | .srecv g _ | .swait g _ | .swaitAll g | .krun g _ _ _ | .lwait g _
  | .sscadd g _ _ _ | .srowupd g _ _ _ | .aadd g _ _ _ _ _ | .afadd g _ _ _ _ | .amin g _ _ _ _ _ | .amax g _ _ _ _ _
  | .aand g _ _ _ _ _ | .aor g _ _ _ _ _ | .axor g _ _ _ _ _ | .axchg g _ _ _ _ _ | .acas g _ _ _ _ _ | .qpush g _ _ _ _
  | .qpop g _ _ _ _ | .put g _ _ _ | .get g _ _ _ | .signal g _ _ | .lamo g _ _ _ _ _ | .synct g _ _ _ | .gopen g _ _
  | .gstore g _ _ _ _ | .sstoreg g _ _ | .sscaddg g _ _ _ | .gseal g _ _ | .gcommit g _ _ | .gabort g _ _ | .gwait g _ _
  | .gpeek g _ _ | .gdeleg g _ _ | .gstat g _ _ => some g
  | _ => none

/-- An instruction that writes one x register and does nothing else: its guard, that register, and the registers it names. -/
def xWriter (i : Instr) : Option (Guard × Nat × List Nat) :=
  match i with
  | .add g d a b | .sub g d a b | .and g d a b | .or g d a b | .xor g d a b | .andn g d a b | .shl g d a b | .shr g d a b
  | .sar g d a b | .ror g d a b | .mul g d a b | .mulhu g d a b | .mulhs g d a b | .min g d a b | .max g d a b
  | .minu g d a b | .maxu g d a b | .sel g d a b _ => some (g, d.toNat, [d.toNat, a.toNat, b.toNat])
  | .clz g d a | .ctz g d a | .popc g d a | .addi g d a _ | .andi g d a _ | .ori g d a _ | .xori g d a _ | .shli g d a _
  | .shri g d a _ | .sari g d a _ | .rori g d a _ | .bfx g d a _ _ | .bfxs g d a _ _ | .bfi g d a _ _ =>
    some (g, d.toNat, [d.toNat, a.toNat])
  | .movi g d _ | .mfs g d _ | .rdtick g d => some (g, d.toNat, [d.toNat])
  | _ => none

/-- An instruction that writes one predicate and does nothing else. -/
def gWriter (i : Instr) : Option (Guard × Nat × List Nat) :=
  match i with
  | .cmpeq g p a b | .cmpne g p a b | .cmplt g p a b | .cmpge g p a b | .cmpltu g p a b | .cmpgeu g p a b
  | .cmptst g p a b => some (g, p.toNat, [a.toNat, b.toNat])
  | .cmpeqi g p a _ | .cmpnei g p a _ | .cmplti g p a _ | .cmpgei g p a _ | .cmpltui g p a _ | .cmpgeui g p a _
  | .cmptsti g p a _ => some (g, p.toNat, [a.toNat])
  | .pand g p _ _ | .por g p _ _ | .pxor g p _ _ | .pandn g p _ _ | .pnot g p _ => some (g, p.toNat, [])
  | _ => none

/-- Any other slot of class A, B or M that names an x register: its guard and the registers it names (R72, R84). -/
def otherRegs (i : Instr) : Option (Guard × List Nat) :=
  match i with
  | .call g _ => some (g, [31])
  | .brr g a => some (g, [a.toNat])
  | .callr g a => some (g, [a.toNat, 31])
  | .mts g d _ | .ldpb g d _ _ | .ldph g d _ _ | .ldpw g d _ _ | .ldpd g d _ _ => some (g, [d.toNat])
  | .ldub g d a _ | .lduh g d a _ | .lduw g d a _ | .ldd g d a _ | .ldsb g d a _ | .ldsh g d a _ | .ldsw g d a _
  | .stb g d a _ | .sth g d a _ | .stw g d a _ | .std g d a _ => some (g, [d.toNat, a.toNat])
  | .ldprb g d _ b | .ldprh g d _ b | .ldprw g d _ b | .ldprd g d _ b => some (g, [d.toNat, b.toNat])
  | .lds4 g d _ b | .lds8 g d _ b | .sts4 g d _ b | .sts8 g d _ b | .saadd g d _ b | .safadd g d _ b | .samin g d _ b
  | .samax g d _ b | .saxchg g d _ b | .sacas g d _ b => some (g, [d.toNat, b.toNat])
  | .bar g _ _ a => some (g, [a.toNat])
  | _ => none

/-- A slot of class E that names an x register: its guard and the registers it names (R72, R84). -/
def commandRegs (i : Instr) : Option (Guard × List Nat) :=
  match i with
  | .salloc g d _ a => some (g, [d.toNat, a.toNat])
  | .sload g _ a b | .sloadx g _ a b | .sstore g _ a b | .scopy g _ a b | .scopyp g _ a b => some (g, [a.toNat, b.toNat])
  | .sgather g _ _ a | .sbag g _ _ a | .sbagm g _ _ a | .sscadd g _ _ a => some (g, regRun (2 * a.toNat) 2)
  | .srowupd g _ _ a => some (g, regRun (4 * a.toNat) 4)
  | .sstoreg g _ a | .sscaddg g _ _ a => some (g, regRun (4 * a.toNat) 3)
  | .krun g a b c => some (g, [a.toNat, b.toNat, c.toNat])
  | .aadd g d p _ _ _ | .amin g d p _ _ _ | .amax g d p _ _ _ | .aand g d p _ _ _ | .aor g d p _ _ _ | .axor g d p _ _ _
  | .axchg g d p _ _ _ | .acas g d p _ _ _ | .afadd g d p _ _ => some (g, d.toNat :: regRun (2 * p.toNat) 2)
  | .qpush g d a r _ | .qpop g d a r _ => some (g, d.toNat :: a.toNat :: regRun (8 * r.toNat) 8)
  | .put g d q _ | .get g d q _ | .lamo g d q _ _ _ => some (g, d.toNat :: regRun (4 * q.toNat) 4)
  | .signal g d q => some (g, d.toNat :: regRun (4 * q.toNat) 4)
  | .synct g d a _ => some (g, [d.toNat, a.toNat])
  | .gopen g d a | .gdeleg g d a | .gpeek g d a | .gseal g d a => some (g, d.toNat :: regRun (2 * a.toNat) 2)
  | .gcommit g d k | .gabort g d k | .gstat g d k | .gwait g d k => some (g, [d.toNat, k.toNat])
  | .gstore g x a k _ => some (g, [x.toNat, a.toNat, k.toNat])
  | _ => none

/-! ## Frames -/

/-- One byte of device memory, or of host memory. -/
def readByte (s : State) (p : Nat) (host : Bool) (pa : Nat) : Nat := s.readPhys p host pa 1

/-- Where a byte of device memory, or of host memory, lies among all of its kind. -/
def placeKey (host : Bool) (p pa : Nat) : Nat := if host = true then hostKey p pa else memKey p pa

/-- The bytes written at an address read back, where memory is installed; where none is, they are lost (R2, log 4: the model's choice). -/
def readsBack (s t : State) (p : Nat) (host : Bool) (pa : Nat) (bs : List Byte) : Prop :=
  t.readBytes p host pa bs.length = if installed host pa bs.length = true then bs else s.readBytes p host pa bs.length

/-- What an atomic function leaves in its word of n bytes, by function number (R259, R300). -/
def atomicTable (n old op cmp : Nat) : List (Nat × Nat) :=
  [(0, (old + op) % 2 ^ (8 * n)), (2, if sextN op (8 * n) < sextN old (8 * n) then op else old),
    (3, if sextN old (8 * n) < sextN op (8 * n) then op else old), (1, fadd Fmt.fp32 0 (old % 2 ^ 32) (op % 2 ^ 32) % 2 ^ (8 * n)),
    (4, old &&& op), (5, old ||| op), (6, old ^^^ op), (7, op), (8, if old = cmp then op else old)]

/-- The requests of package p of generation g that have neither left it nor been redirected (R304). -/
def undrained (s : State) (p g : Nat) : Nat :=
  ((Tab.members s.verbs).filter (fun v => pkgOfCtx v.2.x = p && v.2.remote && !v.2.sent && v.2.busy && v.2.gen = g)).length +
    ((Tab.members s.pkts).filter (fun k => k.2.from_ / 4 = p && k.2.remote && !k.2.held && k.2.gen = g)).length

/-- Every byte of memory reads as before. -/
def sameMemory (s t : State) : Prop := ∀ p host pa, readByte t p host pa = readByte s p host pa

/-- Nothing but the current context differs. -/
def onlyMe (s t : State) : Prop :=
  { t with ctxs := s.ctxs } = s ∧ (∀ y, y ≠ s.cur.x → t.ctx y = s.ctx y) ∧ sameMemory s t

/-- Nothing but core c differs. -/
def onlyCore (s t : State) (c : Nat) : Prop :=
  { t with cores := s.cores } = s ∧ (∀ y, y ≠ c → t.core y = s.core y) ∧ sameMemory s t

/-- Nothing but package p differs. -/
def onlyPkg (s t : State) (p : Nat) : Prop :=
  { t with pkgs := s.pkgs } = s ∧ (∀ y, y ≠ p → t.pkg y = s.pkg y) ∧ sameMemory s t

/-- The current slot is performed and the open bundle is otherwise as before. -/
def slotPerformed (s t : State) : Prop :=
  t.me.issue = s.me.issue.map (fun is => { is with perf := setBit is.perf s.cur.slot true })

/-- Frame of an instruction that writes x register d only. -/
def frameX (s t : State) (d : Nat) : Prop :=
  onlyMe s t ∧ slotPerformed s t ∧ (∀ n, n ≠ d → t.me.rx n = s.me.rx n) ∧
    { t.me with x := s.me.x, issue := s.me.issue } = s.me

/-- Frame of an instruction that writes predicate p only. -/
def frameG (s t : State) (p : Nat) : Prop :=
  onlyMe s t ∧ slotPerformed s t ∧ (∀ n, n ≠ p → rpred t.me.g n = rpred s.me.g n) ∧
    { t.me with g := s.me.g, issue := s.me.issue } = s.me

/-- Frame of a kernel slot: on the current core, no register, tile, accumulator or yard byte changes at issue; what is written is owed
(R160). -/
def frameKernel (s t : State) : Prop :=
  onlyCore s t s.cur.c ∧
    (let k := t.core s.cur.c
     let v := s.core s.cur.c
     { k with
       ca := { k.ca with cycle := v.ca.cycle, inv := v.ca.inv, owed := v.ca.owed, order := v.ca.order },
       cz := { v.cz with z := k.cz.z } } = v)

/-! ## The invariant of memory -/

/-- Every memory of the machine is in the one canonical form of its kind. -/
def memoryInv (s : State) : Prop :=
  s.mem.wf = true ∧ s.host.wf = true ∧ ∀ c, (s.core c).yard.wf = true

end Sys2Proof
end

