-- ==== Sys2Proof/Certificates/Slice0/Obligations.lean ====
section
/-! DEFINITION. The statements about the machine, from the spec's numbered rules. -/

open Sys2Proof Sys2Proof.Machine

/-! ## Encodings -/

/-- Decoding the word of a well-formed control-processor instruction gives it back, at every value of every field (R61 to R67). -/
def Obligations.DecodeCpAfterEncode : Prop :=
  ∀ (i : Instr) (w : Word32), i.wf = true → encode i = some (.cp w) → decodeCp w = .ok i

/-- Decoding the word of a well-formed kernel slot instruction gives it back, at every value of every field (R155 to R159, R234 to
R242). -/
def Obligations.DecodeKernelAfterEncode : Prop :=
  ∀ (i : Instr) (w : Word), i.wf = true → encode i = some (.kernel w) → decodeKernel w = .ok i

/-- Each word has one meaning: a word that either decoder accepts is the word of the instruction that it gives, which is well formed;
the all-zero kernel slot word is the NOP of R159. -/
def Obligations.EncodeAfterDecode : Prop :=
  (∀ (w : Word32) (i : Instr), decodeCp w = .ok i → i.wf = true ∧ encode i = some (.cp w)) ∧
  (∀ (w : Word) (i : Instr), w ≠ 0 → decodeKernel w = .ok i → i.wf = true ∧ encode i = some (.kernel w)) ∧
  decodeKernel 0 = .ok .nop

/-- Words that the spec writes out decode to the instructions they stand for: R64 NOP, R110 RDTICK x9, R309 SYNCT x9, x10, system,
R242 CSTOP.k; and words laid out from R62 and R65 bit by bit. -/
def Obligations.SpecWordsDecode : Prop :=
  decodeCp 0x00000000 = .ok .nop ∧
  decodeCp 0xA0120002 = .ok (.rdtick ⟨0, false⟩ 9) ∧
  decodeCp 0xF8144AA0 = .ok (.synct ⟨0, false⟩ 9 10 1) ∧
  decodeKernel 0x4F00000000000000 = .ok (.cstop ⟨0, false⟩) ∧
  decodeCp 0b00001_0000_0_00011_00001_00010_0000000 = .ok (.add ⟨0, false⟩ 3 1 2) ∧
  decodeCp 0b00111_0011_1_00101_11111111111111111 = .ok (.movi ⟨3, true⟩ 5 0x1FFFF) ∧
  decodeCp 0b10000_0000_0_1111111111111111111111 = .ok (.br ⟨0, false⟩ 0x3FFFFF)

/-- R64: the all-zero word is NOP, class A, with no effect: its slot is performed, and that is all; a word of OP 0x00 with a nonzero
bit is refused. -/
def Obligations.NopHasNoEffect : Prop :=
  decodeCp 0 = .ok .nop ∧
  (∀ s : State, exec .nop s = .next (perform s)) ∧
  (∀ s : State, perform s = s.setCtx s.cur.x { s.me with
    issue := s.me.issue.map (fun is => { is with perf := setBit is.perf s.cur.slot true }) }) ∧
  classOf (0 : Word32) = .a ∧
  (∀ w : Word32, w ≠ 0 → fld w 27 5 = 0 → ∃ r, decodeCp w = .error r)

/-! ## Steps -/

/-- A step runs the decoded instruction. When it is context x's turn, its die is not stopped, its open bundle has slot i to perform next and
that slot's word decodes to ins, the step is exec of ins at that slot, after which a bundle with no slot left ends. The step of a
kernel slot is exec of the instruction its word decodes to, and the step of an event whose turn it is is exec of that event. Whose turn
it is comes from the model's own schedule (log 5). -/
def Obligations.StepRunsTheDecodedInstruction : Prop :=
  (∀ (s : State) (x i : Nat) (rest : List Turn) (is : Issue) (ins : Instr),
    s.turns = .cp x :: rest → s.stopped (dieOfCtx x) = false → (s.ctx x).issue = some is → nextSlot s is = some i →
    decodeCp (is.words.getD i 0) = .ok ins →
    step s = andThen (exec ins { s with turns := rest, cur := ⟨x, i, coreOf x⟩ }) (fun t => closeBundle t x)) ∧
  ((∀ (s : State) (c i : Nat) (rest : List Turn) (todo : List Nat) (v : Inv) (b : KIssue) (ins : Instr),
    s.turns = .kernel c :: rest → (s.core c).ca.inv = some v → v.bundle = some b → b.todo = i :: todo →
    decodeKernel (b.words.getD i 0) = .ok ins →
    step s = exec ins { s with turns := rest, cur := ⟨0, i, c⟩ }) ∧
  (∀ (s : State) (rest : List Turn) (ins : Instr), s.turns = .event ins :: rest → encode ins = none →
    step s = exec ins { s with turns := rest }))

/-- R56, R58, R68, R69: a context that may issue, with nothing to reissue, is ready with the bundle at its PC when its words are ready.
Each cycle of the merge stage opens the bundle of the primary, the first ready context after the previous primary, and beside it that of
the first ready context whose bundle fits; the cycle passes once for both. A core of a stopped die has no such cycle (R310). A bundle whose
slots are all performed ends at its taken branch's target, or at its successor: past its words, or word 2 of the next line where that is a
line's first word. -/
def Obligations.BundlesOpenAndEnd : Prop :=
  (∀ (s t : State) (x : Nat) (ws : List Word32) (is : Issue),
    (s.ctx x).issue = none → mayIssue s x = true → (s.ctx x).reissue = false → fetch s x = .ok ws t →
    mkIssue (s.ctx x) (s.ctx x).pc ws = some is → bundleReady t x is = true →
    candidate s x = (some is, t) ∧ is.addr = (s.ctx x).pc) ∧
  (∀ (s : State) (c : Nat), s.stopped (dieOf c) = true → issueCycle s c = ([], s)) ∧
  (∀ (s t : State) (c p : Nat) (a : Issue) (rest : List (Nat × Issue)), s.stopped (dieOf c) = false →
    candidates s (cyclic c ((s.core c).prev.getD 3)) = ((p, a) :: rest, t) →
    let u := (openWith t p a).modCore c (fun v => { v with prev := some (p % 4) })
    (issueCycle s c).1 = p :: ((rest.find? (fun q => fits a q.2 && bundleReady u q.1 q.2)).map (fun q => q.1)).toList ∧
    ((issueCycle s c).2.ctx p).issue = some { a with tick := t.tickOf (dieOfCtx p), lease := (t.ctx p).lease } ∧
    ((issueCycle s c).2.core c).prev = some (p % 4) ∧ (issueCycle s c).2.now = t.now + cycleOf t c) ∧
  ((∀ (s : State) (x : Nat) (is : Issue), (s.ctx x).issue = some is → is.todo = [] →
    ((closeBundle s x).ctx x).issue = none ∧
    ((closeBundle s x).ctx x).pc = (match is.taken with
      | some a => a
      | none => successor is.addr is.occ) ∧
    (∀ y, y ≠ x → (closeBundle s x).ctx y = s.ctx y)) ∧
  (∀ (a : Nat) (occ : BitVec 4), a + 136 < 2 ^ 55 → successor a occ =
    if (a + 4 * popcount occ) % 128 = 0 then a + 4 * popcount occ + 8 else a + 4 * popcount occ))

/-- Memory stays in its one canonical form: every step that answers a next state keeps the invariant. -/
def Obligations.StepKeepsMemoryCanonical : Prop :=
  ∀ s t : State, memoryInv s → step s = .next t → memoryInv t

/-- The values that the spec gives for reset: LTO (R311), CELEASE (R332), the ring sizes of LQ and PADCQ (R335, R364), the caddy's
formats (R220), the modes of LPCFG (R307), DBGCTL (R310), DQUANT (R375), FLOGP (R384) and CECNT (R386) at zero, SCAP with the whole
yard FREE (R116). The model's own: SRESN reads 0, as after a power-on start that passed, and SCAP is that of a part with SD = 1, for which
the spec gives no value (log 2); and memory is in its canonical form (log 3). -/
def Obligations.ResetValues : Prop :=
  let s := State.reset
  memoryInv s ∧
  (∀ d, regRead s d 0x3010 8 = 0x4000 ∧ regRead s d 0x4000 8 = 0x1000 ∧ regRead s d 0x3008 8 = 0 ∧ regRead s d 0x18 8 = 0 ∧
    regRead s d 0x20 8 = 0 ∧ regRead s d 0x5010 8 = 0) ∧
  (∀ p, regRead s (4 * p) 0x5000 8 = 6 ∧ regRead s (4 * p) 0x4018 8 = 6 ∧ regRead s (4 * p) 0x08 8 = 0) ∧
  (∀ p i, i < 16 → lpcfgOf s p i = 0xAA) ∧
  (∀ c, (s.core c).cz.fmtA = 0x82 ∧ (s.core c).cz.fmtB = 0x82 ∧ (s.core c).cz.fmtC = 0x82 ∧ (s.core c).cz.bind = 0) ∧
  (∀ c, scap s c = 0x0000_1000_1000_9000)

/-! ## Control processor: registers -/

/-- R54: a slot whose guard is false writes nothing, raises no fault, passes nothing to any engine and counts as performed. -/
def Obligations.FalseGuardPerformsNothing : Prop :=
  ∀ (i : Instr) (g : Guard) (s : State) (is : Issue), cpGuard i = some g → s.me.issue = some is → is.gwait = false →
    is.guardOk g = false → exec i s = .next (perform s)

/-- R87: the register operations. Their words: major opcode 0x01, format RR, class A, FN from the table, XB zero in CLZ, CTZ and POPC.
Their results, at every value of every operand; none faults. -/
def Obligations.AluRegisterResults : Prop :=
  (∀ w : Word32, fldN w 27 5 = 1 → (guardOf w).wf = true → classOf w = .a ∧
    (∀ k ∈ [(0, Instr.add), (1, .sub), (2, .and), (3, .or), (4, .xor), (5, .andn), (6, .shl), (7, .shr), (8, .sar), (9, .ror), (10, .mul),
        (11, .mulhu), (12, .mulhs), (13, .min), (14, .max), (15, .minu), (16, .maxu)],
      fldN w 0 7 = k.1 → decodeCp w = .ok (k.2 (guardOf w) (fld w 17 5) (fld w 12 5) (fld w 7 5))) ∧
    (∀ k ∈ [(0x11, Instr.clz), (0x12, .ctz), (0x13, .popc)], fldN w 0 7 = k.1 →
      (fld w 7 5 = 0 → decodeCp w = .ok (k.2 (guardOf w) (fld w 17 5) (fld w 12 5))) ∧
      (fld w 7 5 ≠ 0 → ∃ r, decodeCp w = .error r))) ∧
  ∀ (s : State) (g : Guard) (d a b : BitVec 5),
    (slotRuns s g [d.toNat, a.toNat, b.toNat] →
      exec (.add g d a b) s = .next (perform (s.wx d (s.rx a + s.rx b))) ∧
      exec (.sub g d a b) s = .next (perform (s.wx d (s.rx a - s.rx b))) ∧
      exec (.and g d a b) s = .next (perform (s.wx d (s.rx a &&& s.rx b))) ∧
      exec (.or g d a b) s = .next (perform (s.wx d (s.rx a ||| s.rx b))) ∧
      exec (.xor g d a b) s = .next (perform (s.wx d (s.rx a ^^^ s.rx b))) ∧
      exec (.andn g d a b) s = .next (perform (s.wx d (s.rx a &&& ~~~(s.rx b)))) ∧
      exec (.shl g d a b) s = .next (perform (s.wx d (s.rx a <<< ((s.rx b).toNat % 64)))) ∧
      exec (.shr g d a b) s = .next (perform (s.wx d (s.rx a >>> ((s.rx b).toNat % 64)))) ∧
      exec (.sar g d a b) s = .next (perform (s.wx d ((s.rx a).sshiftRight ((s.rx b).toNat % 64)))) ∧
      exec (.ror g d a b) s = .next (perform (s.wx d ((s.rx a).rotateRight ((s.rx b).toNat % 64)))) ∧
      exec (.mul g d a b) s = .next (perform (s.wx d (BitVec.ofNat 64 ((s.rx a).toNat * (s.rx b).toNat)))) ∧
      exec (.mulhu g d a b) s = .next (perform (s.wx d (BitVec.ofNat 64 ((s.rx a).toNat * (s.rx b).toNat / 2 ^ 64)))) ∧
      exec (.mulhs g d a b) s = .next (perform (s.wx d (BitVec.ofInt 64 ((s.rx a).toInt * (s.rx b).toInt / 2 ^ 64)))) ∧
      exec (.min g d a b) s = .next (perform (s.wx d (BitVec.ofInt 64 (Min.min (s.rx a).toInt (s.rx b).toInt)))) ∧
      exec (.max g d a b) s = .next (perform (s.wx d (BitVec.ofInt 64 (Max.max (s.rx a).toInt (s.rx b).toInt)))) ∧
      exec (.minu g d a b) s = .next (perform (s.wx d (BitVec.ofNat 64 (Min.min (s.rx a).toNat (s.rx b).toNat)))) ∧
      exec (.maxu g d a b) s = .next (perform (s.wx d (BitVec.ofNat 64 (Max.max (s.rx a).toNat (s.rx b).toNat))))) ∧
    (slotRuns s g [d.toNat, a.toNat] →
      exec (.clz g d a) s = .next (perform (s.wx d (BitVec.ofNat 64 (clzN 64 (s.rx a).toNat)))) ∧
      exec (.ctz g d a) s = .next (perform (s.wx d (BitVec.ofNat 64 (ctzN 64 (s.rx a).toNat)))) ∧
      exec (.popc g d a) s = .next (perform (s.wx d (BitVec.ofNat 64 (popcountN 64 (s.rx a).toNat)))))

/-- R88, R89, R90: the immediate operations: their words, of formats RI, SH and MV and class A, and their results. -/
def Obligations.AluImmediateResults : Prop :=
  (∀ w : Word32, (guardOf w).wf = true →
    (∀ k ∈ [(2, Instr.addi), (3, .andi), (4, .ori), (5, .xori)], fldN w 27 5 = k.1 →
      classOf w = .a ∧ decodeCp w = .ok (k.2 (guardOf w) (fld w 17 5) (fld w 12 5) (fld w 0 12))) ∧
    (fldN w 27 5 = 6 → classOf w = .a ∧
      (∀ k ∈ [(0, Instr.shli), (1, .shri), (2, .sari), (3, .rori)], fldN w 0 6 = k.1 →
        decodeCp w = .ok (k.2 (guardOf w) (fld w 17 5) (fld w 12 5) (fld w 6 6))) ∧
      (4 ≤ fldN w 0 6 → ∃ r, decodeCp w = .error r)) ∧
    (fldN w 27 5 = 7 → classOf w = .a ∧ decodeCp w = .ok (.movi (guardOf w) (fld w 17 5) (fld w 0 17)))) ∧
  ∀ (s : State) (g : Guard) (d a : BitVec 5) (i : BitVec 12) (n : BitVec 6) (m : BitVec 17),
    (slotRuns s g [d.toNat, a.toNat] →
      exec (.addi g d a i) s = .next (perform (s.wx d (s.rx a + i.signExtend 64))) ∧
      exec (.andi g d a i) s = .next (perform (s.wx d (s.rx a &&& i.signExtend 64))) ∧
      exec (.ori g d a i) s = .next (perform (s.wx d (s.rx a ||| i.signExtend 64))) ∧
      exec (.xori g d a i) s = .next (perform (s.wx d (s.rx a ^^^ i.signExtend 64))) ∧
      exec (.shli g d a n) s = .next (perform (s.wx d (s.rx a <<< n.toNat))) ∧
      exec (.shri g d a n) s = .next (perform (s.wx d (s.rx a >>> n.toNat))) ∧
      exec (.sari g d a n) s = .next (perform (s.wx d ((s.rx a).sshiftRight n.toNat))) ∧
      exec (.rori g d a n) s = .next (perform (s.wx d ((s.rx a).rotateRight n.toNat)))) ∧
    (slotRuns s g [d.toNat] → exec (.movi g d m) s = .next (perform (s.wx d (BitVec.ofInt 64 (sextN m.toNat 17)))))

/-- R91: the compares, of two registers and of a register and a sign-extended immediate: their words, of format CP and class A with
the test in CC, and the predicate that each writes. -/
def Obligations.CompareResults : Prop :=
  (∀ w : Word32, (guardOf w).wf = true → predDst (fld w 18 4) = true →
    (fldN w 27 5 = 8 → classOf w = .a ∧ (fld w 0 4 = 0 →
      ∀ k ∈ [(0, Instr.cmpeq), (1, .cmpne), (2, .cmplt), (3, .cmpge), (4, .cmpltu), (5, .cmpgeu), (6, .cmptst)],
        fldN w 9 4 = k.1 → decodeCp w = .ok (k.2 (guardOf w) (fld w 18 4) (fld w 13 5) (fld w 4 5)))) ∧
    (fldN w 27 5 = 9 → classOf w = .a ∧
      ∀ k ∈ [(0, Instr.cmpeqi), (1, .cmpnei), (2, .cmplti), (3, .cmpgei), (4, .cmpltui), (5, .cmpgeui), (6, .cmptsti)],
        fldN w 9 4 = k.1 → decodeCp w = .ok (k.2 (guardOf w) (fld w 18 4) (fld w 13 5) (fld w 0 9)))) ∧
  ∀ (s : State) (g : Guard) (p : BitVec 4) (a b : BitVec 5) (i : BitVec 9),
    (slotRuns s g [a.toNat, b.toNat] →
      exec (.cmpeq g p a b) s = .next (perform (s.wg p (s.rx a == s.rx b))) ∧
      exec (.cmpne g p a b) s = .next (perform (s.wg p (s.rx a != s.rx b))) ∧
      exec (.cmplt g p a b) s = .next (perform (s.wg p (decide ((s.rx a).toInt < (s.rx b).toInt)))) ∧
      exec (.cmpge g p a b) s = .next (perform (s.wg p (decide ((s.rx b).toInt ≤ (s.rx a).toInt)))) ∧
      exec (.cmpltu g p a b) s = .next (perform (s.wg p (decide ((s.rx a).toNat < (s.rx b).toNat)))) ∧
      exec (.cmpgeu g p a b) s = .next (perform (s.wg p (decide ((s.rx b).toNat ≤ (s.rx a).toNat)))) ∧
      exec (.cmptst g p a b) s = .next (perform (s.wg p (s.rx a &&& s.rx b != 0)))) ∧
    (slotRuns s g [a.toNat] →
      exec (.cmpeqi g p a i) s = .next (perform (s.wg p (s.rx a == i.signExtend 64))) ∧
      exec (.cmpnei g p a i) s = .next (perform (s.wg p (s.rx a != i.signExtend 64))) ∧
      exec (.cmplti g p a i) s = .next (perform (s.wg p (decide ((s.rx a).toInt < i.toInt)))) ∧
      exec (.cmpgei g p a i) s = .next (perform (s.wg p (decide (i.toInt ≤ (s.rx a).toInt)))) ∧
      exec (.cmpltui g p a i) s = .next (perform (s.wg p (decide ((s.rx a).toNat < (i.signExtend 64).toNat)))) ∧
      exec (.cmpgeui g p a i) s = .next (perform (s.wg p (decide ((i.signExtend 64).toNat ≤ (s.rx a).toNat)))) ∧
      exec (.cmptsti g p a i) s = .next (perform (s.wg p (s.rx a &&& i.signExtend 64 != 0))))

/-- R92, R93: SEL, and the predicate operations: their words, of formats SL and PL and class A, and what they write; a predicate source
is its value at issue. -/
def Obligations.SelectAndPredicateResults : Prop :=
  (∀ w : Word32, (guardOf w).wf = true →
    (fldN w 27 5 = 0x0A → classOf w = .a ∧ (fld w 0 3 = 0 → predSrc (fld w 3 4) = true →
      decodeCp w = .ok (.sel (guardOf w) (fld w 17 5) (fld w 12 5) (fld w 7 5) (fld w 3 4)))) ∧
    (fldN w 27 5 = 0x0E → classOf w = .a ∧ (predDst (fld w 18 4) = true → predSrc (fld w 14 4) = true → fld w 3 7 = 0 →
        (∀ k ∈ [(0, Instr.pand), (1, .por), (2, .pxor), (3, .pandn)], fldN w 0 3 = k.1 → predSrc (fld w 10 4) = true →
          decodeCp w = .ok (k.2 (guardOf w) (fld w 18 4) (fld w 14 4) (fld w 10 4))) ∧
        (fldN w 0 3 = 4 → fld w 10 4 = 0 → decodeCp w = .ok (.pnot (guardOf w) (fld w 18 4) (fld w 14 4)))) ∧
      (fldN w 0 3 = 4 → fld w 10 4 ≠ 0 → ∃ r, decodeCp w = .error r) ∧ (5 ≤ fldN w 0 3 → ∃ r, decodeCp w = .error r))) ∧
  ∀ (s : State) (g : Guard) (d a b : BitVec 5) (p q r : BitVec 4),
    (slotRuns s g [d.toNat, a.toNat, b.toNat] →
      exec (.sel g d a b q) s = .next (perform (s.wx d (if s.rg q = true then s.rx a else s.rx b)))) ∧
    (slotRuns s g [] →
      exec (.pand g p q r) s = .next (perform (s.wg p (s.rg q && s.rg r))) ∧
      exec (.por g p q r) s = .next (perform (s.wg p (s.rg q || s.rg r))) ∧
      exec (.pxor g p q r) s = .next (perform (s.wg p (s.rg q ^^ s.rg r))) ∧
      exec (.pandn g p q r) s = .next (perform (s.wg p (s.rg q && !s.rg r))) ∧
      exec (.pnot g p q) s = .next (perform (s.wg p (!s.rg q))))

/-- R94, R95: the bit fields: their words, of format BF and class A, and their results. len is LM1 + 1, and pos + len is at most 64. -/
def Obligations.BitFieldResults : Prop :=
  (∀ w : Word32, (guardOf w).wf = true → ∀ k ∈ [(0x0B, Instr.bfx), (0x0C, .bfxs), (0x0D, .bfi)], fldN w 27 5 = k.1 → classOf w = .a ∧
    (fldN w 6 6 + fldN w 0 6 < 64 → decodeCp w = .ok (k.2 (guardOf w) (fld w 17 5) (fld w 12 5) (fld w 6 6) (fld w 0 6))) ∧
    (64 ≤ fldN w 6 6 + fldN w 0 6 → ∃ r, decodeCp w = .error r)) ∧
  ∀ (s : State) (g : Guard) (d a : BitVec 5) (p l : BitVec 6), p.toNat + l.toNat < 64 → slotRuns s g [d.toNat, a.toNat] →
    let len := l.toNat + 1
    let f := (s.rx a).toNat / 2 ^ p.toNat % 2 ^ len
    let mask : Word := BitVec.ofNat 64 ((2 ^ len - 1) * 2 ^ p.toNat)
    exec (.bfx g d a p l) s = .next (perform (s.wx d (BitVec.ofNat 64 f))) ∧
    exec (.bfxs g d a p l) s = .next (perform (s.wx d (BitVec.ofInt 64 (sextN f len)))) ∧
    exec (.bfi g d a p l) s = .next (perform (s.wx d ((s.rx d &&& ~~~mask) ||| ((s.rx a <<< p.toNat) &&& mask))))

/-- R51: x0 reads as zero and a write to it is discarded; any other register reads back what was written, and no other register
changes. g0 reads as 1. -/
def Obligations.RegisterFile : Prop :=
  (∀ c : Ctx, c.rx 0 = 0) ∧ (∀ (c : Ctx) (v : Word), c.wx 0 v = c) ∧
  (∀ (c : Ctx) (n : Nat) (v : Word), n ≠ 0 → (c.wx n v).rx n = v) ∧
  (∀ (c : Ctx) (m n : Nat) (v : Word), m ≠ n → (c.wx n v).rx m = c.rx m) ∧
  (∀ g : BitVec 12, rpred g 0 = true) ∧
  (∀ (g : BitVec 12) (n : Nat) (v : Bool), n ≠ 0 → n < 12 → rpred (wpred g n v) n = v) ∧
  (∀ (g : BitVec 12) (m n : Nat) (v : Bool), m ≠ n → rpred (wpred g n v) m = rpred g m)

/-- What an instruction that writes one x register, or one predicate, leaves unchanged: every other register, every other predicate,
every handle, window and system register, every other context and unit, and every byte of memory. -/
def Obligations.FrameOfArithmetic : Prop :=
  (∀ (i : Instr) (g : Guard) (d : Nat) (rs : List Nat) (s t : State), xWriter i = some (g, d, rs) → slotRuns s g rs →
    exec i s = .next t → frameX s t d) ∧
  (∀ (i : Instr) (g : Guard) (p : Nat) (rs : List Nat) (s t : State), gWriter i = some (g, p, rs) → slotRuns s g rs →
    exec i s = .next t → frameG s t p)

/-- R72: a slot of class A, B or M that reads or writes a leased register, whichever its form, has none of its effect and raises fault
0x03, whose DETAIL names the lowest leased register and the slot: the writers of one x register or predicate, CALL and CALLR with x31, BRR,
MTS, loads and stores, LDP and LDPR, BAR and the window accesses. A slot of class E that names one waits, and its bundle is not ready
(R68). That the lowest register is named is log 87. -/
def Obligations.LeasedRegisterFaults : Prop :=
  (∀ (i : Instr) (g : Guard) (d : Nat) (rs : List Nat) (s : State) (is : Issue) (n : Nat),
    (xWriter i = some (g, d, rs) ∨ gWriter i = some (g, d, rs)) →
    s.me.issue = some is → is.guardOk g = true → leased s rs = some n →
    exec i s = .next (takeFault s (Flt.mk0 0x03 (n + s.cur.slot * 2 ^ 8)))) ∧
  (∀ (i : Instr) (g : Guard) (rs : List Nat) (s : State) (is : Issue) (n : Nat), otherRegs i = some (g, rs) →
    s.me.issue = some is → is.guardOk g = true → leased s rs = some n →
    exec i s = .next (takeFault s (Flt.mk0 0x03 (n + s.cur.slot * 2 ^ 8)))) ∧
  (∀ (i : Instr) (g : Guard) (rs : List Nat) (s : State) (is : Issue), commandRegs i = some (g, rs) →
    s.me.issue = some is → is.guardOk g = true → is.gwait = false → (leased s rs).isSome = true → exec i s = .next s) ∧
  (∀ (s : State) (x n : Nat) (i : Instr) (g : Guard) (rs : List Nat) (is : Issue), decodeCp (is.words.getD 3 0) = .ok i →
    commandRegs i = some (g, rs) → 3 ∈ is.todo → is.guardOk g = true → n ∈ rs → bit (s.ctx x).lease n = true →
    bundleReady s x is = false)

/-! ## Control processor: control flow and system registers -/

/-- R56, R96, R97, R98, R372: a branch whose target the translation unit and R56 admit takes its bundle there, and a call writes the
address of the fall-through successor to x31; a branch to a line that does not admit the target raises fault 0x02 and neither links
nor branches; a translation fault strikes the branch; a branch to the exit address, BRR and CALLR by their register's value among them,
waits for the task's end. RET is BRR x31. -/
def Obligations.BranchesAndCalls : Prop :=
  ∀ (s t u : State) (g : Guard) (o : BitVec 22) (a : BitVec 5) (p : Place) (ws : List Word32) (target : Word),
    ∀ k ∈ [(Instr.br g o, ([] : List Nat), BitVec.ofNat 64 s.bundleAddr + o.signExtend 64 * 4, false),
      (Instr.call g o, [31], BitVec.ofNat 64 s.bundleAddr + o.signExtend 64 * 4, true),
      (Instr.brr g a, [a.toNat], s.rx a, false), (Instr.callr g a, [a.toNat, 31], s.rx a, true)],
    let (ins, rs, dest, link) := k
    slotRuns s g rs → target = dest →
      (target ≠ exitVa → reaches s target 3 p t → fetchLine t (coreOf t.cur.x) p = (.ok ws, u) →
        (targetOk ws target.toNat = true →
          exec ins s = .next (perform ((if link = true then u.wx 31 (BitVec.ofNat 64 u.nextAddr) else u).modIssue u.cur.x
            (fun is => { is with taken := some target.toNat })))) ∧
        (targetOk ws target.toNat = false → exec ins s = .next (takeFault u ⟨0x02, 1, target.toNat, target.toNat, 0⟩))) ∧
      (target ≠ exitVa → unfailed s target 3 → ∀ code detail, translation s target 3 = .fault code detail t →
        exec ins s = .next (takeFault t ⟨code, 1, target.toNat, detail, 0⟩)) ∧
      (target = exitVa → exec ins s = .next (s.modIssue s.cur.x (fun is => { is with exit := true })))

/-- R25, R26, R75, R76, R78, R80: a fault outside the trap handler goes to the replay buffer: the bundle with its performed slots, EPC its
address, T set, and the handler's second word next; the record stands at offset 0x390 of the task's frame, and nothing else of memory
changes. While a load or a lease is in flight the context then issues nothing. A load of the bundle whose value is not fixed is not
performed (R19, R74). The record's fields are those of R26, its 32 bytes stand at their offset of the frame, and no other byte changes but
by what the homes count (R271). That slots are performed one at a time is log 6, and that the record is lost where the frame cannot be
translated log 12. -/
def Obligations.FaultEntersHandler : Prop :=
  (∀ (s : State) (f : Flt) (is : Issue), s.me.issue = some is → s.me.t = false → fldN s.me.tvec 7 48 ≠ 0 →
    frameWaits s s.cur.x = false →
    let u := (withdrawLoad s s.cur.x is).2
    let w := writeFrameRec u s.cur.x 0x390 (mkRec u s.cur.x true f)
    w.ctxs = u.ctxs ∧
    (takeFault s f).me = { u.me with
      rb := some (withdrawLoad s s.cur.x is).1, issue := none, reissue := false, drain := true,
      epc := BitVec.ofNat 64 (is.addr % 2 ^ 55), t := true, pc := fldN s.me.tvec 7 48 * 128 + 8 } ∧
    (u.me.await ≠ 0 ∨ u.me.lease ≠ 0 → mayIssue (takeFault s f) s.cur.x = false) ∧
    sameMemory w (takeFault s f) ∧ (∀ y, y ≠ s.cur.x → (takeFault s f).ctx y = s.ctx y)) ∧
  (∀ (s : State) (x : Nat) (precise : Bool) (f : Flt), f.code < 2 ^ 8 → f.ak < 4 → f.unit < 2 ^ 16 → f.addr < 2 ^ 64 → f.detail < 2 ^ 64 →
    let r := mkRec s x precise f
    fldN r.w0 48 16 = 0 ∧ fldN r.w0 32 16 = f.unit ∧ fldN r.w0 30 2 = 0 ∧ fldN r.w0 28 2 = f.ak ∧ bit r.w0 27 = true ∧
    fldN r.w0 25 2 = x % 4 ∧ fldN r.w0 16 9 = x / 4 % 512 ∧ bit r.w0 15 = false ∧ bit r.w0 14 = true ∧ bit r.w0 13 = precise ∧
    bit r.w0 12 = false ∧ fldN r.w0 0 8 = f.code ∧
    (∀ e ∈ [(0x00, 0x1F, 0), (0x20, 0x3F, 1), (0x40, 0x5F, 2), (0x60, 0x6F, 3), (0x70, 0x7F, 4), (0x80, 0x8F, 5), (0x90, 0x9F, 6),
        (0xA0, 0xAF, 7), (0xB0, 0xBF, 8), (0xF0, 0xFF, 0xF)], e.1 ≤ f.code → f.code ≤ e.2.1 → fldN r.w0 8 4 = e.2.2) ∧
    r.w1.toNat = f.addr ∧ r.w2.toNat = f.detail ∧ r.w3 = s.tickOf (dieOfCtx x) ∧ ofLe r.bytes = r.w0.toNat + 2 ^ 64 * r.w1.toNat +
      2 ^ 128 * r.w2.toNat + 2 ^ 192 * r.w3.toNat ∧ r.bytes.length = 32) ∧
  (∀ (s t : State) (x off : Nat) (r : Rec) (p : Place),
    let d := dieOfCtx x
    let va := (s.ctx x).frame.toNat + off
    let w := writeFrameRec s x off r
    va % 2 ^ 16 + 32 ≤ 2 ^ 16 → translateDie s d (BitVec.ofNat 64 va) 1 = (.ok p, t) →
      let c := (lineCuts p 32).foldl (fun s l => countHome s d l.1) t
      let host : Bool := p.pl = 2
      let key := placeKey host p.pkg p.pa
      readsBack c w p.pkg host p.pa r.bytes ∧ (∀ q h a, (h ≠ host ∨ placeKey h q a < key ∨ key + 32 ≤ placeKey h q a) →
        readByte w q h a = readByte c q h a) ∧ ((∀ e, (s.die e).hotcfg = 0) → sameMemory s c)) ∧
  ∀ (s : State) (x : Nat) (is : Issue),
    (is.ld = none → withdrawLoad s x is = (is, s)) ∧
    (∀ (r xd sz : Nat) (sg : Bool) (q : Req), is.ld = some r → s.req r = some q → q.kind = .load xd sz sg → q.ans = none →
      (withdrawLoad s x is).1 = { is with perf := setBit is.perf 2 false } ∧ (withdrawLoad s x is).2.req r = none ∧
      bit ((withdrawLoad s x is).2.ctx x).await xd = false ∧ sameMemory s (withdrawLoad s x is).2)

/-- R76, R79, R285: a fault in the handler is fault 0x07, whose record stands at offset 0x3D0, and a fault of a task without a handler
ends it; in both the task ends with the record, and its context issues nothing more. A page or node fault that the hardware scheduler
services freezes the bundle in the replay buffer and leaves the task to be saved (log 40); in the trap handler it is a fault, whose code
in fault 0x07 is log 53. A frame that cannot be translated loses its record (log 12). -/
def Obligations.FaultsThatStopTheTask : Prop :=
  (∀ (s : State) (f : Flt) (is : Issue), s.me.issue = some is → s.me.kill = none → frameWaits s s.cur.x = false →
    let u := (withdrawLoad s s.cur.x is).2
    (s.me.t = true →
      let r := mkRec u s.cur.x true (Flt.mk0 0x07 (f.code % 2 ^ 8 + is.addr % 2 ^ 56 * 2 ^ 8))
      (takeFault s f).me.kill = some r ∧ (takeFault s f).me.issue = none ∧ mayIssue (takeFault s f) s.cur.x = false ∧
      sameMemory (writeFrameRec u s.cur.x 0x3D0 r) (takeFault s f)) ∧
    (s.me.t = false → fldN s.me.tvec 7 48 = 0 →
      (takeFault s f).me.kill = some (mkRec u s.cur.x true f) ∧ (takeFault s f).me.issue = none ∧
      mayIssue (takeFault s f) s.cur.x = false)) ∧
  (∀ (s : State) (f : Flt) (va kind region level : Nat) (node : Bool) (is : Issue), s.me.issue = some is →
    (s.me.t = false →
      (takeServiced s f va kind node region level).me = { (withdrawLoad s s.cur.x is).2.me with
        rb := some (withdrawLoad s s.cur.x is).1, issue := none, reissue := true,
        save := some (.fault va kind node region level none) } ∧
      (is.ld = none → onlyMe s (takeServiced s f va kind node region level)) ∧
      mayIssue (takeServiced s f va kind node region level) s.cur.x = false) ∧
    (s.me.t = true → takeServiced s f va kind node region level = takeFault s f))

/-- R77, R108: TRAP raises fault 0x01 with its immediate in DETAIL, is performed at entry to the handler and leaves the replay buffer
empty, with EPC at the fall-through successor. A frame that cannot be translated loses the record (log 12). -/
def Obligations.TrapEntersHandler : Prop :=
  ∀ (s : State) (g : Guard) (i : BitVec 16) (is : Issue), s.me.issue = some is → is.guardOk g = true → s.me.t = false →
    fldN s.me.tvec 7 48 ≠ 0 → frameWaits s s.cur.x = false →
    ∃ t, exec (.trap g i) s = .next t ∧
      t.me = { s.me with
        rb := none, issue := none, reissue := false, drain := true, epc := BitVec.ofNat 64 (successor is.addr is.occ % 2 ^ 55), t := true,
        pc := fldN s.me.tvec 7 48 * 128 + 8 } ∧
      sameMemory (writeFrameRec s s.cur.x 0x390 (mkRec s s.cur.x true (Flt.mk0 0x01 i.toNat))) t

/-- R77, R372: ERET ends the handler. With slots left in the replay buffer its bundle, at EPC, is the next to issue; with none, execution
goes on at EPC, which is checked as a branch target, or waits for the task's end where EPC is the exit address. Outside the handler it
raises fault 0x08. -/
def Obligations.EretReturns : Prop :=
  ∀ (s t u : State) (g : Guard) (p : Place) (ws : List Word32), slotRuns s g [] →
    (s.me.t = true → ∀ is : Issue, s.me.rb = some is → is.todo ≠ [] →
      exec (.eret g) s = .next (s.modMe (fun c => { c with
        t := false, issue := none, reissue := true, pc := c.epc.toNat, rb := some { is with addr := c.epc.toNat } }))) ∧
    (s.me.t = true → (∀ is, s.me.rb = some is → is.todo = []) →
      (s.me.epc ≠ exitVa → reaches s s.me.epc 3 p t → fetchLine t (coreOf t.cur.x) p = (.ok ws, u) →
        (targetOk ws s.me.epc.toNat = true →
          exec (.eret g) s = .next (u.modMe (fun c => { c with t := false, issue := none, rb := none, pc := c.epc.toNat }))) ∧
        (targetOk ws s.me.epc.toNat = false →
          exec (.eret g) s = .next (takeFault u ⟨0x02, 1, s.me.epc.toNat, s.me.epc.toNat, 0⟩))) ∧
      (s.me.epc = exitVa → exec (.eret g) s = .next (s.modIssue s.cur.x (fun is => { is with exit := true })))) ∧
    (s.me.t = false → exec (.eret g) s = .next (takeFault s (Flt.mk0 0x08 0)))

/-- R57, R108, R109, R110: YIELD, MFS, MTS and RDTICK. YIELD waits for the other contexts that are ready, as log 47 counts them, or 16
cycles: until each of them has issued, or the cycles have passed, its context may not issue, and then YIELD holds it no longer; RDTICK reads
the counter as it stood in the issue cycle. MTS to EPC or RBSTAT outside the trap handler raises fault 0x06. -/
def Obligations.SystemInstructions : Prop :=
  ∀ (s : State) (g : Guard) (d : BitVec 5) (n : BitVec 12),
    (slotRuns s g [] →
      exec (.yield g) s = .next (perform (s.modMe (fun c => { c with
        yield := some (readyOthers s s.cur.x, s.cycles (pkgOfCtx s.cur.x) + 16) })))) ∧
    (∀ (x m : Nat) (l : List Nat), (s.ctx x).yield = some (l, m) →
      (l ≠ [] → s.cycles (pkgOfCtx x) < m → mayIssue s x = false) ∧
      (l = [] ∨ m ≤ s.cycles (pkgOfCtx x) → mayIssue s x = mayIssue (s.modCtx x (fun c => { c with yield := none })) x) ∧
      (∀ y is, coreOf y = coreOf x → y ≠ x → ((openWith s y is).ctx x).yield = some (l.filter (· ≠ y), m))) ∧
    (slotRuns s g [d.toNat] →
      (∀ is, s.me.issue = some is → exec (.rdtick g d) s = .next (perform (s.wx d is.tick))) ∧
      exec (.mfs g d 0) s = .next (perform (s.wx d (ctxidOf s.cur.x))) ∧
      exec (.mfs g d 1) s = .next (perform (s.wx d s.me.wid)) ∧
      exec (.mfs g d 2) s = .next (perform (s.wx d (cstatOf s.me))) ∧
      exec (.mfs g d 3) s = .next (perform (s.wx d s.me.tvec)) ∧
      exec (.mfs g d 4) s = .next (perform (s.wx d s.me.epc)) ∧
      exec (.mfs g d 5) s = .next (perform (s.wx d (rbstatOf s.me))) ∧
      exec (.mfs g d 6) s = .next (perform (s.wx d (s.me.lease.setWidth 64))) ∧
      exec (.mfs g d 7) s = .next (perform (s.wx d s.me.ldpstk)) ∧
      exec (.mfs g d 8) s = .next (perform (s.wx d s.me.gixstk)) ∧
      exec (.mfs g d 9) s = .next (perform (s.wx d s.me.frame)) ∧
      (9 < n.toNat → exec (.mfs g d n) s = .next (perform (s.wx d 0)))) ∧
    (slotRuns s g [d.toNat] →
      exec (.mts g d 3) s = .next (perform (s.modMe (fun c => { c with tvec := s.rx d &&& 0x007FFFFFFFFFFF80 }))) ∧
      (s.me.t = true →
        exec (.mts g d 4) s = .next (perform (s.modMe (fun c => { c with epc := s.rx d &&& 0x007FFFFFFFFFFFFC }))) ∧
        exec (.mts g d 5) s = .next (perform (s.modMe (fun c => { c with
          rb := c.rb.map (fun is => { is with perf := is.perf ||| (fld (s.rx d) 8 4 &&& is.occ) }) })))) ∧
      (s.me.t = false → ∀ k ∈ [(4 : BitVec 12), 5],
        exec (.mts g d k) s = .next (takeFault s (Flt.mk0 0x06 k.toNat))) ∧
      exec (.mts g d 7) s = .next (perform (s.modMe (fun c => { c with
        ldpstk := if bit (s.rx d) 63 then setBit c.ldpstk 63 false else c.ldpstk }))) ∧
      exec (.mts g d 8) s = .next (perform (s.modMe (fun c => { c with
        gixstk := if bit (s.rx d) 63 then setBit c.gixstk 63 false else c.gixstk }))) ∧
      (n.toNat ∈ [0, 1, 2, 6] ∨ 8 < n.toNat → exec (.mts g d n) s = .next (perform s)))

/-! ## Control processor: memory -/

/-- R71, R99, R100, R101: a load of an aligned, translated address goes to the home as a request that its register awaits, or is
answered from the data cache; a store updates the data cache's copy and goes to the home as a request that holds the low bytes of xd,
and no byte of memory changes at issue. -/
def Obligations.LoadsAndStoresComplete : Prop :=
  (∀ (s t : State) (g : Guard) (d a : BitVec 5) (o : BitVec 10) (p : Place),
    ∀ k ∈ [(Instr.ldub g d a o, 0, false), (Instr.lduh g d a o, 1, false), (Instr.lduw g d a o, 2, false),
      (Instr.ldd g d a o, 3, false), (Instr.ldsb g d a o, 0, true), (Instr.ldsh g d a o, 1, true),
      (Instr.ldsw g d a o, 2, true)],
    let ea := s.rx a + o.signExtend 64 * BitVec.ofNat 64 (2 ^ k.2.1)
    slotRuns s g [d.toNat, a.toNat] → ea.toNat % 2 ^ k.2.1 = 0 → translates s ea 0 p t →
      (dcHit t t.cur.x ea.toNat p = none →
        exec k.1 s = .next (perform (loadSent t ea p d.toNat (2 ^ k.2.1) k.2.2))) ∧
      (∀ l v, dcHit t t.cur.x ea.toNat p = some l → dcRead t p (2 ^ k.2.1) = (v, none) →
        exec k.1 s = .next (perform (v.modMe (fun c => c.wx d.toNat
          (landVal (2 ^ k.2.1) k.2.2 (ofLe ((l.drop (p.pa % 64)).take (2 ^ k.2.1))))))))) ∧
  (∀ (s t : State) (g : Guard) (d a : BitVec 5) (o : BitVec 10) (p : Place),
    ∀ k ∈ [(Instr.stb g d a o, 0), (Instr.sth g d a o, 1), (Instr.stw g d a o, 2), (Instr.std g d a o, 3)],
    let ea := s.rx a + o.signExtend 64 * BitVec.ofNat 64 (2 ^ k.2)
    slotRuns s g [d.toNat, a.toNat] → ea.toNat % 2 ^ k.2 = 0 → translates s ea 1 p t →
      let w := dcStore t (coreOf t.cur.x) ea.toNat p (leBytes (2 ^ k.2) (s.rx d).toNat)
      let u := perform (w.addReq (mkReq w ea p (.store (2 ^ k.2) ((s.rx d).toNat % 2 ^ (8 * 2 ^ k.2))) false none))
      exec k.1 s = .next u ∧ sameMemory s u)

/-- R99, R281, R285, R288, R289, R293: what stops a load or a store: the misaligned address raises 0x05 before any translation fault; a
translation fault strikes with the access kind; a page that the hardware scheduler brings in freezes the bundle, and, where the pager failed
it, the access that faulted raises 0x87 when its bundle is reissued, with the address and kind of the fault; a migration lock makes the slot
wait; a word of the walk in error ends the task. -/
def Obligations.LoadAndStoreFaults : Prop :=
  ∀ (s t : State) (g : Guard) (d a : BitVec 5) (o : BitVec 10),
    ∀ k ∈ [(Instr.ldub g d a o, 0, 0), (Instr.lduh g d a o, 1, 0), (Instr.lduw g d a o, 2, 0), (Instr.ldd g d a o, 3, 0),
      (Instr.ldsb g d a o, 0, 0), (Instr.ldsh g d a o, 1, 0), (Instr.ldsw g d a o, 2, 0),
      (Instr.stb g d a o, 0, 1), (Instr.sth g d a o, 1, 1), (Instr.stw g d a o, 2, 1), (Instr.std g d a o, 3, 1)],
    let ea := s.rx a + o.signExtend 64 * BitVec.ofNat 64 (2 ^ k.2.1)
    let tr := translation s ea k.2.2
    slotRuns s g [d.toNat, a.toNat] →
      (ea.toNat % 2 ^ k.2.1 ≠ 0 → exec k.1 s = .next (takeFault s ⟨0x05, 1, ea.toNat, k.2.1, 0⟩)) ∧
      (ea.toNat % 2 ^ k.2.1 = 0 → unfailed s ea k.2.2 →
        (∀ code detail, tr = .fault code detail t → exec k.1 s = .next (takeFault t ⟨code, 1, ea.toNat, detail, 0⟩)) ∧
        (∀ kind node region level, tr = .serviced kind node region level t → exec k.1 s = .next (takeServiced t
          ⟨missCode node, 1, ea.toNat, trDetail kind level, 0⟩ ea.toNat kind node region level)) ∧
        (∀ f, tr = .check f t → exec k.1 s = .next (machineCheck t t.cur.x f)) ∧
        (tr = .locked t → exec k.1 s = .next t)) ∧
      (∀ (why kind : Nat) (is : Issue) (pre post : List PagerFail), ea.toNat % 2 ^ k.2.1 = 0 → s.me.issue = some is → is.re = true →
        (kind = k.2.2 ∨ kind = 7) → s.me.pagerFail = pre ++ ⟨why, ea.toNat, kind, true⟩ :: post →
        (∀ q ∈ pre, ¬ (q.slot = true ∧ q.va = ea.toNat ∧ (q.kind = k.2.2 ∨ q.kind = 7))) →
        exec k.1 s = .next (takeFault (s.modMe (fun c => { c with pagerFail := pre ++ post }))
          ⟨0x87, 1, ea.toNat, kind * 2 ^ 16 + why % 2 ^ 16, 0⟩))

/-- R53, R102: a read of a bound parameter window within its size goes to the place of base plus offset; one beyond its size writes
zero and is kept in LDPSTK, the first time; one of an unbound window raises fault 0x04. -/
def Obligations.ParameterReads : Prop :=
  ∀ (s t : State) (g : Guard) (d b : BitVec 5) (wn : BitVec 3) (o : BitVec 12) (p : Place),
    ∀ k ∈ [(Instr.ldpb g d wn o, [d.toNat], 0, o.toNat, true), (Instr.ldph g d wn o, [d.toNat], 1, o.toNat * 2, true),
      (Instr.ldpw g d wn o, [d.toNat], 2, o.toNat * 4, true), (Instr.ldpd g d wn o, [d.toNat], 3, o.toNat * 8, true),
      (Instr.ldprb g d wn b, [d.toNat, b.toNat], 0, (s.rx b).toNat, true),
      (Instr.ldprh g d wn b, [d.toNat, b.toNat], 1, (s.rx b).toNat, decide ((s.rx b).toNat % 2 = 0)),
      (Instr.ldprw g d wn b, [d.toNat, b.toNat], 2, (s.rx b).toNat, decide ((s.rx b).toNat % 4 = 0)),
      (Instr.ldprd g d wn b, [d.toNat, b.toNat], 3, (s.rx b).toNat, decide ((s.rx b).toNat % 8 = 0))],
    let (ins, rs, sz, off, al) := k
    let w : Quad := Tab.get 0 s.me.w wn.toNat
    let va := winBase w + BitVec.ofNat 64 off
    slotRuns s g rs →
      (winB w = false → exec ins s = .next (takeFault s (Flt.mk0 0x04 wn.toNat))) ∧
      (winB w = true → al = true → winSize w < off + 2 ^ sz →
        exec ins s = .next (perform ((s.wx d 0).modMe (fun c => if bit c.ldpstk 63 then c
          else { c with ldpstk := BitVec.ofNat 64 (2 ^ 63 + wn.toNat * 2 ^ 32 + min off 0xFFFFFFFF) })))) ∧
      (winB w = true → al = true → off + 2 ^ sz ≤ winSize w → translates s va 0 p t →
        (dcHit t t.cur.x va.toNat p = none → exec ins s = .next (perform (loadSent t va p d.toNat (2 ^ sz) false))) ∧
        (∀ l v, dcHit t t.cur.x va.toNat p = some l → dcRead t p (2 ^ sz) = (v, none) →
          exec ins s = .next (perform (v.modMe (fun c => c.wx d.toNat
            (landVal (2 ^ sz) false (ofLe ((l.drop (p.pa % 64)).take (2 ^ sz))))))))) ∧
      (winB w = true → al = false →
        exec ins s = .next (takeFault s ⟨0x05, 1, (winBase w + s.rx b).toNat, sz, 0⟩))

/-- R103 to R107, R111, R139: FENCE is performed at issue; while an earlier load, store or window access of its context is not performed,
no bundle of the context with an M or E slot whose guard is true is ready; it then ends, and at scope stable or above the data cache is
empty. BAR, once its context has no entry left, delivers a pending record, or sends its arrival, once; it is performed when the generation
at its home has moved; one whose bundle is reissued after its arrival arrives no second time. SWAIT is performed when no entry of its
context names the stall and its window accesses are performed, LWAIT when the lease has ended, and until then they wait; a record
pending at a SWAIT's issue is delivered there. That the scopes above core order alike is log 56, and that a departure drops the core's copy
of the barrier word is log 34, which reads R18 so: the model's choices. -/
def Obligations.OrderingAndWaits : Prop :=
  (∀ (s t : State) (g : Guard) (sc : BitVec 3) (o : BitVec 2) (a : BitVec 5) (p : Place) (is : Issue),
    (slotRuns s g [] → exec (.fence g sc) s =
      .next (perform (fenceCheck (s.modMe (fun c => { c with fence := some sc.toNat })) s.cur.x))) ∧
    (∀ (x n : Nat), (s.ctx x).fence = some n →
      (∀ i ∈ is.todo, (classOf (is.words.getD i 0) = .m ∨ classOf (is.words.getD i 0) = .e) →
        is.guardOk (guardOf (is.words.getD i 0)) = true → bundleReady s x is = false) ∧
      (plainOut s x = true → fenceCheck s x = s) ∧
      (plainOut s x = false → ((fenceCheck s x).ctx x).fence = none ∧ (n ≠ 0 → ((fenceCheck s x).core (coreOf x)).dc = []))) ∧
    (slotRuns s g [a.toNat] → s.me.issue = some is → entriesOf s s.cur.x = [] →
      ((is.sync && s.me.pend.isSome) = true → exec (.bar g sc o a) s = .next (deliverPending s s.cur.x)) ∧
      ((is.sync && s.me.pend.isSome) = false → is.bar ≠ .none → exec (.bar g sc o a) s = .next s)) ∧
    (∀ x, (s.ctx x).issue = none → mayIssue s x = true → (s.ctx x).reissue = true → (s.ctx x).rb = some is →
      nextBundle s x = (some { is with re := true, sync := (s.ctx x).pend.isSome, ld := none }, s)) ∧
    (slotRuns s g [a.toNat] → s.me.issue = some is → is.bar = .none → (is.sync && s.me.pend.isSome) = false →
      entriesOf s s.cur.x = [] →
      ((s.rx a).toNat % 8 = 0 → translates s (s.rx a) 2 p t →
        exec (.bar g sc o a) s = .next ((t.addReq (mkReq t (s.rx a) p .bar (o.getLsbD 0) none)).modIssue t.cur.x
          (fun is => { is with bar := .sent }))) ∧
      ((s.rx a).toNat % 8 ≠ 0 → exec (.bar g sc o a) s = .next (takeFault s ⟨0x05, 1, (s.rx a).toNat, 3, 0⟩))) ∧
    (∀ (x gen : Nat) (is : Issue) (u : State), (s.ctx x).issue = some is → is.bar = .arrived gen → bit is.perf 2 = false →
      s.stopped (dieOfCtx x) = false →
      let v := { s with cur := ⟨x, 2, coreOf x⟩ }
      let w := is.words.getD 2 0
      let y := dcDrop u (coreOf u.cur.x) p.pa
      reaches v (v.rxn (fldN w 12 5)) 0 p t → serveRead t (dieOfCtx t.cur.x) p 8 = (u, none) →
      exec (.barDeparture x) s = .next (closeBundle (
        if u.readPhys p.pkg (p.pl = 2) p.pa 8 / 2 ^ 32 = gen then u
        else perform (if bit w 18 then acquire y (coreOf y.cur.x) (fldN w 19 3) else y)) x))) ∧
  (∀ (s : State) (g : Guard) (n : BitVec 5) (is : Issue), s.me.issue = some is → slotRuns s g [] →
    (exec (.lwait g n) s = .next (if (if n = 0 then s.me.lease = 0 ∧ s.me.out0 = 0 else bit s.me.lease n.toNat = false)
      then perform s else s)) ∧
    (∀ k ∈ [(Instr.swait g n, false, n.toNat), (Instr.swaitAll g, true, 0)], (k.2.1 = false → hV (s.rh n.toNat) = true) →
      (swaitReady s s.cur.x k.2.1 k.2.2 = true → (is.sync && s.me.pend.isSome) = false → exec k.1 s = .next (perform s)) ∧
      (swaitReady s s.cur.x k.2.1 k.2.2 = true → (is.sync && s.me.pend.isSome) = true →
        exec k.1 s = .next (deliverPending s s.cur.x)) ∧
      (swaitReady s s.cur.x k.2.1 k.2.2 = false → exec k.1 s = .next s)))

/-! ## Windows on stalls -/

/-- R140, R141, R142: a window access whose handle is valid and that lies within one record of the stall goes to the bank port; its
register awaits the answer. -/
def Obligations.WindowAccessesComplete : Prop :=
  ∀ (s : State) (g : Guard) (d h b : BitVec 5), slotRuns s g [d.toNat, b.toNat] → hV (s.rh h.toNat) = true →
    let w := s.rh h.toNat
    let o := (s.rx b).toNat
    let at_ := yardKey (byteBank w o) (byteOff w o)
    let q := fldN (s.rx b) 0 32
    let atq := yardKey (byteBank w q) (byteOff w q)
    (o % 4 = 0 → o % hRsz w + 4 ≤ hRsz w → o + 4 ≤ hCapr w * hRsz w →
      exec (.lds4 g d h b) s = .next (perform (pushWin ⟨0, 4, d.toNat, at_, 0, 0⟩ s)) ∧
      exec (.sts4 g d h b) s = .next (perform (pushWin ⟨1, 4, 0, at_, (s.rx d).toNat % 2 ^ 32, 0⟩ s))) ∧
    (o % 8 = 0 → o % hRsz w + 8 ≤ hRsz w → o + 8 ≤ hCapr w * hRsz w →
      exec (.lds8 g d h b) s = .next (perform (pushWin ⟨0, 8, d.toNat, at_, 0, 0⟩ s)) ∧
      exec (.sts8 g d h b) s = .next (perform (pushWin ⟨1, 4, 0, at_ + 4, (s.rx d).toNat / 2 ^ 32, 0⟩
        (pushWin ⟨1, 4, 0, at_, (s.rx d).toNat % 2 ^ 32, 0⟩ s)))) ∧
    (q % 4 = 0 → q % hRsz w + 4 ≤ hRsz w → q + 4 ≤ hCapr w * hRsz w →
      ∀ k ∈ [(Instr.saadd g d h b, 2), (Instr.safadd g d h b, 3), (Instr.samin g d h b, 4), (Instr.samax g d h b, 5),
        (Instr.saxchg g d h b, 6), (Instr.sacas g d h b, 7)],
      exec k.1 s = .next (perform (pushWin ⟨k.2, 4, d.toNat, atq, fldN (s.rx b) 32 32, fldN (s.rx d) 0 32⟩ s)))

/-- R129, R140: what stops a window access, in the order of the checks: an invalid handle 0x20, a misaligned access or one across
records 0x26, one beyond the stall 0x25. -/
def Obligations.WindowAccessFaults : Prop :=
  ∀ (s : State) (g : Guard) (d h b : BitVec 5), slotRuns s g [d.toNat, b.toNat] →
    let w := s.rh h.toNat
    ∀ k ∈ [(Instr.lds4 g d h b, 4, (s.rx b).toNat), (Instr.lds8 g d h b, 8, (s.rx b).toNat),
      (Instr.sts4 g d h b, 4, (s.rx b).toNat), (Instr.sts8 g d h b, 8, (s.rx b).toNat),
      (Instr.saadd g d h b, 4, fldN (s.rx b) 0 32), (Instr.safadd g d h b, 4, fldN (s.rx b) 0 32),
      (Instr.samin g d h b, 4, fldN (s.rx b) 0 32), (Instr.samax g d h b, 4, fldN (s.rx b) 0 32),
      (Instr.saxchg g d h b, 4, fldN (s.rx b) 0 32), (Instr.sacas g d h b, 4, fldN (s.rx b) 0 32)],
    (hV w = false → exec k.1 s = .next (takeFault s (cmdFault s 0x20 h.toNat))) ∧
    (hV w = true → (k.2.2 % k.2.1 ≠ 0 ∨ hRsz w < k.2.2 % hRsz w + k.2.1) →
      exec k.1 s = .next (takeFault s (windowFault s 0x26 w k.2.2))) ∧
    (hV w = true → k.2.2 % k.2.1 = 0 → k.2.2 % hRsz w + k.2.1 ≤ hRsz w → hCapr w * hRsz w < k.2.2 + k.2.1 →
      exec k.1 s = .next (takeFault s (windowFault s 0x25 w k.2.2)))

/-- R141, R142, R144: the bank port, where no word is in error and the die is not held. An answer takes the bank's word and writes the
register; of an 8-byte load the second word, which is served by itself, is the high half; an SRF atomic returns the old word and leaves the
new one, computed by its function of R141; a store writes its word. Every other byte of the yard keeps its value, and every byte of memory
and every other register of every context. -/
def Obligations.WindowPort : Prop :=
  ∀ (s : State) (x : Nat) (w : Win) (rest : List Win), (s.ctx x).wins = w :: rest → s.errs = [] → s.stopped (dieOfCtx x) = false →
    let old := Memory.readN (s.core (coreOf x)).yard w.at_ 4
    (w.fn = 0 → w.size = 8 →
      ∃ t, exec (.windowAnswer x) s = .next t ∧ (t.ctx x).wins = ⟨0, 4, w.xd, w.at_ + 4, old, 1⟩ :: rest ∧
        (∀ y n, (t.ctx y).rx n = (s.ctx y).rx n) ∧ t.cores = s.cores ∧ sameMemory s t) ∧
    (w.fn ≠ 1 → (w.fn = 0 → w.size = 4) →
      ∃ t, exec (.windowAnswer x) s = .next t ∧
        (t.ctx x).rx w.xd = (if w.xd = 0 then 0 else BitVec.ofNat 64 (if w.fn = 0 ∧ w.cmp = 1 then w.v + 2 ^ 32 * old else old)) ∧
        (t.ctx x).wins = rest ∧
        bit (t.ctx x).await w.xd = false ∧
        (∀ y n, (y = x → n ≠ w.xd) → (t.ctx y).rx n = (s.ctx y).rx n) ∧
        (t.core (coreOf x)).yard = (if w.fn = 0 then (s.core (coreOf x)).yard else
          Memory.write (s.core (coreOf x)).yard w.at_ (leBytes 4 (windowNew w.fn old w.v w.cmp))) ∧
        (∀ k ∈ [(2, (old + w.v) % 2 ^ 32), (3, fadd Fmt.fp32 0 old w.v), (4, if sextN w.v 32 < sextN old 32 then w.v else old),
          (5, if sextN old 32 < sextN w.v 32 then w.v else old), (6, w.v), (7, if old = w.cmp then w.v else old)],
          w.fn = k.1 → windowNew w.fn old w.v w.cmp = k.2) ∧
        (∀ y, y ≠ coreOf x → (t.core y).yard = (s.core y).yard) ∧ sameMemory s t) ∧
    (w.fn = 1 →
      ∃ t, exec (.windowStoreWrite x) s = .next t ∧ (t.ctx x).wins = rest ∧
        (t.core (coreOf x)).yard = Memory.write (s.core (coreOf x)).yard w.at_ (leBytes 4 w.v) ∧
        (∀ y n, (t.ctx y).rx n = (s.ctx y).rx n) ∧ (∀ y, y ≠ coreOf x → (t.core y).yard = (s.core y).yard) ∧ sameMemory s t)

/-! ## Stream and home commands -/

/-- R116, R118, R119, R130: SALLOC of a sound request leases xd and is on its way; its answer places the stall, writes the handle and
answers with the reference word, or answers with the failure word; a request word of zero answers with SCAP. First fit finds the lowest
start whose granules are FREE and lie in the request's half, and fails only where there is none. -/
def Obligations.StallAllocation : Prop :=
  ((∀ (s : State) (g : Guard) (d h a : BitVec 5), slotRuns s g [d.toNat, a.toNat] →
    let q := s.rx a
    (q = 0 ∨ (hV (s.rh h.toNat) = false ∧ badRequest q = false ∧ reqLen q ≠ 0) →
      exec (.salloc g d h a) s = .next (perform ((lease s d.toNat).modMe (fun c => { c with
        allocs := c.allocs ++ [⟨h.toNat, d.toNat, q⟩] })))) ∧
    (reqLen q = 0 → q ≠ 0 → exec (.salloc g d h a) s = .next (takeFault s (cmdFault s 0x22 q.toNat))) ∧
    (reqLen q ≠ 0 → hV (s.rh h.toNat) = true → exec (.salloc g d h a) s = .next (takeFault s (cmdFault s 0x21 h.toNat))) ∧
    (reqLen q ≠ 0 → hV (s.rh h.toNat) = false → badRequest q = true →
      exec (.salloc g d h a) s = .next (takeFault s (cmdFault s 0x22 q.toNat)))) ∧
  (∀ (s : State) (x : Nat) (a : Alloc) (rest : List Alloc), (s.ctx x).allocs = a :: rest → s.stopped (dieOfCtx x) = false →
    let c := coreOf x
    let u := s.modCtx x (fun c => { c with allocs := rest })
    let q := a.req
    (reqLen q = 0 → exec (.sallocAnswer x) s = .next (endLease u x a.xd (scap u c))) ∧
    (reqLen q ≠ 0 → firstFit (s.core c).stalls (halfRange (reqHalf q) (capg s c)).1 (halfRange (reqHalf q) (capg s c)).2
        (reqGlo q + reqLen q + reqGhi q + 2) = none →
      exec (.sallocAnswer x) s = .next (endLease u x a.xd (failureWord (s.core c).stalls (capg s c)))) ∧
    (∀ k, reqLen q ≠ 0 → firstFit (s.core c).stalls (halfRange (reqHalf q) (capg s c)).1 (halfRange (reqHalf q) (capg s c)).2
        (reqGlo q + reqLen q + reqGhi q + 2) = some k →
      let t : Stall := {
        base := k + reqGlo q + 1, len := reqLen q, rsz := reqRsz q, glo := reqGlo q, ghi := reqGhi q, tag := 0, push := 0 }
      exec (.sallocAnswer x) s = .next (endLease ((u.modCore c (fun v => { v with stalls := t :: v.stalls })).modCtx x
        (fun v => v.wh a.hd (handleOf t))) x a.xd (referenceOf c t))))) ∧
  (∀ (ts : List Stall) (lo hi n : Nat),
    let fits := fun k => lo ≤ k ∧ k + n ≤ hi ∧ ∀ t ∈ ts, t.hi ≤ k ∨ k + n ≤ t.lo
    (∀ k, firstFit ts lo hi n = some k → fits k ∧ ∀ j, fits j → k ≤ j) ∧ (firstFit ts lo hi n = none → ∀ j, ¬ fits j))

/-- R128 to R139, R164, R260, R264: a command of class E whose registers are not leased, whose stalls are valid and whose operands keep
its rules is accepted: it takes a scoreboard entry that names the stalls it reads and writes. SFREE also clears V of its handle. KRUN
first reads its record in the microcode store, v being the state that the read leaves. -/
def Obligations.StreamCommandsAccepted : Prop :=
  ∀ (s : State) (g : Guard) (h i a b c : BitVec 5) (p : BitVec 4) (r : BitVec 3),
    let valid := fun (hs : List Nat) => ∀ n ∈ hs, hV (s.rh n) = true
    let cap := fun (n : BitVec 5) => hCapr (s.rh n.toNat)
    let rsz := fun (n : BitVec 5) => hRsz (s.rh n.toNat)
    let w := fun (n : Nat) => s.rxn n
    let p0 := 2 * p.toNat
    let r0 := 4 * r.toNat
    (slotRuns s g [] → valid [h.toNat] →
      exec (.sfree g h) s = .next (perform ((accept [] [h.toNat] s).modMe (fun c => c.wh h.toNat (setBit (c.rh h.toNat) 63 false)))) ∧
      exec (.srecv g h) s = .next (perform (accept [] [h.toNat] s))) ∧
    (slotRuns s g [a.toNat, b.toNat] → valid [h.toNat] → fldN (s.rx b) 60 4 = 0 → fldN (s.rx b) 0 32 ≤ cap h →
      exec (.sload g h a b) s = .next (perform (accept [] [h.toNat] s)) ∧
      exec (.sstore g h a b) s = .next (perform (accept [h.toNat] [] s))) ∧
    (slotRuns s g [a.toNat, b.toNat] → valid [h.toNat] → fldN (s.rx b) 62 2 = 0 → fldN (s.rx b) 60 2 ≠ 3 →
      rsz h % (8 * 2 ^ fldN (s.rx b) 60 2) = 0 → fldN (s.rx b) 0 32 ≤ cap h →
      exec (.sloadx g h a b) s = .next (perform (accept [] [h.toNat] s))) ∧
    (slotRuns s g [p0, p0 + 1] → valid [h.toNat, i.toNat] → rsz i = 4 → fldN (w (p0 + 1)) 0 32 ≤ cap i →
      (fldN (w (p0 + 1)) 0 32 ≤ cap h → exec (.sgather g h i p) s = .next (perform (accept [i.toNat] [h.toNat] s))) ∧
      (fldN (w (p0 + 1)) 62 2 ≠ 3 →
        exec (.sbag g h i p) s = .next (perform (accept [i.toNat] [h.toNat] s)) ∧
        exec (.sbagm g h i p) s = .next (perform (accept [i.toNat] [h.toNat] s))) ∧
      (rsz h % (if fldN (w (p0 + 1)) 62 2 = 1 ∨ fldN (w (p0 + 1)) 62 2 = 2 then 2 else 4) = 0 →
        fldN (w (p0 + 1)) 0 32 ≤ cap h →
        (w p0).toNat % (if fldN (w (p0 + 1)) 62 2 = 1 ∨ fldN (w (p0 + 1)) 62 2 = 2 then 2 else 4) = 0 →
        exec (.sscadd g h i p) s = .next (perform (accept [h.toNat, i.toNat] [] s)))) ∧
    (slotRuns s g [a.toNat, b.toNat] → valid [h.toNat] → fldN (s.rx b) 32 32 = 0 → fldN (s.rx b) 0 32 ≤ cap h →
      bit (s.rx a) 63 = true → fldN (s.rx a) 51 9 / 8 = coreOf s.cur.x % 512 / 8 →
      exec (.scopy g h a b) s = .next (perform (accept [] [h.toNat] s)) ∧
      exec (.scopyp g h a b) s = .next (perform (accept [h.toNat] [] s))) ∧
    (slotRuns s g [r0, r0 + 1, r0 + 2, r0 + 3] → valid [h.toNat, i.toNat] →
      let alg := fldN (w (r0 + 1)) 62 2
      alg ≠ 3 → (alg = 2 → 0 < fldN (w (r0 + 3)) 0 32 ∧ fldN (w (r0 + 3)) 0 32 < 0x7F800000) → fldN (w (r0 + 3)) 32 32 = 0 →
      (∃ k, k < 11 ∧ rsz h / 4 = 2 ^ k ∧ (alg ≠ 0 → k < 10)) → rsz i = 4 → fldN (w (r0 + 1)) 0 32 ≤ cap h →
      fldN (w (r0 + 1)) 0 32 ≤ cap i → (w r0).toNat % (if alg = 0 then rsz h else 2 * rsz h) = 0 →
      exec (.srowupd g h i r) s = .next (perform (accept [h.toNat, i.toNat] [] s))) ∧
    (∀ v : State, slotRuns s g [a.toNat, b.toNat, c.toNat] → (∀ t, s.me.task = some t → t.zeroed = true) →
      let k := fldN (s.rx a) 0 12
      let rec_ := storeWords (v.core (coreOf s.cur.x)) k
      let on := (List.range 8).filter (bindOn (s.rx b))
      checkRead s (dieOfCtx s.cur.x) (.store (coreOf s.cur.x)) (ucKey k) 64 = (v, none) →
      fldN (s.rx a) 48 16 = 0 → fldN (s.rx a) 12 4 = 0 →
      (∃ l, loadedOf v s.cur.x = some l ∧ recordLegal (storeWords (v.core (coreOf s.cur.x))) l k = true) →
      (∀ n < 8, badBinding v.me rec_ (s.rx b) n = false) →
      exec (.krun g a b c) s = .next (perform (accept ((on.filter (fun p => !bindWrites (s.rx b) p)).map (bindHn (s.rx b)))
        ((on.filter (bindWrites (s.rx b))).map (bindHn (s.rx b))) v)))

/-- R129: a command of class E that names an invalid handle raises fault 0x20, in the order in which it names them (log 58), and enters
nothing. -/
def Obligations.InvalidHandlesFault : Prop :=
  ∀ (s : State) (g : Guard) (h i a b : BitVec 5) (p : BitVec 4) (r : BitVec 3),
    let r0 := 4 * r.toNat
    let p0 := 2 * p.toNat
    ∀ k ∈ [(Instr.sfree g h, ([] : List Nat), [h]), (Instr.srecv g h, [], [h]), (Instr.swait g h, [], [h]),
      (Instr.sload g h a b, [a.toNat, b.toNat], [h]), (Instr.sloadx g h a b, [a.toNat, b.toNat], [h]),
      (Instr.sstore g h a b, [a.toNat, b.toNat], [h]), (Instr.scopy g h a b, [a.toNat, b.toNat], [h]),
      (Instr.scopyp g h a b, [a.toNat, b.toNat], [h]), (Instr.sgather g h i p, [p0, p0 + 1], [h, i]),
      (Instr.sbag g h i p, [p0, p0 + 1], [h, i]), (Instr.sbagm g h i p, [p0, p0 + 1], [h, i]),
      (Instr.sscadd g h i p, [p0, p0 + 1], [h, i]), (Instr.srowupd g h i r, [r0, r0 + 1, r0 + 2, r0 + 3], [h, i]),
      (Instr.sstoreg g h r, [r0, r0 + 1, r0 + 2], [h]), (Instr.sscaddg g h i r, [r0, r0 + 1, r0 + 2], [h, i])],
    slotRuns s g k.2.1 → ∀ n, k.2.2.find? (fun n => !hV (s.rh n.toNat)) = some n →
      exec k.1 s = .next (takeFault s (cmdFault s 0x20 n.toNat))

/-- R15, R121, R122, R124: acceptance. The entry takes the lowest free number (log 57), holds the command word and the issued generations of
the stalls it reads, and is READY unless an earlier entry of its context reads or writes a stall that it writes or writes one that it
reads; IGEN of each handle it writes advances by 1; nothing of memory and no other context changes. -/
def Obligations.AcceptanceEntersScoreboard : Prop :=
  ∀ (s : State) (is : Issue) (reads writes : List Nat), s.me.issue = some is → writes.Nodup →
    let c := coreOf s.cur.x
    let k := freeEntry s c
    let t := accept reads writes s
    s.entry c k = none →
    (∃ e, t.entry c k = some e ∧ e.ctx = s.cur.x % 4 ∧ e.word = s.word ∧ e.seq = (s.core c).seq ∧
      e.reads = reads.map (fun n => (n, s.me.rh n, hGen (s.me.rh n))) ∧ e.writes = writes.map (fun n => (n, s.me.rh n)) ∧
      (e.st = .ready ↔ ∀ q ∈ entries t c, dependsOn q.2 e = false)) ∧
    (∀ n ∈ writes, hGen (t.me.rh n) = hGen (s.me.rh n) + 1) ∧ (∀ n, n ∉ writes → t.me.rh n = s.me.rh n) ∧
    (∀ n, t.me.rx n = s.me.rx n) ∧ (∀ y, y ≠ s.cur.x → t.ctx y = s.ctx y) ∧ sameMemory s t ∧
    (t.core c).seq = (s.core c).seq + 1

/-- R257, R258, R268, R269: an atomic or a queue command at an aligned, translated address of device memory goes to the home as a
request; xd, and the group of a QPOP, are leased until its answer. A misaligned one raises fault 0x72, for a queue a block address that is
no multiple of 256; one to host memory raises 0x71, and one whose translation fails that fault. -/
def Obligations.HomeCommands : Prop :=
  ∀ (s t : State) (g : Guard) (d a : BitVec 5) (p : BitVec 4) (r sc : BitVec 3) (o : BitVec 2) (z : BitVec 1) (pl : Place),
    let p0 := 2 * p.toNat
    let acq := if o.getLsbD 1 = true then some sc.toNat else none
    (∀ k ∈ [(Instr.aadd g d p sc o z, 0, z = 1), (Instr.afadd g d p sc o, 1, False), (Instr.amin g d p sc o z, 2, z = 1),
        (Instr.amax g d p sc o z, 3, z = 1), (Instr.aand g d p sc o z, 4, z = 1), (Instr.aor g d p sc o z, 5, z = 1),
        (Instr.axor g d p sc o z, 6, z = 1), (Instr.axchg g d p sc o z, 7, z = 1), (Instr.acas g d p sc o z, 8, z = 1)],
      ∀ n, (k.2.2 → n = 8) → (¬ k.2.2 → n = 4) → slotRuns s g [d.toNat, p0, p0 + 1] →
        let ea := s.rxn p0
        (ea.toNat % n = 0 → translates s ea 2 pl t → pl.pl ≠ 2 →
          exec k.1 s = .next (perform (lease (t.addReq (mkReq t ea pl (.atomic k.2.1 n ((t.rxn (p0 + 1)).toNat % 2 ^ (8 * n))
            ((t.rx d).toNat % 2 ^ (8 * n)) d.toNat) (o.getLsbD 0) acq)) d.toNat))) ∧
        (ea.toNat % n = 0 → translates s ea 2 pl t → pl.pl = 2 →
          exec k.1 s = .next (takeFault t ⟨0x71, 1, ea.toNat, cmdDetail t.word 0xFF 0, 0⟩)) ∧
        (ea.toNat % n = 0 → unfailed s ea 2 → ∀ code detail, translation s ea 2 = .fault code detail t →
          exec k.1 s = .next (takeFault t ⟨code, 1, ea.toNat, detail, 0⟩)) ∧
        (ea.toNat % n ≠ 0 → exec k.1 s = .next (takeFault s ⟨0x72, 1, ea.toNat, cmdDetail s.word 0xFF n, 0⟩))) ∧
    (∀ k ∈ [Instr.qpush g d a r sc, .qpop g d a r sc], slotRuns s g (d.toNat :: a.toNat :: regRun (8 * r.toNat) 8) →
      let ea := s.rx a
      (ea.toNat % 256 ≠ 0 → exec k s = .next (takeFault s ⟨0x72, 1, ea.toNat, cmdDetail s.word 0xFF 256, 0⟩)) ∧
      (ea.toNat % 256 = 0 → translates s ea 2 pl t → pl.pl = 2 →
        exec k s = .next (takeFault t ⟨0x71, 1, ea.toNat, cmdDetail t.word 0xFF 0, 0⟩)) ∧
      (ea.toNat % 256 = 0 → unfailed s ea 2 → ∀ code detail, translation s ea 2 = .fault code detail t →
        exec k s = .next (takeFault t ⟨code, 1, ea.toNat, detail, 0⟩))) ∧
    (slotRuns s g (d.toNat :: a.toNat :: regRun (8 * r.toNat) 8) → (s.rx a).toNat % 256 = 0 → translates s (s.rx a) 2 pl t →
      pl.pl ≠ 2 →
      exec (.qpush g d a r sc) s =
        .next (perform (lease (t.addReq (mkReq t (t.rx a) pl (.qpush d.toNat (groupFields t r)) true none)) d.toNat)) ∧
      exec (.qpop g d a r sc) s = .next (perform ((regRun (8 * r.toNat) 8).foldl lease (lease
        ((t.addReq (mkReq t (t.rx a) pl (.qpop d.toNat r.toNat) false (some sc.toNat))).modMe (fun c => match c.task with
          | some k => { c with task := some { k with pops := pl.pa :: k.pops.filter (· ≠ pl.pa) } }
          | none => c)) d.toNat))))

/-- R254, R257, R258, R271, R273, R295: the home performs a request that is first among its context's. A load answers with the place's
bytes, a store leaves its bytes there, an atomic answers with the old value and leaves the new one; every other byte of memory keeps its
value. Bytes that lie beyond the installed memory are lost (log 4). Only a request from another die or package is counted: its class of the
block's counter word at the home goes up by 1, unless it is full; and a counter that reaches THR pushes its record into the queue at QPA,
or is counted as dropped when the queue is full. The clauses on a push are those of a queue homed on the counting die, whose own push is
not counted in turn. While a migration holds the page of a counter word that is not cached, or of the queue, the count or the push waits
(R291, log 86). -/
def Obligations.HomePerformsRequests : Prop :=
  (∀ (s : State) (r : Nat) (q : Req), reqReady s r = some q → s.errs = [] →
    let w := countHome s (dieOfCtx q.x) q.place
    let host : Bool := q.pl = 2
    let key := placeKey host q.pkg q.pa
    let old := w.readPhys q.pkg host q.pa
    let outside := fun (n : Nat) (t : State) => ∀ p hst pa, (hst ≠ host ∨ placeKey hst p pa < key ∨ key + n ≤ placeKey hst p pa) →
      readByte t p hst pa = readByte w p hst pa
    (q.converted = false → q.pl ≤ 2 → w = s) ∧
    (∀ ins, ins = (if q.converted = true then Instr.convertedAccess r else Instr.homePlainAccess (.cp r)) →
      (∀ xd n sg, q.kind = .load xd n sg → ∃ t, exec ins s = .next t ∧ sameMemory w t ∧
        t.req r = some { q with ans := some [old n], line := w.readBytes q.pkg host (q.pa / 64 * 64) 64 }) ∧
      (∀ n v, q.kind = .store n v → ∃ t, exec ins s = .next t ∧ outside n t ∧ t.req r = none ∧
        readsBack w t q.pkg host q.pa (leBytes n v)) ∧
      (q.kind = .bar → ∃ t, exec ins s = .next t ∧ outside 8 t ∧ t.req r = some { q with ans := some [old 8 / 2 ^ 32] } ∧
        (let gen := old 8 / 2 ^ 32
         let arr := old 8 / 2 ^ 16 % 2 ^ 16 + 1
         let ex := old 8 % 2 ^ 16
         readsBack w t q.pkg host q.pa
           (leBytes 8 (if ex ≤ arr then (gen + 1) % 2 ^ 32 * 2 ^ 32 + ex else gen * 2 ^ 32 + arr * 2 ^ 16 + ex))))) ∧
    (∀ fn n op cmp xd, q.kind = .atomic fn n op cmp xd → q.pl ≠ 2 → (n = 4 ∨ n = 8) → op < 2 ^ (8 * n) →
      ∃ t, exec (.atomicAtHome r) s = .next t ∧ outside n t ∧ t.req r = some { q with ans := some [old n] } ∧
        ∀ k ∈ atomicTable n (old n) op cmp, fn = k.1 → readsBack w t q.pkg false q.pa (leBytes n k.2))) ∧
  (∀ (s : State) (src d pa cls : Nat), s.errs = [] → hotClass src d = some cls → bit (s.die d).hotcfg cls = true →
    pa / 2 ^ 16 < hotBlocks →
      let blk := pa / 2 ^ 16
      let old := hotWord s d blk
      let k := fldN old (16 * cls) 16
      let new : Word := BitVec.ofNat 64 (old.toNat + 2 ^ (16 * cls))
      let u := s.modDie d (fun v => { v with hot := Tab.set none v.hot blk (some new) })
      let qa := fldN (s.die d).hotq 8 36 * 2 ^ 8
      let free := (Tab.get none (s.die d).hot blk).isSome = true ∨ gate s (hotPlace s d blk) = .go
      (¬ free → hotTouch s src d pa = s.modDie d (fun v => { v with hotJobs := v.hotJobs ++ [.touch src pa] })) ∧
      (free → k = 0xFFFF → hotTouch s src d pa = s) ∧
      (free → k ≠ 0xFFFF → fldN new (16 * cls) 16 = k + 1 ∧
        (k + 1 ≠ fldN (s.die d).hotcfg 32 16 ∨ bit (s.die d).hotq 0 = false → hotTouch s src d pa = u) ∧
        (k + 1 = fldN (s.die d).hotcfg 32 16 → bit (s.die d).hotq 0 = true → gate s (queuePlaceOf d qa) ≠ .go →
          hotTouch s src d pa = u.modDie d (fun v => { v with hotJobs := v.hotJobs ++ [.note (hotRecord u d blk cls new)] })) ∧
        (k + 1 = fldN (s.die d).hotcfg 32 16 → bit (s.die d).hotq 0 = true → gate s (queuePlaceOf d qa) = .go →
          homeDieOf (queuePlaceOf d qa) = d → qOk u (pkgOfDie d) qa = true →
          let push := qPush u (pkgOfDie d) qa (hotRecord u d blk cls new)
          (push.2 = true → hotTouch s src d pa = push.1.modDie d (fun v => { v with hotLost := 0 })) ∧
          (push.2 = false → hotTouch s src d pa = push.1.modDie d (fun v => { v with
            hotLost := min (v.hotLost + 1) 0xFFFFFFFF,
            hotdrop := BitVec.ofNat 64 (min (v.hotdrop.toNat + 1) 0xFFFFFFFF) })))))

/-- R18, R71, R72, R73, R258, R269: the answers, on a die that is not held. A load's value lands in its register, which awaits nothing
more, once no earlier load of the core from the same line is left (log 55); a BAR's arrival knows its generation, and the core's copy of
its word is dropped; the lease of an atomic or queue command ends with its value, or one of its answers is no longer outstanding where xd
is x0, and a QPOP's group ends with the record; the core's copies of the lines that it accessed are dropped (log 34). A queue command that
ended with fault 0x73 leaves zero in every leased register and its record pending (log 33), with the cycle in which its home found the
fault (R26). No other register changes, and no byte of memory. -/
def Obligations.AnswersLand : Prop :=
  ∀ (s : State) (r : Nat) (q : Req), s.req r = some q → s.pkt r = none → s.stopped (dieOfCtx q.x) = false →
    let ended := fun (t : State) (xd v : Nat) => xd ≠ 0 → (t.ctx q.x).rx xd = BitVec.ofNat 64 v ∧ bit (t.ctx q.x).lease xd = false
    let dropped := fun (t : State) => ∀ off ∈ [0, 64, 128, 192], dcLine t (coreOf q.x) (q.pa + off) = []
    let failed := fun (c : Word) => postRec s q.x { mkRec s q.x false ⟨0x73, 0, 0, cmdDetail q.word 0xFF 0, homeCtl q.pa⟩ with w3 := c }
    let record := fun (t : State) => (∀ c, q.flt = some c → (t.ctx q.x).pend = ((failed c).ctx q.x).pend) ∧
      (q.flt = none → (t.ctx q.x).pend = (s.ctx q.x).pend)
    (∀ xd n sg v, q.kind = .load xd n sg → q.ans = some [v] → landsNext s r q = false → exec (.loadAnswer r) s = .next s) ∧
    (∀ xd n sg v, q.kind = .load xd n sg → q.ans = some [v] → landsNext s r q = true → ∃ t, exec (.loadAnswer r) s = .next t ∧
      (xd ≠ 0 → (t.ctx q.x).rx xd = landVal n sg v ∧ (xd < 32 → bit (t.ctx q.x).await xd = false)) ∧
      (∀ m, m ≠ xd → (t.ctx q.x).rx m = (s.ctx q.x).rx m) ∧ t.req r = none ∧ sameMemory s t) ∧
    (∀ gen is, q.kind = .bar → q.ans = some [gen] → (s.ctx q.x).issue = some is → is.bar = .sent →
      ∃ t, exec (.loadAnswer r) s = .next t ∧ (t.ctx q.x).issue = some { is with bar := .arrived gen } ∧ t.req r = none ∧
        dcLine t (coreOf q.x) q.pa = [] ∧ (∀ m, (t.ctx q.x).rx m = (s.ctx q.x).rx m) ∧ sameMemory s t) ∧
    (∀ fn n op cmp xd v, q.kind = .atomic fn n op cmp xd → q.ans = some [v] → xd < 32 →
      ∃ t, exec (.leaseEnd r) s = .next t ∧ ended t xd v ∧ (xd = 0 → (t.ctx q.x).out0 = (s.ctx q.x).out0 - 1) ∧
        (∀ m, m ≠ xd → (t.ctx q.x).rx m = (s.ctx q.x).rx m) ∧ t.req r = none ∧ dcLine t (coreOf q.x) q.pa = [] ∧ sameMemory s t) ∧
    (∀ xd fs as, q.kind = .qpush xd fs → q.ans = some as → xd < 32 →
      ∃ t, exec (.leaseEnd r) s = .next t ∧ ended t xd (as.headD 0) ∧ (xd = 0 → (t.ctx q.x).out0 = (s.ctx q.x).out0 - 1) ∧
        (∀ m, m ≠ xd → (t.ctx q.x).rx m = (s.ctx q.x).rx m) ∧ t.req r = none ∧ dropped t ∧ record t ∧ sameMemory s t) ∧
    (∀ xd grp as, q.kind = .qpop xd grp → q.ans = some as → grp < 4 → xd < 32 → (∀ i < 8, xd ≠ 8 * grp + i) →
      ∃ t, exec (.leaseEnd r) s = .next t ∧ ended t xd (as.headD 0) ∧
        (∀ i < 8, ended t (8 * grp + i) ((as.drop 1).getD (2 * i) 0 + 2 ^ 32 * (as.drop 1).getD (2 * i + 1) 0)) ∧
        (t.ctx q.x).out0 = (s.ctx q.x).out0 - ((if xd = 0 then 1 else 0) + (if grp = 0 then 1 else 0)) ∧
        (∀ m, m ≠ xd → (∀ i < 8, m ≠ 8 * grp + i) → (t.ctx q.x).rx m = (s.ctx q.x).rx m) ∧
        t.req r = none ∧ dropped t ∧ record t ∧ sameMemory s t)

/-- R266 to R269: queues at their home, where no word is in error. A push stores the fields that differ from the newest record after their
mask, if there is room, keeps the record as PREVPUSH, and counts; a pop takes the entry at HEAD and keeps its record as PREVPOP; no byte
outside the block changes; a block that breaks R266 ends the command with fault 0x73 and changes nothing. -/
def Obligations.QueuesAtHome : Prop :=
  ∀ (s : State) (r : Nat) (q : Req), reqReady s r = some q → s.errs = [] →
    let w := countHome s (dieOfCtx q.x) q.place
    let p := q.pkg
    let a := q.pa
    let inside := fun (t : State) => ∀ o h b, (h = true ∨ memKey o b < memKey p a ∨ memKey p a + 2 ^ qLsz w p a ≤ memKey o b) →
      readByte t o h b = readByte w o h b
    (∀ xd fs, q.kind = .qpush xd fs → fs.length = 16 →
      let diff := (List.range 16).filter (fun f => (fs.getD f 0).toNat ≠ w.readPhys p false (a + 0x40 + 4 * f) 4)
      let need := 4 + 4 * diff.length
      (qOk w p a = true → need ≤ qFree w p a → qCount w p a < 65535 →
        ∃ t, exec (.qpushAtHome r) s = .next t ∧ qCount t p a = qCount w p a + 1 ∧ qFree t p a = qFree w p a - need ∧
          qHead t p a = qHead w p a ∧ qTail t p a = (qTail w p a + need) % qRing w p a ∧
          qWord t p a (qTail w p a) 0 = (diff.map (fun f => 2 ^ f)).sum ∧
          (∀ j, (h : j < diff.length) → qWord t p a (qTail w p a) (4 + 4 * j) = (fs.getD (diff[j]'h) 0).toNat) ∧
          (∀ f < 16, t.readPhys p false (a + 0x40 + 4 * f) 4 = (fs.getD f 0).toNat) ∧ inside t ∧
          t.req r = some { q with ans := some [2 ^ 63 + qCount t p a * 2 ^ 16 + qFree t p a] }) ∧
      (qOk w p a = true → (qFree w p a < need ∨ qCount w p a = 65535) →
        exec (.qpushAtHome r) s = .next (w.setReq r (some { q with ans := some [qCount w p a * 2 ^ 16 + qFree w p a] }))) ∧
      (qOk w p a = false → exec (.qpushAtHome r) s =
        .next (w.setReq r (some { q with ans := some [], flt := some (w.tickOf (dieOfCtx q.x)) })))) ∧
    (∀ xd grp, q.kind = .qpop xd grp →
      (qOk w p a = true → qCount w p a ≠ 0 →
        ∃ t, exec (.qpopAtHome r) s = .next t ∧ qCount t p a = qCount w p a - 1 ∧
          qFree t p a = qFree w p a + (qEntry w p a).2 ∧ qHead t p a = (qHead w p a + (qEntry w p a).2) % qRing w p a ∧
          qTail t p a = qTail w p a ∧ (∀ f < 16, t.readPhys p false (a + 0x80 + 4 * f) 4 = (qEntry w p a).1.getD f 0) ∧ inside t ∧
          t.req r = some { q with ans := some ((2 ^ 63 + qCount t p a * 2 ^ 16 + qFree t p a) :: (qEntry w p a).1) }) ∧
      (qOk w p a = true → qCount w p a = 0 → exec (.qpopAtHome r) s =
        .next (w.setReq r (some { q with ans := some (qFree w p a :: List.replicate 16 0) }))) ∧
      (qOk w p a = false → exec (.qpopAtHome r) s =
        .next (w.setReq r (some { q with ans := some [], flt := some (w.tickOf (dieOfCtx q.x)) }))))

/-! ## Verbs and links -/

/-- R297, R298, R301, R303, R305, R309: a verb whose operands keep R297 and whose local pages are translated enters the link engine with
the next sequence number of its target and leases xd, or counts one more answer where xd is x0 (R72); a field that breaks R297 raises fault
0x90, a misaligned address 0x91, a target that no entry names 0x92, a local page that fails its translation's own fault, and an atomic or a
signal on host memory 0x71. Which of several offences is reported is the model's choice (log 59). SYNCT sends its proposal and leases xd;
that the proposal is at every die that it names at once is the model's choice (log 9). -/
def Obligations.VerbsAccepted : Prop :=
  (∀ (s t u v z : State) (g : Guard) (d : BitVec 5) (q : BitVec 3) (o : BitVec 2) (f : BitVec 4) (zb : BitVec 1)
      (lps vps hps sps : List Place) (code detail : Nat) (va : Word),
    ∀ k ∈ [(Instr.put g d q o, VerbKind.put, o.getLsbD 0, o.getLsbD 1), (Instr.get g d q o, .get, o.getLsbD 0, o.getLsbD 1),
      (Instr.signal g d q, .signal, true, false),
      (Instr.lamo g d q f o zb, .lamo f.toNat (if zb = 1 then 8 else 4), o.getLsbD 0, o.getLsbD 1)],
    let op := verbOp k.2.1 q.toNat s
    let w := fun (i : Nat) => s.rxn (4 * q.toNat + i)
    let put : Bool := k.2.1 = .put
    let moves := k.2.1.moves
    let inPkg : Bool := op.target = pkgOfCtx s.cur.x
    let lva := if moves then pagesOf op.l op.len else []
    let vva := if moves && inPkg then pagesOf op.v op.len else []
    let hva := if !moves && inPkg then [BitVec.ofNat 64 op.v] else []
    let sva := if put && inPkg && op.sig ≠ 0 then [BitVec.ofNat 64 op.sig] else []
    let lk := if put then 0 else 1
    let vk := if put then 1 else 0
    let stops := fun (r : State) (f : Flt) => exec k.1 s = .next (takeFault r f)
    let bad : List (Bool × Nat × Nat) := [(moves && 2 ^ 24 < fldN (w 2) 0 25, 2, 0), (moves && fldN (w 2) 25 7 ≠ 0, 2, 25),
      (!moves && fldN (w 2) 0 32 ≠ 0, 2, 0), (fldN (w 2) 42 22 ≠ 0, 2, 42),
      ((k.2.1 = .get || k.2.1 = .signal) && w 3 ≠ 0, 3, 0)]
    slotRuns s g (d.toNat :: regRun (4 * q.toNat) 4) →
      (∀ b, bad.find? (fun b => b.1) = some b → stops s (cmdFault s 0x90 (locator (4 * q.toNat + b.2.1) b.2.2))) ∧
      (bad.find? (fun b => b.1) = none →
        (verbMisaligned op = true → stops s (cmdFault s 0x91 0)) ∧
        (verbMisaligned op = false → linked s (dieOfCtx s.cur.x) op.target = false → stops s (cmdFault s 0x92 op.target)) ∧
        (verbMisaligned op = false → linked s (dieOfCtx s.cur.x) op.target = true →
          (translationFails s lva lk code va detail t → stops t ⟨code, 1, va.toNat, detail, 0⟩) ∧
          (translatesAll s lva lk lps t →
            (translationFails t vva vk code va detail u → stops u ⟨code, 1, va.toNat, detail, 0⟩) ∧
            (translatesAll t vva vk vps u →
              (translationFails u hva 2 code va detail v → stops v ⟨code, 1, va.toNat, detail, 0⟩) ∧
              (translatesAll u hva 2 hps v →
                ((∃ p ∈ hps, p.pl = 2) → stops v ⟨0x71, 1, op.v, cmdDetail v.word 0xFF 0, 0⟩) ∧
                ((∀ p ∈ hps, p.pl ≠ 2) →
                  (translationFails v sva 2 code va detail z → stops z ⟨code, 1, va.toNat, detail, 0⟩) ∧
                  (translatesAll v sva 2 sps z →
                    ((∃ p ∈ sps, p.pl = 2) → stops z ⟨0x71, 1, op.sig, cmdDetail z.word 0xFF 0, 0⟩) ∧
                    ((∀ p ∈ sps, p.pl ≠ 2) →
                      exec k.1 s = .next (perform (enterVerb op d.toNat k.2.2.1 k.2.2.2 lps (vps ++ hps) sps z))))))))))) ∧
  (∀ (s : State) (op : VerbOp) (xd : Nat) (rel acq : Bool) (lps vps sps : List Place), xd < 32 →
    let t := enterVerb op xd rel acq lps vps sps s
    let d := dieOfCtx s.cur.x
    let q := Tab.get 0 (s.die d).vseq op.target
    (xd ≠ 0 → bit t.me.lease xd = true) ∧ (xd = 0 → t.me.lease = s.me.lease ∧ t.me.out0 = s.me.out0 + 1) ∧
    Tab.get 0 (t.die d).vseq op.target = (q + 1) % 2 ^ 32 ∧ sameMemory s t ∧
    ∃ v, t.verb s.nextId = some v ∧ v.xd = xd ∧ v.seq = q ∧ v.target = op.target ∧ v.performed = false ∧ v.gen = genOf s (pkgOfCtx s.cur.x) ∧
      (op.target ≠ pkgOfCtx s.cur.x → routePort s d op.target op.v = none → v.flt = some (0x93, op.target, s.tickOf d)) ∧
      (∀ i, op.target ≠ pkgOfCtx s.cur.x → routePort s d op.target op.v = some i → v.flt = none ∧ v.port = i)) ∧
  (∀ (s : State) (d q v i : Nat), routePort s d q v = some i →
    i < 16 ∧ bit (ilvOf s d q) i = true ∧ portUp s (pkgOfDie d) i = true) ∧
  (∀ (s : State) (g : Guard) (d a : BitVec 5) (sys : BitVec 1), slotRuns s g [d.toNat, a.toNat] →
    ∃ t, exec (.synct g d a sys) s = .next t ∧ (d ≠ 0 → bit t.me.lease d.toNat = true) ∧
      (d = 0 → t.me.lease = s.me.lease ∧ t.me.out0 = s.me.out0 + 1) ∧
      t.me.syncts = s.me.syncts ++ [⟨s.nextId, d.toNat, s.rx a, syncDies s s.cur.x (sys = 1)⟩] ∧ sameMemory s t ∧
      ∀ n ∈ syncDies s s.cur.x (sys = 1), (t.die n).sync = some ((s.die n).sync.getD s.nextId))

/-- R298 to R303, R306, R309, R311: the verbs in the link engine. The target performs a request once per sequence number (log 32) and a
repetition changes no memory; PUT moves its next bytes from its local range to the target's and GET the other way, within a line at both
ends; an atomic or SIGNAL changes its word, after the requests of its context to that line that came before it and before those that come
after it (R18, log 55); the signal word takes its 1 after every byte; the answer ends the lease, with zero and an imprecise record stamped
with the cycle in which the verb failed (R26), drops the core's copies of the bytes of its package that the verb wrote (R258), and acquires
where its ORD says so; a place that the target's translation refuses, or that lies in
host memory there, ends it with fault 0x94 and that code; a port that does not send it redirects it; without an answer within LTO it ends
with fault 0x95; a SYNCT that no die refuses sets every counter, and one that dies refuse answers with their number: that all its dies
answer and set their counters in the one step is the model's choice (log 9). Bytes written beyond the installed memory are lost (log 4). -/
def Obligations.VerbEvents : Prop :=
  (∀ (s : State) (n : Nat) (v : Verb), s.verb n = some v → v.busy = true → v.performed = false → verbWaits s n v = false →
    (v.remote = true → v.sent = false → portSends s (pkgOfCtx v.x) v.port v.gen = true) →
    ∀ u w, rewalk s n { v with sent := true } = (u, none) → u.verb n = some w →
      let r := if repeated u w then u.setVerb n (some { w with performed := true })
        else if !w.kind.moves then atomicVerb u n w
        else if w.len = 0 then u.setVerb n (some { w with performed := true, ans := 2 ^ 63 })
        else moveChunk u n w
      exec (.verbAtTarget n) s = .next (match r.verb n with
        | some z => if z.performed then rememberSeq r z else r
        | none => r) ∧
      (repeated u w = true → ∃ t, exec (.verbAtTarget n) s = .next t ∧ sameMemory u t ∧
        ∃ z, t.verb n = some z ∧ z.performed = true ∧ z.moved = v.moved)) ∧
  (∀ (s u w : State) (n : Nat) (v : Verb) (tp : Place), v.kind = .put ∨ v.kind = .get →
    let put : Bool := v.kind = .put
    let a := v.l + v.moved
    let b := v.v + v.moved
    let k := min (v.len - v.moved) (min (64 - a % 64) (64 - b % 64))
    let lp := placeIn v.lps v.l a
    let src := if put then lp else tp
    let dst := if put then tp else lp
    let x := countHome w (dieOfCtx v.x) dst
    let t := moveChunk s n v
    vPlace s v b (if put then 1 else 0) = (.ok tp, u) → gate u lp = .go → gate u tp = .go →
    serveRead u (dieOfCtx v.x) src k = (w, none) → (v.remote = true ∨ v.l + v.len ≤ v.v ∨ v.v + v.len ≤ v.l) →
    readsBack x t dst.pkg (dst.pl = 2) dst.pa (w.readBytes src.pkg (src.pl = 2) src.pa k) ∧
    (∀ q h pa, (h ≠ decide (dst.pl = 2) ∨ placeKey h q pa < placeKey h dst.pkg dst.pa ∨ placeKey h dst.pkg dst.pa + k ≤ placeKey h q pa) →
      readByte t q h pa = readByte x q h pa) ∧
    t.verb n = some { v with moved := v.moved + k, performed := v.len ≤ v.moved + k, ans := 2 ^ 63 + v.len }) ∧
  (∀ (s u w : State) (n : Nat) (v : Verb) (p : Place), v.kind = .signal ∨ (∃ fn m, v.kind = .lamo fn m ∧ (m = 4 ∨ m = 8)) →
    let m := match v.kind with
      | .lamo _ m => m
      | _ => 8
    let fn := match v.kind with
      | .lamo fn _ => fn
      | _ => 0
    vPlace s v v.v 2 = (.ok p, u) → gate u p = .go → serveRead u (dieOfCtx v.x) p m = (w, none) →
    let old := w.readPhys p.pkg false p.pa m
    let t := atomicVerb s n v
    (v.op < 2 ^ (8 * m) → ∀ k ∈ atomicTable m old v.op v.cmp, fn = k.1 → readsBack w t p.pkg false p.pa (leBytes m k.2)) ∧
    (∀ q h pa, (h = true ∨ memKey q pa < memKey p.pkg p.pa ∨ memKey p.pkg p.pa + m ≤ memKey q pa) → readByte t q h pa = readByte w q h pa) ∧
    t.verb n = some { v with performed := true, ans := if v.kind = .signal then 2 ^ 63 else old }) ∧
  (∀ (s y u w : State) (n : Nat) (v z : Verb) (p : Place), s.verb n = some v → v.flt = none → v.kind = .put → v.performed = true →
    v.sig ≠ 0 → v.sigDone = false → rewalk s n v = (y, none) → y.verb n = some z →
    (if z.remote = true then targetPlace y z z.sig 2 else (.ok (placeIn z.sps z.sig z.sig), y)) = (.ok p, u) →
    gate u p = .go → serveRead u (dieOfCtx z.x) p 8 = (w, none) →
    ∃ t, exec (.putSignalAdd n) s = .next t ∧ t.verb n = some { z with sigDone := true } ∧
      readsBack w t p.pkg false p.pa (leBytes 8 ((w.readPhys p.pkg false p.pa 8 + 1) % 2 ^ 64)) ∧
      (∀ q h pa, (h = true ∨ memKey q pa < memKey p.pkg p.pa ∨ memKey p.pkg p.pa + 8 ≤ memKey q pa) →
        readByte t q h pa = readByte w q h pa)) ∧
  (∀ (s : State) (n r : Nat) (v : Verb) (q : Req) (p : Place), s.verb n = some v → v.kind.moves = false → v.vps = [p] →
    s.req r = some q → q.x = v.x → q.ans = none → p.onLine q.place = true →
    (r < n → exec (.verbAtTarget n) s = .next s) ∧ (n < r → v.busy = true → reqReady s r = none)) ∧
  (∀ (s u : State) (n a c : Nat) (v : Verb), let refused := u.setVerb n (some { v with
      flt := some (0x94, c * 2 ^ 16 + v.target, u.tickOf (dieOfCtx v.x)) })
    (v.kind.moves = true → vPlace s v (v.v + v.moved) (if v.kind = .put then 1 else 0) = (.bad c a, u) → moveChunk s n v = refused) ∧
    (v.kind.moves = false → vPlace s v v.v 2 = (.bad c a, u) → atomicVerb s n v = refused)) ∧
  (∀ (s u : State) (v : Verb) (a kind : Nat) (p : Place), v.remote = true →
    translateDie s (v.target * 4 + v.port / 4) (BitVec.ofNat 64 a) kind = (.ok p, u) →
    vPlace s v a kind = (if p.pl = 2 then .bad 0x71 a else .ok p, u)) ∧
  (∀ (s : State) (n : Nat) (v : Verb), s.verb n = some v → v.busy = false → s.stopped (dieOfCtx v.x) = false → v.xd < 32 →
    let here := fun (t : State) => t.ctx v.x
    ∃ t, exec (.verbAnswer n) s = .next t ∧ t.verb n = none ∧ (v.xd = 0 → (here t).x = (here s).x ∧ (here t).lease = (here s).lease) ∧
      (v.xd ≠ 0 → bit (here t).lease v.xd = false) ∧
      (∀ r ∈ v.spans, ∀ j < r.2.1, (r.1 + j) / 2 ^ 16 - r.1 / 2 ^ 16 < r.2.2.length →
        let q := placeIn r.2.2 r.1 (r.1 + j)
        q.pkg = pkgOfCtx v.x → q.pl ≠ 2 → dcLine t (coreOf v.x) q.pa = []) ∧
      (v.flt = none → (v.xd ≠ 0 → (here t).rx v.xd = BitVec.ofNat 64 v.ans) ∧ (here t).pend = (here s).pend ∧
        (v.acq = true → (t.core (coreOf v.x)).dc = [])) ∧
      (∀ code val c, v.flt = some (code, val, c) → (v.xd ≠ 0 → (here t).rx v.xd = 0) ∧ ((here s).pend = none →
        (here t).pend = some { mkRec s v.x false ⟨code, 0, 0, cmdDetail v.word 0xFF val, if v.remote = true then v.port else 0⟩ with
          w3 := c }))) ∧
  (∀ (s : State) (n : Nat) (v : Verb), s.verb n = some v → v.busy = true → v.remote = true →
    portSends s (pkgOfCtx v.x) v.port v.gen = false → (v.sent = true → portUp s (pkgOfCtx v.x) v.port = false) →
    let m := if v.sent = true then v.redirects else v.redirects + 1
    let c := s.tickOf (dieOfCtx v.x)
    (m = 8 → exec (.routeRedirect n) s = .next (s.setVerb n (some { v with flt := some (0x92, v.target, c) }))) ∧
    (m ≠ 8 → routePort s (dieOfCtx v.x) v.target v.v = none →
      exec (.routeRedirect n) s = .next (s.setVerb n (some { v with flt := some (0x93, v.target, c) }))) ∧
    (∀ i, m ≠ 8 → routePort s (dieOfCtx v.x) v.target v.v = some i →
      exec (.routeRedirect n) s = .next (s.setVerb n (some { v with
        port := i, gen := genOf s (pkgOfCtx v.x), redirects := m, sent := false })))) ∧
  (∀ (s : State) (n : Nat) (v : Verb), s.verb n = some v → v.flt = none → fldN (s.die (dieOfCtx v.x)).lto 0 32 ≠ 0 →
    fldN (s.die (dieOfCtx v.x)).lto 0 32 * 1024 ≤ elapsed s (pkgOfCtx v.x) v.start →
    exec (.verbTimeout n) s = .next (s.setVerb n (some { v with flt := some (0x95, v.target, s.tickOf (dieOfCtx v.x)) }))) ∧
  (∀ (s : State) (x : Nat) (y : Sync) (rest : List Sync), (s.ctx x).syncts = y :: rest → s.stopped (dieOfCtx x) = false → y.xd < 32 →
    let no := (y.dies.filter (fun d => decide (y.t0.toNat ≤ (s.tickOf d).toNat ∨ dhold s (pkgOfDie d) = true ∨
      (s.die d).sync ≠ some y.id))).length
    ∃ t, exec (.synctAlign x) s = .next t ∧ (t.ctx x).syncts = rest ∧ (∀ d ∈ y.dies, (t.die d).sync ≠ some y.id) ∧
      (y.xd = 0 → (t.ctx x).x = (s.ctx x).x ∧ (t.ctx x).lease = (s.ctx x).lease) ∧ (y.xd ≠ 0 → bit (t.ctx x).lease y.xd = false) ∧
      (no = 0 → (∀ d ∈ y.dies, t.tickOf d = y.t0) ∧ (y.xd ≠ 0 → (t.ctx x).rx y.xd = BitVec.ofNat 64 (2 ^ 63 + y.dies.length))) ∧
      (no ≠ 0 → (∀ d, t.tickOf d = s.tickOf d) ∧ (y.xd ≠ 0 → (t.ctx x).rx y.xd = BitVec.ofNat 64 (no % 2 ^ 16 * 2 ^ 32))))

/-- R284, R290, R291, R304 to R308, R310, R272: the registers and events of links, holds, migration and invalidation. A host write has
its effect while host writes reach the die (R390); a migration command in a state that does not accept it sets ERR. HOTCTL.FLUSH writes
every cached counter word to its place in the region and nothing else; what lies beyond the installed memory is lost (log 4). FLUSH, CLEAR
and a counted request wait while a migration holds the counter, and are done when it is over (log 86). That the
homes of a migration's pages are those of interleaved ones is log 73, and that an invalidation empties the instruction cache log 71: both
are the model's choices. The third failed request of a flit group takes its port down: that
the event names the group is log 14, and that a hold report is an event of the environment log 48. -/
def Obligations.LinkAndMigrationEvents : Prop :=
  (∀ (s : State) (p : Nat), hostReaches s (p * 4) →
    (itOv s p = false → ∃ t, exec (.itctlSwap p) s = .next t ∧ genOf t p = (genOf s p + 1) % 16 ∧ oldOf t p = genOf s p ∧
      (let left := undrained s p (genOf s p)
       fldN (itctlRead t p) 0 32 = min left 0xFFFFFFFF ∧ bit (itctlRead t p) 52 = decide (0 < left)) ∧
      bit (t.pkg p).itctl 62 = bit (s.pkg p).itctl 62 ∧ sameMemory s t) ∧
    (itOv s p = true → ∃ t, exec (.itctlSwap p) s = .next t ∧ genOf t p = genOf s p ∧ oldOf t p = oldOf s p ∧
      bit (t.pkg p).itctl 62 = true ∧ bit (itctlRead t p) 52 = true ∧ fldN (itctlRead t p) 0 32 = fldN (itctlRead s p) 0 32) ∧
    (∀ old new : BitVec 28, (s.pkg p).mig.st = .idle → exec (.migCopy p old new) s = .next (s.modPkg p (fun k => { k with
      mig := { k.mig with st := .copying, old := old.toNat, new := new.toNat, copied := 0, marked := [] } }))) ∧
    ((s.pkg p).mig.st = .copied → exec (.migFinalise p) s = .next (s.modPkg p (fun k => { k with
      mig := { k.mig with st := .finalising } }))) ∧
    (let ended := s.modPkg p (fun k => { k with mig := { k.mig with st := .idle, marked := [] } })
     ∀ k ∈ [(Instr.migRelease p, [MigSt.moved]), (Instr.migCancel p, [MigSt.copying, .copied])], (s.pkg p).mig.st ∈ k.2 →
      ((∀ i < 4, (s.die (p * 4 + i)).hotJobs = []) → exec k.1 s = .next ended) ∧
      (∀ d src pa, pkgOfDie d = p → (∀ i < 4, (s.die (p * 4 + i)).hotJobs = if d % 4 = i then [.touch src pa] else []) →
        exec k.1 s = .next (hotTouch (ended.modDie d (fun v => { v with hotJobs := [] })) src d pa))) ∧
    (∀ old new : BitVec 28, ∀ k ∈ [(Instr.migCopy p old new, [MigSt.idle]), (Instr.migFinalise p, [MigSt.copied]),
      (Instr.migRelease p, [MigSt.moved]), (Instr.migCancel p, [MigSt.copying, .copied])],
      (s.pkg p).mig.st ∉ k.2 → exec k.1 s = .next (s.modPkg p (fun k => { k with mig := { k.mig with err := true } })))) ∧
  (∀ (s : State) (p : Nat), s.errs = [] → let m := (s.pkg p).mig
    let counted := fun (n : Nat) => countHome s (homeDieOf (linePlace p m.old n)) (linePlace p m.new n)
    (m.st = .copying → ∃ t, exec (.migrationLineCopy p) s = .next t ∧ (t.pkg p).mig.copied = m.copied + 1 ∧
      (t.pkg p).mig.st = (if m.copied + 1 = 1024 then .copied else .copying) ∧
      let w := counted m.copied
      readsBack w t p false (m.new * 2 ^ 16 + 64 * m.copied) (w.readBytes p false (m.old * 2 ^ 16 + 64 * m.copied) 64)) ∧
    (∀ n ns, m.st = .finalising → shedHolds s p m.old = false → m.marked = n :: ns →
      ∃ t, exec (.migrationLineCopy p) s = .next t ∧
        let w := counted n
        (t.pkg p).mig.marked = (w.pkg p).mig.marked.filter (· ≠ n) ∧
        readsBack w t p false (m.new * 2 ^ 16 + 64 * n) (w.readBytes p false (m.old * 2 ^ 16 + 64 * n) 64)) ∧
    (m.st = .finalising → shedHolds s p m.old = false → m.marked = [] →
      (∀ i < 4, (s.die (p * 4 + i)).hotJobs = []) →
      exec (.migrationMoved p) s = .next (s.modPkg p (fun k => { k with mig := { k.mig with st := .moved } })))) ∧
  (∀ (s t : State) (r : Nat) (q : Req) (pl : Place), s.req r = some q → q.ans = none → gate s q.place = .redirect →
    s.stopped (dieOfCtx q.x) = false →
    translateFor (dropTlb s (coreOf q.x) q.va) (coreOf q.x) (some (64 + r)) [] (BitVec.ofNat 64 q.va) (match q.kind with
      | .load .. => 0
      | .store .. => 1
      | _ => 2) = .ok pl t →
    exec (.migrationRedirect r) s = .next (t.setReq r (some { q with pkg := pl.pkg, pa := pl.pa, pl := pl.pl, home := pl.home }))) ∧
  (∀ (s : State) (p i : Nat), portUp s p i = false → bit (lpcfgOf s p i) 8 = false → i < 16 →
    (keysPresent s p i = true → ∃ t, exec (.portTrainingAttempt p i 0) s = .next t ∧ portUp t p i = true) ∧
    (keysPresent s p i = false → ∃ t, exec (.portTrainingAttempt p i 0) s = .next t ∧ portUp t p i = false ∧
      fldN (lpcfgOf t p i) 60 3 = 3) ∧
    (∀ why, why = 1 ∨ why = 2 ∨ why = 3 → ∃ t, exec (.portTrainingAttempt p i why) s = .next t ∧ portUp t p i = false ∧
      fldN (lpcfgOf t p i) 60 3 = why)) ∧
  (∀ (s : State) (p i : Nat), portUp s p i = true → i < 16 →
    (∃ t, exec (.portPeerLost p i) s = .next t ∧ portUp t p i = false ∧ fldN (lpcfgOf t p i) 60 3 = 4) ∧
    (fldN (lpcfgOf s p i) 0 8 ≠ 0 →
      ∀ g : Nat,
      let n := fun (u : State) (j : Nat) => Tab.get 0 (u.die (p * 4 + i / 4)).tagFails (j * 4 + i % 4)
      (n s g = 2 → ∃ t, exec (.groupTagFailure p ⟨i, g⟩) s = .next t ∧ portUp t p i = false ∧ fldN (lpcfgOf t p i) 60 3 = 2 ∧
        ∀ j, n t j = 0) ∧
      (n s g < 2 → ∃ t, exec (.groupTagFailure p ⟨i, g⟩) s = .next t ∧ portUp t p i = true ∧ n t g = n s g + 1 ∧
        ∀ j, j ≠ g → n t j = n s j))) ∧
  (∀ (s : State) (d q : Nat) (v : BitVec 64), q < 4 → hostReaches s d →
    (let port := d % 4 * 4 + q
     let old := lpcfgOf s (d / 4) port
     ∃ t, exec (.lpcfgWrite d q v) s = .next t ∧
      let new := lpcfgOf t (d / 4) port
      bit new 8 = bit v 8 ∧
      (∀ i < 4, fldN new (2 * i) 2 = if bit old 63 = true ∨ fldN v (2 * i) 2 = 3 then fldN old (2 * i) 2 else fldN v (2 * i) 2) ∧
      (if bit v 8 = true ∧ bit old 8 = false then bit new 63 = false ∧ fldN new 60 3 = 5
        else bit new 63 = bit old 63 ∧ fldN new 60 3 = fldN old 60 3)) ∧
    (∃ t, exec (.dbgctlHalt d v) s = .next t ∧ (t.die d).halt = bit v 0 ∧ sameMemory s t) ∧
    (∀ k ∈ [(Instr.hotctlFlush d, HotJob.flush), (Instr.hotctlClear d, .clear)], hotHeld s d = true →
      exec k.1 s = .next (s.modDie d (fun v => { v with hotJobs := v.hotJobs ++ [k.2] }))) ∧
    ((s.pkg (pkgOfDie d)).mig.st = .idle → hotHeld s d = false) ∧
    (hotHeld s d = false → s.errs = [] → ((s.die d).hot.map (fun p => p.1)).Nodup →
      let base := fldN (s.die d).hotbase 16 28 * 2 ^ 16
      ∃ t, exec (.hotctlFlush d) s = .next t ∧
        (∀ blk w, Tab.get none (s.die d).hot blk = some w → readsBack s t (pkgOfDie d) false (base + 8 * blk) (leBytes 8 w.toNat)) ∧
        (∀ o h b, (h = true ∨ ∀ blk w, Tab.get none (s.die d).hot blk = some w →
          memKey o b < memKey (pkgOfDie d) (base + 8 * blk) ∨ memKey (pkgOfDie d) (base + 8 * blk) + 8 ≤ memKey o b) →
          readByte t o h b = readByte s o h b)) ∧
    (hotHeld s d = false → ∃ t, exec (.hotctlClear d) s = .next t ∧ ∀ blk, blk < 6 * 2 ^ 20 →
      installed false (fldN (s.die d).hotbase 16 28 * 2 ^ 16 + 8 * blk) 8 = true → hotWord t d blk = 0) ∧
    (∀ vpn, bit (s.die d).tinv 63 = false → ∃ t, exec (.tinvVpn d vpn) s = .next t ∧ bit (t.die d).tinv 63 = true ∧
      (∀ c, dieOf c = d → (t.core c).nodes = [] ∧ (t.core c).ic = [] ∧ tlbHit (t.core c).tlb vpn.toNat = none)) ∧
    (bit (s.die d).tinv 63 = false → ∃ t, exec (.tinvAll d) s = .next t ∧ bit (t.die d).tinv 63 = true ∧
      (∀ c, dieOf c = d → (t.core c).nodes = [] ∧ (t.core c).ic = [] ∧ (t.core c).tlb = []))) ∧
  (∀ (s : State) (d : Nat), bit (s.die d).tinv 63 = true → tinvPending s d = false →
    ∃ t, exec (.tinvComplete d) s = .next t ∧ bit (t.die d).tinv 63 = false) ∧
  (∀ (s : State) (p q : Nat) (held : Bool), ∃ t, exec (.linkedHoldReport p q held) s = .next t ∧
    (q ∈ (t.pkg p).linkHold ↔ held = true) ∧ sameMemory s t)

/-! ## Groups -/

/-- R318, R319, R320, R337 to R345: the commit commands. Each checks its group word and leases xd; GOPEN takes a slot, GSTORE sends its
tagged store, GSEAL, GCOMMIT, GABORT, GSTAT, GDELEG and GPEEK go to the originator, GWAIT waits; SSTOREG and SSCADDG enlist and take an
entry. A group word that breaks R337 raises fault 0xA0, a misaligned address 0xA5, a sealed source entry 0xA2 and none free 0xA4. That
commands travel as packets is log 30, that DETAIL of a stream form's fault, and of GOPEN's, is free log 8, and the order of its checks logs
58 and 59. -/
def Obligations.GroupCommands : Prop :=
  ∀ (s t : State) (g : Guard) (d k x a h i : BitVec 5) (p : BitVec 4) (r : BitVec 3) (z : BitVec 1) (pl : Place) (is : Issue),
    let p0 := 2 * p.toNat
    let r0 := 4 * r.toNat
    let me := s.cur.x
    let c := coreOf me
    let go := fun (u : State) (n fn : Nat) (arg : Word) (dest : Option Nat) (va pa : Nat) =>
      perform (lease (sendPkt u n (dieOfCtx u.cur.x) (grpDie n) (.command fn u.cur.x d.toNat arg dest va pa u.word)) d.toNat)
    let fault := fun (n : Nat) => Host.Outcome.next (takeFault s (Flt.mk0 0xA0 n))
    (slotRuns s g [d.toNat, p0, p0 + 1] →
      (comBad (s.rxn p0) = false → fldN (s.rxn (p0 + 1)) 0 42 = 0 → c < 2 ^ 19 →
        (freeSlot s c = none → exec (.gopen g d p) s =
          .next (perform (sendPkt (lease s d.toNat) 0 (dieOfCtx me) (dieOfCtx me) (.answer me d.toNat 0 none)))) ∧
        ∃ u, exec (.gopen g d p) s = .next u ∧ (d ≠ 0 → bit u.me.lease d.toNat = true) ∧
          ∀ n, freeSlot s c = some n →
            let old := Tab.get GSlot.reset (s.core c).slots n
            let v := Tab.get GSlot.reset (u.core c).slots n
            v.state = 1 ∧ v.gen = old.gen % 511 + 1 ∧ (v.comPkg, v.comFb) = comOf s (s.rxn p0) ∧
            v.nsrc = fldN (s.rxn (p0 + 1)) 42 6 + 1 ∧ v.enlisted = [] ∧ v.sealed = [] ∧ v.dests = [] ∧ v.settled = false) ∧
      (comBad (s.rxn p0) = true ∨ fldN (s.rxn (p0 + 1)) 0 42 ≠ 0 →
        exec (.gopen g d p) s = .next (takeFault s.nextFree (Flt.mk0 0xA0 (s.freeVal.toNat % 2 ^ 32)))) ∧
      (let w := s.rxn p0
       let n := gwNum w
       (grpBad s w false = false → fldN (s.rxn (p0 + 1)) 32 32 = 0 → sourceFree s n →
         exec (.gseal g d p) s = .next (perform (lease (sendPkt (enlistMe s n) n (dieOf c) (grpDie n)
           (.seal c (s.rxn (p0 + 1)).toNat me d.toNat none)) d.toNat))) ∧
       (grpBad s w false = false → comBad (s.rxn (p0 + 1)) = false → bit (s.rxn (p0 + 1)) 53 = true →
         exec (.gdeleg g d p) s = .next (go s n 3 (s.rxn (p0 + 1)) none 0 0)) ∧
       (grpBad s w true = false → (s.rxn (p0 + 1)).toNat % 8 = 0 →
         (gwR w = true ∧ gwPkg w ≠ pkgOfCtx me → exec (.gpeek g d p) s = .next (go s n 2 w none (s.rxn (p0 + 1)).toNat 0)) ∧
         (gwR w = false ∨ gwPkg w = pkgOfCtx me → translates s (s.rxn (p0 + 1)) 0 pl t →
           exec (.gpeek g d p) s = .next (go t n 2 w (some (destOfPlace pl)) (s.rxn (p0 + 1)).toNat pl.pa))) ∧
       (grpBad s w true = false → (s.rxn (p0 + 1)).toNat % 8 ≠ 0 →
         exec (.gpeek g d p) s = .next (takeFault s ⟨0xA5, 1, (s.rxn (p0 + 1)).toNat, n + 8 * 2 ^ 32, 0⟩)) ∧
       (grpBad s w false = false → fldN (s.rxn (p0 + 1)) 32 32 = 0 →
         (∀ m e, srcAt s c n = some (m, e) → e.sealed = true → exec (.gseal g d p) s = .next (takeFault s (Flt.mk0 0xA2 n))) ∧
         (srcAt s c n = none → freeSrc s c = none → exec (.gseal g d p) s = .next (takeFault s (Flt.mk0 0xA4 n)))) ∧
       (grpBad s w false = true ∨ fldN (s.rxn (p0 + 1)) 32 32 ≠ 0 → exec (.gseal g d p) s = fault n) ∧
       (grpBad s w false = true ∨ comBad (s.rxn (p0 + 1)) = true ∨ bit (s.rxn (p0 + 1)) 53 = false →
         exec (.gdeleg g d p) s = fault n) ∧
       (grpBad s w true = true → exec (.gpeek g d p) s = fault n))) ∧
    (slotRuns s g [d.toNat, k.toNat] →
      let w := s.rx k
      let n := gwNum w
      (grpBad s w false = false → exec (.gcommit g d k) s = .next (go s n 0 0 none 0 0) ∧
        exec (.gabort g d k) s = .next (go s n 1 0 none 0 0) ∧ exec (.gstat g d k) s = .next (go s n 4 0 none 0 0) ∧
        (s.me.issue = some is → is.gwait = false →
          exec (.gwait g d k) s = .next ((lease s d.toNat).modIssue me (fun is => { is with gwait := true })))) ∧
      (grpBad s w false = true → exec (.gcommit g d k) s = fault n ∧ exec (.gabort g d k) s = fault n ∧
        exec (.gstat g d k) s = fault n ∧ (s.me.issue = some is → is.gwait = false → exec (.gwait g d k) s = fault n))) ∧
    (slotRuns s g [x.toNat, a.toNat, k.toNat] →
      let w := s.rx k
      let n := gwNum w
      let m := if z = 1 then 8 else 4
      let data := leBytes m (s.rx x).toNat
      (grpBad s w true = false → (s.rx a).toNat % m = 0 → sourceFree s n →
        (gwR w = true ∧ gwPkg w ≠ pkgOf c → exec (.gstore g x a k z) s =
          .next (perform (sendTagged (enlistMe s n) c n s.me.frame.toNat none 0 (gwPkg w)
          [⟨none, (s.rx a).toNat, 0, data⟩]))) ∧
        (gwR w = false ∨ gwPkg w = pkgOf c →
          (translates (enlistMe s n) (s.rx a) 1 pl t → exec (.gstore g x a k z) s = .next (perform (sendTagged t c n t.me.frame.toNat
            none 0 (pkgOf c) [⟨some (destOfPlace pl), (s.rx a).toNat, pl.pa, data⟩]))) ∧
          (∀ code detail va, translationFails (enlistMe s n) [s.rx a] 1 code va detail t →
            exec (.gstore g x a k z) s = .next (takeFault t ⟨code, 1, va.toNat, detail, 0⟩)))) ∧
      (grpBad s w true = false → (s.rx a).toNat % m = 0 →
        (∀ j e, srcAt s c n = some (j, e) → e.sealed = true → exec (.gstore g x a k z) s = .next (takeFault s (Flt.mk0 0xA2 n))) ∧
        (srcAt s c n = none → freeSrc s c = none → exec (.gstore g x a k z) s = .next (takeFault s (Flt.mk0 0xA4 n)))) ∧
      (grpBad s w true = true → exec (.gstore g x a k z) s = fault n) ∧
      (grpBad s w true = false → (s.rx a).toNat % m ≠ 0 →
        exec (.gstore g x a k z) s = .next (takeFault s ⟨0xA5, 1, (s.rx a).toNat, n + m * 2 ^ 32, 0⟩))) ∧
    (slotRuns s g [r0, r0 + 1, r0 + 2] →
      let w := s.rxn (r0 + 2)
      let cw := s.rxn (r0 + 1)
      let esz := if fldN cw 62 2 = 1 ∨ fldN cw 62 2 = 2 then 2 else 4
      let n := gwNum w
      let rows := hV (s.rh h.toNat) = true ∧ fldN cw 0 32 ≤ hCapr (s.rh h.toNat)
      let adds := hV (s.rh i.toNat) = true ∧ hRsz (s.rh i.toNat) = 4 ∧ fldN cw 0 32 ≤ hCapr (s.rh i.toNat) ∧
        hRsz (s.rh h.toNat) % esz = 0 ∧ (s.rxn r0).toNat % esz = 0
      ∀ f ∈ [(Instr.sstoreg g h r, rows ∧ fldN cw 60 4 = 0, [h.toNat]), (Instr.sscaddg g h i r, rows ∧ adds, [h.toNat, i.toNat])], f.2.1 →
        let bad := fun (code : Nat) => exec f.1 s = .next (takeFault s.nextFree (cmdFault s code s.freeVal.toNat))
        (grpBad s w true = true → bad 0xA0) ∧
        (grpBad s w true = false →
          (∀ m e, srcAt s c n = some (m, e) → e.sealed = true → bad 0xA2) ∧ (srcAt s c n = none → freeSrc s c = none → bad 0xA4) ∧
          (sourceFree s n → exec f.1 s = .next (perform (accept f.2.2 [] (enlistMe s.nextFree n))))))

/-- R316 to R318, R320, R321, R325, R329, R341: the states of a group. The last seal makes OPEN SEALED; COMMIT makes SEALED COMMITTING, or
APPLIED where there is no destination; the last acknowledgement makes COMMITTING APPLIED, and settles ABORTED; an abort cause makes OPEN or
SEALED ABORTED and changes no other state; a seal whose count EXP contradicts aborts with WHY 3, and one whose destinations lie in nine
packages, or a tagged store to a ninth, with WHY 7 (R329, R341). The state word reports a current group from its slot and an older one from
the maps (R317). Held entries are applied by ascending source key, and for one key by ascending sequence number; the parts of one record
keep their order. -/
def Obligations.GroupStates : Prop :=
  (∀ (s : State) (g src exp count : Nat) (ds : List Nat), current s g = true → (slotOf s g).state = 1 →
    src ∈ (slotOf s g).enlisted → src ∉ (slotOf s g).sealed →
    let all := (slotOf s g).dests ++ ds.filter (fun d => !(slotOf s g).dests.contains d)
    let v := slotOf (takeSeal s g src exp count ds) g
    v.dests = all ∧
    ((destPkgs all).length ≤ 8 → (exp = 0 ∨ exp = count) → v.sealed = src :: (slotOf s g).sealed ∧
      v.state = (if (slotOf s g).sealed.length + 1 = (slotOf s g).nsrc then 2 else 1)) ∧
    ((destPkgs all).length ≤ 8 → exp ≠ 0 → exp ≠ count → v.state = 5 ∧ v.why = 3 ∧ v.sealed = (slotOf s g).sealed) ∧
    (8 < (destPkgs all).length → v.state = 5 ∧ v.why = 7 ∧ v.sealed = (slotOf s g).sealed)) ∧
  (∀ (s : State) (c g frame kind pkg n : Nat) (ent : Option Nat) (parts : List Part) (e : Src), srcAt s c g = some (n, e) →
    e.pkgs.length = 8 → pkg ∉ e.pkgs → sendTagged s c g frame ent kind pkg parts =
      sendPkt (setSrc s c n (some { e with next := e.next + 1 })) g (dieOf c) (grpDie g) (.srcAbort c 7)) ∧
  (∀ (s : State) (g : Nat), g < 2 ^ 32 →
    let v := slotOf s g
    let w := stateWord s g
    fldN w 0 32 = g ∧
    (current s g = true → v.state < 8 → v.why < 16 → v.sealed.length < 256 → v.nsrc < 256 → fldN w 61 3 = v.state ∧
      bit w 60 = v.settled ∧ fldN w 56 4 = (if v.state = 5 then v.why else 0) ∧ fldN w 48 8 = 0 ∧ fldN w 40 8 = v.sealed.length ∧
      fldN w 32 8 = v.nsrc) ∧
    (current s g = false →
      let old := bit v.done (grpGen g)
      fldN w 61 3 = (if old = true then if bit v.appl (grpGen g) = true then 4 else 5 else 0) ∧ bit w 60 = old ∧
      bit w 55 = decide (v.state ≠ 0))) ∧
  (∀ (s : State) (g : Nat), current s g = true →
    ((slotOf s g).state = 2 → (slotOf s g).dests ≠ [] →
      (slotOf (commitGroup s g) g).state = 3 ∧ (slotOf (commitGroup s g) g).acks = []) ∧
    ((slotOf s g).state = 2 → (slotOf s g).dests = [] → (slotOf s g).settled = false →
      (slotOf (commitGroup s g) g).state = 4 ∧ (slotOf (commitGroup s g) g).settled = true) ∧
    ((slotOf s g).state ≠ 2 → commitGroup s g = s) ∧
    (∀ why, (slotOf s g).state = 1 ∨ (slotOf s g).state = 2 →
      (slotOf (abortGroup s g why) g).state = 5 ∧ (slotOf (abortGroup s g why) g).why = why ∧
      ((slotOf (abortGroup s g why) g).settled = true ↔ (slotOf s g).dests = [])) ∧
    (∀ why, (slotOf s g).state ≠ 1 → (slotOf s g).state ≠ 2 → abortGroup s g why = s)) ∧
  (∀ (s : State) (g st d : Nat), current s g = true → (st = 3 ∨ st = 5) → (slotOf s g).state = st → (slotOf s g).settled = false →
    d ∈ (slotOf s g).dests → d ∉ (slotOf s g).acks →
    let v := slotOf (ackSlot s g st d) g
    v.acks = d :: (slotOf s g).acks ∧
    ((∀ e ∈ (slotOf s g).dests, e = d ∨ e ∈ (slotOf s g).acks) → v.settled = true ∧ v.state = (if st = 3 then 4 else 5)) ∧
    ((∃ e ∈ (slotOf s g).dests, e ≠ d ∧ e ∉ (slotOf s g).acks) → v.settled = false ∧ v.state = st)) ∧
  (∀ l : List Held, (applyOrder l).Perm l ∧ (applyOrder l).Pairwise (fun a b => a.key < b.key ∨ a.key = b.key ∧ a.seq ≤ b.seq) ∧
    ∀ k n, (applyOrder l).filter (fun h => h.key = k ∧ h.seq = n) = l.filter (fun h => h.key = k ∧ h.seq = n))

/-- R318 to R335, R341 to R344, R346, R392: what the commit channel's packets do where they arrive, and the events of leases, deadlines,
orphans and the paddock. A home that applies a group makes its held bytes visible in memory and changes no other byte; a discard leaves
memory as it is; both free the group's room and acknowledge. A paddock takes decided groups in the order of arrival (log 31). Every packet
about a group that reaches a destination restarts its lease timer. That a command is performed at the originator and answered by a packet is
log 30, and the order of packets and the count of their reroutes is log 45: the model's choices. -/
def Obligations.CommitChannel : Prop :=
  (∀ (s : State) (k : Nat) (p : Pkt), arrived s k = some p →
    let g := p.group
    let v := slotOf s g
    let u := s.setPkt k none
    let awake := s.stopped p.to_ = false
    (¬ awake → ∀ i ∈ [Instr.enlistRequest k, .enlistAnswer k, .storeAck k, .storeRefusal k, .sourceAbortReport k, .applyAck k,
      .discardAck k, .decisionAtSource k, .placementNotice k], exec i s = .next s) ∧
    (∀ src, p.kind = .enlist src → awake → sourceFirst s k g src = true →
      (current s g = true → v.state = 1 → v.enlisted.length < v.nsrc → exec (.enlistRequest k) s =
        .next (sendPkt (setSlot u g { v with enlisted := src :: v.enlisted }) g p.to_ p.from_ (.enlistAns src true))) ∧
      (current s g = true → v.nsrc ≤ v.enlisted.length → exec (.enlistRequest k) s =
        .next (sendPkt (abortGroup u g 3) g p.to_ p.from_ (.enlistAns src false))) ∧
      (current s g = false → exec (.enlistRequest k) s = .next (sendPkt u g p.to_ p.from_ (.enlistAns src false)))) ∧
    (∀ c n e, awake → srcAt s c g = some (n, e) →
      (p.kind = .enlistAns c true → exec (.enlistAnswer k) s = .next (setSrc u c n (some { e with enlist := .ok }))) ∧
      (p.kind = .enlistAns c false → ∃ t, exec (.enlistAnswer k) s = .next t ∧ Tab.get none (t.core c).srcs n = none ∧
        ∀ m q h f ent d va, s.pkt m = some q → q.group = g → q.kind = .store h f ent d va → h.key = c → e.first ≤ m →
          t.pkt m = none ∧ ∀ x, ctxOfFrame s c f = some x → (t.ctx x).pend.isSome = true)) ∧
    (let takeStore := fun (v : State) (h : Held) (frame : Nat) (ent : Option Nat) (d : Nat) =>
      let w := touchShed v d g
      if grpState w g = 5 then sendPkt (w.setPkt k none) g (d / 33) (dieOf h.key) (.ack h.key frame ent d)
      else if hasRoom w d g h = true then sendPkt ((holdEntry w d g h).setPkt k none) g (d / 33) (dieOf h.key) (.ack h.key frame ent d)
      else sendPkt (w.setPkt k none) g (d / 33) (dieOf h.key) (.refuse h.key frame ent 2)
    (∀ h frame ent d va, p.kind = .store h frame ent (some d) va → mayLeave s h.key g = true → gate s (placeOfDest d h.pa) = .go →
      exec (.shedAdmit k) s =
        .next (takeStore (if isPaddock d then s else hotTouch s (dieOf h.key) (d / 33) h.pa) h frame ent d)) ∧
    (∀ h frame ent va w, p.kind = .store h frame ent none va → mayLeave s h.key g = true →
      (∀ code a, translateDie s p.arrivalDie (BitVec.ofNat 64 va) (taggedKind h ent) = (.bad code a, w) →
        exec (.shedAdmit k) s = .next (sendPkt (w.setPkt k none) g p.arrivalDie (dieOf h.key) (.refuse h.key frame ent 6))) ∧
      (translateDie s p.arrivalDie (BitVec.ofNat 64 va) (taggedKind h ent) = (.wait, w) → exec (.shedAdmit k) s = .next w) ∧
      (∀ q, translateDie s p.arrivalDie (BitVec.ofNat 64 va) (taggedKind h ent) = (.ok q, w) → (q.pl = 2 → h.kind = 0) →
        exec (.shedAdmit k) s =
          .next (takeStore (countHome w (dieOf h.key) q) { h with pa := q.pa } frame ent (destOfPlace q))))) ∧
    (∀ c frame ent d n e, p.kind = .ack c frame ent d → awake → srcAt (completeOf u c frame ent) c g = some (n, e) → d ∉ e.dests →
      exec (.storeAck k) s = .next (setSrc (completeOf u c frame ent) c n (some { e with dests := e.dests ++ [d] }))) ∧
    (∀ c frame ent why, p.kind = .refuse c frame ent why → awake →
      exec (.storeRefusal k) s = .next (sendPkt (completeOf u c frame ent) g (dieOf c) (grpDie g) (.srcAbort c why))) ∧
    (∀ c why, p.kind = .srcAbort c why → awake → sourceFirst s k g c = true →
      exec (.sourceAbortReport k) s = .next (abortGroup u g why)) ∧
    (∀ c exp x xd n ds, p.kind = .seal c exp x xd (some (n, ds)) → awake → sourceFirst s k g c = true →
      let t := takeSeal u g c exp n ds
      exec (.sealReport k) s = .next (sendPkt t g p.to_ (dieOfCtx x) (.answer x xd (stateWord t g) none))) ∧
    (∀ c exp x xd n e, p.kind = .seal c exp x xd none → mayLeave s c g = true → taggedOut s c g = false → released s x k = true →
      s.stopped (dieOf c) = false → srcAt s c g = some (n, e) → exec (.sealReport k) s =
        .next (sendPkt (setSrc u c n (some { e with sealed := true })) g p.from_ p.to_ (.seal c exp x xd (some (e.next, e.dests))))) ∧
    (∀ d, p.kind = .apply d → exec (.groupApply k) s = .next (applyAt u d g)) ∧
    (∀ d, p.kind = .applyAck d → awake → exec (.applyAck k) s = .next (ackSlot u g 3 d)) ∧
    (∀ d why, p.kind = .abort d why → exec (.groupDiscard k) s = .next (discardAt u d g why)) ∧
    (∀ d, p.kind = .discardAck d → awake → exec (.discardAck k) s = .next (ackSlot u g 5 d)) ∧
    (∀ c, p.kind = .decision c → awake →
      (srcAt s c g = none → exec (.decisionAtSource k) s = .next u) ∧
      (∀ n e, srcAt s c g = some (n, e) → ∃ t, exec (.decisionAtSource k) s = .next t ∧ Tab.get none (t.core c).srcs n = none ∧
        sameMemory s t ∧ (∀ i f, t.entry c i = some f → f.sendsTo g = true → f.void = true) ∧
        ∀ q ∈ (t.pkg (pkgOf c)).saved, q.core = c → ∀ f ∈ q.ents, f.sendsTo g = true → f.void = true)) ∧
    (∀ d, p.kind = .query d → awake → exec (.queryAnswer k) s =
      .next (sendPkt u g p.to_ p.from_ (.queryAns d (queryState u g).1 (queryState u g).2))) ∧
    (∀ d ans why, p.kind = .queryAns d ans why → (shedGroup s d g).isSome = true →
      let w := modShed u d g (fun v => { v with query := false, timer := timerNow u (d / 132) })
      exec (.queryAnswer k) s = .next (if ans = 1 then applyAt w d g else if ans = 2 then discardAt w d g why
        else if ans = 3 then modShed w d g (fun v => { v with orphan := true }) else w)) ∧
    (∀ ev fb, p.kind = .notice ev fb → awake → (∀ q ∈ Tab.members s.pkts, q.1 < k → q.2.to_ = p.to_ → ∀ e, q.2.kind ≠ .notice e fb) →
      exec (.placementNotice k) s = .next ((s.cores.filter (fun c => dieOf c.1 = p.to_)).foldl (fun s c =>
        (c.2.slots.filter (fun v => v.2.comPkg = p.from_ / 4 && v.2.comFb = fb && (v.2.state = 1 || v.2.state = 2))).foldl
          (fun s v => noticeSlot s c.1 v.1 ev v.2) s) u)) ∧
    (∀ x xd w, s.stopped (dieOfCtx x) = false →
      (p.kind = .answer x xd w none → exec (.leaseEnd k) s = .next (endLease u x xd w)) ∧
      (∀ code detail unit c, p.kind = .answer x xd w (some (code, detail, unit, c)) →
        let t := endLease u x xd w
        exec (.leaseEnd k) s = .next (postRec t x { mkRec t x false ⟨code, 0, 0, detail, unit⟩ with w3 := c }))) ∧
    (∀ fn x xd arg dest va pa word, p.kind = .command fn x xd arg dest va pa word → awake → (fn = 0 → released s x k = true) →
      let back := fun (t : State) (w : Word) (flt : Option (Nat × Nat × Nat × Word)) =>
        exec (.leaseEnd k) s = .next (sendPkt t g p.to_ (dieOfCtx x) (.answer x xd w flt))
      let peeks := fun (n : Nat) => exec (.leaseEnd k) s = .next (u.setPkt k (some (mkPkt u n p.to_ (match dest with
        | some d => d / 33
        | none => gwPkg arg * 4) (.peek x xd dest va pa word))))
      let com : Bool := current s g && isCommitter s g x
      (fn = 4 → back u (stateWord u g) none) ∧
      (current s g = false → (fn = 0 ∨ fn = 1 ∨ fn = 3 → back u (stateWord u g) none) ∧ (fn = 2 → peeks 0)) ∧
      (current s g = true → com = false → fn < 4 → back u 0 (some (0xA1, g, 0, u.tickOf (dieOfCtx x)))) ∧
      (com = true →
        (fn = 0 → back (commitGroup u g) (stateWord (commitGroup u g) g) none) ∧
        (fn = 1 → back (abortGroup u g 1) (stateWord (abortGroup u g 1) g) none) ∧
        (fn = 2 → peeks g) ∧
        (fn = 3 →
          let t := if v.state = 1 ∨ v.state = 2 then setSlot u g { v with
            comPkg := fldN arg 54 10, comFb := fldN arg 0 45,
            resumed := some (v.resumed.getD (timerNow u (pkgOf (grpCore g)))) } else u
          back t (stateWord t g) none))) ∧
    (∀ x xd d va pa word, p.kind = .peek x xd (some d) va pa word → gate s (placeOfDest d pa) = .go → s.errs = [] →
      let q := placeOfDest d pa
      let w := countHome (touchShed u (destOfPlace q) g) (dieOfCtx x) q
      exec (.leaseEnd k) s = .next (sendPkt w g p.to_ (dieOfCtx x) (.answer x xd (peekValue w (destOfPlace q) g pa) none)))) ∧
  (∀ (s : State) (d g : Nat), isPaddock d = false →
    let freed := fun (t : State) (ack : PktKind) => shedGroup t d g = none ∧
      ∃ q, t.pkt s.nextId = some q ∧ q.kind = ack ∧ q.group = g ∧ q.to_ = grpDie g
    let t := applyAt s d g
    freed t (.applyAck d) ∧ (∀ why, freed (discardAt s d g why) (.discardAck d) ∧ sameMemory s (discardAt s d g why)) ∧
    (shedGroup s d g = none → sameMemory s t) ∧
    (∀ v, shedGroup s d g = some v →
      (∀ o hst b, (hst = true ∨ ∀ e ∈ v.held, memKey o b < memKey (d / 132) e.pa ∨
        memKey (d / 132) e.pa + e.data.length ≤ memKey o b) → readByte t o hst b = readByte s o hst b) ∧
      (∀ h ∈ v.held, s.errs = [] → (∀ e ∈ v.held, e = h ∨ e.pa + e.data.length ≤ h.pa ∨ h.pa + h.data.length ≤ e.pa) →
        (h.kind = 0 → readsBack s t (d / 132) false h.pa h.data) ∧
        (v.held = [h] → h.kind = 4 → h.data.length = 4 →
          readsBack s t (d / 132) false h.pa (leBytes 4 ((s.readPhys (d / 132) false h.pa 4 + ofLe h.data) % 2 ^ 32)))) ∧
      (∀ fmt pa, fmt < 4 → s.errs = [] → (∀ h ∈ v.held, h.kind = 1 + fmt ∧ h.pa = pa ∧ h.data.length = eszOf fmt) →
        let n := eszOf fmt
        let fp := if fmt = 1 then Fmt.fp16 else if fmt = 2 then Fmt.bf16 else Fmt.fp32
        readsBack s t (d / 132) false pa (leBytes n ((applyOrder v.held).foldl (fun x h =>
          (if fmt = 3 then x + ofLe h.data else fadd fp 0 x (ofLe h.data)) % 2 ^ (8 * n)) (s.readPhys (d / 132) false pa n)))))) ∧
  (∀ (s : State) (d g why : Nat), isPaddock d = true → (shedGroup s d g).isSome = true →
    let old := (s.pkg (d / 132)).padq
    let put := fun (t : State) (st why : Nat) => sameMemory s t ∧
      (t.pkg (d / 132)).padq = (if old.any (fun q => q.1 = g) then old else old ++ [(g, st, why)])
    put (applyAt s d g) 4 0 ∧ put (discardAt s d g why) 5 why) ∧
  (∀ (s : State) (d g : Nat) (h : Held), sameMemory s (holdEntry s d g h) ∧
    (shedGroup s d g = none → shedGroup (holdEntry s d g h) d g =
      some { group := g, held := [h], timer := timerNow s (d / 132), orphan := false, query := false }) ∧
    (∀ v, shedGroup s d g = some v → shedGroup (holdEntry s d g h) d g = some { v with held := v.held ++ [h] } ∧
      shedGroup (touchShed s d g) d g = some { v with timer := timerNow s (d / 132) })) ∧
  (∀ (s : State) (c n : Nat) (v : GSlot), c < 2 ^ 19 → n < 16 → v.gen < 512 →
    let at_ := fun (ev : Nat) => Tab.get GSlot.reset ((noticeSlot s c n ev v).core c).slots n
    at_ 0 = { v with deadline := deadlineLeft s (pkgOf c) v, resumed := none } ∧
    at_ 1 = { v with resumed := some (v.resumed.getD (timerNow s (pkgOf c))) } ∧
    noticeSlot s c n 2 v = abortGroup s (grpOf c n v.gen) 4) ∧
  (∀ (s : State) (c f i : Nat) (e : Entry), s.entry c i = some e → (s.ctx (c * 4 + e.ctx)).frame.toNat = f →
    (completeOf s c f (some i)).entry c i = some { e with owed := e.owed - 1 } ∧ completeOf s c f none = s) ∧
  (∀ (s : State) (x : Nat) (is : Issue), (s.ctx x).issue = some is → is.gwait = true → s.stopped (dieOfCtx x) = false →
    s.stopped (grpDie (gwNum (is.rx 3 (en2 (is.words.getD 3 0))))) = false →
    let w := is.words.getD 3 0
    let g := gwNum (is.rx 3 (en2 w))
    let v := stateWord s g
    fldN v 61 3 = 0 ∨ (fldN v 61 3 = 4 ∨ fldN v 61 3 = 5) ∧ bit v 60 = true →
    pkgOfCtx x = pkgOf (grpCore g) ∨ (packetPort s (dieOfCtx x) (pkgOf (grpCore g)) (g * 2 ^ 12)).isSome = true →
    ∃ t, exec (.gwaitReturn x) s = .next t ∧
      (en1 w ≠ 0 → (t.ctx x).rx (en1 w) = v ∧ (en1 w < 32 → bit (t.ctx x).lease (en1 w) = false) ∧
        ∀ m, m ≠ en1 w → (t.ctx x).rx m = (s.ctx x).rx m) ∧
      (en1 w = 0 → (t.ctx x).x = (s.ctx x).x ∧ (t.ctx x).lease = (s.ctx x).lease ∧ (t.ctx x).out0 = (s.ctx x).out0 - 1) ∧
      (fldN v 61 3 = 4 → (t.core (coreOf x)).dc = [])) ∧
  (∀ (s : State) (h : Nat) (g : BitVec 32) (v : ShedGroup), shedGroup s h g.toNat = some v →
    max 16 (fldN (s.die (h / 33)).celease 0 32) * 1024 ≤ elapsed s (h / 132) v.timer →
    exec (.leaseQuery h g) s = .next (sendPkt (modShed s h g.toNat (fun v => { v with timer := timerNow s (h / 132), query := true }))
      g.toNat (h / 33) (grpDie g.toNat) (.query h))) ∧
  (∀ (s : State) (c n : Nat), deadlineLeft s (pkgOf c) (Tab.get GSlot.reset (s.core c).slots n) = some 0 →
    s.stopped (dieOf c) = false →
    exec (.deadlineExpiry c n) s = .next (abortGroup s (grpOf c n (Tab.get GSlot.reset (s.core c).slots n).gen) 5)) ∧
  (∀ (s : State) (p q : Nat), (q ∉ (s.pkg p).notices → exec (.resetNotice p q) s = .next s) ∧
    (q ∈ (s.pkg p).notices → ∃ t, exec (.resetNotice p q) s = .next t ∧ (t.pkg p).notices = (s.pkg p).notices.erase q ∧ sameMemory s t ∧
      ∀ d g v, d / 132 = p → g / 2 ^ 22 = q → shedGroup t d g = some v → v.orphan = true)) ∧
  (∀ (s : State) (d : Nat) (g : BitVec 32), hostReaches s d →
    exec (.shforceApply d g) s = .next ((orphanHolds s d g.toNat).foldl (fun s h => applyAt s h g.toNat) s) ∧
    exec (.shforceDiscard d g) s = .next ((orphanHolds s d g.toNat).foldl (fun s h => discardAt s h g.toNat 0) s)) ∧
  (∀ (s : State) (k : Nat) (p : Pkt), s.pkt k = some p → arrives s p = false →
    let n := if p.held then 0 else p.redirects + 1
    (packetPort s p.from_ (p.to_ / 4) (p.group * 2 ^ 12) = none →
      exec (.heldPacketReroute k) s = .next (s.setPkt k (some { p with held := true, redirects := n }))) ∧
    (∀ i, packetPort s p.from_ (p.to_ / 4) (p.group * 2 ^ 12) = some i →
      exec (.heldPacketReroute k) s = .next (s.setPkt k (some { p with
        port := i, gen := genOf s (p.from_ / 4), held := 8 ≤ n, redirects := n })))) ∧
  (∀ (s : State) (p g st why : Nat) (rest : List (Nat × Nat × Nat)), (s.pkg p).padq = (g, st, why) :: rest →
    ringFull (s.pkg p) = false →
    let n := match shedGroup s (p * 132 + 32) g with
      | some v => if st = 4 then (v.held.map (fun h => h.data.length)).foldl (· + ·) 0 else 0
      | none => 0
    let tail := fldN (s.pkg p).padcqp 0 32
    ∃ t, exec (.paddockApply p) s = .next t ∧ (t.pkg p).padq = rest ∧ shedGroup t (p * 132 + 32) g = none ∧
      (∃ q, t.pkt s.nextId = some q ∧ q.group = g ∧ q.kind = (if st = 4 then .applyAck (p * 132 + 32) else .discardAck (p * 132 + 32))) ∧
      (bit (s.pkg p).padcq 63 = false → st ≠ 4 → sameMemory s t) ∧
      (let ring := hostKey p (fldN (s.pkg p).padcq 12 40 * 2 ^ 12 + 16 * tail)
       let clear := fun (key n : Nat) => bit (s.pkg p).padcq 63 = false ∨ key + n ≤ ring ∨ ring + 16 ≤ key
       ∀ v, shedGroup s (p * 132 + 32) g = some v → st = 4 →
        (∀ o hst b, hst = false ∨ clear (hostKey o b) 1 → (hst = false ∨ ∀ e ∈ v.held, hostKey o b < hostKey p e.pa ∨
          hostKey p e.pa + e.data.length ≤ hostKey o b) → readByte t o hst b = readByte s o hst b) ∧
        (∀ h ∈ v.held, s.errs = [] → h.kind = 0 → clear (hostKey p h.pa) h.data.length →
          (∀ e ∈ v.held, e = h ∨ e.pa + e.data.length ≤ h.pa ∨ h.pa + h.data.length ≤ e.pa) → readsBack s t p true h.pa h.data)) ∧
      (bit (s.pkg p).padcq 63 = true → (∃ vs, (t.pkg p).vectors = vs ++ [4]) ∧
        t.readBytes p true (fldN (s.pkg p).padcq 12 40 * 2 ^ 12 + 16 * tail) 16 =
          leBytes 8 (n * 2 ^ 32 + g) ++ leBytes 8 (b2n (s.pkg p).padPhase * 2 ^ 63 + st * 2 ^ 60 + why * 2 ^ 56))) ∧
  (∀ (s : State) (p : Nat) (v : BitVec 32), hostReaches s (p * 4) →
    ∃ t, exec (.padcqpHeadWrite p v) s = .next t ∧ fldN (t.pkg p).padcqp 32 32 = v.toNat ∧
      fldN (t.pkg p).padcqp 0 32 = fldN (s.pkg p).padcqp 0 32)

/-! ## Kernel slots -/

/-- R155, R160, R181 to R183, R185: the integer operations of a kernel slot. In each cluster whose guard is true the result is owed to
d[c][DD], one cycle after issue, three for a product. -/
def Obligations.KernelIntegerResults : Prop :=
  ∀ (s : State) (g : Guard) (d a b : BitVec 7) (i : BitVec 32) (q : BitVec 4), kernelRuns s →
    let act := actOf s.ca g
    let x := fun (c : Nat) => s.ca.rd c a
    let y := fun (c : Nat) => s.ca.rd c b
    let owes := fun (off : Nat) (v : Nat → Word32) => slotIssued (oweD d off act (fun c => (v c).toNat) s)
    (exec (.iadd g d a b) s = .next (owes 1 (fun c => x c + y c)) ∧
     exec (.isub g d a b) s = .next (owes 1 (fun c => x c - y c)) ∧
     exec (.iand g d a b) s = .next (owes 1 (fun c => x c &&& y c)) ∧
     exec (.ior g d a b) s = .next (owes 1 (fun c => x c ||| y c)) ∧
     exec (.ixor g d a b) s = .next (owes 1 (fun c => x c ^^^ y c)) ∧
     exec (.iandn g d a b) s = .next (owes 1 (fun c => x c &&& ~~~(y c))) ∧
     exec (.ishl g d a b) s = .next (owes 1 (fun c => x c <<< ((y c).toNat % 32))) ∧
     exec (.ishr g d a b) s = .next (owes 1 (fun c => x c >>> ((y c).toNat % 32))) ∧
     exec (.isar g d a b) s = .next (owes 1 (fun c => (x c).sshiftRight ((y c).toNat % 32))) ∧
     exec (.imul g d a b) s = .next (owes 3 (fun c => BitVec.ofNat 32 ((x c).toNat * (y c).toNat))) ∧
     exec (.imulhu g d a b) s = .next (owes 3 (fun c => BitVec.ofNat 32 ((x c).toNat * (y c).toNat / 2 ^ 32))) ∧
     exec (.imulhs g d a b) s = .next (owes 3 (fun c => BitVec.ofInt 32 ((x c).toInt * (y c).toInt / 2 ^ 32))) ∧
     exec (.imin g d a b) s = .next (owes 1 (fun c => BitVec.ofInt 32 (Min.min (x c).toInt (y c).toInt))) ∧
     exec (.imax g d a b) s = .next (owes 1 (fun c => BitVec.ofInt 32 (Max.max (x c).toInt (y c).toInt))) ∧
     exec (.iminu g d a b) s = .next (owes 1 (fun c => BitVec.ofNat 32 (Min.min (x c).toNat (y c).toNat))) ∧
     exec (.imaxu g d a b) s = .next (owes 1 (fun c => BitVec.ofNat 32 (Max.max (x c).toNat (y c).toNat))) ∧
     exec (.iclz g d a) s = .next (owes 1 (fun c => BitVec.ofNat 32 (clzN 32 (x c).toNat))) ∧
     exec (.ipopc g d a) s = .next (owes 1 (fun c => BitVec.ofNat 32 (popcountN 32 (x c).toNat)))) ∧
    (exec (.iaddi g d a i) s = .next (owes 1 (fun c => x c + i)) ∧
     exec (.iandi g d a i) s = .next (owes 1 (fun c => x c &&& i)) ∧
     exec (.iori g d a i) s = .next (owes 1 (fun c => x c ||| i)) ∧
     exec (.ixori g d a i) s = .next (owes 1 (fun c => x c ^^^ i)) ∧
     exec (.ishli g d a i) s = .next (owes 1 (fun c => x c <<< i.toNat)) ∧
     exec (.ishri g d a i) s = .next (owes 1 (fun c => x c >>> i.toNat)) ∧
     exec (.isari g d a i) s = .next (owes 1 (fun c => (x c).sshiftRight i.toNat)) ∧
     exec (.imuli g d a i) s = .next (owes 3 (fun c => BitVec.ofNat 32 ((x c).toNat * i.toNat))) ∧
     exec (.moviKernel g d i) s = .next (owes 1 (fun _ => i)) ∧
     exec (.selKernel g d a b q) s = .next (owes 1 (fun c => if s.ca.rg c q = true then x c else y c)))

/-- R184, R186, R190: the compares and predicate operations of a kernel slot. In each cluster whose guard is true the result is owed to
g[c][PD]: one cycle after issue, two for an FP32 compare. An FP32 compare with a NaN is false, FCMPUN true; the zeros are equal. -/
def Obligations.KernelPredicateResults : Prop :=
  ∀ (s : State) (g : Guard) (p q r : BitVec 4) (a b : BitVec 7) (i : BitVec 32), kernelRuns s →
    let act := actOf s.ca g
    let x := fun (c : Nat) => s.ca.rd c a
    let y := fun (c : Nat) => s.ca.rd c b
    let owes := fun (off : Nat) (v : Nat → Bool) => slotIssued (oweG p off act v s)
    (exec (.icmpeq g p a b) s = .next (owes 1 (fun c => x c == y c)) ∧
     exec (.icmpne g p a b) s = .next (owes 1 (fun c => x c != y c)) ∧
     exec (.icmplt g p a b) s = .next (owes 1 (fun c => decide ((x c).toInt < (y c).toInt))) ∧
     exec (.icmpge g p a b) s = .next (owes 1 (fun c => decide ((y c).toInt ≤ (x c).toInt))) ∧
     exec (.icmpltu g p a b) s = .next (owes 1 (fun c => decide ((x c).toNat < (y c).toNat))) ∧
     exec (.icmpgeu g p a b) s = .next (owes 1 (fun c => decide ((y c).toNat ≤ (x c).toNat))) ∧
     exec (.icmptst g p a b) s = .next (owes 1 (fun c => x c &&& y c != 0))) ∧
    (exec (.icmpeqi g p a i) s = .next (owes 1 (fun c => x c == i)) ∧
     exec (.icmpnei g p a i) s = .next (owes 1 (fun c => x c != i)) ∧
     exec (.icmplti g p a i) s = .next (owes 1 (fun c => decide ((x c).toInt < i.toInt))) ∧
     exec (.icmpgei g p a i) s = .next (owes 1 (fun c => decide (i.toInt ≤ (x c).toInt))) ∧
     exec (.icmpltui g p a i) s = .next (owes 1 (fun c => decide ((x c).toNat < i.toNat))) ∧
     exec (.icmpgeui g p a i) s = .next (owes 1 (fun c => decide (i.toNat ≤ (x c).toNat))) ∧
     exec (.icmptsti g p a i) s = .next (owes 1 (fun c => x c &&& i != 0))) ∧
    (exec (.gand g p q r) s = .next (owes 1 (fun c => s.ca.rg c q && s.ca.rg c r)) ∧
     exec (.gor g p q r) s = .next (owes 1 (fun c => s.ca.rg c q || s.ca.rg c r)) ∧
     exec (.gxor g p q r) s = .next (owes 1 (fun c => s.ca.rg c q ^^ s.ca.rg c r)) ∧
     exec (.gandn g p q r) s = .next (owes 1 (fun c => s.ca.rg c q && !s.ca.rg c r)) ∧
     exec (.gnot g p q) s = .next (owes 1 (fun c => !s.ca.rg c q))) ∧
    (exec (.fcmpeq g p a b) s = .next (owes 2 (fun c => fcmpTest 0 (x c) (y c))) ∧
     exec (.fcmplt g p a b) s = .next (owes 2 (fun c => fcmpTest 1 (x c) (y c))) ∧
     exec (.fcmple g p a b) s = .next (owes 2 (fun c => fcmpTest 2 (x c) (y c))) ∧
     exec (.fcmpun g p a b) s = .next (owes 2 (fun c => fcmpTest 3 (x c) (y c)))) ∧ comparesRight

/-- R33, R34, R38, R41 to R49, R187 to R189, R191 to R197: the floating-point operations, the moves between d and m registers, the seeds
and the conversions of a kernel slot: what each owes, and after how many cycles. A packed FP16 operation acts on each half by itself. A
conversion reads its code and rounds it once; sums, products and their combinations round the exact result once; the codes of every
format, the rounding to it, the seeds and their tables are as their rules give them. The lesser and the greater of two operands are those
operands' own codes, with -0 below +0, and the scale of FDIVS is an exact power of two. -/
def Obligations.KernelFloatResults : Prop :=
  ∀ (s : State) (g : Guard) (d a b c : BitVec 7) (rm : BitVec 3) (w : BitVec 2) (fd : BitVec 16), kernelRuns s →
    let act := actOf s.ca g
    let x := fun (l : Nat) (r : BitVec 7) => (s.ca.rd l r).toNat
    let half := fun (v : Nat → Nat → Nat) (m n : Nat) => v (m % 2 ^ 16) (n % 2 ^ 16) + 2 ^ 16 * v (m / 2 ^ 16) (n / 2 ^ 16)
    let half3 := fun (v : Nat → Nat → Nat → Nat) (m n o : Nat) =>
      v (m % 2 ^ 16) (n % 2 ^ 16) (o % 2 ^ 16) + 2 ^ 16 * v (m / 2 ^ 16) (n / 2 ^ 16) (o / 2 ^ 16)
    let f := (fmtOf fd).getD Fmt.fp32
    let n := if f.w ≤ 8 then 4 else 2
    (∀ k ∈ [(Instr.fadd g d a b rm, fadd Fmt.fp32 rm.toNat), (Instr.fsub g d a b rm, fsub Fmt.fp32 rm.toNat),
        (Instr.fmul g d a b rm, fmul Fmt.fp32 rm.toNat), (Instr.fmin g d a b, fmin Fmt.fp32), (Instr.fmax g d a b, fmax Fmt.fp32),
        (Instr.hadd g d a b rm, half (fadd Fmt.fp16 rm.toNat)), (Instr.hsub g d a b rm, half (fsub Fmt.fp16 rm.toNat)),
        (Instr.hmul g d a b rm, half (fmul Fmt.fp16 rm.toNat)), (Instr.hmin g d a b, half (fmin Fmt.fp16)),
        (Instr.hmax g d a b, half (fmax Fmt.fp16))],
      exec k.1 s = .next (slotIssued (oweD d 4 act (fun l => k.2 (x l a) (x l b)) s))) ∧
    (∀ k ∈ [(Instr.ffma g d a b c rm, ffma Fmt.fp32 false false rm.toNat), (Instr.ffms g d a b c rm, ffma Fmt.fp32 false true rm.toNat),
        (Instr.fnfma g d a b c rm, ffma Fmt.fp32 true false rm.toNat), (Instr.fnfms g d a b c rm, ffma Fmt.fp32 true true rm.toNat),
        (Instr.hfma g d a b c rm, half3 (ffma Fmt.fp16 false false rm.toNat)),
        (Instr.hfms g d a b c rm, half3 (ffma Fmt.fp16 false true rm.toNat))],
      exec k.1 s = .next (slotIssued (oweD d 4 act (fun l => k.2 (x l a) (x l b) (x l c)) s))) ∧
    (∀ k ∈ [(Instr.fabs g d a, 4, fabs), (Instr.fneg g d a, 4, fneg), (Instr.frsqs g d a, 6, seedRsqrt),
        (Instr.frcps g d a, 6, seedRcp), (Instr.fdivs g d a, 4, divScale),
        (Instr.cvtto g d a fd rm, 3, convert Fmt.fp32 f rm.toNat),
        (Instr.cvtfrom g d a fd rm, 3, fun v => convert f Fmt.fp32 rm.toNat (v % 2 ^ f.w))],
      exec k.1 s = .next (slotIssued (oweD d k.2.1 act (fun l => k.2.2 (x l a)) s))) ∧
    exec (.mvmw g d a w) s = .next (slotIssued (oweD d 1 act (fun l => fldN (s.ca.rm l a) (32 * w.toNat) 32) s)) ∧
    exec (.mvwm g d a w) s = .next (slotIssued (owe s s.cur.slot 1 (.mw (physM s.ca.lrec s.ca.k d.toNat) w.toNat)
      (act.map (fun l => (l, x l a))))) ∧
    exec (.cvtpack g d a fd rm) s = .next (slotIssued (oweD d 3 act (fun l => ((List.range n).map (fun e =>
      convert Fmt.fp32 f rm.toNat (fldN (s.ca.rm l a) (32 * e) 32) * 2 ^ (f.w * e))).foldl (· + ·) 0) s)) ∧
    exec (.cvtunpk g d a fd rm) s = .next (slotIssued (oweM d 3 act (fun l => ((List.range n).map (fun e =>
      convert f Fmt.fp32 rm.toNat (x l a / 2 ^ (f.w * e) % 2 ^ f.w) * 2 ^ (32 * e))).foldl (· + ·) 0) s)) ∧
    (∀ src dst mode v, convert src dst mode v = roundNum dst mode (decodeNum src v)) ∧
    (∀ k, fmtOf fd = some k → readsCodes k ∧ roundsRight k) ∧ computesRight Fmt.fp32 ∧ computesRight Fmt.fp16 ∧ seedTables ∧ seedsRight ∧
    picksRight Fmt.fp32 0x7FC00000 ∧ picksRight Fmt.fp16 0x7E00 ∧ signsRight

/-- R152, R198 to R205, R167, R143: stream ports, moves between clusters, reductions, tiles, LOOP and WAIT. A port access lies at the
cursor of the port in its stall; a word in a guard granule or outside the yard reads as zero; the cursor, 32 bits by the model's reading
(log 90), moves on by the size, and the first guard touch is that of the lowest active cluster and word by its choice (log 93). A
reduction follows the tree of R202. -/
def Obligations.KernelMoveResults : Prop :=
  ∀ (s : State) (g : Guard) (d a b : BitVec 7) (p t : BitVec 3) (i cl : BitVec 4) (rm cm n : BitVec 16), kernelRuns s →
    let act := actOf s.ca g
    let x := fun (c : Nat) (r : BitVec 7) => (s.ca.rd c r).toNat
    let port := s.ca.port p.toNat
    let o := hBase port.handle * 64 + port.cursor
    let tile := s.ca.tile t.toNat
    let red := fun (op : Nat → Nat → Nat) =>
      reduce op ((List.range 16).map (fun c => if act.contains c then some (x c a) else none))
    (s.errs = [] →
      (exec (.srd g d p false) s = .next (slotIssued (stepPort act p.toNat 4 true (noteTouches act o 1
        (oweD d 3 act (fun c => portRead s c o 1) s)))) ∧
       exec (.srd g d p true) s = .next (slotIssued (stepPort act p.toNat 16 true (noteTouches act o 4
        (oweM d 3 act (fun c => portRead s c o 4) s)))))) ∧
    (exec (.swr g d p false) s = .next (slotIssued (stepPort act p.toNat 4 false (noteTouches act o 1
      (owe s s.cur.slot 2 .bank (act.flatMap (fun c => ((List.range 1).filter (fun w => portWord s (o + 4 * w) = .stall)).map (fun w =>
        (yardKey c (o + 4 * w), x c d / 2 ^ (32 * w) % 2 ^ 32)))))))) ∧
     exec (.swr g d p true) s = .next (slotIssued (stepPort act p.toNat 16 false (noteTouches act o 4
      (owe s s.cur.slot 2 .bank (act.flatMap (fun c => ((List.range 4).filter (fun w => portWord s (o + 4 * w) = .stall)).map (fun w =>
        (yardKey c (o + 4 * w), (s.ca.rm c d).toNat / 2 ^ (32 * w) % 2 ^ 32))))))))) ∧
    (exec (.xsend g d a cl) s = .next (slotIssued (oweD d 2 act (fun c => x ((c + 16 - cl.toNat) % 16) a) s)) ∧
     exec (.xbcast g d a cl) s = .next (slotIssued (oweD d 2 act (fun _ => x cl.toNat a) s)) ∧
     exec (.xperm g d a b) s = .next (slotIssued (oweD d 2 act (fun c => x (x c b % 16) a) s)) ∧
     exec (.xsum g d a) s = .next (slotIssued (oweD d 6 act (fun _ => red (fun v w => (v + w) % 2 ^ 32)) s)) ∧
     exec (.xsumf g d a) s = .next (slotIssued (oweD d 6 act (fun _ => canonNan (red (fadd Fmt.fp32 0))) s)) ∧
     exec (.xmaxf g d a) s = .next (slotIssued (oweD d 6 act (fun _ => canonNan (red (fmax Fmt.fp32))) s)) ∧
     exec (.xminf g d a) s = .next (slotIssued (oweD d 6 act (fun _ => canonNan (red (fmin Fmt.fp32))) s))) ∧
    (exec (.trow g d t i) s = .next (slotIssued (oweFor s s.cur.slot 3 (.row t.toNat i.toNat) act
      ((act.filter (fun c => bit tile.cmask c)).map (fun c => (c, x c d))))) ∧
     exec (.tcolr g d t i) s = .next (slotIssued (oweFor s s.cur.slot 3 (.col t.toNat i.toNat) act
      ((act.filter (fun c => bit tile.rmask c)).map (fun c => (c, x c d))))) ∧
     (s.errs = [] →
      exec (.trowr g d t i) s = .next (slotIssued (oweD d 3 act (fun c =>
        if bit tile.cmask c then (s.ca.cell t.toNat i.toNat c).toNat else 0) s)) ∧
      exec (.tcol g d t i) s = .next (slotIssued (oweD d 3 act (fun c =>
        if bit tile.rmask c then (s.ca.cell t.toNat c i.toNat).toNat else 0) s))) ∧
     exec (.tzero g t) s = .next (slotIssued (owe s s.cur.slot 1 (.zero t.toNat) (act.map (fun c => (c, 0))))) ∧
     exec (.tcfg t rm cm) s = .next (slotIssued (owe s s.cur.slot 1 (.cfg t.toNat rm cm) []))) ∧
    (∀ v, s.ca.inv = some v →
      (s.ca.k + 1 < v.trip + recSc v.rec_ - 1 → exec .loop s = .next (slotIssued (modInv
        (owe s s.cur.slot 1 (.loop (s.ca.k + 1) v.trip) []) s.cur.c
        (fun i => { i with bundle := i.bundle.map (fun b => { b with taken := true }) })))) ∧
      (∀ (act : List Nat) (o n q size : Nat) (rd : Bool), q < 8 →
        let t := stepPort act q size rd s
        let u := noteTouches act o n s
        let guards := (List.range n).filter (fun w => portWord s (o + 4 * w) = .guard)
        (t.ca.port q = { s.ca.port q with
          cursor := ((s.ca.port q).cursor + size) % 2 ^ 32, first := (s.ca.port q).first || (rd && act ≠ []) }) ∧
        (∀ r < 8, r ≠ q → t.ca.port r = s.ca.port r) ∧
        (∃ w, t.ca.inv = some w ∧ { w with ports := v.ports } = v) ∧
        (act = [] ∨ guards = [] → u = s) ∧
        (∀ b bs w ws, act = b :: bs → guards = w :: ws → u = modInv s s.cur.c (fun i => { i with
          touches := i.touches + act.length, touch := some (i.touch.getD (b, o + 4 * w, s.tickOf (dieOf s.cur.c))) }))) ∧
      (v.trip + recSc v.rec_ - 1 ≤ s.ca.k + 1 → exec .loop s = .next (slotIssued s)) ∧
      exec (.wait n) s = .next (slotIssued (modInv s s.cur.c (fun i => { i with
        bundle := i.bundle.map (fun b => { b with wait := n.toNat }) })))) ∧
    (∀ off : Nat,
      (2 ^ 18 ≤ off ∨ capg s s.cur.c ≤ off / 64 → portWord s off = .free) ∧
      (off < 2 ^ 18 → off / 64 < capg s s.cur.c →
        let holds := fun (t : Stall) => t.lo ≤ off / 64 ∧ off / 64 < t.hi
        ((∀ t ∈ (s.core s.cur.c).stalls, ¬ holds t) → portWord s off = .stall) ∧
        (∀ t ∈ (s.core s.cur.c).stalls, holds t → (∀ u ∈ (s.core s.cur.c).stalls, holds u → u = t) →
          portWord s off = if t.base ≤ off / 64 ∧ off / 64 < t.base + t.len then .stall else .guard))) ∧
    (∀ c o n w : Nat, w < n → portRead s c o n / 2 ^ (32 * w) % 2 ^ 32 =
      if portWord s (o + 4 * w) = .stall then Memory.readN (s.core s.cur.c).yard (yardKey c (o + 4 * w)) 4 else 0) ∧
    (∀ (op : Nat → Nat → Nat) (v : Nat → Option Nat), reduce op ((List.range 16).map v) = (treeAt op v 4 0).getD 0)

/-- R222, R224, R231, R234 to R242: the caddy's commands. One that acts on the whole caddy has its effect when its guard is true in
cluster 0. CLATCH and CLATCHR set a plane source and start the fetch of its plane 0 in the next cycle, in place of what is under way
into the source's banks (log 20); CUBE sets its descriptor and its start point, and starts a run or ends at once; CSTOP ends the run. -/
def Obligations.CaddyCommands : Prop :=
  ∀ (s : State) (g : Guard) (opd : BitVec 2) (fd ofg : BitVec 16) (bd : BitVec 33) (pl sc st : Bool) (p : BitVec 3) (kc : BitVec 6)
    (psg : BitVec 12) (m d dm ds dz : BitVec 7) (zo zb : BitVec 11) (n : BitVec 8) (q : BitVec 2), kernelRuns s →
    let act := actOf s.ca g
    let v := s.core s.cur.c
    let does := fun (f : Core → Core) => slotIssued (if act.contains 0 then s.modCore s.cur.c f else s)
    exec (.cfmt g opd fd) s = .next (does (fun v => { v with cz :=
      if opd = 0 then { v.cz with fmtA := fd } else if opd = 1 then { v.cz with fmtB := fd } else { v.cz with fmtC := fd } })) ∧
    exec (.cbind g bd) s = .next (does (fun v => { v with cz := { v.cz with
      bind := bd, csts := setField v.cz.csts 23 2 (fldN bd 31 2) } })) ∧
    exec (.clatch g pl p kc ofg psg) s = .next (does (fun v =>
      latchSource (firstMade v p.toNat) pl (BitVec.ofBool pl ++ 0#1 ++ 0#7 ++ p ++ kc ++ ofg ++ psg) 0)) ∧
    exec (.clatchr g pl d kc ofg psg) s = .next (does (fun v =>
      latchSource v pl (BitVec.ofBool pl ++ 1#1 ++ d ++ 0#3 ++ kc ++ ofg ++ psg) (v.ca.rd 0 (d + 1) ++ v.ca.rd 0 d))) ∧
    exec (.cube g p sc dm ds st zb) s = .next (does (fun v => cubeRun v p.toNat sc dm ds st zb.toNat)) ∧
    exec (.cstop g) s = .next (slotIssued (if act.contains 0 then cubeStop s.cur.c s else s)) ∧
    exec (.czero g dz zo n) s = .next (slotIssued (owe s s.cur.slot 2 (.z (List.range 16))
      (act.flatMap (fun c => (List.range (n.toNat + 1)).map (fun i => (c * 1536 + zRow v c dz zo + i, 0)))))) ∧
    exec (.cmovzToM g m dz zo q) s = .next (slotIssued (oweM m 3 act (fun c => zQuarter v c (zRow v c dz zo) q.toNat) s)) ∧
    exec (.cmovzToZ g m dz zo q) s = .next (slotIssued (owe s s.cur.slot 3 (.z (regRun (4 * q.toNat) 4))
      (act.map (fun c => (c * 1536 + zRow v c dz zo, (s.ca.rm c m).toNat))))) ∧
    (act ≠ [] → exec (.cstat g d 0 true) s = .next (slotIssued ((oweD d 1 act (fun _ => v.cz.status.toNat) s).modCore s.cur.c
      (fun v => { v with cz := { v.cz with csts := setBit v.cz.csts 26 false } })))) ∧
    exec (.cstat g d 0 false) s = .next (slotIssued (oweD d 1 act (fun _ => v.cz.status.toNat) s)) ∧
    exec (.cstat g d 1 sc) s = .next (slotIssued (oweD d 1 act (fun _ => v.cz.cprog.toNat) s)) ∧
    (∀ (v : Core) (cmd : BitVec 46) (ref : Word),
      let b := if pl then 2 else 0
      let fmt := if pl then v.cz.fmtC else v.cz.fmtB
      let other := if pl then v.cz.psb else v.cz.psc
      let w := latchSource v pl cmd ref
      let ps := if pl then w.cz.psc else w.cz.psb
      psValid ps = true ∧ psFmt ps = fmt ∧ fld ps 0 46 = cmd ∧ psRef ps = ref ∧ (if pl then w.cz.psb else w.cz.psc) = other ∧
      w.cz.tag b = BankTag.reset ∧ w.cz.tag (b + 1) = BankTag.reset ∧
      (∀ n < 4, n ≠ b → n ≠ b + 1 → w.cz.tag n = v.cz.tag n) ∧
      w.cz.fetches = v.cz.fetches.filter (fun f => f.bank ≠ b ∧ f.bank ≠ b + 1) ++ [{
        bank := b, plane := 0, m16 := wide16 v.cz.fmtA || wide16 fmt || (psValid other && wide16 (psFmt other)),
        ready := v.ca.cycle + 1 + (if bit cmd 44 = true then 40 else 24), remote := bit cmd 44, served := false, bytes := [],
        fail := none }] ∧
      { w with cz := v.cz } = v) ∧
    (∀ (v : Core) (i : Inv) (q : Nat), v.ca.inv = some i → q < 8 → (firstMade v p.toNat).ca.port q =
      (if q = p.toNat then { v.ca.port q with first := true } else v.ca.port q)) ∧
    (∀ v : Core,
      let z := v.cz
      let nk := fldN (v.ca.rd 0 dm) 16 16
      let m := fldN (v.ca.rd 0 dm) 0 16
      let start := if st then v.ca.rd 0 ds else 0
      let past := decide ((m + 15) / 16 ≤ fldN start 0 11)
      let x := fldN start 16 12 + b2n past
      let u := cubeRun v p.toNat sc dm ds st zb.toNat
      let w := u.cz
      nk ≤ 4095 →
      { u with cz := z, ca := v.ca } = v ∧
      u.ca = (if z.cb = 1 then firstMade (firstMade v p.toNat) z.gport else firstMade v p.toNat).ca ∧
      cdNk w.cdesc = nk ∧ cdM w.cdesc = m ∧ cdZb w.cdesc = zb.toNat ∧ cdAport w.cdesc = p.toNat ∧ cdGport w.cdesc = z.gport ∧
      cdSc w.cdesc = sc ∧ cdM16 w.cdesc = z.mode16 ∧ w.steps = z.steps.map (fun t => { t with last := false }) ∧
      bit w.csts 25 = z.mode16 ∧ bit w.csts 26 = (bit z.csts 26 || (sc && decide (nsnOf v nk < nsaOf v p.toNat nk))) ∧
      (m = 0 ∨ nk ≤ x → w.cprog = progOf nk 0 ∧ fldN w.csts 27 3 = 1 ∧ w.cube = z.cube ∧ w.fetches = z.fetches ∧
        w.banks = z.banks) ∧
      (0 < m → x < nk → w.cprog = progOf x (if past then 0 else fldN start 0 11) ∧ w.run = true ∧ fldN w.csts 27 3 = 0 ∧
        planesAsked z w x (v.ca.cycle + 1) z.mode16 ∧
        ∃ t : Nat, w.cube = some { tblk := t, next := t, fail := none } ∧ blockStarts w x (v.ca.cycle + 1) t)) ∧
    (∀ (u : State) (c : Nat), u.errs = [] →
      let v := u.core c
      let y := (cubeStop c u).core c
      onlyCore u (cubeStop c u) c ∧ (v.cz.cube = none → y = v) ∧
      (∀ k, v.cz.cube = some k →
        let w := if k.next = v.ca.cycle then cubeStep v v.ca.cycle else v
        (w.cz.run = false → y = w) ∧
        (w.cz.run = true → y.cz.cube = none ∧ y.cz.run = false ∧ fldN y.cz.csts 27 3 = 2 ∧ fldN y.cz.csts 12 9 = 0 ∧
          { y with cz := { y.cz with cube := w.cz.cube, csts := w.cz.csts } } = w)))

/-- R155, R160: at issue a kernel slot changes no register, predicate, tile, accumulator or yard byte and no other core: what it
writes is owed. -/
def Obligations.FrameOfKernelSlots : Prop :=
  ∀ (i : Instr) (w : Word) (s t : State), encode i = some (.kernel w) → kernelRuns s → s.errs = [] → exec i s = .next t →
    frameKernel s t

/-- R24, R160, R162, R167, R203, R204: writes land when they are due: the writes due by a cycle are performed one after the other, each
of them once, and are gone from those owed; the others stay. Of two that land, the later cycle, then the higher slot, then the later
issued takes effect last. A write to d, m or g reaches its register in each of its clusters, and no other d, m or g changes; one to a
tile, a stall or the whole array acts as R167, R203 and R204 give. -/
def Obligations.WritesLandInOrder : Prop :=
  (∀ (v : Core) (t : Nat), ∃ l : List Owed,
    l.Perm (v.ca.owed.filter (fun o => o.land ≤ t)) ∧
    l.Pairwise (fun a b => a.land < b.land ∨ (a.land = b.land ∧ (a.slot < b.slot ∨ (a.slot = b.slot ∧ a.order ≤ b.order)))) ∧
    landBy v t = l.foldl landWrite { v with ca := { v.ca with owed := v.ca.owed.filter (fun o => t < o.land) } } ∧
    (landBy v t).ca.owed = v.ca.owed.filter (fun o => t < o.land)) ∧
  (∀ (v : Core) (o : Owed) (n : Nat), o.dst = .d n → n < 128 → (o.lanes.map (·.1)).Nodup →
    (∀ p ∈ o.lanes, Tab.get 0 (landWrite v o).ca.d (p.1 * 128 + n) = BitVec.ofNat 32 p.2) ∧
    (∀ c m, m < 128 → (m ≠ n ∨ c ∉ o.lanes.map (·.1)) →
      Tab.get 0 (landWrite v o).ca.d (c * 128 + m) = Tab.get 0 v.ca.d (c * 128 + m)) ∧
    (landWrite v o).ca.m = v.ca.m ∧ (landWrite v o).ca.g = v.ca.g ∧ (landWrite v o).yard = v.yard) ∧
  (∀ (v : Core) (o : Owed) (n : Nat), o.dst = .m n → n < 64 → (o.lanes.map (·.1)).Nodup →
    (∀ p ∈ o.lanes, Tab.get 0 (landWrite v o).ca.m (p.1 * 64 + n) = BitVec.ofNat 128 p.2) ∧
    (∀ c m, m < 64 → (m ≠ n ∨ c ∉ o.lanes.map (·.1)) →
      Tab.get 0 (landWrite v o).ca.m (c * 64 + m) = Tab.get 0 v.ca.m (c * 64 + m)) ∧
    (landWrite v o).ca.d = v.ca.d ∧ (landWrite v o).ca.g = v.ca.g ∧ (landWrite v o).yard = v.yard) ∧
  (∀ (v : Core) (o : Owed) (n : Nat), o.dst = .g n → n < 12 → (o.lanes.map (·.1)).Nodup →
    (∀ p ∈ o.lanes, ∀ m < 12, bit (Tab.get (0 : BitVec 12) (landWrite v o).ca.g p.1) m =
      (if m = n then decide (p.2 % 2 = 1) else bit (Tab.get (0 : BitVec 12) v.ca.g p.1) m)) ∧
    (∀ c, c ∉ o.lanes.map (·.1) → Tab.get 0 (landWrite v o).ca.g c = Tab.get 0 v.ca.g c) ∧
    (landWrite v o).ca.d = v.ca.d ∧ (landWrite v o).ca.m = v.ca.m ∧ (landWrite v o).yard = v.yard) ∧
  (∀ (v : Core) (o : Owed) (t i c x : Nat), i < 16 → c < 16 → o.lanes = [(c, x)] →
    (∀ k, (o.dst = .row t i ∧ k = (i, c)) ∨ (o.dst = .col t i ∧ k = (c, i)) →
      (landWrite v o).ca.cell t k.1 k.2 = BitVec.ofNat 32 x ∧ ((landWrite v o).ca.tile t).d = true ∧
      ∀ a b, a < 16 → b < 16 → (a, b) ≠ k → (landWrite v o).ca.cell t a b = v.ca.cell t a b) ∧
    (o.dst = .zero t → (∀ a < 16, (landWrite v o).ca.cell t a c = 0) ∧ ((landWrite v o).ca.tile t).d = true) ∧
    (o.dst = .bank → Memory.read (landWrite v o).yard c 4 = leBytes 4 x ∧
      ∀ a, (a < c ∨ c + 4 ≤ a) → Memory.read (landWrite v o).yard a 1 = Memory.read v.yard a 1)) ∧
  (∀ (v : Core) (o : Owed) (t k trip : Nat) (rm cm : BitVec 16),
    (o.dst = .cfg t rm cm → (landWrite v o).ca.tile t = { v.ca.tile t with v := true, d := true, rmask := rm, cmask := cm }) ∧
    (o.dst = .loop k trip → (landWrite v o).ca.k = k ∧
      ∀ c < 16, Tab.get 0 (landWrite v o).ca.g c = setStages (Tab.get 0 v.ca.g c) trip k)) ∧
  (∀ (s : State) (c t : Nat), dueOn s c 1 = some t →
    exec (.writeLanding c) s = .next (s.modCore c (fun v => reachCycle (landBy v t) t)))

/-! ## Events of the engines -/

/-- R121, R125, R126, R127, R131, R138, R143, R153, R154, R166 to R169, R172, R176, R243, R385: the life of a scoreboard entry and of an
invocation. The oldest entry that may start starts; one whose effect is complete retires: the tags of what it wrote advance, its records
become pending, and entries that waited for it become ready; an invocation's first state, the issue of its bundles and what follows each of
them, and the fault that ends it; its stop at an iteration boundary, and its reload from the save area. What a reload reads of a save area
that cannot be read is free, and what a save writes there is lost (log 12); passes beyond the 32 bits that a save area holds are counted in
the entry (log 90); which clusters a saved write reaches its entry keeps (log 62):
both are the model's choices. -/
def Obligations.EntriesAndInvocations : Prop :=
  (∀ (s : State) (c i : Nat) (e : Entry), s.entry c i = some e → mayStart s c e = true → s.stopped (dieOf c) = false →
    let w := s.setEntry c i (some { e with st := .started, held := false })
    let f := (s.ctx (c * 4 + e.ctx)).frame.toNat
    (opOf e.word ≠ 0x1E → isSrecv e.word = false → exec (.entryStart c i) s = .next w) ∧
    (∀ h t, isSrecv e.word = true → e.writes = [h] → stallAt (s.core c).stalls (hBase h.2) = some t →
      ∃ u, exec (.entryStart c i) s = .next u ∧ stallAt (u.core c).stalls (hBase h.2) = some { t with push := t.push - 1 }) ∧
    (opOf e.word = 0x1E → tilesWait s c f = false → s.errs = [] → ∃ u v, exec (.entryStart c i) s = .next u ∧ (u.core c).ca.inv = some v ∧
      v.slot = i ∧ v.ctx = e.ctx ∧ v.phase = .start ∧ v.scalar = e.rx (en3 e.word) ∧ v.rec_ = storeWords (s.core c) v.recaddr ∧
      v.reload = decide (e.resume = 1) ∧ v.flt = none ∧ v.touches = e.touches ∧ v.touch = e.touch ∧
      (e.resume ≠ 1 → v.recaddr = fldN (e.rx (en1 e.word)) 0 12 ∧ v.trip = fldN (e.rx (en1 e.word)) 16 32 ∧
        v.bind = e.rx (en2 e.word)) ∧
      (e.resume = 1 → v.recaddr = fldN (BitVec.ofNat 64 (getSaveN w c f 0 8)) 44 12 ∧ v.trip = getSaveN w c f 0xC 4 ∧
        v.bind = BitVec.ofNat 64 (getSaveN w c f 0x68 8)))) ∧
  (∀ (s : State) (c i : Nat) (e : Entry), s.entry c i = some e → entryComplete s c i e = true → s.stopped (dieOf c) = false →
    let x := c * 4 + e.ctx
    let posts := fun (u : State) (rs : List Rec) => (u.ctx x).pend =
      (metaRec s c i e ++ e.flt.toList ++ rs).foldl (fun p r => some (p.elim r (fun q => { q with w0 := q.w0 ||| 0x8000 }))) (s.ctx x).pend
    let wakes := fun (u : State) => ∀ j f, j ≠ i → s.entry c j = some f → f.st = .waiting →
      (∀ q ∈ entries s c, q.1 ≠ i → dependsOn q.2 f = false) → u.entry c j = some { f with st := .ready }
    (opOf e.word ≠ 0x1E ∨ (∀ v, (s.core c).ca.inv = some v → v.slot ≠ i) → ∃ u, exec (.entryRetire c i) s = .next u ∧
      u.entry c i = none ∧ posts u [] ∧ wakes u ∧ (u.core c).ca = (s.core c).ca ∧ (e.writes = [] → (u.core c).stalls = (s.core c).stalls)) ∧
    (∀ h t, opOf e.word ≠ 0x1E → e.writes = [h] → stallAt (s.core c).stalls (hBase h.2) = some t →
      ∃ u, exec (.entryRetire c i) s = .next u ∧
        (isSrecv e.word = true → stallAt (u.core c).stalls (hBase h.2) = some t) ∧
        (isSrecv e.word = false → isSfree e.word = false →
          stallAt (u.core c).stalls (hBase h.2) = some { t with tag := t.tag + 1 }) ∧
        (isSfree e.word = true → stallAt (u.core c).stalls (hBase h.2) = none)) ∧
    (∀ v, opOf e.word = 0x1E → (s.core c).ca.inv = some v → v.slot = i → ∃ u, exec (.entryRetire c i) s = .next u ∧ u.entry c i = none ∧
      posts u (v.flt.toList ++ touchRec s c i v) ∧ wakes u ∧ (u.core c).ca = { (s.core c).ca with inv := none } ∧
      (u.core c).cz = (s.core c).cz ∧ (u.core c).yard = (s.core c).yard ∧
      ((e.writes.map (fun h => hBase h.2)).Nodup → ∀ h ∈ e.writes, ∀ t, stallAt (s.core c).stalls (hBase h.2) = some t →
        stallAt (u.core c).stalls (hBase h.2) = some { t with tag := t.tag + 1 })) ∧
    (e.badMeta = none → metaRec s c i e = []) ∧
    (∀ r t, e.badMeta = some (r, t) →
      metaRec s c i e = [{ mkRec s x false (Flt.mk0 0x29 (cmdDetail e.word i r)) with w3 := t }]) ∧
    (∀ v : Inv, v.touch = none → touchRec s c i v = []) ∧
    (∀ (v : Inv) (bank off : Nat) (t : Word), v.touch = some (bank, off, t) →
      touchRec s c i v = [{ mkRec s (c * 4 + v.ctx) false ⟨0x27, 3, bank * 2 ^ 18 + off % 2 ^ 18,
        v.word.toNat * 2 ^ 32 + i * 2 ^ 24 + min v.touches 0xFFFFFF, bank⟩ with w3 := t }])) ∧
  (∀ (s : State) (c : Nat) (v : Inv), (s.core c).ca.inv = some v → s.stopped (dieOf c) = false →
    (v.phase = .start → v.reload = false → ∃ t w, exec (.invocationFirstBundle c) s = .next t ∧
      (∀ l < 16, Tab.get 0 (t.core c).ca.d (l * 128) = fld v.scalar 0 32 ∧ Tab.get 0 (t.core c).ca.d (l * 128 + 1) = fld v.scalar 32 32 ∧
        Tab.get 0 (t.core c).ca.d (l * 128 + 2) = BitVec.ofNat 32 l ∧ Tab.get 0 (t.core c).ca.g l = setStages 0 v.trip 0) ∧
      (t.core c).ca.k = 0 ∧ (t.core c).ca.m = [] ∧ (t.core c).ca.cycle = (s.core c).ca.cycle + 18 + v.delay ∧
      (t.core c).ca.inv = some w ∧ (0 < recPlen v.rec_ → w.phase = .prologue ∧ w.left = recPlen v.rec_ ∧ w.index = recPro v.rec_) ∧
      (recPlen v.rec_ = 0 → 0 < v.trip → w.phase = .body ∧ w.left = recKlen v.rec_ ∧ w.index = recKer v.rec_) ∧
      (t.core c).cz = { Caddy.reset with z := (s.core c).cz.z } ∧ sameMemory s t) ∧
    (mayIssueKernel s c v = true →
      let r := checkRead s (dieOf c) (.store c) (ucKey v.index) 64
      let ws := storeWords (r.1.core c) v.index
      (r.2 = none → bundleFault (r.1.core c) c v ws = none → exec (.kernelBundleIssue c) s = .next (closeKernel (modInv r.1 c (fun i => { i with
        bundle := some { words := ws, todo := (List.range 8).filter (fun n => ws.getD n 0 ≠ 0), wait := 0, taken := false },
        boundary := false })) c)) ∧
      (∀ n f, r.2 = none → bundleFault (r.1.core c) c v ws = some (n, f) → ∃ t u, exec (.kernelBundleIssue c) s = .next t ∧
        (t.core c).ca.inv = some u ∧ u.phase = .ended ∧ u.bundle = none ∧ u.flt = some (kernelRec r.1 c v (s.core c).ca.k n f) ∧
        (t.core c).cz.run = false ∧ (t.core c).ca.d = (s.core c).ca.d ∧ (t.core c).yard = (s.core c).yard) ∧
      (∀ f, r.2 = some f → exec (.kernelBundleIssue c) s = .next (machineCheck (modInv r.1 c (fun i => { i with
        phase := .ended, left := 0 })) (c * 4 + v.ctx) f))) ∧
    (∀ b, v.bundle = some b → (b.todo ≠ [] → closeKernel s c = s) ∧ (b.todo = [] → ∃ w, (closeKernel s c).core c =
        { s.core c with ca := { (s.core c).ca with cycle := (s.core c).ca.cycle + 1 + b.wait, inv := some w } } ∧ w.bundle = none ∧
      (1 < v.left → w.phase = v.phase ∧ w.left = v.left - 1 ∧ w.index = v.index + 1) ∧
      (v.left ≤ 1 →
        (v.phase = .body → b.taken = true → w.phase = .body ∧ w.left = recKlen v.rec_ ∧ w.index = recKer v.rec_ ∧ w.boundary = true) ∧
        (v.phase = .prologue → 0 < v.trip → w.phase = .body ∧ w.left = recKlen v.rec_ ∧ w.index = recKer v.rec_) ∧
        ((v.phase = .prologue ∧ v.trip = 0) ∨ (v.phase = .body ∧ b.taken = false) →
          (0 < recElen v.rec_ → w.phase = .epilogue ∧ w.left = recElen v.rec_ ∧ w.index = recEpi v.rec_) ∧
          (recElen v.rec_ = 0 → w.phase = .ended)) ∧
        (v.phase = .epilogue → w.phase = .ended)))) ∧
    (v.boundary = true → v.bundle = none → saveWanted s c v = true → settled (s.core c) = true → areaWaits s c v.frame = false →
      let u := s.modCore c landAtStop
      ∃ t, exec (.iterationBoundaryStop c) s = .next t ∧ (t.core c).ca.inv = none ∧ (t.core c).ca.owed = [] ∧
        (t.core c).cz.fetches = [] ∧ (t.core c).cz.cube = none ∧
        (∀ e, s.entry c v.slot = some e → t.entry c v.slot = some { e with
          st := .stopped, resume := 1, touches := v.touches, touch := v.touch,
          reach := (u.core c).ca.owed.map (fun o => o.lanes.map (fun l => l.1)), cfail := (u.core c).cz.cube.bind (fun q => q.fail),
          kcount := (u.core c).ca.k }) ∧
        sameMemory ((kernelSave (u.core c) v (s.core c).ca.cycle).foldl (fun s p => putSave s c v.frame p.1 p.2) u) t) ∧
    (∀ u f, v.phase = .start → v.reload = true → areaWaits s c v.frame = false → s.errs ≠ [] →
      areaCheck s c v.frame [(0, 2 ^ 16)] = (u, some f) → exec (.kernelReload c) s = .next (machineCheck (modInv u c (fun i => { i with
        phase := .ended, left := 0, reload := false })) (c * 4 + v.ctx) f)) ∧
    (v.phase = .start → v.reload = true → areaWaits s c v.frame = false → s.errs = [] →
      let rd := getSaveN s c v.frame
      let bytes := getSave s c v.frame
      ∃ t w, exec (.kernelReload c) s = .next t ∧
        let k := t.core c
        k.ca.cycle = (s.core c).ca.cycle + 18 + v.delay ∧
        k.ca.k = ((s.entry c v.slot).map (·.kcount)).getD 0 / 2 ^ 32 * 2 ^ 32 + rd 8 4 ∧ k.ca.inv = some w ∧ w.phase = .body ∧
        w.left = recKlen v.rec_ ∧ w.index = recKer v.rec_ ∧ w.reload = false ∧ w.trip = v.trip ∧
        (∀ l < 16, (∀ n < 128, Tab.get 0 k.ca.d (128 * l + n) = BitVec.ofNat 32 (packedElem (bytes 0x2200 8192) 32 (128 * l + n))) ∧
          (∀ n < 64, Tab.get 0 k.ca.m (64 * l + n) = BitVec.ofNat 128 (packedElem (bytes 0x4200 16384) 128 (64 * l + n))) ∧
          Tab.get 0 k.ca.g l = BitVec.ofNat 12 (rd (0x20 + 2 * l) 2)) ∧
        (∀ p < 8, ∃ q, w.ports[p]? = some q ∧ q.cursor = rd (0x40 + 4 * p) 4 ∧ q.first = (rd 0x18 1).testBit p ∧
          q.expect = BitVec.ofNat 8 (rd (0x60 + p) 1)) ∧
        k.ca.owed.length = rd 1 1 ∧
        (∀ j o, k.ca.owed[j]? = some o → let h := packedElem (bytes (0x8200 + 272 * j) 272) 64 0
          o.land = k.ca.cycle + h % 2 ^ 8 ∧ o.slot = h / 2 ^ 8 % 2 ^ 8 ∧ o.order = j ∧ o.dst = dstOf (h / 2 ^ 16 % 2 ^ 10) ∧
            o.act = setBits 16 (h / 2 ^ 32 % 2 ^ 16) ∧
            ∀ e, s.entry c v.slot = some e → o.lanes = (o.act.filter (fun l => (e.reach.getD j o.act).contains l)).map (fun l =>
              (l, packedElem ((bytes (0x8200 + 272 * j) 272).drop 16) 128 l))) ∧
        k.cz.z = (s.core c).cz.z ∧ (rd 0xE800 8 % 2 = 0 → k.cz = { Caddy.reset with z := (s.core c).cz.z }) ∧
        (rd 0xE800 8 % 2 = 1 → k.cz.fmtA = BitVec.ofNat 16 (rd 0xE808 8) ∧ k.cz.fmtB = BitVec.ofNat 16 (rd 0xE808 8 / 2 ^ 16) ∧
          k.cz.fmtC = BitVec.ofNat 16 (rd 0xE808 8 / 2 ^ 32) ∧ k.cz.bind = BitVec.ofNat 33 (rd 0xE810 8) ∧
          k.cz.psb = BitVec.ofNat 128 (rd 0xE820 16) ∧ k.cz.psc = BitVec.ofNat 128 (rd 0xE830 16) ∧
          k.cz.cprog = BitVec.ofNat 32 (rd 0xE818 8 / 2 ^ 32) ∧ (∀ b < 4, Tab.get [] k.cz.bankData b = bytes (0xE900 + 768 * b) 768))))

/-- R117, R217, R218, R224, R226 to R231, R233, R385: the events of the caddy. A due step issues and its partials are added 12 cycles
later, each word with one FP32 addition; a step's partials are the sums of R228 over the products of R217 and R218; the first step of a
block starts the fetches of the next one, and the last of a block goes on to the next block, stops for a plane that failed, or ends the
run; a fetch that ends fills its bank with the plane's bytes, or fails and leaves the bank invalid; a remote fetch is served where the
stall is allocated and its task placed. What reads an uncorrectable word fails, and stops the CUBE with WHY 5 and the
machine check (log 61). That the bytes of a local plane are read as the fetch ends, and those of a remote one when it is served, is the
model's choice (log 20). -/
def Obligations.CaddyEvents : Prop :=
  (∀ (s : State) (c t : Nat), dueOn s c 3 = some t →
    let v := s.core c
    (s.errs = [] → exec (.cubeStepIssue c) s = .next (s.modCore c (fun v => reachCycle (cubeStep v t) t))) ∧
    ((rowReads v v.cz.blk v.cz.row).any (fun r => uncorrectable s (.srf c) r.1 r.2) = true → ∃ u,
      exec (.cubeStepIssue c) s = .next u ∧ (u.core c).cz.cube = none ∧ fldN (u.core c).cz.csts 27 3 = 5 ∧
      (u.core c).cz.steps = v.cz.steps)) ∧
  (∀ (s : State) (c t : Nat), dueOn s c 0 = some t →
    exec (.cubeStepLanding c) s = .next (s.modCore c (fun v => reachCycle (landSteps v t) t))) ∧
  (∀ (v : Core) (q : Cube) (t : Nat), v.cz.cube = some q →
    let z := v.cz
    let x := z.blk
    let r := z.row
    let m := cdM z.cdesc
    let nk := cdNk z.cdesc
    let w := (cubeStep v t).cz
    { cubeStep v t with cz := z } = v ∧
    w.steps = z.steps ++ [{
      land := t + 12, row := cdZb z.cdesc + r, last := decide (r + 1 = (m + 15) / 16 ∧ x + 1 = nk),
      parts := ((List.range 16).filter (fun c => 16 * r + c < m)).map (fun c => (c, rowPartials v x (16 * r + c))) }] ∧
    ((t : Int) = q.tblk → x + 1 < nk → planesAsked z w (x + 1) t (cdM16 z.cdesc)) ∧
    (¬ ((t : Int) = q.tblk ∧ x + 1 < nk) → w.fetches = z.fetches ∧ w.banks = z.banks) ∧
    (r + 1 < (m + 15) / 16 → w.cprog = progOf x (r + 1) ∧ w.cube = some { q with next := t + 1 } ∧ w.csts = z.csts) ∧
    ((m + 15) / 16 ≤ r + 1 → w.cprog = progOf (x + 1) 0 ∧
      (x + 1 = nk → w.cube = none ∧ w.run = false ∧ fldN w.csts 27 3 = fldN z.csts 27 3) ∧
      (x + 1 ≠ nk → q.fail = none → ∃ n : Nat, w.cube = some { tblk := n, next := n, fail := none } ∧
        blockStarts w (x + 1) (t + 1) n) ∧
      (∀ why core, x + 1 ≠ nk → q.fail = some (why, core) → w.cube = none ∧ w.run = false ∧
        fldN w.csts 27 3 = why % 8 ∧ fldN w.csts 12 9 = core % 512))) ∧
  (∀ (v : Core) (x i j : Nat), j < 16 →
    let z := v.cz
    let m16 := cdM16 z.cdesc
    let kb := if m16 then 24 else 48
    let fa := cadFmt z.fmtA
    let fc := cadFmt z.cfmt
    let h := fun (p : Nat) => (v.ca.port p).handle
    let na := kb * fa.w / 8
    let ng := kb * fc.w / 8
    let a := fun (k : Nat) => decodeNum fa (packedElem (rowBytes v (h (cdAport z.cdesc)) i (x * na) na) fa.w k)
    let scale : Int := if cdSc z.cdesc = true then sextN (ofLe (rowBytes v (h (cdAport z.cdesc)) i
      (cdNk z.cdesc * na + (if m16 then x / 2 else x)) 1)) 8 else 0
    let plane := fun (p : Quad) (b k i : Nat) => planeElem p m16 (Tab.get [] z.bankData b) k i
    let b := fun (k : Nat) => plane z.psb (x % 2) (z.mapb k) (16 * z.mapb k + j)
    let c := fun (k : Nat) =>
      if z.cb = 0 then Num.fin false 1 0
      else if z.cb = 1 then decodeNum fc (packedElem (rowBytes v (h (cdGport z.cdesc)) i (x * ng) ng) fc.w k)
      else plane z.psc (2 + x % 2) (z.mapc k) (if z.cb = 2 then 16 * z.mapc k + j else z.mapc k)
    (rowPartials v x i).getD j 0 = stage1 ((List.range kb).map (fun k => (((a k).mul (b k)).mul (c k)).scale scale))) ∧
  (∀ (v : Core) (t : Nat), (landSteps v t).cz.steps = v.cz.steps.filter (fun p => p.land ≠ t) ∧
    (∀ st, v.cz.steps.filter (fun p => p.land = t) = [st] → (st.parts.map (fun p => p.1 * 1536 + st.row)).Nodup →
      (∀ p ∈ st.parts, ∀ j < 16, fldN (Tab.get (0 : BitVec 512) (landSteps v t).cz.z (p.1 * 1536 + st.row)) (32 * j) 32 =
        fadd Fmt.fp32 0 (fldN (Tab.get (0 : BitVec 512) v.cz.z (p.1 * 1536 + st.row)) (32 * j) 32) (p.2.getD j 0) % 2 ^ 32) ∧
      (∀ k, k ∉ st.parts.map (fun p => p.1 * 1536 + st.row) → Tab.get (0 : BitVec 512) (landSteps v t).cz.z k = Tab.get 0 v.cz.z k) ∧
      (landSteps v t).cz.csts = (if st.last = true then setField v.cz.csts 27 3 1 else v.cz.csts))) ∧
  (∀ (row : Nat) (v : Core) (p : Nat × List Nat) (j : Nat), j < 16 →
    let old := Tab.get (0 : BitVec 512) v.cz.z (p.1 * 1536 + row)
    fldN (Tab.get (0 : BitVec 512) (addRow row v p).cz.z (p.1 * 1536 + row)) (32 * j) 32 =
      fadd Fmt.fp32 0 (fldN old (32 * j) 32) (p.2.getD j 0) % 2 ^ 32) ∧
  (∀ ps : List Machine.Num, stagesRight ps) ∧
  (∀ (s : State) (c b t : Nat) (f : Fetch), b < 4 → dueOn s c 2 = some t → fetchDue (s.core c) b t = some f →
    (f.fail = none → (f.remote = true ∨ s.errs = []) → ∃ u, exec (.planeFetchReady c b) s = .next u ∧
      (u.core c).cz.tag b = ⟨true, f.plane, f.m16⟩ ∧
      Tab.get [] (u.core c).cz.bankData b = (if f.remote = true then f.bytes else
        planeBytes (s.core c) (sourceStall (s.core c) b) ((s.core c).cz.source b) f.plane f.m16)) ∧
    (f.fail = none → f.remote = false →
      (planeReads (sourceStall (s.core c) b) ((s.core c).cz.source b) f.plane f.m16).any
        (fun k => uncorrectable s (.srf c) k.1 k.2) = true →
      ∃ u, exec (.planeFetchReady c b) s = .next u ∧ (u.core c).cz.cube = none ∧ fldN (u.core c).cz.csts 27 3 = 5 ∧
        (u.core c).cz.tag b = BankTag.reset ∧ ∀ g ∈ (u.core c).cz.fetches, g.bank ≠ b) ∧
    (∀ why core, f.fail = some (why, core) → ∃ u, exec (.planeFetchFailure c b) s = .next u ∧
      (u.core c).cz.tag b = BankTag.reset ∧ (∀ g ∈ (u.core c).cz.fetches, g.bank ≠ b) ∧
      (∀ q, (s.core c).cz.cube = some q → (b = f.plane % 2 ∨ (2 ≤ (s.core c).cz.cb ∧ b = 2 + f.plane % 2)) →
        ((s.core c).cz.blk = f.plane → (u.core c).cz.cube = none ∧ (u.core c).cz.run = false ∧
          fldN (u.core c).cz.csts 27 3 = why % 8 ∧ fldN (u.core c).cz.csts 12 9 = core % 512) ∧
        ((s.core c).cz.blk + 1 = f.plane →
          (u.core c).cz.cube = some { q with fail := some (q.fail.getD (why, core)) })))) ∧
  (∀ (s : State) (c b : Nat) (f : Fetch), (s.core c).cz.fetches = [f] → f.bank = b → f.remote = true → f.served = false →
    f.ready ≤ (s.core c).ca.cycle + 40 → s.stopped (dieOf c) = false →
    let ps := (s.core c).cz.source b
    let r := psRef ps
    let rc := c / 512 * 512 + fldN r 51 9
    ((planeReads r ps f.plane f.m16).any (fun k => uncorrectable s (.srf rc) k.1 k.2) = true → ∃ u g,
      exec (.remotePlaneRead c b) s = .next u ∧ (u.core c).cz.fetches = [g] ∧ g.served = true ∧ g.fail = some (5, fldN r 51 9)) ∧
    (s.errs = [] → ∃ u g, exec (.remotePlaneRead c b) s = .next u ∧ (u.core c).cz.fetches = [g] ∧ g.served = true ∧
      (remoteStall (s.core rc) r = false → g.fail = some (4, fldN r 51 9)) ∧
      (remoteStall (s.core rc) r = true → holderPlaced s rc r = false → g.fail = some (3, fldN r 51 9)) ∧
      (remoteStall (s.core rc) r = true → holderPlaced s rc r = true → f.fail = none →
        g.fail = none ∧ g.bytes = planeBytes (s.core rc) r ps f.plane f.m16)))

/-- R15, R133 to R138, R254, R261, R265: what a started entry does. Its first read compares the tags; a line that completes a record of
SLOAD, SLOADX or SGATHER writes the record, a line of SSTORE stores its bytes, an index of SBAG or SBAGM adds its row to the open bag,
and a marked or last one writes the bag; a copy within a stable moves its next record; a scatter-add adds one element to the table at
its home, a row update steps every weight of its row as its algorithm says; an index out of range reads zeros or is skipped, and GIXSTK
keeps the first; every byte of memory outside what is stored keeps its value. An index is read once for
its row, and the bytes of a stored record once for all its lines. Words in error are absent (R385), bytes beyond the installed memory are
lost (log 4); where a copy's destination has longer records, what follows is free (log 46). -/
def Obligations.EntriesMoveData : Prop :=
  (∀ (s u : State) (c i r : Nat) (e : Entry) (p : Place), running s c i = some e → opOf e.word = 0x1D → subOf e.word = 2 →
    bit e.word 0 = false → e.tagOk = true → r < e.count → e.isDone r = false →
    let got := Tab.get [] e.part r
    let rsz := hRsz e.wr
    let ch := nextChunk (recordVa e r) rsz got.length
    entryPlace s c i ch.1 5 = .ok (p, u) → gate u p = .go → got.length + ch.2 = rsz →
    let w := countHome (countLine u (dieOf c) p) (dieOf c) p
    w.errs = [] →
    ∃ t, exec (.homePlainAccess (.stream c i r)) s = .next t ∧
      readRec t c (hBase e.wr) rsz r 0 rsz = got ++ w.readBytes p.pkg (p.pl = 2) p.pa ch.2 ∧ sameMemory w t) ∧
  (∀ (s u : State) (c i r : Nat) (e : Entry) (p : Place), running s c i = some e → opOf e.word = 0x1D → subOf e.word = 2 →
    bit e.word 0 = true → e.tagOk = true → r < e.count → e.isDone r = false →
    let got := Tab.get [] e.part r
    let rsz := hRsz e.wr
    let esz := 2 ^ shEsz e.ctl
    let n := rsz / esz
    let ch := nextChunk (recordVa e r) (rsz / 2 + n / 8) got.length
    entryPlace s c i ch.1 5 = .ok (p, u) → gate u p = .go → got.length + ch.2 = rsz / 2 + n / 8 → n / 4 * (4 * esz) = rsz →
    let w := countHome (countLine u (dieOf c) p) (dieOf c) p
    w.errs = [] →
    let x := expand esz n (got ++ w.readBytes p.pkg (p.pl = 2) p.pa ch.2)
    ∃ t, exec (.homePlainAccess (.stream c i r)) s = .next t ∧ readRec t c (hBase e.wr) rsz r 0 rsz = x.1 ∧ sameMemory w t ∧
      (x.2 = true → ∀ f, u.entry c i = some f → (t.entry c i).map (·.badMeta) = some (some (match f.badMeta with
        | some (q, a) => if q ≤ r then (q, a) else (r, u.tickOf (dieOf c))
        | none => (r, u.tickOf (dieOf c)))))) ∧
  (∀ (esz n g q : Nat) (bs : List Byte), 0 < esz → bs.length = n / 2 * esz + n / 8 → g < n / 4 → q < 4 →
    let nib := packedElem (bs.drop (n / 2 * esz)) 4 g
    let elem := fun (k : Nat) => (bs.drop (k * esz)).take esz
    (((expand esz n bs).1.drop ((4 * g + q) * esz)).take esz =
      if nib % 4 < nib / 4 then
        (if q = nib % 4 then elem (2 * g) else if q = nib / 4 then elem (2 * g + 1) else List.replicate esz 0)
      else List.replicate esz 0) ∧
    (nib / 4 ≤ nib % 4 → (expand esz n bs).2 = true)) ∧
  (∀ (s u : State) (c i r : Nat) (e : Entry) (p : Place), running s c i = some e → opOf e.word = 0x1D → subOf e.word = 3 →
    e.tagOk = true → r < e.count → e.isDone r = false →
    let h := e.rd 0
    let rsz := hRsz h
    let got := Tab.get [] e.part r
    let ch := nextChunk (recordVa e r) rsz got.length
    ((shStride e.ctl).natAbs < rsz → r = e.resume) → entryPlace s c i ch.1 6 = .ok (p, u) → gate u p = .go →
    let w := countHome (countLine u (dieOf c) p) (dieOf c) p
    w.errs = [] →
    let all := if Tab.get [] e.snap r = [] then readRec s c (hBase h) rsz r 0 rsz else Tab.get [] e.snap r
    ∃ t, exec (.homePlainAccess (.stream c i r)) s = .next t ∧
      readsBack w t p.pkg (p.pl = 2) p.pa ((all.drop got.length).take ch.2) ∧
      (got.length + ch.2 < rsz → (t.entry c i).map (fun f => Tab.get [] f.snap r) = some all) ∧
      (∀ q o a, (o ≠ decide (p.pl = 2) ∨ placeKey o q a < placeKey o p.pkg p.pa ∨ placeKey o p.pkg p.pa + ch.2 ≤ placeKey o q a) →
        readByte t q o a = readByte w q o a) ∧
      (t.core c).yard = (s.core c).yard) ∧
  (∀ (s u : State) (c i r : Nat) (e : Entry) (p : Place), running s c i = some e → opOf e.word = 0x1D → subOf e.word = 4 →
    e.tagOk = true → r < e.count → e.isDone r = false → ∀ idx, Tab.get none e.idx r = some idx →
    let rsz := hRsz e.wr
    let got := Tab.get [] e.part r
    let ch := nextChunk (((e.rx e.xa).toNat + idx * rsz) % 2 ^ 64) rsz got.length
    let w := countHome (countLine u (dieOf c) p) (dieOf c) p
    (idx < fldN e.ctl 32 32 → entryPlace s c i ch.1 5 = .ok (p, u) → gate u p = .go → got.length + ch.2 = rsz → w.errs = [] →
      ∃ t, exec (.homePlainAccess (.stream c i r)) s = .next t ∧
        readRec t c (hBase e.wr) rsz r 0 rsz = got ++ w.readBytes p.pkg (p.pl = 2) p.pa ch.2 ∧ sameMemory w t) ∧
    (fldN e.ctl 32 32 ≤ idx → r = e.resume → ∃ t, exec (.homePlainAccess (.stream c i r)) s = .next t ∧ sameMemory s t ∧
      readRec t c (hBase e.wr) rsz r 0 rsz = List.replicate rsz 0 ∧
      (t.ctx (c * 4 + e.ctx)).gixstk = (if bit (s.ctx (c * 4 + e.ctx)).gixstk 63 = true then (s.ctx (c * 4 + e.ctx)).gixstk
        else BitVec.ofNat 64 (2 ^ 63 + idx)))) ∧
  (∀ (s : State) (c i j : Nat) (e : Entry), running s c i = some e → e.tagOk = true → Tab.get none e.idx j = none → j < e.count →
    s.errs = [] →
    let known := fun (h : Word) => s.setEntry c i (some { e with idx := Tab.set none e.idx j (some (recWord s c (hBase h) 4 j 0)) })
    (opOf e.word = 0x1D → (subOf e.word = 4 ∨ subOf e.word = 5 ∧ j = e.resume + e.k) → e.isDone j = false →
      exec (.homePlainAccess (.stream c i j)) s = exec (.homePlainAccess (.stream c i j)) (known (e.rd 0))) ∧
    (opOf e.word = 0x1F → j = e.resume →
      (subOf e.word = 0 → exec (.scatterAddAtHome c i) s = exec (.scatterAddAtHome c i) (known (e.rd 1))) ∧
      (subOf e.word = 1 → exec (.rowUpdateAtHome c i) s = exec (.rowUpdateAtHome c i) (known (e.rd 1))))) ∧
  (∀ (s u : State) (c i : Nat) (e : Entry) (p : Place), running s c i = some e → opOf e.word = 0x1D → subOf e.word = 5 →
    e.tagOk = true → e.resume + e.k < e.count → e.isDone (e.resume + e.k) = false → ∀ v, Tab.get none e.idx (e.resume + e.k) = some v →
    let j := e.resume + e.k
    let idx := v % 2 ^ 31
    let n := hRsz e.wr / 4
    let fmt := fldN e.ctl 62 2
    let esz := if fmt = 1 ∨ fmt = 2 then 2 else 4
    let got := Tab.get [] e.part j
    let ch := nextChunk (((e.rx e.xa).toNat + idx * n * esz) % 2 ^ 64) (n * esz) got.length
    let w := countHome (countLine u (dieOf c) p) (dieOf c) p
    let takes := fun (vs : List Nat) (past : Bool) => ∃ t f, exec (.homePlainAccess (.stream c i j)) s = .next t ∧ t.entry c i = some f ∧
      (past = true → (t.ctx (c * 4 + e.ctx)).gixstk = (if bit (s.ctx (c * 4 + e.ctx)).gixstk 63 = true then
        (s.ctx (c * 4 + e.ctx)).gixstk else BitVec.ofNat 64 (2 ^ 63 + idx))) ∧
      let acc := if e.k = 0 then vs else (List.range n).map (fun m => fadd Fmt.fp32 0 (e.acc.getD m 0) (vs.getD m 0))
      let out := if bit e.word 0 = true ∧ 0 < e.k then acc.map (fun a => divCount a (e.k + 1)) else acc
      (v.testBit 31 = true ∨ j + 1 = e.count → e.bag < hCapr e.wr →
        readRec t c (hBase e.wr) (hRsz e.wr) e.bag 0 (4 * n) = out.flatMap (leBytes 4) ∧ f.bag = e.bag + 1 ∧ f.k = 0 ∧
          f.resume = j + 1) ∧
      (v.testBit 31 = false → j + 1 ≠ e.count → f.k = e.k + 1 ∧ f.acc = acc ∧ f.bag = e.bag ∧ f.resume = e.resume ∧
        (t.core c).yard = (s.core c).yard)
    (idx < fldN e.ctl 32 30 → entryPlace s c i ch.1 5 = .ok (p, u) → gate u p = .go → got.length + ch.2 = n * esz → w.errs = [] →
      takes ((List.range n).map (fun m => convert (tableFmt fmt) Fmt.fp32 0
        (packedElem (got ++ w.readBytes p.pkg (p.pl = 2) p.pa ch.2) (8 * esz) m))) false) ∧
    (fldN e.ctl 32 30 ≤ idx → takes (List.replicate n 0) true)) ∧
  (∀ (s : State) (c i r : Nat) (e : Entry), running s c i = some e → opOf e.word = 0x1D → e.tagOk = false → r < e.count →
    e.isDone r = false →
    (∀ n h exp t, e.reads = [(n, h, exp)] → stallAt (s.core c).stalls (hBase h) = some t →
      (t.tag ≠ exp → ∃ u, exec (.homePlainAccess (.stream c i r)) s = .next u ∧ u.entry c i = some { e with
        stop := true, flt := some (e.flt.getD (mkRec s (c * 4 + e.ctx) false
          (Flt.mk0 0x28 (cmdDetail e.word i (exp.toNat * 2 ^ 8 + t.tag.toNat))))) } ∧ sameMemory s u) ∧
      (t.tag = exp → exec (.homePlainAccess (.stream c i r)) s =
        exec (.homePlainAccess (.stream c i r)) (s.setEntry c i (some { e with tagOk := true })))) ∧
    (e.reads = [] → exec (.homePlainAccess (.stream c i r)) s =
      exec (.homePlainAccess (.stream c i r)) (s.setEntry c i (some { e with tagOk := true })))) ∧
  (∀ (s : State) (c i : Nat) (e : Entry), running s c i = some e → s.errs = [] → isPull e.word = true → e.sub = 1 → e.resume < e.count →
    let r := e.rx (en2 e.word)
    let rc := refCore c r
    let n := min (hRsz e.wr) (hRsz r)
    ∃ t, exec (.remoteStallCopy c i) s = .next t ∧ sameMemory s t ∧
      readRec t c (hBase e.wr) (hRsz e.wr) e.resume 0 n = readRec s rc (hBase r) (hRsz r) e.resume 0 n) ∧
  (∀ (s : State) (c i : Nat) (e : Entry), running s c i = some e → s.errs = [] → isPush e.word = true → e.sub = 1 → e.resume < e.count →
    let r := e.rx (en2 e.word)
    let rc := refCore c r
    let n := min (hRsz (e.rd 0)) (hRsz r)
    ∃ t, exec (.remoteStallCopy c i) s = .next t ∧ sameMemory s t ∧
      readRec t rc (hBase r) (hRsz r) e.resume 0 n = readRec s c (hBase (e.rd 0)) (hRsz (e.rd 0)) e.resume 0 n) ∧
  (∀ (s : State) (c i idx : Nat) (e : Entry), running s c i = some e → opOf e.word = 0x1F → e.resume < e.count → e.tagOk = true →
    Tab.get none e.idx e.resume = some idx → fldN e.ctl 32 30 ≤ idx →
    ∀ k ∈ [(Instr.scatterAddAtHome c i, 0), (Instr.rowUpdateAtHome c i, 1)], subOf e.word = k.2 →
      ∃ t, exec k.1 s = .next t ∧ sameMemory s t ∧ t.entry c i = some (e.finish e.resume) ∧
        (t.ctx (c * 4 + e.ctx)).gixstk = (if bit (s.ctx (c * 4 + e.ctx)).gixstk 63 = true then (s.ctx (c * 4 + e.ctx)).gixstk
          else BitVec.ofNat 64 (2 ^ 63 + idx))) ∧
  (∀ e : Entry, e.done = [] → (e.finish e.resume).resume = e.resume + 1 ∧ (e.finish e.resume).done = []) ∧
  (∀ (s : State) (c i : Nat) (e : Entry), running s c i = some e → opOf e.word = 0x1F → subOf e.word = 0 → e.resume < e.count →
    e.tagOk = true → e.places ≠ [] → s.errs = [] →
    let rsz := hRsz (e.rd 0)
    let fmt := fldN e.ctl 62 2
    let esz := if fmt = 1 ∨ fmt = 2 then 2 else 4
    ∀ idx, Tab.get none e.idx e.resume = some idx →
    let p := placeAt e.places (((e.rx e.xa).toNat + idx * rsz) % 2 ^ 64) (e.sub * esz)
    idx < fldN e.ctl 32 30 → gate s p = .go →
    let v := ofLe (readRec s c (hBase (e.rd 0)) rsz e.resume (e.sub * esz) esz)
    let w := countHome s (dieOf c) p
    let old := w.readPhys p.pkg false p.pa esz
    ∃ t, exec (.scatterAddAtHome c i) s = .next t ∧
      readsBack w t p.pkg false p.pa (leBytes esz (if fmt = 3 then (old + v) % 2 ^ 32 else fadd (tableFmt fmt) 0 old v)) ∧
      (∀ q h pa, (h = true ∨ memKey q pa < memKey p.pkg p.pa ∨ memKey p.pkg p.pa + esz ≤ memKey q pa) →
        readByte t q h pa = readByte w q h pa)) ∧
  (∀ (s : State) (c i : Nat) (e : Entry), running s c i = some e → opOf e.word = 0x1F → subOf e.word = 1 → e.resume < e.count →
    e.tagOk = true → e.places ≠ [] → s.errs = [] →
    let rsz := hRsz (e.rd 0)
    let alg := fldN e.ctl 62 2
    let n := rsz / 4
    let rs := if alg = 0 then rsz else 2 * rsz
    ∀ idx, Tab.get none e.idx e.resume = some idx →
    let p := placeAt e.places (((e.rx e.xa).toNat + idx * rs) % 2 ^ 64) 0
    idx < fldN e.ctl 32 30 → gate s p = .go →
    let w := countHome s (dieOf c) p
    let rd := fun (k : Nat) => w.readPhys p.pkg false (p.pa + 4 * k) 4
    let g := fun (k : Nat) => recWord s c (hBase (e.rd 0)) rsz e.resume k
    let mu := fldN (e.rx (e.xa + 2)) 32 32
    let lr := fldN (e.rx (e.xa + 2)) 0 32
    let eps := fldN (e.rx (e.xa + 3)) 0 32
    let out := fun (k : Nat) => optimise alg mu lr eps (rd k) (if alg = 0 then 0 else rd (n + k)) (g k)
    ∃ t, exec (.rowUpdateAtHome c i) s = .next t ∧
      readsBack w t p.pkg false p.pa ((List.range n).flatMap (fun k => leBytes 4 (out k).1) ++
        (if alg = 0 then [] else (List.range n).flatMap (fun k => leBytes 4 (out k).2))) ∧
      (∀ q h pa, (h = true ∨ memKey q pa < memKey p.pkg p.pa ∨ memKey p.pkg p.pa + (if alg = 0 then 4 * n else 8 * n) ≤ memKey q pa) →
        readByte t q h pa = readByte w q h pa)) ∧ optimisesRight

/-- R22, R23, R278, R281, R282, R285, R287 to R289: translation and its events. An address beyond 2^55 raises 0x80; a TLB entry that lacks
the permission raises the code of R281; a walk that succeeds leaves an entry that covers the page, unless the leaf is never cached; a page
that passes its scan is not scanned again, one that fails is not mapped; a walk whose lock has gone waits no longer, and its result is that
of every miss that shares it; which of several reasons of R281 a fault names is the model's choice (log 72); an upcall is pushed when there
is room; the pager's answer makes its task ready. The homes count what translation units and pagers read (R271). -/
def Obligations.TranslationEvents : Prop :=
  (∀ (s : State) (c : Nat) (pops : List Nat) (va : Word) (kind : Nat),
    (fldN va 55 9 ≠ 0 → translate s c pops va kind = .fault 0x80 (kind * 2 ^ 16) s) ∧
    (∀ e, fldN va 55 9 = 0 → tlbHit (s.core c).tlb (va.toNat / 2 ^ 16) = some e →
      (permFault kind e.pte ≠ 0 → translate s c pops va kind = .fault (permFault kind e.pte) (kind * 2 ^ 16 + e.level) s) ∧
      (permFault kind e.pte = 0 → (va.toNat / 2 ^ 16 ∈ e.scanned ∨ (kind ≠ 3 ∧ kind ≠ 4)) →
        translate s c pops va kind = .ok (leafPlace (pkgOf c) e va.toNat) s) ∧
      (∀ u, permFault kind e.pte = 0 → va.toNat / 2 ^ 16 ∉ e.scanned → kind = 3 ∨ kind = 4 →
        let p := leafPlace (pkgOf c) e va.toNat
        gate s p = .go → serveReads s (dieOf c) (scanReads p) = (u, none) →
        (∀ off why, scanPage u p = some (off, why) → translate s c pops va kind = .fault 0x84 (off * 2 ^ 16 + why) u) ∧
        (scanPage u p = none → ∃ t, translate s c pops va kind = .ok p t)))) ∧
  (∀ pte : Word, permFault 0 pte = (if bit pte 60 = false then 0x82 else if fldN pte 56 2 = 3 then 0x85 else 0) ∧
    permFault 1 pte = (if bit pte 59 = false then 0x82 else if fldN pte 56 2 = 3 then 0x85 else 0) ∧
    permFault 3 pte = (if bit pte 58 = false then 0x82 else if fldN pte 61 2 = 3 then 0x83 else if fldN pte 56 2 = 3 then 0x85 else 0)) ∧
  (∀ (s : State) (c who : Nat) (pops : List Nat) (va : Word) (kind : Nat) (v : Walking) (r : WalkRes), fldN va 55 9 = 0 →
    let me := (who, va.toNat / 2 ^ 16)
    doneWalk s c [me] = some v → v.gives (va.toNat / 2 ^ 16) = some r →
    translateFor s c (some who) pops va kind =
      walkEnd (dropMisses s c (fun m => [me].contains m)) c (some who) pops v.page va.toNat kind r) ∧
  (∀ (s : State) (c who : Nat) (pops : List Nat) (va : Word) (kind : Nat) (t : State) (p : Place), fldN va 55 9 = 0 →
    (tlbHit (s.core c).tlb (va.toNat / 2 ^ 16)).isSome = true → doneWalk s c [(who, va.toNat / 2 ^ 16)] = none →
    translateFor s c (some who) pops va kind = .ok p t → (who, va.toNat / 2 ^ 16) ∉ (t.core c).misses) ∧
  (∀ (s : State) (c : Nat) (f : Nat × Nat → Bool), ∃ k, dropMisses s c f = s.setCore c k ∧
    k.misses = (s.core c).misses.filter (fun m => !f m) ∧ { k with misses := (s.core c).misses, walks := (s.core c).walks } = s.core c ∧
    ∀ w ∈ k.walks, (∀ m ∈ w.takers, f m = false) ∧ ∃ v ∈ (s.core c).walks, v.page = w.page ∧ v.res = w.res) ∧
  (∀ (s t : State) (c : Nat) (va : BitVec 64) (kind : BitVec 4) (p : Place), translate s c [] va kind.toNat = .ok p t →
    s.stopped (dieOf c) = false →
    exec (.tableWalk c va kind) s = .next t ∧ (bit p.pte 53 = false → (tlbHit (t.core c).tlb (va.toNat / 2 ^ 16)).isSome = true) ∧
      ((∀ d, bit (s.die d).hotq 0 = false) → sameMemory s t)) ∧
  (∀ (s u : State) (c : Nat) (va : BitVec 64) (e : TlbE), tlbHit (s.core c).tlb (va.toNat / 2 ^ 16) = some e → 2 ≤ eKind e.pte →
    let page := va.toNat / 2 ^ 16
    let p := leafPlace (pkgOf c) e va.toNat
    page ∉ e.scanned → s.stopped (dieOf c) = false → gate s p = .go → serveReads s (dieOf c) (scanReads p) = (u, none) →
    (scanPage u p = none → (e.level ≠ 1 ∨ bit e.pte 53 = false) →
      ∃ t, exec (.pageScan c va) s = .next t ∧ tlbHit (t.core c).tlb page = some { e with scanned := page :: e.scanned }) ∧
    (∀ r, scanPage u p = some r → exec (.pageScan c va) s = .next u)) ∧
  (∀ (s u : State) (c n : Nat) (v : Walking), (s.core c).walks[n]? = some v → v.res = none → s.stopped (dieOf c) = false →
    let w := walk s (dieOf c) v.page []
    serveReads s (dieOf c) w.reads = (u, none) →
    ∃ t, exec (.migrationLockReread c n) s = .next t ∧
      (∀ level, w.res = .lock level → (t.core c).walks = (s.core c).walks.set n { v with level := level }) ∧
      ((∀ level, w.res ≠ .lock level) →
        (v.takers = [] → (t.core c).walks = (s.core c).walks.eraseIdx n) ∧
        (v.takers ≠ [] → (t.core c).walks = (s.core c).walks.set n { v with res := some w.res }))) ∧
  (∀ (s t : State) (d n q : Nat) (u : Upcall), (s.die d).upcalls[n]? = some u → u.pushed = false → s.errs = [] →
    let y := countHome s d (regionPlace s d u.region)
    regionQueue y d u.region = some q →
    let w := countHome y d (queuePlaceOf d q)
    qOk w (pkgOfDie d) q = true →
    (qPush w (pkgOfDie d) q (u.fields.map BitVec.toNat) = (t, true) →
      ∃ v, exec (.upcallRetry d n) s = .next v ∧ v.mem = t.mem ∧ ∀ w ∈ (v.die d).upcalls, w.ticket = u.ticket → w.pushed = true) ∧
    (qPush w (pkgOfDie d) q (u.fields.map BitVec.toNat) = (t, false) → exec (.upcallRetry d n) s = .next t)) ∧
  (∀ (s t : State) (d : Nat) (r : List Nat), bit (s.die d).resq 0 = true → s.errs = [] →
    let q := fldN (s.die d).resq 8 36 * 2 ^ 8
    let w := countHome s d (queuePlaceOf d q)
    qOk w (pkgOfDie d) q = true → qPop w (pkgOfDie d) q = (t, some r) →
    let k := r.getD 0 0 + 2 ^ 32 * r.getD 1 0
    ∃ v, exec (.pagerAnswer d) s = .next v ∧
      (v.pkg (pkgOfDie d)).saved = (t.pkg (pkgOfDie d)).saved.map (fun w =>
        if w.core / 128 = d ∧ w.ticket = some k then
          { w with ticket := none, fail := if r.getD 2 0 = 0 then none else some (r.getD 3 0), ready := true }
        else w) ∧
      ∀ u ∈ (v.die d).upcalls, u.ticket ≠ k)

/-! ## Dispatch -/

/-- R362 to R366, R378, R390: the launch ring. An accepted doorbell moves TAIL; a LOAD that passes its checks loads the package and its
microcode, a RUN makes its graph run, an UNLOAD of an unused package frees its handle, a forced one has the tasks in its code saved first;
each takes its record, and a refused record, an UNLOAD or a RUN of a PH that is not loaded among them, ends with ST 2 and its fault logged;
the completion record is written whole, with vector 5, or its loss is logged with fault 0xB6; what it writes beyond the installed memory is
lost (log 4). The model chose that a forced unload's first step leaves HEAD and the package (log 26), the die and the DETAIL of the faults
that are logged (log 27), and that vector 5 is raised in the record's own step (log 44). -/
def Obligations.LaunchRing : Prop :=
  (∀ (s : State) (p : Nat) (v : BitVec 32), hostReaches s (p * 4) → bit (s.pkg p).lq 63 = true → bit (s.pkg p).sresn 3 = false →
    let k := s.pkg p
    let diff := fun (t : Nat) => (t + 2 ^ 32 - lqHead k) % 2 ^ 32
    (diff v.toNat ≤ lqSize k.lq → diff (lqTail k) ≤ diff v.toNat →
      ∃ t, exec (.lqpTailWrite p v) s = .next t ∧ lqTail (t.pkg p) = v.toNat ∧ lqHead (t.pkg p) = lqHead k) ∧
    (¬ (diff v.toNat ≤ lqSize k.lq ∧ diff (lqTail k) ≤ diff v.toNat) →
      ∃ t, exec (.lqpTailWrite p v) s = .next t ∧ bit (t.pkg p).lq 62 = true ∧ (t.pkg p).lqp = k.lqp)) ∧
  (∀ (s v : State) (p : Nat) (r : List Word), nextRecord s p = some r → s.errs = [] → doneWaits s p (lrCaddr r) = false →
    gate s (ringPlace s p) = .go →
    let w := countHome s (p * 4) (ringPlace s p)
    let u := examine w p
    (∀ l ws, lrKind r = 1 → lrBad r = none → checkLoad w p (lrPh r) (r.getD 1 0).toNat = (.ok (l, ws), v) →
      ∃ t, exec (.loadRecord p) s = .next t ∧ Tab.get none (t.pkg p).loaded (lrPh r) = some { l with id := (v.pkg p).loads } ∧
        lqHead (t.pkg p) = (lqHead (v.pkg p) + 1) % 2 ^ 32 ∧
        ∀ c j, c / 512 = p → j < l.ulen → Tab.get 0 (t.core c).ca.store (l.ubase + j) =
          BitVec.ofNat 512 (((List.range 8).map (fun n => (ws.getD (8 * j + n) 0).toNat * 2 ^ (64 * n))).foldl (· + ·) 0)) ∧
    (∀ code detail, lrKind r = 1 → lrBad r = none → checkLoad w p (lrPh r) (r.getD 1 0).toNat = (.bad code detail, v) →
      exec (.loadRecord p) s = .next (refuseRecord v p r code detail)) ∧
    (∀ l, lrKind r = 3 → lrBad r = none → Tab.get none (w.pkg p).loaded (lrPh r) = some l →
      (checkRun w p r l = (.ok (), v) →
        ∃ t, exec (.runRecord p) s = .next t ∧ runOf t p (v.pkg p).nextRun = some (newRun r l (v.pkg p).nextRun) ∧
          lqHead (t.pkg p) = (lqHead (v.pkg p) + 1) % 2 ^ 32 ∧ sameMemory v t) ∧
      (∀ code detail, checkRun w p r l = (.bad code detail, v) → exec (.runRecord p) s = .next (refuseRecord v p r code detail)) ∧
      (fldN (r.getD 4 0) 0 32 < l.nframe → checkRun w p r l = (.bad 0xB5 4, w))) ∧
    (∀ l, lrKind r = 2 → lrBad r = none → Tab.get none (w.pkg p).loaded (lrPh r) = some l → bit (r.getD 0 0) 57 = false →
      (∀ k ∈ (w.pkg p).saved, savedWaits w k = false) →
      ((∀ q ∈ Tab.members (u.pkg p).runs, q.2.l.id ≠ l.id) → (∀ x ∈ placed u p, inCode l (u.ctx x).pc = false) →
        (∀ k ∈ (u.pkg p).saved, savedIn u l k = false) →
        ∃ t, exec (.unloadRecord p) s = .next t ∧ Tab.get none (t.pkg p).loaded (lrPh r) = none ∧
          lqHead (t.pkg p) = (lqHead (u.pkg p) + 1) % 2 ^ 32) ∧
      ((∃ x ∈ placed u p, inCode l (u.ctx x).pc = true) →
        exec (.unloadRecord p) s = .next (refuseRecord u p r 0xB7 (lrPh r)))) ∧
    (∀ l x, lrKind r = 2 → lrBad r = none → Tab.get none (w.pkg p).loaded (lrPh r) = some l → bit (r.getD 0 0) 57 = true →
      x ∈ placed w p → unloadTakes w p l x = true → (w.ctx x).kill = none →
      ∃ t, exec (.unloadRecord p) s = .next t ∧ (t.ctx x).save.isSome = true ∧ (t.pkg p).unloading = some (lrPh r) ∧
        lqHead (t.pkg p) = lqHead (w.pkg p) ∧ Tab.get none (t.pkg p).loaded (lrPh r) = some l ∧
        ∀ n q, runOf w p n = some q → q.l.id = l.id → q.failed = none → ∃ q', runOf t p n = some q' ∧ q'.stopped = true) ∧
    (lrBad r = none → Tab.get none (w.pkg p).loaded (lrPh r) = none →
      (lrKind r = 2 → exec (.unloadRecord p) s = .next (refuseRecord w p r 0xB5 (40 * 2 ^ 8))) ∧
      (lrKind r = 3 → exec (.runRecord p) s = .next (refuseRecord w p r 0xB5 (40 * 2 ^ 8)))) ∧
    (∀ detail, lrBad r = some detail →
      (lrKind r = 2 → exec (.unloadRecord p) s = .next (refuseRecord w p r 0xB5 detail)) ∧
      (lrKind r = 3 → exec (.runRecord p) s = .next (refuseRecord w p r 0xB5 detail)) ∧
      (lrKind r ≠ 2 → lrKind r ≠ 3 → exec (.loadRecord p) s = .next (refuseRecord w p r 0xB5 detail))) ∧
    (∀ code detail, ∃ f, refuseRecord w p r code detail =
      writeDone (logRec (takeRecord w p) (p * 4) f) p (lrCaddr r) 2 code (lrPh r) (lrTag r) 0 0 none ∧
      f.code = code % 256 ∧ f.w2 = BitVec.ofNat 64 detail)) ∧
  (∀ (s u : State) (p caddr st code ph tag tasks iters : Nat) (f : Option Rec),
    let t := writeDone s p caddr st code ph tag tasks iters f
    (∀ q, caddr % 64 = 0 → translateDie s (p * 4) (BitVec.ofNat 64 caddr) 1 = (.ok q, u) →
      let y := countHome u (p * 4) q
      readsBack y t q.pkg (q.pl = 2) q.pa (leBytes 8 (2 ^ 63 + st * 2 ^ 60 + code * 2 ^ 52 + ph * 2 ^ 40 + tag) ++
        leBytes 8 (min tasks 0xFFFFFFFF) ++ leBytes 8 (min iters 0xFFFFFFFF) ++ leBytes 8 0 ++ (f.getD Rec.zero).bytes) ∧
      (∀ k o a, (o ≠ decide (q.pl = 2) ∨ placeKey o k a < placeKey o q.pkg q.pa ∨ placeKey o q.pkg q.pa + 64 ≤ placeKey o k a) →
        readByte t k o a = readByte y k o a) ∧
      (t.pkg p).vectors = (u.pkg p).vectors ++ [5]) ∧
    (caddr % 64 ≠ 0 → t = logRec s (p * 4) (mkRecDie s (p * 4) ⟨0xB6, 1, caddr, 2 ^ 12, 0⟩)) ∧
    (∀ c a, caddr % 64 = 0 → translateDie s (p * 4) (BitVec.ofNat 64 caddr) 1 = (.bad c a, u) →
      t = logRec u (p * 4) (mkRecDie u (p * 4) ⟨0xB6, 1, caddr, 2 ^ 12, 0⟩)))

/-- R51 to R57, R80 to R83, R145, R146, R170, R369, R371, R372, R374 to R376: tasks. A ready instance is placed on an idle context with the
reset values, its windows, PC, frame and EXITVA in x31, and a frame that holds no saved state; the zero fill writes zeros; a task that
waits at EXITVA, or was killed, ends: its stalls and its frame block are free and its context is idle; a placed task goes into its frame,
field by field, and a saved one comes back as its frame holds it, after its old core, which may not be frozen, has left its tiles, or is
killed for a reserved value; a failed answer that it has not met stays; a quantum or a higher PRIO requests the save, for a task that no
idle context can take (log 96). What a save waits for in a handler is log 67, whose bundle the frame's is log 66; the fill is complete at
the latest with the save (log 12). That 0xB3 names the lowest offending offset and that a task is placed only to be killed is log 29, that
the bundle of a GWAIT or of an arrived BAR is saved is log 15, the predicates of a saved bundle are log 68, a GSEAL that a save takes along
is log 78, and what a write beyond the installed memory leaves is log 4: the model's choices. -/
def Obligations.Tasks : Prop :=
  (∀ (s a b u : State) (p run node : Nat) (wid : BitVec 64) (x blk : Nat) (r : Run), runOf s p run = some r → nType r.l node = 0 →
    r.ready node wid.toNat = true → pkgOfCtx x = p → idle s x = true → affinity r node wid.toNat (coreOf x) = true →
    blk < r.nfpool → blk ∉ r.blocks → firstWant s p ⟨3 - r.prio, r.order, node, wid.toNat⟩ = true →
    let f := r.fpool + 2 ^ 17 * blk
    writeRange s (dieOfCtx x) f (leBytes 8 (2 ^ 56)) = (.ok (), a) →
    writeRange a (dieOfCtx x) (f + 0x3D0) (List.replicate 48 0) = (.ok (), b) →
    writeRange b (dieOfCtx x) (f + 0x400) (leBytes 8 0) = (.ok (), u) →
    ∃ t k, exec (.taskPlacement p run node wid x blk) s = .next t ∧ sameMemory u t ∧ (t.ctx x).task = some k ∧
      k.run = run ∧ k.node = node ∧ k.wid = wid ∧ k.prio = r.prio ∧ k.blk = blk ∧ k.acc = nAcc r.l node ∧ k.load = r.l.id ∧ k.zeroed = false ∧
      (t.ctx x).pc = (r.l.pkgva + r.l.codeoff + nEntry r.l node) % 2 ^ 55 ∧ (t.ctx x).wid = wid ∧ (t.ctx x).rx 31 = exitVa ∧
      (∀ n, n ≠ 31 → (t.ctx x).rx n = 0) ∧ (∀ n, (t.ctx x).rh n = 0) ∧ (∀ n < 12, rpred (t.ctx x).g n = decide (n = 0)) ∧
      (t.ctx x).frame.toNat = f % 2 ^ 55 ∧ (t.ctx x).w = windowsOf r node wid.toNat ∧ (t.ctx x).t = false ∧ (t.ctx x).tvec = 0 ∧
      (t.ctx x).epc = 0 ∧ (t.ctx x).ldpstk = 0 ∧ (t.ctx x).gixstk = 0 ∧ (t.ctx x).rb = none ∧ (t.ctx x).reissue = false ∧
      (t.ctx x).issue = none ∧ (t.ctx x).pend = none ∧ (t.ctx x).lease = 0 ∧ (t.ctx x).save = none ∧ (t.ctx x).kill = none ∧
      (t.core (coreOf x)).dc = []) ∧
  (∀ (s a b : State) (x : Nat) (k : Task), (s.ctx x).task = some k → k.zeroed = false →
    let f := (s.ctx x).frame.toNat
    f % 2 ^ 16 = 0 → areaWaits s (coreOf x) f = false →
    writeRange s (dieOfCtx x) (f + 0x1000) (List.replicate 0xF000 0) = (.ok (), a) →
    writeRange a (dieOfCtx x) (f + 0x1000 + 0xF000) (List.replicate 0x1000 0) = (.ok (), b) →
    ∃ t, exec (.saveAreaFillDone x) s = .next t ∧ (t.ctx x).task = some { k with zeroed := true } ∧ sameMemory b t) ∧
  (∀ (s u : State) (d va : Nat) (bs : List Byte) (q : Place), 0 < bs.length → va % 2 ^ 16 + bs.length ≤ 2 ^ 16 →
    translateDie s d (BitVec.ofNat 64 va) 1 = (.ok q, u) →
    let y := (lineCuts q bs.length).foldl (fun s r => countHome s d r.1) u
    ∃ t, writeRange s d va bs = (.ok (), t) ∧ readsBack y t q.pkg (q.pl = 2) q.pa bs ∧
      ∀ k o a, (o ≠ decide (q.pl = 2) ∨ placeKey o k a < placeKey o q.pkg q.pa ∨ placeKey o q.pkg q.pa + bs.length ≤ placeKey o k a) →
        readByte t k o a = readByte y k o a) ∧
  (∀ (s : State) (x : Nat) (k : Task), s.stopped (dieOfCtx x) = false → (s.ctx x).task = some k → quiet s x = true → entriesOf s x = [] →
    let p := pkgOfCtx x
    let bases := (((s.ctx x).h.map (fun h => h.2)).filter hV).map hBase
    let ends := fun (t : State) (fault : Option Rec) => t.ctx x = Ctx.reset ∧
      (t.core (coreOf x)).stalls = (s.core (coreOf x)).stalls.filter (fun v => !bases.contains v.base) ∧
      ∀ r, runOf s p k.run = some r → ∃ q, runOf t p k.run = some q ∧ q.blocks = r.blocks.filter (· ≠ k.blk) ∧
        q.tasks = r.tasks + 1 ∧ k.wid.toNat ∈ (q.node k.node).done ∧ k.wid.toNat ∉ (q.node k.node).live ∧
        q.failed = r.failed.or fault
    (∀ is, (s.ctx x).kill = none → (s.ctx x).issue = some is → is.exit = true →
      ((s.ctx x).pend = none → ∃ t, exec (.taskEnd x) s = .next t ∧ ends t none) ∧
      (∀ r, (s.ctx x).pend = some r → frameWaits s x = false → (s.ctx x).t = false → ∃ t, exec (.taskEnd x) s = .next t ∧
        (t.ctx x).task = some k ∧ (t.ctx x).pend = none ∧
        (fldN (s.ctx x).tvec 7 48 = 0 → (t.ctx x).kill = some r) ∧
        (fldN (s.ctx x).tvec 7 48 ≠ 0 → (t.ctx x).rb = some { is with exit := false } ∧ (t.ctx x).t = true ∧
          (t.ctx x).pc = fldN (s.ctx x).tvec 7 48 * 128 + 8 ∧ (t.ctx x).epc = BitVec.ofNat 64 (is.addr % 2 ^ 55)))) ∧
    (∀ f, (s.ctx x).kill = some f → ∃ t, exec (.taskEnd x) s = .next t ∧ ends t (some f))) ∧
  (∀ (s : State) (x : Nat) (k : Task) (why : SaveWhy) (rb : Option Issue), s.stopped (dieOfCtx x) = false → (s.ctx x).task = some k →
    (s.ctx x).save = some why →
    (s.ctx x).kill = none → ¬ (why = .preempt ∧ ∃ is, (s.ctx x).issue = some is ∧ is.exit = true) → saveBundle (s.ctx x) = some rb →
    let u := dropGwait s x
    let lu := liftSeals u x
    let es := orderedEntries lu x
    saveReady lu x = true → saveWaits u x k = false →
    ∃ t v, exec (.taskSave x) s = .next t ∧ t.ctx x = Ctx.reset ∧ entriesOf t x = [] ∧
      (t.pkg (pkgOfCtx x)).saved = (s.pkg (pkgOfCtx x)).saved ++ [v] ∧ v.task = { k with zeroed := true } ∧
      v.frame = (s.ctx x).frame.toNat ∧ v.core = coreOf x ∧ v.ents = es.map (·.2) ∧
      v.bg = rb.map (·.g) ∧ v.seals = (heldSeals u x).map (·.2) ∧ v.unmet = (s.ctx x).pagerFail ∧
      (why = .preempt → v.ticket = none ∧ v.ready = true ∧
        sameMemory (writeSave (finishFill lu x k) x k (saveBytes (lu.ctx x) rb (es.map (·.2)))) t) ∧
      (∀ va kind node region level e, why = .fault va kind node region level e →
        v.ticket.isSome = true ∧ v.ready = false ∧ v.failVa = va ∧ v.failKind = kind)) ∧
  (∀ (c : Ctx) (rb : Option Issue) (es : List Entry),
    let rd := Pieces.rd (saveBytes c rb es)
    rd 0 8 = 2 ^ 56 + 1 ∧ rd 8 8 = c.pc % 2 ^ 55 ∧ rd 0x10 8 = (c.g ||| 1).toNat ∧
    (∀ n < 32, rd (0x20 + 8 * n) 8 = (c.rx n).toNat ∧ rd (0x120 + 8 * n) 8 = (c.rh n).toNat) ∧
    (∀ n < 8, rd (0x220 + 16 * n) 16 = (Tab.get (0 : Quad) c.w n).toNat) ∧
    rd 0x2A0 8 = c.tvec.toNat ∧ rd 0x2A8 8 = c.epc.toNat ∧ rd 0x2B0 8 = (cstatOf { c with rb := rb }).toNat ∧
    rd 0x2B8 8 = c.ldpstk.toNat ∧ rd 0x2C0 8 = c.gixstk.toNat ∧ rd 0x2C8 8 = c.wid.toNat ∧
    (rb = none → rd 0x2E0 8 = 0) ∧
    (∀ is, rb = some is → rd 0x2E0 8 = 2 ^ 8 + is.occ.toNat * 16 + is.perf.toNat ∧
      ∀ i < 4, rd (0x2E8 + 4 * i) 4 = (is.words.getD i 0).toNat) ∧
    rd 0x3B0 8 = (c.pend.getD Rec.zero).w0.toNat ∧ rd 0x3B8 8 = (c.pend.getD Rec.zero).w1.toNat ∧
    rd 0x3C0 8 = (c.pend.getD Rec.zero).w2.toNat ∧ rd 0x3C8 8 = (c.pend.getD Rec.zero).w3.toNat ∧
    (es.length ≤ 32 → rd 0x400 8 = es.length) ∧
    (∀ j e, es[j]? = some e → rd (0x440 + 64 * j) 8 = e.word.toNat ∧ rd (0x440 + 64 * j + 0x28) 8 = e.resume % 2 ^ 64 ∧
      rd (0x440 + 64 * j + 0x30) 8 = b2n e.isHeld)) ∧
  (∀ (s u : State) (p n x : Nat) (v : Saved) (ps : Pieces), (s.pkg p).saved[n]? = some v → pkgOfCtx x = p → idle s x = true →
    mayRestore s p v (coreOf x) = true → sbRoomFor s x v.ents.length = true → firstWant s p (savedWant s p v) = true →
    restoreWaits s (dieOfCtx x) (coreOf x) v = false →
    readFrame (leaveTiles s v (coreOf x)) (dieOfCtx x) v.frame = (.ok ps, u) →
    ∃ t, exec (.taskRestore p n x) s = .next t ∧ (t.pkg p).saved = (u.pkg p).saved.eraseIdx n ∧
      ((t.ctx x).task.map (fun k => (k.run, k.node, k.wid))) = some (v.task.run, v.task.node, v.task.wid) ∧
      ((ps.rd 0 1).testBit 1 = true → ∃ f, (t.ctx x).kill = some f ∧ f.code = 0xB4) ∧
      (∀ off, (ps.rd 0 1).testBit 1 = false → frameBad ps = some off → ∃ f, (t.ctx x).kill = some f ∧ f.code = 0xB3 ∧
        f.w2 = BitVec.ofNat 64 off) ∧
      ((ps.rd 0 1).testBit 1 = false → frameBad ps = none → let c := t.ctx x
        c.kill = none ∧ c.pagerFail = v.unmet ++ (if v.failEnt.isSome = true then [] else
          (v.fail.map (fun w => (⟨w, v.failVa, v.failKind, c.reissue⟩ : PagerFail))).toList) ∧
        c.frame = BitVec.ofNat 64 v.frame ∧ c.pc = ps.rd 8 8 % 2 ^ 55 ∧ c.g = BitVec.ofNat 12 (ps.rd 0x10 8) ∧
        (∀ i, 0 < i → i < 32 → c.rx i = BitVec.ofNat 64 (ps.rd (0x20 + 8 * i) 8)) ∧
        (∀ i < 32, c.rh i = BitVec.ofNat 64 (ps.rd (0x120 + 8 * i) 8)) ∧
        (∀ i < 8, Tab.get 0 c.w i = BitVec.ofNat 128 (ps.rd (0x220 + 16 * i) 16)) ∧
        c.tvec = BitVec.ofNat 64 (ps.rd 0x2A0 8) ∧ c.epc = BitVec.ofNat 64 (ps.rd 0x2A8 8) ∧ c.t = decide (ps.rd 0x2B0 8 % 2 = 1) ∧
        c.ldpstk = BitVec.ofNat 64 (ps.rd 0x2B8 8) ∧ c.gixstk = BitVec.ofNat 64 (ps.rd 0x2C0 8) ∧
        c.wid = BitVec.ofNat 64 (ps.rd 0x2C8 8) ∧ c.rb.isSome = decide (ps.rd 0x2E0 8 / 2 ^ 8 % 2 = 1) ∧
        c.reissue = (c.rb.isSome && (!c.t || v.own)) ∧ c.rb.map (·.g) = c.rb.map (fun _ => v.bg.getD c.g) ∧
        ∀ q ∈ v.seals, ∃ m k, Tab.get none t.pkts m = some k ∧ k.group = q.1 ∧ k.kind = .seal (coreOf x) q.2.1 x q.2.2 none)) ∧
  (∀ (s : State) (p n x : Nat) (v : Saved), (s.pkg p).saved[n]? = some v →
    (coreOf x = v.core → leaveTiles s v (coreOf x) = s) ∧
    (coreOf x ≠ v.core → s.stopped (dieOf v.core) = true → exec (.taskRestore p n x) s = .next s) ∧
    (coreOf x ≠ v.core → v.frame ≠ 0 → (∀ t < 8, ¬ (((s.core v.core).ca.tile t).v = true ∧ ((s.core v.core).ca.tile t).d = true)) →
      sameMemory s (leaveTiles s v (coreOf x)) ∧
      ∀ t < 8, let a := (s.core v.core).ca.tile t
        let b := ((leaveTiles s v (coreOf x)).core v.core).ca.tile t
        if a.own = ownOf v.frame then b.v = false ∧ b.d = false ∧ b.own = 0 else b = a)) ∧
  (∀ (s : State) (x : Nat) (k : Task), (s.ctx x).task = some k → (s.ctx x).kill = none → (s.ctx x).save = none →
    let q := fldN (s.die (dieOfCtx x)).dquant 0 32
    let p := pkgOfCtx x
    let asks := fun (i : Instr) => exec i s = .next (s.modCtx x (fun c => { c with save := some .preempt }))
    let taken := fun (w : Want) => ∃ y ∈ ctxsOf p, idle s y = true ∧ w ∈ readyWants s p (coreOf y)
    let above := fun (w : Want) (y : Nat) (j : Task) =>
      y ∈ ctxsOf p ∧ (s.ctx y).task = some j ∧ w.low < 3 - j.prio ∧ w ∈ readyWants s p (coreOf y)
    (q ≠ 0 → q * 1024 ≤ s.cycles p - k.start → (∃ w ∈ wants s p (coreOf x), w.low = 3 - k.prio ∧ ¬ taken w) → asks (.quantumExpiry x)) ∧
    ((∀ w ∈ wants s p (coreOf x), w.low = 3 - k.prio → taken w) → exec (.quantumExpiry x) s = .next s) ∧
    (∀ w, ¬ taken w → above w x k → (∀ y j, above w y j → y = x ∨ j.prio > k.prio ∨ (j.prio = k.prio ∧ j.since < k.since)) →
      asks (.priorityPreemption x)) ∧
    ((∀ w, above w x k → taken w) → exec (.priorityPreemption x) s = .next s) ∧
    (∀ run r c n wid, runOf s p run = some r → nType r.l n = 0 → r.ready n wid = true → affinity r n wid c = true →
      let w : Want := ⟨3 - r.prio, r.order, n, wid⟩
      w ∈ readyWants s p c ∧ (r.blocks.length < r.nfpool → w ∈ wants s p c)))

/-- R366, R368 to R370, R374: what of a graph may start, the nodes that are no tasks, and its completion. An edge is resolved for an
instance when every instance of its source in its level set is complete, and skipped by its source; a node whose incoming edges are all
skipped is skipped whole; an instance is ready when each of its edges is resolved or skipped, and starts when nothing before it could. A
copy node moves its bytes, an event node stores its word, a conditional node reads its predicate, a loop node counts a run of its body and
arms it again or completes; an argument or data that cannot be accessed, and a copy of 2^32 bytes or more, fail the graph with fault 0xB6;
a graph that is over is completed with its record. Where the two ranges of a copy meet, the bytes of both are free (log 8). -/
def Obligations.GraphNodes : Prop :=
  (∀ (r : Run) (e wid m : Nat), eSource r.l e = some m →
    (r.edgeSkipped e = true ↔ (r.node m).skip = true ∨ (nType r.l m = 3 ∧ r.complete m = true ∧
      ((eBr r.l e = 1 ∧ (r.node m).pred = false) ∨ (eBr r.l e = 2 ∧ (r.node m).pred = true)))) ∧
    ((r.node m).done.Nodup → (∀ w ∈ (r.node m).done, w ∈ instances r.l m) →
      (r.edgeResolved e wid = true ↔ ∀ w ∈ instances r.l m, agree r.l (eLevel r.l e) wid w = true → w ∈ (r.node m).done))) ∧
  (∀ (r : Run) (n wid : Nat),
    (r.ready n wid = true ↔ r.failed = none ∧ r.stopped = false ∧ n < r.l.nodes.length ∧ (r.node n).skip = false ∧
      wid ∈ instances r.l n ∧ wid ∉ (r.node n).live ∧ wid ∉ (r.node n).done ∧
      (∀ e ∈ incoming r.l n, r.edgeSkipped e = true ∨ r.edgeResolved e wid = true) ∧
      (nType r.l n = 4 → ∀ m < r.l.nodes.length, inBody r.l n m = true → (r.node m).skip = true ∨ r.complete m = true))) ∧
  (∀ (s : State) (p : Nat) (w : Want), firstWant s p w = true ↔ (∀ v ∈ nodeWants s p, v.before w = false) ∧
    ∀ c, c / 512 = p → (∃ x, coreOf x = c ∧ idle s x = true) → ∀ v ∈ wantsNow s p c, v.before w = false) ∧
  (∀ a b : Want, a.before b = true ↔ a.low < b.low ∨ (a.low = b.low ∧ (a.order < b.order ∨ (a.order = b.order ∧
    (a.node < b.node ∨ (a.node = b.node ∧ a.wid < b.wid)))))) ∧
  (∀ (s a b c d u : State) (p run n : Nat) (r : Run),
    let settled := fun (q : Run) => ∀ m < q.l.nodes.length, incoming q.l m ≠ [] → (∀ e ∈ incoming q.l m, q.edgeSkipped e = true) →
      (q.node m).skip = true
    let isDone := fun (t : State) => ∃ q, runOf t p run = some q ∧ (q.node n).done = [0] ∧ settled q
    let fails := fun (i : Instr) (w : State) (va : Nat) => exec i s = .next (failAccess w p run (p * 4) n va)
    (∀ ty, (readyNode s p run n ty = some r ↔
        runOf s p run = some r ∧ nType r.l n = ty ∧ r.ready n 0 = true ∧ firstWant s p ⟨3 - r.prio, r.order, n, 0⟩ = true)) ∧
    ((readyNode s p run n 1 = none → exec (.copyNode p run n) s = .next s) ∧
      (readyNode s p run n 2 = none → exec (.eventNode p run n) s = .next s) ∧
      (readyNode s p run n 3 = none → exec (.conditionalNode p run n) s = .next s) ∧
      (readyNode s p run n 4 = none → exec (.loopNode p run n) s = .next s)) ∧
    (∀ src dst len bs, readyNode s p run n 1 = some r → argWord s p r n 0 = (.ok src, a) → argWord a p r n 1 = (.ok dst, b) →
      (∀ e va, argWord b p r n 2 = (.bad e va, c) → fails (.copyNode p run n) c va) ∧
      (argWord b p r n 2 = (.ok len, c) →
        (2 ^ 32 ≤ len → fails (.copyNode p run n) c ((r.args + nAoff r.l n + 16) % 2 ^ 64)) ∧
        (∀ e va, len < 2 ^ 32 → readRange c (p * 4) src len = (.bad e va, d) → fails (.copyNode p run n) d va) ∧
        (len < 2 ^ 32 → readRange c (p * 4) src len = (.ok bs, d) →
          (∀ e va, writeRange d (p * 4) dst (copyBytes d src dst len bs) = (.bad e va, u) → fails (.copyNode p run n) u va) ∧
          (writeRange d (p * 4) dst (copyBytes d src dst len bs) = (.ok (), u) →
            ∃ t, exec (.copyNode p run n) s = .next t ∧ sameMemory u t ∧ isDone t)))) ∧
    (∀ src e va, readyNode s p run n 1 = some r → argWord s p r n 0 = (.ok src, a) → argWord a p r n 1 = (.bad e va, b) →
      fails (.copyNode p run n) b va) ∧
    (∀ ea v, readyNode s p run n 2 = some r → argWord s p r n 0 = (.ok ea, a) →
      (∀ e va, argWord a p r n 1 = (.bad e va, b) → fails (.eventNode p run n) b va) ∧
      (argWord a p r n 1 = (.ok v, b) →
        (ea % 8 = 0 → writeRange b (p * 4) ea (leBytes 8 v) = (.ok (), u) →
          ∃ t, exec (.eventNode p run n) s = .next t ∧ sameMemory u t ∧ isDone t) ∧
        (∀ e va, ea % 8 = 0 → writeRange b (p * 4) ea (leBytes 8 v) = (.bad e va, u) → fails (.eventNode p run n) u va) ∧
        (ea % 8 ≠ 0 → fails (.eventNode p run n) b ea))) ∧
    (∀ v, readyNode s p run n 3 = some r → argWord s p r n 0 = (.ok v, a) →
      ∃ t q, exec (.conditionalNode p run n) s = .next t ∧ sameMemory a t ∧ runOf t p run = some q ∧
        (q.node n).done = [0] ∧ (q.node n).pred = decide (v ≠ 0) ∧ settled q) ∧
    (∀ v, readyNode s p run n 4 = some r → argWord s p r n 0 = (.ok v, a) → inBody r.l n n = false →
      ∃ t q, exec (.loopNode p run n) s = .next t ∧ sameMemory a t ∧ runOf t p run = some q ∧ q.iters = r.iters + 1 ∧ settled q ∧
        (v ≠ 0 → (r.node n).loops + 1 < loopMax r.l n → (q.node n).loops = (r.node n).loops + 1 ∧
          (q.node n).done = (r.node n).done ∧ q.maxit = r.maxit ∧
          ∀ m < r.l.nodes.length, (inBody r.l n m = true → (q.node m).done = [] ∧ (q.node m).live = [] ∧ (q.node m).homes = [] ∧
              (q.node m).loops = 0 ∧ (q.node m).pred = false) ∧
            (inBody r.l n m = false → m ≠ n → (q.node m).done = (r.node m).done ∧ (q.node m).live = (r.node m).live)) ∧
        (¬ (v ≠ 0 ∧ (r.node n).loops + 1 < loopMax r.l n) → (q.node n).done = [0] ∧ (q.node n).loops = 0 ∧
          q.maxit = (r.maxit || decide (v ≠ 0)))) ∧
    (∀ e va, argWord s p r n 0 = (.bad e va, a) →
      (readyNode s p run n 1 = some r → fails (.copyNode p run n) a va) ∧
      (readyNode s p run n 2 = some r → fails (.eventNode p run n) a va) ∧
      (readyNode s p run n 3 = some r → fails (.conditionalNode p run n) a va) ∧
      (readyNode s p run n 4 = some r → ∃ t q, exec (.loopNode p run n) s = .next t ∧ runOf t p run = some q ∧
        q.iters = r.iters + 1 ∧ q.failed.isSome = true))) ∧
  (∀ (s : State) (src dst n i : Nat) (bs : List Byte), i < n → n ≤ bs.length → ¬ (src ≤ dst + i ∧ dst + i < src + n) →
    (copyBytes s src dst n bs)[i]? = bs[i]?) ∧
  (∀ (s : State) (p run d node va : Nat) (r : Run), runOf s p run = some r → ∃ f q,
    runOf (failAccess s p run d node va) p run = some q ∧ q.failed = some (r.failed.getD f) ∧ f.code = 0xB6 ∧
      f.w1 = BitVec.ofNat 64 va ∧ f.w2 = BitVec.ofNat 64 node) ∧
  (∀ (s : State) (p run : Nat) (r : Run), runOf s p run = some r → r.over = true → doneWaits s p r.caddr = false →
    let st := if r.stopped = true then 4 else if r.failed.isSome = true then 1 else if r.maxit = true then 3 else 0
    exec (.graphComplete p run) s = .next (writeDone (setRun s p run none) p r.caddr st ((r.failed.map Rec.code).getD 0) r.ph r.tag
      r.tasks r.iters r.failed) ∧ runOf (setRun s p run none) p run = none)

/-! ## Host and service processor -/

/-- R5, R382 to R391: the host interface and the service processor. A register takes its writable fields and reads back, by aligned 8-byte
accesses only; BAR2 reads and writes device memory; in the safe state neither does. A start that passes leaves SRESN with its CAUSE and the
units at reset, one that fails names its step; keys, images, measurements and sensors; the clock falls by 100 MHz down to 0.9 GHz, and the
counters go on from where they stand; a thermal trip stops every core. Keys and SCTL messages need a secured session (log 69); which sensors
there are is log 24; the DETAIL of a machine check is log 8; what a start keeps, its counters at 0 and a failed step 4 that passes are log
16; the die that logs a failed die-to-die link is log 36; memory that is not installed keeps nothing (log 4): the model's choices. A tripped
package starts for the service port or a power cycle only, and while a die is held no watchdog orders a start (R310). -/
def Obligations.HostAndService : Prop :=
  (∀ (s : State) (d : Nat) (v : BitVec 64), hostReaches s d →
    (∀ r ∈ [(0x20, 0xFFFFFFFFFFFFFFFF), (0x1010, 0x80000FFFFFFFF800), (0x1018, 0x00000FFFFFFFFF01), (0x2000, 0x0000FFFF0000000F),
        (0x2008, 0x00000FFFFFFFFF01), (0x2010, 0x00000FFFFFFF0000), (0x3010, 0xFFFFFFFF), (0x3018, 0xFFFFFFFFFFFFFFFF),
        (0x4000, 0xFFFFFFFF), (0x5010, 0xFFFFFFFF)],
      ∃ t, exec (.registerWrite d ⟨r.1, 8⟩ v) s = .next t ∧ regRead t d r.1 8 = v &&& r.2) ∧
    (∃ t, exec (.registerWrite d ⟨0x2020, 8⟩ v) s = .next t ∧ regRead t d 0x2020 8 = (s.die d).hotdrop &&& ~~~v) ∧
    (∃ t, exec (.registerWrite d ⟨0x1000, 8⟩ v) s = .next t ∧ bit (regRead t d 0x1000 8) 63 = bit v 63 ∧
      fldN (regRead t d 0x1000 8) 16 28 = fldN v 16 28)) ∧
  (∀ (s : State) (d off n : Nat) (v : BitVec 64),
    (n ≠ 8 ∨ off % 8 ≠ 0 → exec (.registerWrite d ⟨off, n⟩ v) s = .next s ∧ regRead s d off n = 0) ∧
    ((s.pkg (pkgOfDie d)).safe = true → off ≠ 0x10 → exec (.registerWrite d ⟨off, n⟩ v) s = .next s ∧
      (d % 4 ≠ 0 ∨ 0x18 ≤ off → regRead s d off n = 0)) ∧
    runTurn (.barRead d off n) s = .next (s.modPkg (pkgOfDie d) (fun k => { k with
      out := k.out ++ [leBytes n (regRead s d off n).toNat] }))) ∧
  (∀ (s : State) (p pa n : Nat) (wr : Bool) (data : BitVec 64), 0 < n → n ≤ 8 → pa + n ≤ 2 ^ 39 → (s.pkg p).safe = true →
    exec (.bar2Access p pa wr n data) s = .next (if wr then s else s.modPkg p (fun k => { k with
      out := k.out ++ [List.replicate n 0] }))) ∧
  (∀ (s : State) (p pa n : Nat) (data : BitVec 64), 0 < n → n ≤ 8 → pa + n ≤ 2 ^ 39 → (s.pkg p).safe = false →
    gate s ⟨p, pa, 0, 0, 0⟩ = .go →
    (∃ t, exec (.bar2Access p pa true n data) s = .next t ∧ readsBack s t p false pa (leBytes n data.toNat) ∧
      ∀ q h a, (h = true ∨ memKey q a < memKey p pa ∨ memKey p pa + n ≤ memKey q a) → readByte t q h a = readByte s q h a) ∧
    (s.errs = [] → exec (.bar2Access p pa false n data) s = .next (s.modPkg p (fun k => { k with
      out := k.out ++ [s.readBytes p false pa n] })))) ∧
  (∀ (s : State) (p : SvcCmd),
    (p.msg ≠ some false → ∃ t, exec (.sctlClrfail p) s = .next t ∧ (t.pkg p.pkg).fails = 0) ∧
    (p.msg = some true ∨ (p.msg = none ∧ (s.pkg p.pkg).thermal = false) → ∃ t, exec (.sctlRestart p) s = .next t ∧
      (t.pkg p.pkg).starting = some ((s.pkg p.pkg).starting.getD 2)) ∧
    (p.msg = none → (s.pkg p.pkg).thermal = true → exec (.sctlRestart p) s = .next s) ∧
    (p.msg = some false → exec (.sctlClrfail p) s = .next s ∧ exec (.sctlRestart p) s = .next s)) ∧
  (∀ (s : State) (p fail : Nat) (cause : BitVec 3) (code : BitVec 8) (sd : BitVec 4),
    let k := s.pkg p
    let c := if k.thermal = true then 4 else k.starting.getD cause.toNat
    let may := k.starting.isSome = true ∨ ((k.thermal = false ∨ cause = 0 ∨ cause = 2) ∧ ¬ (cause = 3 ∧ dhold s p = true))
    (¬ may → exec (.startUp p cause fail code sd) s = .next s) ∧
    (may → c ≤ 4 → fail ≤ 7 → ∃ t, exec (.startUp p cause fail code sd) s = .next t ∧ (∀ x, pkgOfCtx x = p → t.ctx x = Ctx.reset) ∧
      (∀ x, pkgOf x = p → t.core x = Core.reset) ∧ fldN (t.pkg p).sresn 0 3 = c ∧
      fldN (t.pkg p).sresn 24 8 = (if fail = 4 then 0 else fail) ∧
      fldN (t.pkg p).sresn 16 8 = (if fail = 4 ∨ fail = 0 then 0 else code.toNat) ∧
      (bit (t.pkg p).sresn 3 = true ↔ k.fails = 3) ∧ sameMemory s t ∧
      (fail ≠ 0 → fail ≠ 4 → (t.pkg p).fails = min 3 (k.fails + 1)) ∧
      (fail = 0 ∨ fail = 4 → (t.pkg p).fails = (if k.fails = 3 then 3 else 0)) ∧
      (t.pkg p).image = (if fail = 1 then k.image else k.staged.or k.image) ∧ (t.pkg p).staged = none ∧
      (t.pkg p).vectors = k.vectors ++ (if sresnOf (t.pkg p) = sresnOf k then [] else [6]) ∧
      (∀ d, pkgOfDie d = p → t.tickOf d = 0))) ∧
  (∀ (s : State) (p : SvcCmd) (port : Nat) (dir : Bool) (key : BitVec 128),
    (port < 16 → portUp s p.pkg port = false → p.msg = some true → ∃ t, exec (.linkKeyLoad p port dir key) s = .next t ∧
      keyOf t p.pkg port (if dir then 1 else 0) = some key) ∧
    (portUp s p.pkg port = true ∨ p.msg ≠ some true → exec (.linkKeyLoad p port dir key) s = .next s)) ∧
  (∀ (s : State) (p idx : Nat),
    (∀ m, measurement s p idx = some m → exec (.spdmMeasurement p idx) s =
      .next (s.modPkg p (fun k => { k with out := k.out ++ [m ++ Config.sm2Sign p (Config.sm3 m)] }))) ∧
    (∀ v, sensor s p idx = some v → exec (.pldmSensorRead p idx) s =
      .next (s.modPkg p (fun k => { k with out := k.out ++ [leBytes 8 v] }))) ∧
    (∃ t, exec (.clockStep p) s = .next t ∧ (t.pkg p).clock = max 9 ((s.pkg p).clock - 1) ∧ ∀ d, t.tickOf d = s.tickOf d) ∧
    ((s.pkg p).thermal = false → ∃ t, exec (.thermalTrip p idx) s = .next t ∧ (t.pkg p).thermal = true ∧
      ∀ x, pkgOfCtx x = p → mayIssue t x = false)) ∧
  (∀ (s : State) (p : Nat) (img key sig : List (BitVec 8)) (ver : BitVec 16),
    (Config.sm3 key = Config.fusedKeyHash → Config.sm2Verify key (Config.sm3 img) sig = true →
      Config.fusedMinVersion.toNat ≤ ver.toNat →
      exec (.firmwareUpdate p img key ver sig) s = .next (s.modPkg p (fun k => { k with staged := some ⟨ver, Config.sm3 img⟩ }))) ∧
    (Config.sm3 key ≠ Config.fusedKeyHash ∨ Config.sm2Verify key (Config.sm3 img) sig = false ∨
      ver.toNat < Config.fusedMinVersion.toNat → exec (.firmwareUpdate p img key ver sig) s = .next s)) ∧
  (∀ (s : State) (p a b : Nat), a % 4 ≠ b % 4 →
    (fldN (s.die (p * 4 + a % 4)).flogp 0 8 + 1) % 256 ≠ fldN (s.die (p * 4 + a % 4)).flogp 8 8 →
    ∃ t r, exec (.d2dLinkFailure p a b) s = .next t ∧
      Tab.get none (t.die (p * 4 + a % 4)).flog (fldN (s.die (p * 4 + a % 4)).flogp 0 8) = some r ∧ r.code = 0xF4)
end

