-- ==== Sys2Proof/Laws/Exec.lean ====
section
/-! SUPPORT. The arms of exec, one equation each. -/

namespace Sys2Proof.Machine

@[simp] theorem exec_nop (s : State) : exec (.nop) s = execNop s := rfl
@[simp] theorem exec_add (g : Guard) (d : BitVec 5) (a : BitVec 5) (b : BitVec 5) (s : State) : exec (.add g d a b) s = execAdd g d a b s := rfl
@[simp] theorem exec_sub (g : Guard) (d : BitVec 5) (a : BitVec 5) (b : BitVec 5) (s : State) : exec (.sub g d a b) s = execSub g d a b s := rfl
@[simp] theorem exec_and (g : Guard) (d : BitVec 5) (a : BitVec 5) (b : BitVec 5) (s : State) : exec (.and g d a b) s = execAnd g d a b s := rfl
@[simp] theorem exec_or (g : Guard) (d : BitVec 5) (a : BitVec 5) (b : BitVec 5) (s : State) : exec (.or g d a b) s = execOr g d a b s := rfl
@[simp] theorem exec_xor (g : Guard) (d : BitVec 5) (a : BitVec 5) (b : BitVec 5) (s : State) : exec (.xor g d a b) s = execXor g d a b s := rfl
@[simp] theorem exec_andn (g : Guard) (d : BitVec 5) (a : BitVec 5) (b : BitVec 5) (s : State) : exec (.andn g d a b) s = execAndn g d a b s := rfl
@[simp] theorem exec_shl (g : Guard) (d : BitVec 5) (a : BitVec 5) (b : BitVec 5) (s : State) : exec (.shl g d a b) s = execShl g d a b s := rfl
@[simp] theorem exec_shr (g : Guard) (d : BitVec 5) (a : BitVec 5) (b : BitVec 5) (s : State) : exec (.shr g d a b) s = execShr g d a b s := rfl
@[simp] theorem exec_sar (g : Guard) (d : BitVec 5) (a : BitVec 5) (b : BitVec 5) (s : State) : exec (.sar g d a b) s = execSar g d a b s := rfl
@[simp] theorem exec_ror (g : Guard) (d : BitVec 5) (a : BitVec 5) (b : BitVec 5) (s : State) : exec (.ror g d a b) s = execRor g d a b s := rfl
@[simp] theorem exec_mul (g : Guard) (d : BitVec 5) (a : BitVec 5) (b : BitVec 5) (s : State) : exec (.mul g d a b) s = execMul g d a b s := rfl
@[simp] theorem exec_mulhu (g : Guard) (d : BitVec 5) (a : BitVec 5) (b : BitVec 5) (s : State) : exec (.mulhu g d a b) s = execMulhu g d a b s := rfl
@[simp] theorem exec_mulhs (g : Guard) (d : BitVec 5) (a : BitVec 5) (b : BitVec 5) (s : State) : exec (.mulhs g d a b) s = execMulhs g d a b s := rfl
@[simp] theorem exec_min (g : Guard) (d : BitVec 5) (a : BitVec 5) (b : BitVec 5) (s : State) : exec (.min g d a b) s = execMin g d a b s := rfl
@[simp] theorem exec_max (g : Guard) (d : BitVec 5) (a : BitVec 5) (b : BitVec 5) (s : State) : exec (.max g d a b) s = execMax g d a b s := rfl
@[simp] theorem exec_minu (g : Guard) (d : BitVec 5) (a : BitVec 5) (b : BitVec 5) (s : State) : exec (.minu g d a b) s = execMinu g d a b s := rfl
@[simp] theorem exec_maxu (g : Guard) (d : BitVec 5) (a : BitVec 5) (b : BitVec 5) (s : State) : exec (.maxu g d a b) s = execMaxu g d a b s := rfl
@[simp] theorem exec_clz (g : Guard) (d : BitVec 5) (a : BitVec 5) (s : State) : exec (.clz g d a) s = execClz g d a s := rfl
@[simp] theorem exec_ctz (g : Guard) (d : BitVec 5) (a : BitVec 5) (s : State) : exec (.ctz g d a) s = execCtz g d a s := rfl
@[simp] theorem exec_popc (g : Guard) (d : BitVec 5) (a : BitVec 5) (s : State) : exec (.popc g d a) s = execPopc g d a s := rfl
@[simp] theorem exec_addi (g : Guard) (d : BitVec 5) (a : BitVec 5) (i : BitVec 12) (s : State) : exec (.addi g d a i) s = execAddi g d a i s := rfl
@[simp] theorem exec_andi (g : Guard) (d : BitVec 5) (a : BitVec 5) (i : BitVec 12) (s : State) : exec (.andi g d a i) s = execAndi g d a i s := rfl
@[simp] theorem exec_ori (g : Guard) (d : BitVec 5) (a : BitVec 5) (i : BitVec 12) (s : State) : exec (.ori g d a i) s = execOri g d a i s := rfl
@[simp] theorem exec_xori (g : Guard) (d : BitVec 5) (a : BitVec 5) (i : BitVec 12) (s : State) : exec (.xori g d a i) s = execXori g d a i s := rfl
@[simp] theorem exec_shli (g : Guard) (d : BitVec 5) (a : BitVec 5) (s_ : BitVec 6) (s : State) : exec (.shli g d a s_) s = execShli g d a s_ s := rfl
@[simp] theorem exec_shri (g : Guard) (d : BitVec 5) (a : BitVec 5) (s_ : BitVec 6) (s : State) : exec (.shri g d a s_) s = execShri g d a s_ s := rfl
@[simp] theorem exec_sari (g : Guard) (d : BitVec 5) (a : BitVec 5) (s_ : BitVec 6) (s : State) : exec (.sari g d a s_) s = execSari g d a s_ s := rfl
@[simp] theorem exec_rori (g : Guard) (d : BitVec 5) (a : BitVec 5) (s_ : BitVec 6) (s : State) : exec (.rori g d a s_) s = execRori g d a s_ s := rfl
@[simp] theorem exec_movi (g : Guard) (d : BitVec 5) (i : BitVec 17) (s : State) : exec (.movi g d i) s = execMovi g d i s := rfl
@[simp] theorem exec_cmpeq (g : Guard) (p : BitVec 4) (a : BitVec 5) (b : BitVec 5) (s : State) : exec (.cmpeq g p a b) s = execCmpeq g p a b s := rfl
@[simp] theorem exec_cmpne (g : Guard) (p : BitVec 4) (a : BitVec 5) (b : BitVec 5) (s : State) : exec (.cmpne g p a b) s = execCmpne g p a b s := rfl
@[simp] theorem exec_cmplt (g : Guard) (p : BitVec 4) (a : BitVec 5) (b : BitVec 5) (s : State) : exec (.cmplt g p a b) s = execCmplt g p a b s := rfl
@[simp] theorem exec_cmpge (g : Guard) (p : BitVec 4) (a : BitVec 5) (b : BitVec 5) (s : State) : exec (.cmpge g p a b) s = execCmpge g p a b s := rfl
@[simp] theorem exec_cmpltu (g : Guard) (p : BitVec 4) (a : BitVec 5) (b : BitVec 5) (s : State) : exec (.cmpltu g p a b) s = execCmpltu g p a b s := rfl
@[simp] theorem exec_cmpgeu (g : Guard) (p : BitVec 4) (a : BitVec 5) (b : BitVec 5) (s : State) : exec (.cmpgeu g p a b) s = execCmpgeu g p a b s := rfl
@[simp] theorem exec_cmptst (g : Guard) (p : BitVec 4) (a : BitVec 5) (b : BitVec 5) (s : State) : exec (.cmptst g p a b) s = execCmptst g p a b s := rfl
@[simp] theorem exec_cmpeqi (g : Guard) (p : BitVec 4) (a : BitVec 5) (i : BitVec 9) (s : State) : exec (.cmpeqi g p a i) s = execCmpeqi g p a i s := rfl
@[simp] theorem exec_cmpnei (g : Guard) (p : BitVec 4) (a : BitVec 5) (i : BitVec 9) (s : State) : exec (.cmpnei g p a i) s = execCmpnei g p a i s := rfl
@[simp] theorem exec_cmplti (g : Guard) (p : BitVec 4) (a : BitVec 5) (i : BitVec 9) (s : State) : exec (.cmplti g p a i) s = execCmplti g p a i s := rfl
@[simp] theorem exec_cmpgei (g : Guard) (p : BitVec 4) (a : BitVec 5) (i : BitVec 9) (s : State) : exec (.cmpgei g p a i) s = execCmpgei g p a i s := rfl
@[simp] theorem exec_cmpltui (g : Guard) (p : BitVec 4) (a : BitVec 5) (i : BitVec 9) (s : State) : exec (.cmpltui g p a i) s = execCmpltui g p a i s := rfl
@[simp] theorem exec_cmpgeui (g : Guard) (p : BitVec 4) (a : BitVec 5) (i : BitVec 9) (s : State) : exec (.cmpgeui g p a i) s = execCmpgeui g p a i s := rfl
@[simp] theorem exec_cmptsti (g : Guard) (p : BitVec 4) (a : BitVec 5) (i : BitVec 9) (s : State) : exec (.cmptsti g p a i) s = execCmptsti g p a i s := rfl
@[simp] theorem exec_sel (g : Guard) (d : BitVec 5) (a : BitVec 5) (b : BitVec 5) (s_ : BitVec 4) (s : State) : exec (.sel g d a b s_) s = execSel g d a b s_ s := rfl
@[simp] theorem exec_bfx (g : Guard) (d : BitVec 5) (a : BitVec 5) (p : BitVec 6) (l : BitVec 6) (s : State) : exec (.bfx g d a p l) s = execBfx g d a p l s := rfl
@[simp] theorem exec_bfxs (g : Guard) (d : BitVec 5) (a : BitVec 5) (p : BitVec 6) (l : BitVec 6) (s : State) : exec (.bfxs g d a p l) s = execBfxs g d a p l s := rfl
@[simp] theorem exec_bfi (g : Guard) (d : BitVec 5) (a : BitVec 5) (p : BitVec 6) (l : BitVec 6) (s : State) : exec (.bfi g d a p l) s = execBfi g d a p l s := rfl
@[simp] theorem exec_pand (g : Guard) (p : BitVec 4) (a : BitVec 4) (b : BitVec 4) (s : State) : exec (.pand g p a b) s = execPand g p a b s := rfl
@[simp] theorem exec_por (g : Guard) (p : BitVec 4) (a : BitVec 4) (b : BitVec 4) (s : State) : exec (.por g p a b) s = execPor g p a b s := rfl
@[simp] theorem exec_pxor (g : Guard) (p : BitVec 4) (a : BitVec 4) (b : BitVec 4) (s : State) : exec (.pxor g p a b) s = execPxor g p a b s := rfl
@[simp] theorem exec_pandn (g : Guard) (p : BitVec 4) (a : BitVec 4) (b : BitVec 4) (s : State) : exec (.pandn g p a b) s = execPandn g p a b s := rfl
@[simp] theorem exec_pnot (g : Guard) (p : BitVec 4) (a : BitVec 4) (s : State) : exec (.pnot g p a) s = execPnot g p a s := rfl
@[simp] theorem exec_br (g : Guard) (o : BitVec 22) (s : State) : exec (.br g o) s = execBr g o s := rfl
@[simp] theorem exec_call (g : Guard) (o : BitVec 22) (s : State) : exec (.call g o) s = execCall g o s := rfl
@[simp] theorem exec_brr (g : Guard) (a : BitVec 5) (s : State) : exec (.brr g a) s = execBrr g a s := rfl
@[simp] theorem exec_callr (g : Guard) (a : BitVec 5) (s : State) : exec (.callr g a) s = execCallr g a s := rfl
@[simp] theorem exec_trap (g : Guard) (i : BitVec 16) (s : State) : exec (.trap g i) s = execTrap g i s := rfl
@[simp] theorem exec_eret (g : Guard) (s : State) : exec (.eret g) s = execEret g s := rfl
@[simp] theorem exec_yield (g : Guard) (s : State) : exec (.yield g) s = execYield g s := rfl
@[simp] theorem exec_mfs (g : Guard) (d : BitVec 5) (s_ : BitVec 12) (s : State) : exec (.mfs g d s_) s = execMfs g d s_ s := rfl
@[simp] theorem exec_mts (g : Guard) (d : BitVec 5) (s_ : BitVec 12) (s : State) : exec (.mts g d s_) s = execMts g d s_ s := rfl
@[simp] theorem exec_rdtick (g : Guard) (d : BitVec 5) (s : State) : exec (.rdtick g d) s = execRdtick g d s := rfl
@[simp] theorem exec_ldub (g : Guard) (d : BitVec 5) (a : BitVec 5) (o : BitVec 10) (s : State) : exec (.ldub g d a o) s = execLdub g d a o s := rfl
@[simp] theorem exec_lduh (g : Guard) (d : BitVec 5) (a : BitVec 5) (o : BitVec 10) (s : State) : exec (.lduh g d a o) s = execLduh g d a o s := rfl
@[simp] theorem exec_lduw (g : Guard) (d : BitVec 5) (a : BitVec 5) (o : BitVec 10) (s : State) : exec (.lduw g d a o) s = execLduw g d a o s := rfl
@[simp] theorem exec_ldd (g : Guard) (d : BitVec 5) (a : BitVec 5) (o : BitVec 10) (s : State) : exec (.ldd g d a o) s = execLdd g d a o s := rfl
@[simp] theorem exec_ldsb (g : Guard) (d : BitVec 5) (a : BitVec 5) (o : BitVec 10) (s : State) : exec (.ldsb g d a o) s = execLdsb g d a o s := rfl
@[simp] theorem exec_ldsh (g : Guard) (d : BitVec 5) (a : BitVec 5) (o : BitVec 10) (s : State) : exec (.ldsh g d a o) s = execLdsh g d a o s := rfl
@[simp] theorem exec_ldsw (g : Guard) (d : BitVec 5) (a : BitVec 5) (o : BitVec 10) (s : State) : exec (.ldsw g d a o) s = execLdsw g d a o s := rfl
@[simp] theorem exec_stb (g : Guard) (d : BitVec 5) (a : BitVec 5) (o : BitVec 10) (s : State) : exec (.stb g d a o) s = execStb g d a o s := rfl
@[simp] theorem exec_sth (g : Guard) (d : BitVec 5) (a : BitVec 5) (o : BitVec 10) (s : State) : exec (.sth g d a o) s = execSth g d a o s := rfl
@[simp] theorem exec_stw (g : Guard) (d : BitVec 5) (a : BitVec 5) (o : BitVec 10) (s : State) : exec (.stw g d a o) s = execStw g d a o s := rfl
@[simp] theorem exec_std (g : Guard) (d : BitVec 5) (a : BitVec 5) (o : BitVec 10) (s : State) : exec (.std g d a o) s = execStd g d a o s := rfl
@[simp] theorem exec_ldpb (g : Guard) (d : BitVec 5) (w : BitVec 3) (o : BitVec 12) (s : State) : exec (.ldpb g d w o) s = execLdpb g d w o s := rfl
@[simp] theorem exec_ldph (g : Guard) (d : BitVec 5) (w : BitVec 3) (o : BitVec 12) (s : State) : exec (.ldph g d w o) s = execLdph g d w o s := rfl
@[simp] theorem exec_ldpw (g : Guard) (d : BitVec 5) (w : BitVec 3) (o : BitVec 12) (s : State) : exec (.ldpw g d w o) s = execLdpw g d w o s := rfl
@[simp] theorem exec_ldpd (g : Guard) (d : BitVec 5) (w : BitVec 3) (o : BitVec 12) (s : State) : exec (.ldpd g d w o) s = execLdpd g d w o s := rfl
@[simp] theorem exec_ldprb (g : Guard) (d : BitVec 5) (w : BitVec 3) (b : BitVec 5) (s : State) : exec (.ldprb g d w b) s = execLdprb g d w b s := rfl
@[simp] theorem exec_ldprh (g : Guard) (d : BitVec 5) (w : BitVec 3) (b : BitVec 5) (s : State) : exec (.ldprh g d w b) s = execLdprh g d w b s := rfl
@[simp] theorem exec_ldprw (g : Guard) (d : BitVec 5) (w : BitVec 3) (b : BitVec 5) (s : State) : exec (.ldprw g d w b) s = execLdprw g d w b s := rfl
@[simp] theorem exec_ldprd (g : Guard) (d : BitVec 5) (w : BitVec 3) (b : BitVec 5) (s : State) : exec (.ldprd g d w b) s = execLdprd g d w b s := rfl
@[simp] theorem exec_fence (g : Guard) (s_ : BitVec 3) (s : State) : exec (.fence g s_) s = execFence g s_ s := rfl
@[simp] theorem exec_bar (g : Guard) (s_ : BitVec 3) (o : BitVec 2) (a : BitVec 5) (s : State) : exec (.bar g s_ o a) s = execBar g s_ o a s := rfl
@[simp] theorem exec_lds4 (g : Guard) (d : BitVec 5) (h : BitVec 5) (b : BitVec 5) (s : State) : exec (.lds4 g d h b) s = execLds4 g d h b s := rfl
@[simp] theorem exec_lds8 (g : Guard) (d : BitVec 5) (h : BitVec 5) (b : BitVec 5) (s : State) : exec (.lds8 g d h b) s = execLds8 g d h b s := rfl
@[simp] theorem exec_sts4 (g : Guard) (d : BitVec 5) (h : BitVec 5) (b : BitVec 5) (s : State) : exec (.sts4 g d h b) s = execSts4 g d h b s := rfl
@[simp] theorem exec_sts8 (g : Guard) (d : BitVec 5) (h : BitVec 5) (b : BitVec 5) (s : State) : exec (.sts8 g d h b) s = execSts8 g d h b s := rfl
@[simp] theorem exec_saadd (g : Guard) (d : BitVec 5) (h : BitVec 5) (b : BitVec 5) (s : State) : exec (.saadd g d h b) s = execSaadd g d h b s := rfl
@[simp] theorem exec_safadd (g : Guard) (d : BitVec 5) (h : BitVec 5) (b : BitVec 5) (s : State) : exec (.safadd g d h b) s = execSafadd g d h b s := rfl
@[simp] theorem exec_samin (g : Guard) (d : BitVec 5) (h : BitVec 5) (b : BitVec 5) (s : State) : exec (.samin g d h b) s = execSamin g d h b s := rfl
@[simp] theorem exec_samax (g : Guard) (d : BitVec 5) (h : BitVec 5) (b : BitVec 5) (s : State) : exec (.samax g d h b) s = execSamax g d h b s := rfl
@[simp] theorem exec_saxchg (g : Guard) (d : BitVec 5) (h : BitVec 5) (b : BitVec 5) (s : State) : exec (.saxchg g d h b) s = execSaxchg g d h b s := rfl
@[simp] theorem exec_sacas (g : Guard) (d : BitVec 5) (h : BitVec 5) (b : BitVec 5) (s : State) : exec (.sacas g d h b) s = execSacas g d h b s := rfl
@[simp] theorem exec_salloc (g : Guard) (d : BitVec 5) (h : BitVec 5) (a : BitVec 5) (s : State) : exec (.salloc g d h a) s = execSalloc g d h a s := rfl
@[simp] theorem exec_sfree (g : Guard) (h : BitVec 5) (s : State) : exec (.sfree g h) s = execSfree g h s := rfl
@[simp] theorem exec_sload (g : Guard) (h : BitVec 5) (a : BitVec 5) (b : BitVec 5) (s : State) : exec (.sload g h a b) s = execSload g h a b s := rfl
@[simp] theorem exec_sloadx (g : Guard) (h : BitVec 5) (a : BitVec 5) (b : BitVec 5) (s : State) : exec (.sloadx g h a b) s = execSloadx g h a b s := rfl
@[simp] theorem exec_sstore (g : Guard) (h : BitVec 5) (a : BitVec 5) (b : BitVec 5) (s : State) : exec (.sstore g h a b) s = execSstore g h a b s := rfl
@[simp] theorem exec_sgather (g : Guard) (h : BitVec 5) (i : BitVec 5) (a : BitVec 4) (s : State) : exec (.sgather g h i a) s = execSgather g h i a s := rfl
@[simp] theorem exec_sbag (g : Guard) (h : BitVec 5) (i : BitVec 5) (a : BitVec 4) (s : State) : exec (.sbag g h i a) s = execSbag g h i a s := rfl
@[simp] theorem exec_sbagm (g : Guard) (h : BitVec 5) (i : BitVec 5) (a : BitVec 4) (s : State) : exec (.sbagm g h i a) s = execSbagm g h i a s := rfl
@[simp] theorem exec_scopy (g : Guard) (h : BitVec 5) (a : BitVec 5) (b : BitVec 5) (s : State) : exec (.scopy g h a b) s = execScopy g h a b s := rfl
@[simp] theorem exec_scopyp (g : Guard) (h : BitVec 5) (a : BitVec 5) (b : BitVec 5) (s : State) : exec (.scopyp g h a b) s = execScopyp g h a b s := rfl
@[simp] theorem exec_srecv (g : Guard) (h : BitVec 5) (s : State) : exec (.srecv g h) s = execSrecv g h s := rfl
@[simp] theorem exec_swait (g : Guard) (h : BitVec 5) (s : State) : exec (.swait g h) s = execSwait g h s := rfl
@[simp] theorem exec_swaitAll (g : Guard) (s : State) : exec (.swaitAll g) s = execSwaitAll g s := rfl
@[simp] theorem exec_krun (g : Guard) (a : BitVec 5) (b : BitVec 5) (c : BitVec 5) (s : State) : exec (.krun g a b c) s = execKrun g a b c s := rfl
@[simp] theorem exec_lwait (g : Guard) (x : BitVec 5) (s : State) : exec (.lwait g x) s = execLwait g x s := rfl
@[simp] theorem exec_iadd (g : Guard) (d : BitVec 7) (a : BitVec 7) (b : BitVec 7) (s : State) : exec (.iadd g d a b) s = execIadd g d a b s := rfl
@[simp] theorem exec_isub (g : Guard) (d : BitVec 7) (a : BitVec 7) (b : BitVec 7) (s : State) : exec (.isub g d a b) s = execIsub g d a b s := rfl
@[simp] theorem exec_iand (g : Guard) (d : BitVec 7) (a : BitVec 7) (b : BitVec 7) (s : State) : exec (.iand g d a b) s = execIand g d a b s := rfl
@[simp] theorem exec_ior (g : Guard) (d : BitVec 7) (a : BitVec 7) (b : BitVec 7) (s : State) : exec (.ior g d a b) s = execIor g d a b s := rfl
@[simp] theorem exec_ixor (g : Guard) (d : BitVec 7) (a : BitVec 7) (b : BitVec 7) (s : State) : exec (.ixor g d a b) s = execIxor g d a b s := rfl
@[simp] theorem exec_iandn (g : Guard) (d : BitVec 7) (a : BitVec 7) (b : BitVec 7) (s : State) : exec (.iandn g d a b) s = execIandn g d a b s := rfl
@[simp] theorem exec_ishl (g : Guard) (d : BitVec 7) (a : BitVec 7) (b : BitVec 7) (s : State) : exec (.ishl g d a b) s = execIshl g d a b s := rfl
@[simp] theorem exec_ishr (g : Guard) (d : BitVec 7) (a : BitVec 7) (b : BitVec 7) (s : State) : exec (.ishr g d a b) s = execIshr g d a b s := rfl
@[simp] theorem exec_isar (g : Guard) (d : BitVec 7) (a : BitVec 7) (b : BitVec 7) (s : State) : exec (.isar g d a b) s = execIsar g d a b s := rfl
@[simp] theorem exec_imul (g : Guard) (d : BitVec 7) (a : BitVec 7) (b : BitVec 7) (s : State) : exec (.imul g d a b) s = execImul g d a b s := rfl
@[simp] theorem exec_imulhu (g : Guard) (d : BitVec 7) (a : BitVec 7) (b : BitVec 7) (s : State) : exec (.imulhu g d a b) s = execImulhu g d a b s := rfl
@[simp] theorem exec_imulhs (g : Guard) (d : BitVec 7) (a : BitVec 7) (b : BitVec 7) (s : State) : exec (.imulhs g d a b) s = execImulhs g d a b s := rfl
@[simp] theorem exec_imin (g : Guard) (d : BitVec 7) (a : BitVec 7) (b : BitVec 7) (s : State) : exec (.imin g d a b) s = execImin g d a b s := rfl
@[simp] theorem exec_imax (g : Guard) (d : BitVec 7) (a : BitVec 7) (b : BitVec 7) (s : State) : exec (.imax g d a b) s = execImax g d a b s := rfl
@[simp] theorem exec_iminu (g : Guard) (d : BitVec 7) (a : BitVec 7) (b : BitVec 7) (s : State) : exec (.iminu g d a b) s = execIminu g d a b s := rfl
@[simp] theorem exec_imaxu (g : Guard) (d : BitVec 7) (a : BitVec 7) (b : BitVec 7) (s : State) : exec (.imaxu g d a b) s = execImaxu g d a b s := rfl
@[simp] theorem exec_iclz (g : Guard) (d : BitVec 7) (a : BitVec 7) (s : State) : exec (.iclz g d a) s = execIclz g d a s := rfl
@[simp] theorem exec_ipopc (g : Guard) (d : BitVec 7) (a : BitVec 7) (s : State) : exec (.ipopc g d a) s = execIpopc g d a s := rfl
@[simp] theorem exec_iaddi (g : Guard) (d : BitVec 7) (a : BitVec 7) (imm : BitVec 32) (s : State) : exec (.iaddi g d a imm) s = execIaddi g d a imm s := rfl
@[simp] theorem exec_iandi (g : Guard) (d : BitVec 7) (a : BitVec 7) (imm : BitVec 32) (s : State) : exec (.iandi g d a imm) s = execIandi g d a imm s := rfl
@[simp] theorem exec_iori (g : Guard) (d : BitVec 7) (a : BitVec 7) (imm : BitVec 32) (s : State) : exec (.iori g d a imm) s = execIori g d a imm s := rfl
@[simp] theorem exec_ixori (g : Guard) (d : BitVec 7) (a : BitVec 7) (imm : BitVec 32) (s : State) : exec (.ixori g d a imm) s = execIxori g d a imm s := rfl
@[simp] theorem exec_ishli (g : Guard) (d : BitVec 7) (a : BitVec 7) (imm : BitVec 32) (s : State) : exec (.ishli g d a imm) s = execIshli g d a imm s := rfl
@[simp] theorem exec_ishri (g : Guard) (d : BitVec 7) (a : BitVec 7) (imm : BitVec 32) (s : State) : exec (.ishri g d a imm) s = execIshri g d a imm s := rfl
@[simp] theorem exec_isari (g : Guard) (d : BitVec 7) (a : BitVec 7) (imm : BitVec 32) (s : State) : exec (.isari g d a imm) s = execIsari g d a imm s := rfl
@[simp] theorem exec_imuli (g : Guard) (d : BitVec 7) (a : BitVec 7) (imm : BitVec 32) (s : State) : exec (.imuli g d a imm) s = execImuli g d a imm s := rfl
@[simp] theorem exec_moviKernel (g : Guard) (d : BitVec 7) (imm : BitVec 32) (s : State) : exec (.moviKernel g d imm) s = execMoviKernel g d imm s := rfl
@[simp] theorem exec_icmpeq (g : Guard) (p : BitVec 4) (a : BitVec 7) (b : BitVec 7) (s : State) : exec (.icmpeq g p a b) s = execIcmpeq g p a b s := rfl
@[simp] theorem exec_icmpne (g : Guard) (p : BitVec 4) (a : BitVec 7) (b : BitVec 7) (s : State) : exec (.icmpne g p a b) s = execIcmpne g p a b s := rfl
@[simp] theorem exec_icmplt (g : Guard) (p : BitVec 4) (a : BitVec 7) (b : BitVec 7) (s : State) : exec (.icmplt g p a b) s = execIcmplt g p a b s := rfl
@[simp] theorem exec_icmpge (g : Guard) (p : BitVec 4) (a : BitVec 7) (b : BitVec 7) (s : State) : exec (.icmpge g p a b) s = execIcmpge g p a b s := rfl
@[simp] theorem exec_icmpltu (g : Guard) (p : BitVec 4) (a : BitVec 7) (b : BitVec 7) (s : State) : exec (.icmpltu g p a b) s = execIcmpltu g p a b s := rfl
@[simp] theorem exec_icmpgeu (g : Guard) (p : BitVec 4) (a : BitVec 7) (b : BitVec 7) (s : State) : exec (.icmpgeu g p a b) s = execIcmpgeu g p a b s := rfl
@[simp] theorem exec_icmptst (g : Guard) (p : BitVec 4) (a : BitVec 7) (b : BitVec 7) (s : State) : exec (.icmptst g p a b) s = execIcmptst g p a b s := rfl
@[simp] theorem exec_icmpeqi (g : Guard) (p : BitVec 4) (a : BitVec 7) (imm : BitVec 32) (s : State) : exec (.icmpeqi g p a imm) s = execIcmpeqi g p a imm s := rfl
@[simp] theorem exec_icmpnei (g : Guard) (p : BitVec 4) (a : BitVec 7) (imm : BitVec 32) (s : State) : exec (.icmpnei g p a imm) s = execIcmpnei g p a imm s := rfl
@[simp] theorem exec_icmplti (g : Guard) (p : BitVec 4) (a : BitVec 7) (imm : BitVec 32) (s : State) : exec (.icmplti g p a imm) s = execIcmplti g p a imm s := rfl
@[simp] theorem exec_icmpgei (g : Guard) (p : BitVec 4) (a : BitVec 7) (imm : BitVec 32) (s : State) : exec (.icmpgei g p a imm) s = execIcmpgei g p a imm s := rfl
@[simp] theorem exec_icmpltui (g : Guard) (p : BitVec 4) (a : BitVec 7) (imm : BitVec 32) (s : State) : exec (.icmpltui g p a imm) s = execIcmpltui g p a imm s := rfl
@[simp] theorem exec_icmpgeui (g : Guard) (p : BitVec 4) (a : BitVec 7) (imm : BitVec 32) (s : State) : exec (.icmpgeui g p a imm) s = execIcmpgeui g p a imm s := rfl
@[simp] theorem exec_icmptsti (g : Guard) (p : BitVec 4) (a : BitVec 7) (imm : BitVec 32) (s : State) : exec (.icmptsti g p a imm) s = execIcmptsti g p a imm s := rfl
@[simp] theorem exec_selKernel (g : Guard) (d : BitVec 7) (a : BitVec 7) (b : BitVec 7) (q : BitVec 4) (s : State) : exec (.selKernel g d a b q) s = execSelKernel g d a b q s := rfl
@[simp] theorem exec_gand (g : Guard) (p : BitVec 4) (a : BitVec 4) (b : BitVec 4) (s : State) : exec (.gand g p a b) s = execGand g p a b s := rfl
@[simp] theorem exec_gor (g : Guard) (p : BitVec 4) (a : BitVec 4) (b : BitVec 4) (s : State) : exec (.gor g p a b) s = execGor g p a b s := rfl
@[simp] theorem exec_gxor (g : Guard) (p : BitVec 4) (a : BitVec 4) (b : BitVec 4) (s : State) : exec (.gxor g p a b) s = execGxor g p a b s := rfl
@[simp] theorem exec_gandn (g : Guard) (p : BitVec 4) (a : BitVec 4) (b : BitVec 4) (s : State) : exec (.gandn g p a b) s = execGandn g p a b s := rfl
@[simp] theorem exec_gnot (g : Guard) (p : BitVec 4) (a : BitVec 4) (s : State) : exec (.gnot g p a) s = execGnot g p a s := rfl
@[simp] theorem exec_fadd (g : Guard) (d : BitVec 7) (a : BitVec 7) (b : BitVec 7) (rm : BitVec 3) (s : State) : exec (.fadd g d a b rm) s = execFadd g d a b rm s := rfl
@[simp] theorem exec_fsub (g : Guard) (d : BitVec 7) (a : BitVec 7) (b : BitVec 7) (rm : BitVec 3) (s : State) : exec (.fsub g d a b rm) s = execFsub g d a b rm s := rfl
@[simp] theorem exec_fmul (g : Guard) (d : BitVec 7) (a : BitVec 7) (b : BitVec 7) (rm : BitVec 3) (s : State) : exec (.fmul g d a b rm) s = execFmul g d a b rm s := rfl
@[simp] theorem exec_fmin (g : Guard) (d : BitVec 7) (a : BitVec 7) (b : BitVec 7) (s : State) : exec (.fmin g d a b) s = execFmin g d a b s := rfl
@[simp] theorem exec_fmax (g : Guard) (d : BitVec 7) (a : BitVec 7) (b : BitVec 7) (s : State) : exec (.fmax g d a b) s = execFmax g d a b s := rfl
@[simp] theorem exec_fabs (g : Guard) (d : BitVec 7) (a : BitVec 7) (s : State) : exec (.fabs g d a) s = execFabs g d a s := rfl
@[simp] theorem exec_fneg (g : Guard) (d : BitVec 7) (a : BitVec 7) (s : State) : exec (.fneg g d a) s = execFneg g d a s := rfl
@[simp] theorem exec_ffma (g : Guard) (d : BitVec 7) (a : BitVec 7) (b : BitVec 7) (c : BitVec 7) (rm : BitVec 3) (s : State) : exec (.ffma g d a b c rm) s = execFfma g d a b c rm s := rfl
@[simp] theorem exec_ffms (g : Guard) (d : BitVec 7) (a : BitVec 7) (b : BitVec 7) (c : BitVec 7) (rm : BitVec 3) (s : State) : exec (.ffms g d a b c rm) s = execFfms g d a b c rm s := rfl
@[simp] theorem exec_fnfma (g : Guard) (d : BitVec 7) (a : BitVec 7) (b : BitVec 7) (c : BitVec 7) (rm : BitVec 3) (s : State) : exec (.fnfma g d a b c rm) s = execFnfma g d a b c rm s := rfl
@[simp] theorem exec_fnfms (g : Guard) (d : BitVec 7) (a : BitVec 7) (b : BitVec 7) (c : BitVec 7) (rm : BitVec 3) (s : State) : exec (.fnfms g d a b c rm) s = execFnfms g d a b c rm s := rfl
@[simp] theorem exec_fcmpeq (g : Guard) (p : BitVec 4) (a : BitVec 7) (b : BitVec 7) (s : State) : exec (.fcmpeq g p a b) s = execFcmpeq g p a b s := rfl
@[simp] theorem exec_fcmplt (g : Guard) (p : BitVec 4) (a : BitVec 7) (b : BitVec 7) (s : State) : exec (.fcmplt g p a b) s = execFcmplt g p a b s := rfl
@[simp] theorem exec_fcmple (g : Guard) (p : BitVec 4) (a : BitVec 7) (b : BitVec 7) (s : State) : exec (.fcmple g p a b) s = execFcmple g p a b s := rfl
@[simp] theorem exec_fcmpun (g : Guard) (p : BitVec 4) (a : BitVec 7) (b : BitVec 7) (s : State) : exec (.fcmpun g p a b) s = execFcmpun g p a b s := rfl
@[simp] theorem exec_hadd (g : Guard) (d : BitVec 7) (a : BitVec 7) (b : BitVec 7) (rm : BitVec 3) (s : State) : exec (.hadd g d a b rm) s = execHadd g d a b rm s := rfl
@[simp] theorem exec_hsub (g : Guard) (d : BitVec 7) (a : BitVec 7) (b : BitVec 7) (rm : BitVec 3) (s : State) : exec (.hsub g d a b rm) s = execHsub g d a b rm s := rfl
@[simp] theorem exec_hmul (g : Guard) (d : BitVec 7) (a : BitVec 7) (b : BitVec 7) (rm : BitVec 3) (s : State) : exec (.hmul g d a b rm) s = execHmul g d a b rm s := rfl
@[simp] theorem exec_hmin (g : Guard) (d : BitVec 7) (a : BitVec 7) (b : BitVec 7) (s : State) : exec (.hmin g d a b) s = execHmin g d a b s := rfl
@[simp] theorem exec_hmax (g : Guard) (d : BitVec 7) (a : BitVec 7) (b : BitVec 7) (s : State) : exec (.hmax g d a b) s = execHmax g d a b s := rfl
@[simp] theorem exec_hfma (g : Guard) (d : BitVec 7) (a : BitVec 7) (b : BitVec 7) (c : BitVec 7) (rm : BitVec 3) (s : State) : exec (.hfma g d a b c rm) s = execHfma g d a b c rm s := rfl
@[simp] theorem exec_hfms (g : Guard) (d : BitVec 7) (a : BitVec 7) (b : BitVec 7) (c : BitVec 7) (rm : BitVec 3) (s : State) : exec (.hfms g d a b c rm) s = execHfms g d a b c rm s := rfl
@[simp] theorem exec_mvmw (g : Guard) (d : BitVec 7) (a : BitVec 7) (w : BitVec 2) (s : State) : exec (.mvmw g d a w) s = execMvmw g d a w s := rfl
@[simp] theorem exec_mvwm (g : Guard) (d : BitVec 7) (a : BitVec 7) (w : BitVec 2) (s : State) : exec (.mvwm g d a w) s = execMvwm g d a w s := rfl
@[simp] theorem exec_frsqs (g : Guard) (d : BitVec 7) (a : BitVec 7) (s : State) : exec (.frsqs g d a) s = execFrsqs g d a s := rfl
@[simp] theorem exec_frcps (g : Guard) (d : BitVec 7) (a : BitVec 7) (s : State) : exec (.frcps g d a) s = execFrcps g d a s := rfl
@[simp] theorem exec_fdivs (g : Guard) (d : BitVec 7) (a : BitVec 7) (s : State) : exec (.fdivs g d a) s = execFdivs g d a s := rfl
@[simp] theorem exec_cvtto (g : Guard) (d : BitVec 7) (a : BitVec 7) (fd : BitVec 16) (rm : BitVec 3) (s : State) : exec (.cvtto g d a fd rm) s = execCvtto g d a fd rm s := rfl
@[simp] theorem exec_cvtfrom (g : Guard) (d : BitVec 7) (a : BitVec 7) (fd : BitVec 16) (rm : BitVec 3) (s : State) : exec (.cvtfrom g d a fd rm) s = execCvtfrom g d a fd rm s := rfl
@[simp] theorem exec_cvtpack (g : Guard) (d : BitVec 7) (a : BitVec 7) (fd : BitVec 16) (rm : BitVec 3) (s : State) : exec (.cvtpack g d a fd rm) s = execCvtpack g d a fd rm s := rfl
@[simp] theorem exec_cvtunpk (g : Guard) (d : BitVec 7) (a : BitVec 7) (fd : BitVec 16) (rm : BitVec 3) (s : State) : exec (.cvtunpk g d a fd rm) s = execCvtunpk g d a fd rm s := rfl
@[simp] theorem exec_srd (g : Guard) (r : BitVec 7) (port : BitVec 3) (quad : Bool) (s : State) : exec (.srd g r port quad) s = execSrd g r port quad s := rfl
@[simp] theorem exec_swr (g : Guard) (r : BitVec 7) (port : BitVec 3) (quad : Bool) (s : State) : exec (.swr g r port quad) s = execSwr g r port quad s := rfl
@[simp] theorem exec_xsend (g : Guard) (d : BitVec 7) (a : BitVec 7) (cl : BitVec 4) (s : State) : exec (.xsend g d a cl) s = execXsend g d a cl s := rfl
@[simp] theorem exec_xbcast (g : Guard) (d : BitVec 7) (a : BitVec 7) (cl : BitVec 4) (s : State) : exec (.xbcast g d a cl) s = execXbcast g d a cl s := rfl
@[simp] theorem exec_xperm (g : Guard) (d : BitVec 7) (a : BitVec 7) (b : BitVec 7) (s : State) : exec (.xperm g d a b) s = execXperm g d a b s := rfl
@[simp] theorem exec_xsum (g : Guard) (d : BitVec 7) (a : BitVec 7) (s : State) : exec (.xsum g d a) s = execXsum g d a s := rfl
@[simp] theorem exec_xsumf (g : Guard) (d : BitVec 7) (a : BitVec 7) (s : State) : exec (.xsumf g d a) s = execXsumf g d a s := rfl
@[simp] theorem exec_xmaxf (g : Guard) (d : BitVec 7) (a : BitVec 7) (s : State) : exec (.xmaxf g d a) s = execXmaxf g d a s := rfl
@[simp] theorem exec_xminf (g : Guard) (d : BitVec 7) (a : BitVec 7) (s : State) : exec (.xminf g d a) s = execXminf g d a s := rfl
@[simp] theorem exec_trow (g : Guard) (d : BitVec 7) (tile : BitVec 3) (idx : BitVec 4) (s : State) : exec (.trow g d tile idx) s = execTrow g d tile idx s := rfl
@[simp] theorem exec_trowr (g : Guard) (d : BitVec 7) (tile : BitVec 3) (idx : BitVec 4) (s : State) : exec (.trowr g d tile idx) s = execTrowr g d tile idx s := rfl
@[simp] theorem exec_tcol (g : Guard) (d : BitVec 7) (tile : BitVec 3) (idx : BitVec 4) (s : State) : exec (.tcol g d tile idx) s = execTcol g d tile idx s := rfl
@[simp] theorem exec_tcolr (g : Guard) (d : BitVec 7) (tile : BitVec 3) (idx : BitVec 4) (s : State) : exec (.tcolr g d tile idx) s = execTcolr g d tile idx s := rfl
@[simp] theorem exec_tzero (g : Guard) (tile : BitVec 3) (s : State) : exec (.tzero g tile) s = execTzero g tile s := rfl
@[simp] theorem exec_tcfg (tile : BitVec 3) (rmask : BitVec 16) (cmask : BitVec 16) (s : State) : exec (.tcfg tile rmask cmask) s = execTcfg tile rmask cmask s := rfl
@[simp] theorem exec_loop (s : State) : exec (.loop) s = execLoop s := rfl
@[simp] theorem exec_wait (n : BitVec 16) (s : State) : exec (.wait n) s = execWait n s := rfl
@[simp] theorem exec_cfmt (g : Guard) (opd : BitVec 2) (fd : BitVec 16) (s : State) : exec (.cfmt g opd fd) s = execCfmt g opd fd s := rfl
@[simp] theorem exec_cbind (g : Guard) (bind : BitVec 33) (s : State) : exec (.cbind g bind) s = execCbind g bind s := rfl
@[simp] theorem exec_clatch (g : Guard) (pl : Bool) (port : BitVec 3) (kc : BitVec 6) (ofg : BitVec 16) (psg : BitVec 12) (s : State) : exec (.clatch g pl port kc ofg psg) s = execClatch g pl port kc ofg psg s := rfl
@[simp] theorem exec_clatchr (g : Guard) (pl : Bool) (dr : BitVec 7) (kc : BitVec 6) (ofg : BitVec 16) (psg : BitVec 12) (s : State) : exec (.clatchr g pl dr kc ofg psg) s = execClatchr g pl dr kc ofg psg s := rfl
@[simp] theorem exec_cube (g : Guard) (aport : BitVec 3) (sc : Bool) (dm : BitVec 7) (ds : BitVec 7) (st : Bool) (zb : BitVec 11) (s : State) : exec (.cube g aport sc dm ds st zb) s = execCube g aport sc dm ds st zb s := rfl
@[simp] theorem exec_czero (g : Guard) (dz : BitVec 7) (zo : BitVec 11) (n : BitVec 8) (s : State) : exec (.czero g dz zo n) s = execCzero g dz zo n s := rfl
@[simp] theorem exec_cmovzToM (g : Guard) (m : BitVec 7) (dz : BitVec 7) (zo : BitVec 11) (q : BitVec 2) (s : State) : exec (.cmovzToM g m dz zo q) s = execCmovzToM g m dz zo q s := rfl
@[simp] theorem exec_cmovzToZ (g : Guard) (m : BitVec 7) (dz : BitVec 7) (zo : BitVec 11) (q : BitVec 2) (s : State) : exec (.cmovzToZ g m dz zo q) s = execCmovzToZ g m dz zo q s := rfl
@[simp] theorem exec_cstat (g : Guard) (d : BitVec 7) (sel : BitVec 2) (clr : Bool) (s : State) : exec (.cstat g d sel clr) s = execCstat g d sel clr s := rfl
@[simp] theorem exec_cstop (g : Guard) (s : State) : exec (.cstop g) s = execCstop g s := rfl
@[simp] theorem exec_sscadd (g : Guard) (v : BitVec 5) (i : BitVec 5) (a : BitVec 4) (s : State) : exec (.sscadd g v i a) s = execSscadd g v i a s := rfl
@[simp] theorem exec_srowupd (g : Guard) (v : BitVec 5) (i : BitVec 5) (a : BitVec 3) (s : State) : exec (.srowupd g v i a) s = execSrowupd g v i a s := rfl
@[simp] theorem exec_aadd (g : Guard) (d : BitVec 5) (p : BitVec 4) (s_ : BitVec 3) (o : BitVec 2) (z : BitVec 1) (s : State) : exec (.aadd g d p s_ o z) s = execAadd g d p s_ o z s := rfl
@[simp] theorem exec_afadd (g : Guard) (d : BitVec 5) (p : BitVec 4) (s_ : BitVec 3) (o : BitVec 2) (s : State) : exec (.afadd g d p s_ o) s = execAfadd g d p s_ o s := rfl
@[simp] theorem exec_amin (g : Guard) (d : BitVec 5) (p : BitVec 4) (s_ : BitVec 3) (o : BitVec 2) (z : BitVec 1) (s : State) : exec (.amin g d p s_ o z) s = execAmin g d p s_ o z s := rfl
@[simp] theorem exec_amax (g : Guard) (d : BitVec 5) (p : BitVec 4) (s_ : BitVec 3) (o : BitVec 2) (z : BitVec 1) (s : State) : exec (.amax g d p s_ o z) s = execAmax g d p s_ o z s := rfl
@[simp] theorem exec_aand (g : Guard) (d : BitVec 5) (p : BitVec 4) (s_ : BitVec 3) (o : BitVec 2) (z : BitVec 1) (s : State) : exec (.aand g d p s_ o z) s = execAand g d p s_ o z s := rfl
@[simp] theorem exec_aor (g : Guard) (d : BitVec 5) (p : BitVec 4) (s_ : BitVec 3) (o : BitVec 2) (z : BitVec 1) (s : State) : exec (.aor g d p s_ o z) s = execAor g d p s_ o z s := rfl
@[simp] theorem exec_axor (g : Guard) (d : BitVec 5) (p : BitVec 4) (s_ : BitVec 3) (o : BitVec 2) (z : BitVec 1) (s : State) : exec (.axor g d p s_ o z) s = execAxor g d p s_ o z s := rfl
@[simp] theorem exec_axchg (g : Guard) (d : BitVec 5) (p : BitVec 4) (s_ : BitVec 3) (o : BitVec 2) (z : BitVec 1) (s : State) : exec (.axchg g d p s_ o z) s = execAxchg g d p s_ o z s := rfl
@[simp] theorem exec_acas (g : Guard) (d : BitVec 5) (p : BitVec 4) (s_ : BitVec 3) (o : BitVec 2) (z : BitVec 1) (s : State) : exec (.acas g d p s_ o z) s = execAcas g d p s_ o z s := rfl
@[simp] theorem exec_qpush (g : Guard) (d : BitVec 5) (a : BitVec 5) (r : BitVec 3) (s_ : BitVec 3) (s : State) : exec (.qpush g d a r s_) s = execQpush g d a r s_ s := rfl
@[simp] theorem exec_qpop (g : Guard) (d : BitVec 5) (a : BitVec 5) (r : BitVec 3) (s_ : BitVec 3) (s : State) : exec (.qpop g d a r s_) s = execQpop g d a r s_ s := rfl
@[simp] theorem exec_put (g : Guard) (d : BitVec 5) (q : BitVec 3) (o : BitVec 2) (s : State) : exec (.put g d q o) s = execPut g d q o s := rfl
@[simp] theorem exec_get (g : Guard) (d : BitVec 5) (q : BitVec 3) (o : BitVec 2) (s : State) : exec (.get g d q o) s = execGet g d q o s := rfl
@[simp] theorem exec_signal (g : Guard) (d : BitVec 5) (q : BitVec 3) (s : State) : exec (.signal g d q) s = execSignal g d q s := rfl
@[simp] theorem exec_lamo (g : Guard) (d : BitVec 5) (q : BitVec 3) (f : BitVec 4) (o : BitVec 2) (z : BitVec 1) (s : State) : exec (.lamo g d q f o z) s = execLamo g d q f o z s := rfl
@[simp] theorem exec_synct (g : Guard) (d : BitVec 5) (a : BitVec 5) (s_ : BitVec 1) (s : State) : exec (.synct g d a s_) s = execSynct g d a s_ s := rfl
@[simp] theorem exec_gopen (g : Guard) (d : BitVec 5) (a : BitVec 4) (s : State) : exec (.gopen g d a) s = execGopen g d a s := rfl
@[simp] theorem exec_gstore (g : Guard) (x : BitVec 5) (a : BitVec 5) (k : BitVec 5) (z : BitVec 1) (s : State) : exec (.gstore g x a k z) s = execGstore g x a k z s := rfl
@[simp] theorem exec_sstoreg (g : Guard) (h : BitVec 5) (a : BitVec 3) (s : State) : exec (.sstoreg g h a) s = execSstoreg g h a s := rfl
@[simp] theorem exec_sscaddg (g : Guard) (v : BitVec 5) (i : BitVec 5) (a : BitVec 3) (s : State) : exec (.sscaddg g v i a) s = execSscaddg g v i a s := rfl
@[simp] theorem exec_gseal (g : Guard) (d : BitVec 5) (a : BitVec 4) (s : State) : exec (.gseal g d a) s = execGseal g d a s := rfl
@[simp] theorem exec_gcommit (g : Guard) (d : BitVec 5) (k : BitVec 5) (s : State) : exec (.gcommit g d k) s = execGcommit g d k s := rfl
@[simp] theorem exec_gabort (g : Guard) (d : BitVec 5) (k : BitVec 5) (s : State) : exec (.gabort g d k) s = execGabort g d k s := rfl
@[simp] theorem exec_gwait (g : Guard) (d : BitVec 5) (k : BitVec 5) (s : State) : exec (.gwait g d k) s = execGwait g d k s := rfl
@[simp] theorem exec_gpeek (g : Guard) (d : BitVec 5) (a : BitVec 4) (s : State) : exec (.gpeek g d a) s = execGpeek g d a s := rfl
@[simp] theorem exec_gdeleg (g : Guard) (d : BitVec 5) (a : BitVec 4) (s : State) : exec (.gdeleg g d a) s = execGdeleg g d a s := rfl
@[simp] theorem exec_gstat (g : Guard) (d : BitVec 5) (k : BitVec 5) (s : State) : exec (.gstat g d k) s = execGstat g d k s := rfl
@[simp] theorem exec_barDeparture (x : Nat) (s : State) : exec (.barDeparture x) s = execBarDeparture x s := rfl
@[simp] theorem exec_windowAnswer (x : Nat) (s : State) : exec (.windowAnswer x) s = execWindowAnswer x s := rfl
@[simp] theorem exec_sallocAnswer (x : Nat) (s : State) : exec (.sallocAnswer x) s = execSallocAnswer x s := rfl
@[simp] theorem exec_remoteStallCopy (c : Nat) (e : Nat) (s : State) : exec (.remoteStallCopy c e) s = execRemoteStallCopy c e s := rfl
@[simp] theorem exec_entryStart (c : Nat) (e : Nat) (s : State) : exec (.entryStart c e) s = execEntryStart c e s := rfl
@[simp] theorem exec_entryRetire (c : Nat) (e : Nat) (s : State) : exec (.entryRetire c e) s = execEntryRetire c e s := rfl
@[simp] theorem exec_invocationFirstBundle (c : Nat) (s : State) : exec (.invocationFirstBundle c) s = execInvocationFirstBundle c s := rfl
@[simp] theorem exec_kernelBundleIssue (c : Nat) (s : State) : exec (.kernelBundleIssue c) s = execKernelBundleIssue c s := rfl
@[simp] theorem exec_writeLanding (c : Nat) (s : State) : exec (.writeLanding c) s = execWriteLanding c s := rfl
@[simp] theorem exec_iterationBoundaryStop (c : Nat) (s : State) : exec (.iterationBoundaryStop c) s = execIterationBoundaryStop c s := rfl
@[simp] theorem exec_kernelReload (c : Nat) (s : State) : exec (.kernelReload c) s = execKernelReload c s := rfl
@[simp] theorem exec_cubeStepIssue (c : Nat) (s : State) : exec (.cubeStepIssue c) s = execCubeStepIssue c s := rfl
@[simp] theorem exec_cubeStepLanding (c : Nat) (s : State) : exec (.cubeStepLanding c) s = execCubeStepLanding c s := rfl
@[simp] theorem exec_planeFetchReady (c : Nat) (b : Nat) (s : State) : exec (.planeFetchReady c b) s = execPlaneFetchReady c b s := rfl
@[simp] theorem exec_planeFetchFailure (c : Nat) (b : Nat) (s : State) : exec (.planeFetchFailure c b) s = execPlaneFetchFailure c b s := rfl
@[simp] theorem exec_remotePlaneRead (c : Nat) (b : Nat) (s : State) : exec (.remotePlaneRead c b) s = execRemotePlaneRead c b s := rfl
@[simp] theorem exec_homePlainAccess (q : HomeReq) (s : State) : exec (.homePlainAccess q) s = execHomePlainAccess q s := rfl
@[simp] theorem exec_convertedAccess (r : Nat) (s : State) : exec (.convertedAccess r) s = execConvertedAccess r s := rfl
@[simp] theorem exec_atomicAtHome (r : Nat) (s : State) : exec (.atomicAtHome r) s = execAtomicAtHome r s := rfl
@[simp] theorem exec_scatterAddAtHome (c : Nat) (e : Nat) (s : State) : exec (.scatterAddAtHome c e) s = execScatterAddAtHome c e s := rfl
@[simp] theorem exec_rowUpdateAtHome (c : Nat) (e : Nat) (s : State) : exec (.rowUpdateAtHome c e) s = execRowUpdateAtHome c e s := rfl
@[simp] theorem exec_qpushAtHome (r : Nat) (s : State) : exec (.qpushAtHome r) s = execQpushAtHome r s := rfl
@[simp] theorem exec_qpopAtHome (r : Nat) (s : State) : exec (.qpopAtHome r) s = execQpopAtHome r s := rfl
@[simp] theorem exec_leaseEnd (r : Nat) (s : State) : exec (.leaseEnd r) s = execLeaseEnd r s := rfl
@[simp] theorem exec_loadAnswer (r : Nat) (s : State) : exec (.loadAnswer r) s = execLoadAnswer r s := rfl
@[simp] theorem exec_hotctlFlush (d : Nat) (s : State) : exec (.hotctlFlush d) s = execHotctlFlush d s := rfl
@[simp] theorem exec_hotctlClear (d : Nat) (s : State) : exec (.hotctlClear d) s = execHotctlClear d s := rfl
@[simp] theorem exec_tableWalk (c : Nat) (va : BitVec 64) (kind : BitVec 4) (s : State) : exec (.tableWalk c va kind) s = execTableWalk c va kind s := rfl
@[simp] theorem exec_pageScan (c : Nat) (va : BitVec 64) (s : State) : exec (.pageScan c va) s = execPageScan c va s := rfl
@[simp] theorem exec_migrationLockReread (c : Nat) (n : Nat) (s : State) : exec (.migrationLockReread c n) s = execMigrationLockReread c n s := rfl
@[simp] theorem exec_upcallRetry (d : Nat) (n : Nat) (s : State) : exec (.upcallRetry d n) s = execUpcallRetry d n s := rfl
@[simp] theorem exec_pagerAnswer (d : Nat) (s : State) : exec (.pagerAnswer d) s = execPagerAnswer d s := rfl
@[simp] theorem exec_tinvVpn (d : Nat) (vpn : BitVec 39) (s : State) : exec (.tinvVpn d vpn) s = execTinvVpn d vpn s := rfl
@[simp] theorem exec_tinvAll (d : Nat) (s : State) : exec (.tinvAll d) s = execTinvAll d s := rfl
@[simp] theorem exec_tinvComplete (d : Nat) (s : State) : exec (.tinvComplete d) s = execTinvComplete d s := rfl
@[simp] theorem exec_migCopy (p : Nat) (old : BitVec 28) (new : BitVec 28) (s : State) : exec (.migCopy p old new) s = execMigCopy p old new s := rfl
@[simp] theorem exec_migFinalise (p : Nat) (s : State) : exec (.migFinalise p) s = execMigFinalise p s := rfl
@[simp] theorem exec_migRelease (p : Nat) (s : State) : exec (.migRelease p) s = execMigRelease p s := rfl
@[simp] theorem exec_migCancel (p : Nat) (s : State) : exec (.migCancel p) s = execMigCancel p s := rfl
@[simp] theorem exec_migrationLineCopy (p : Nat) (s : State) : exec (.migrationLineCopy p) s = execMigrationLineCopy p s := rfl
@[simp] theorem exec_migrationMoved (p : Nat) (s : State) : exec (.migrationMoved p) s = execMigrationMoved p s := rfl
@[simp] theorem exec_migrationRedirect (r : Nat) (s : State) : exec (.migrationRedirect r) s = execMigrationRedirect r s := rfl
@[simp] theorem exec_synctAlign (x : Nat) (s : State) : exec (.synctAlign x) s = execSynctAlign x s := rfl
@[simp] theorem exec_verbAtTarget (v : Nat) (s : State) : exec (.verbAtTarget v) s = execVerbAtTarget v s := rfl
@[simp] theorem exec_verbAnswer (v : Nat) (s : State) : exec (.verbAnswer v) s = execVerbAnswer v s := rfl
@[simp] theorem exec_putSignalAdd (v : Nat) (s : State) : exec (.putSignalAdd v) s = execPutSignalAdd v s := rfl
@[simp] theorem exec_routeRedirect (v : Nat) (s : State) : exec (.routeRedirect v) s = execRouteRedirect v s := rfl
@[simp] theorem exec_verbTimeout (v : Nat) (s : State) : exec (.verbTimeout v) s = execVerbTimeout v s := rfl
@[simp] theorem exec_itctlSwap (p : Nat) (s : State) : exec (.itctlSwap p) s = execItctlSwap p s := rfl
@[simp] theorem exec_portTrainingAttempt (p : Nat) (port : Nat) (why : Nat) (s : State) : exec (.portTrainingAttempt p port why) s = execPortTrainingAttempt p port why s := rfl
@[simp] theorem exec_lpcfgWrite (d : Nat) (q : Nat) (v : BitVec 64) (s : State) : exec (.lpcfgWrite d q v) s = execLpcfgWrite d q v s := rfl
@[simp] theorem exec_groupTagFailure (p : Nat) (port : FlitGroup) (s : State) : exec (.groupTagFailure p port) s = execGroupTagFailure p port s := rfl
@[simp] theorem exec_dbgctlHalt (d : Nat) (v : BitVec 64) (s : State) : exec (.dbgctlHalt d v) s = execDbgctlHalt d v s := rfl
@[simp] theorem exec_gwaitReturn (x : Nat) (s : State) : exec (.gwaitReturn x) s = execGwaitReturn x s := rfl
@[simp] theorem exec_enlistRequest (k : Nat) (s : State) : exec (.enlistRequest k) s = execEnlistRequest k s := rfl
@[simp] theorem exec_enlistAnswer (k : Nat) (s : State) : exec (.enlistAnswer k) s = execEnlistAnswer k s := rfl
@[simp] theorem exec_shedAdmit (k : Nat) (s : State) : exec (.shedAdmit k) s = execShedAdmit k s := rfl
@[simp] theorem exec_storeAck (k : Nat) (s : State) : exec (.storeAck k) s = execStoreAck k s := rfl
@[simp] theorem exec_storeRefusal (k : Nat) (s : State) : exec (.storeRefusal k) s = execStoreRefusal k s := rfl
@[simp] theorem exec_sealReport (k : Nat) (s : State) : exec (.sealReport k) s = execSealReport k s := rfl
@[simp] theorem exec_groupApply (k : Nat) (s : State) : exec (.groupApply k) s = execGroupApply k s := rfl
@[simp] theorem exec_applyAck (k : Nat) (s : State) : exec (.applyAck k) s = execApplyAck k s := rfl
@[simp] theorem exec_groupDiscard (k : Nat) (s : State) : exec (.groupDiscard k) s = execGroupDiscard k s := rfl
@[simp] theorem exec_discardAck (k : Nat) (s : State) : exec (.discardAck k) s = execDiscardAck k s := rfl
@[simp] theorem exec_decisionAtSource (k : Nat) (s : State) : exec (.decisionAtSource k) s = execDecisionAtSource k s := rfl
@[simp] theorem exec_leaseQuery (h : Nat) (grp : BitVec 32) (s : State) : exec (.leaseQuery h grp) s = execLeaseQuery h grp s := rfl
@[simp] theorem exec_queryAnswer (k : Nat) (s : State) : exec (.queryAnswer k) s = execQueryAnswer k s := rfl
@[simp] theorem exec_deadlineExpiry (c : Nat) (slot : Nat) (s : State) : exec (.deadlineExpiry c slot) s = execDeadlineExpiry c slot s := rfl
@[simp] theorem exec_placementNotice (k : Nat) (s : State) : exec (.placementNotice k) s = execPlacementNotice k s := rfl
@[simp] theorem exec_resetNotice (p : Nat) (q : Nat) (s : State) : exec (.resetNotice p q) s = execResetNotice p q s := rfl
@[simp] theorem exec_shforceApply (d : Nat) (grp : BitVec 32) (s : State) : exec (.shforceApply d grp) s = execShforceApply d grp s := rfl
@[simp] theorem exec_shforceDiscard (d : Nat) (grp : BitVec 32) (s : State) : exec (.shforceDiscard d grp) s = execShforceDiscard d grp s := rfl
@[simp] theorem exec_heldPacketReroute (k : Nat) (s : State) : exec (.heldPacketReroute k) s = execHeldPacketReroute k s := rfl
@[simp] theorem exec_paddockApply (p : Nat) (s : State) : exec (.paddockApply p) s = execPaddockApply p s := rfl
@[simp] theorem exec_padcqpHeadWrite (p : Nat) (v : BitVec 32) (s : State) : exec (.padcqpHeadWrite p v) s = execPadcqpHeadWrite p v s := rfl
@[simp] theorem exec_lqpTailWrite (p : Nat) (v : BitVec 32) (s : State) : exec (.lqpTailWrite p v) s = execLqpTailWrite p v s := rfl
@[simp] theorem exec_loadRecord (p : Nat) (s : State) : exec (.loadRecord p) s = execLoadRecord p s := rfl
@[simp] theorem exec_unloadRecord (p : Nat) (s : State) : exec (.unloadRecord p) s = execUnloadRecord p s := rfl
@[simp] theorem exec_runRecord (p : Nat) (s : State) : exec (.runRecord p) s = execRunRecord p s := rfl
@[simp] theorem exec_taskPlacement (p : Nat) (run : Nat) (node : Nat) (wid : BitVec 64) (x : Nat) (blk : Nat) (s : State) : exec (.taskPlacement p run node wid x blk) s = execTaskPlacement p run node wid x blk s := rfl
@[simp] theorem exec_saveAreaFillDone (x : Nat) (s : State) : exec (.saveAreaFillDone x) s = execSaveAreaFillDone x s := rfl
@[simp] theorem exec_copyNode (p : Nat) (run : Nat) (node : Nat) (s : State) : exec (.copyNode p run node) s = execCopyNode p run node s := rfl
@[simp] theorem exec_eventNode (p : Nat) (run : Nat) (node : Nat) (s : State) : exec (.eventNode p run node) s = execEventNode p run node s := rfl
@[simp] theorem exec_conditionalNode (p : Nat) (run : Nat) (node : Nat) (s : State) : exec (.conditionalNode p run node) s = execConditionalNode p run node s := rfl
@[simp] theorem exec_loopNode (p : Nat) (run : Nat) (node : Nat) (s : State) : exec (.loopNode p run node) s = execLoopNode p run node s := rfl
@[simp] theorem exec_taskEnd (x : Nat) (s : State) : exec (.taskEnd x) s = execTaskEnd x s := rfl
@[simp] theorem exec_taskSave (x : Nat) (s : State) : exec (.taskSave x) s = execTaskSave x s := rfl
@[simp] theorem exec_taskRestore (p : Nat) (t : Nat) (x : Nat) (s : State) : exec (.taskRestore p t x) s = execTaskRestore p t x s := rfl
@[simp] theorem exec_quantumExpiry (x : Nat) (s : State) : exec (.quantumExpiry x) s = execQuantumExpiry x s := rfl
@[simp] theorem exec_priorityPreemption (x : Nat) (s : State) : exec (.priorityPreemption x) s = execPriorityPreemption x s := rfl
@[simp] theorem exec_graphComplete (p : Nat) (run : Nat) (s : State) : exec (.graphComplete p run) s = execGraphComplete p run s := rfl
@[simp] theorem exec_bar2Access (p : Nat) (pa : Nat) (wr : Bool) (n : Nat) (data : BitVec 64) (s : State) : exec (.bar2Access p pa wr n data) s = execBar2Access p pa wr n data s := rfl
@[simp] theorem exec_sctlClrfail (p : SvcCmd) (s : State) : exec (.sctlClrfail p) s = execSctlClrfail p s := rfl
@[simp] theorem exec_sctlRestart (p : SvcCmd) (s : State) : exec (.sctlRestart p) s = execSctlRestart p s := rfl
@[simp] theorem exec_startUp (p : Nat) (cause : BitVec 3) (fail : Nat) (code : BitVec 8) (sd : BitVec 4) (s : State) : exec (.startUp p cause fail code sd) s = execStartUp p cause fail code sd s := rfl
@[simp] theorem exec_firmwareUpdate (p : Nat) (img : List (BitVec 8)) (key : List (BitVec 8)) (ver : BitVec 16) (sig : List (BitVec 8)) (s : State) : exec (.firmwareUpdate p img key ver sig) s = execFirmwareUpdate p img key ver sig s := rfl
@[simp] theorem exec_spdmMeasurement (p : Nat) (idx : Nat) (s : State) : exec (.spdmMeasurement p idx) s = execSpdmMeasurement p idx s := rfl
@[simp] theorem exec_linkKeyLoad (p : SvcCmd) (port : Nat) (dir : Bool) (key : BitVec 128) (s : State) : exec (.linkKeyLoad p port dir key) s = execLinkKeyLoad p port dir key s := rfl
@[simp] theorem exec_pldmSensorRead (p : Nat) (sensor : Nat) (s : State) : exec (.pldmSensorRead p sensor) s = execPldmSensorRead p sensor s := rfl
@[simp] theorem exec_clockStep (p : Nat) (s : State) : exec (.clockStep p) s = execClockStep p s := rfl
@[simp] theorem exec_thermalTrip (p : Nat) (die : Nat) (s : State) : exec (.thermalTrip p die) s = execThermalTrip p die s := rfl
@[simp] theorem exec_registerWrite (d : Nat) (off : BarAt) (v : BitVec 64) (s : State) : exec (.registerWrite d off v) s = execRegisterWrite d off v s := rfl
@[simp] theorem exec_portPeerLost (p : Nat) (port : Nat) (s : State) : exec (.portPeerLost p port) s = execPortPeerLost p port s := rfl
@[simp] theorem exec_d2dLinkFailure (p : Nat) (a : Nat) (b : Nat) (s : State) : exec (.d2dLinkFailure p a b) s = execD2dLinkFailure p a b s := rfl
@[simp] theorem exec_linkedHoldReport (p : Nat) (q : Nat) (held : Bool) (s : State) : exec (.linkedHoldReport p q held) s = execLinkedHoldReport p q held s := rfl
@[simp] theorem exec_sourceAbortReport (k : Nat) (s : State) : exec (.sourceAbortReport k) s = execSourceAbortReport k s := rfl
@[simp] theorem exec_windowStoreWrite (x : Nat) (s : State) : exec (.windowStoreWrite x) s = execWindowStoreWrite x s := rfl

end Sys2Proof.Machine
end

