-- ==== Sys2Proof/Laws/Tab.lean ====
section
/-! SUPPORT. Tables and memory: read after write, and the canonical form. -/

namespace Sys2Proof.Machine

theorem Tab.get_erase_same {α : Type} (d : α) (t : Tab α) (k : Nat) : Tab.get d (Tab.erase t k) k = d := by
  induction t with
  | nil => rfl
  | cons p t ih =>
    obtain ⟨i, v⟩ := p
    by_cases h : i = k
    · simpa [Tab.erase, h] using ih
    · simpa [Tab.erase, Tab.get, h] using ih

theorem Tab.get_erase_other {α : Type} (d : α) (t : Tab α) {j k : Nat} (hj : j ≠ k) :
    Tab.get d (Tab.erase t k) j = Tab.get d t j := by
  induction t with
  | nil => rfl
  | cons p t ih =>
    obtain ⟨i, v⟩ := p
    by_cases h : i = k
    · subst h; simpa [Tab.erase, Tab.get, Ne.symm hj] using ih
    · by_cases g : i = j
      · simp only [Tab.erase, if_neg h, Tab.get, if_pos g]
      · simpa [Tab.erase, Tab.get, h, g] using ih

theorem Tab.get_insert_same {α : Type} (d : α) (t : Tab α) (k : Nat) (v : α) (ht : ∀ p ∈ t, p.1 ≠ k) :
    Tab.get d (Tab.insert t k v) k = v := by
  induction t with
  | nil => simp [Tab.insert, Tab.get]
  | cons p t ih =>
    obtain ⟨i, w⟩ := p
    have hi : i ≠ k := ht (i, w) (by simp)
    by_cases h : k < i
    · simp [Tab.insert, Tab.get, h]
    · simpa [Tab.insert, Tab.get, h, hi] using ih (fun q hq => ht q (by simp [hq]))

theorem Tab.get_insert_other {α : Type} (d : α) (t : Tab α) (v : α) {j k : Nat} (hj : j ≠ k) :
    Tab.get d (Tab.insert t k v) j = Tab.get d t j := by
  induction t with
  | nil => simp [Tab.insert, Tab.get, Ne.symm hj]
  | cons p t ih =>
    obtain ⟨i, w⟩ := p
    by_cases h : k < i
    · simp [Tab.insert, Tab.get, h, Ne.symm hj]
    · simp only [Tab.insert, if_neg h, Tab.get, ih]

theorem Tab.erase_no_key {α : Type} (t : Tab α) (k : Nat) : ∀ p ∈ Tab.erase t k, p.1 ≠ k := by
  induction t with
  | nil => simp [Tab.erase]
  | cons q t ih =>
    obtain ⟨i, v⟩ := q
    by_cases h : i = k
    · simpa [Tab.erase, h] using ih
    · intro p hp
      simp [Tab.erase, h] at hp
      rcases hp with rfl | hp
      · exact h
      · exact ih p hp

/-- A table reads back what was written, at the index written. -/
@[simp] theorem Tab.get_set_same {α : Type} [DecidableEq α] (d : α) (t : Tab α) (k : Nat) (v : α) :
    Tab.get d (Tab.set d t k v) k = v := by
  unfold Tab.set
  split
  · rename_i h; rw [Tab.get_erase_same, h]
  · exact Tab.get_insert_same d _ k v (Tab.erase_no_key t k)

/-- A write leaves every other index alone. -/
theorem Tab.get_set_other {α : Type} [DecidableEq α] (d : α) (t : Tab α) (v : α) {j k : Nat} (hj : j ≠ k) :
    Tab.get d (Tab.set d t k v) j = Tab.get d t j := by
  unfold Tab.set
  split
  · exact Tab.get_erase_other d t hj
  · rw [Tab.get_insert_other d _ v hj, Tab.get_erase_other d t hj]

/-- The canonical form of tables, entry by entry. -/
theorem Tab.wf_cons {α : Type} [DecidableEq α] (d : α) (i : Nat) (v : α) (t : Tab α) :
    Tab.wf d ((i, v) :: t) = true ↔ v ≠ d ∧ (∀ p ∈ t, i < p.1) ∧ Tab.wf d t = true := by
  induction t generalizing i v with
  | nil => simp [Tab.wf]
  | cons q t ih =>
    obtain ⟨j, w⟩ := q
    constructor
    · intro h
      simp [Tab.wf] at h
      obtain ⟨⟨hv, hij⟩, hw⟩ := h
      have := (ih j w).1 hw
      refine ⟨hv, ?_, hw⟩
      intro p hp
      rcases List.mem_cons.1 hp with rfl | hp
      · exact hij
      · exact lt_trans hij (this.2.1 p hp)
    · rintro ⟨hv, hlt, hw⟩
      simp [Tab.wf, hv, hw]
      exact hlt (j, w) (by simp)

theorem Tab.erase_keys {α : Type} (t : Tab α) (k : Nat) : ∀ p ∈ Tab.erase t k, p ∈ t := by
  induction t with
  | nil => simp [Tab.erase]
  | cons q t ih =>
    obtain ⟨i, v⟩ := q
    intro p hp
    by_cases h : i = k
    · simp [Tab.erase, h] at hp; exact List.mem_cons_of_mem _ (ih p hp)
    · simp [Tab.erase, h] at hp
      rcases hp with rfl | hp
      · simp
      · exact List.mem_cons_of_mem _ (ih p hp)

theorem Tab.wf_erase {α : Type} [DecidableEq α] (d : α) (t : Tab α) (k : Nat) (h : Tab.wf d t = true) :
    Tab.wf d (Tab.erase t k) = true := by
  induction t with
  | nil => rfl
  | cons p t ih =>
    obtain ⟨i, v⟩ := p
    obtain ⟨hv, hl, hw⟩ := (Tab.wf_cons d i v t).1 h
    by_cases g : i = k
    · simpa [Tab.erase, g] using ih hw
    · simp only [Tab.erase, g, if_false]
      exact (Tab.wf_cons d i v _).2 ⟨hv, fun p hp => hl p (Tab.erase_keys t k p hp), ih hw⟩

theorem Tab.insert_keys {α : Type} (t : Tab α) (k : Nat) (v : α) : ∀ p ∈ Tab.insert t k v, p = (k, v) ∨ p ∈ t := by
  induction t with
  | nil => simp [Tab.insert]
  | cons q t ih =>
    obtain ⟨i, w⟩ := q
    intro p hp
    by_cases h : k < i
    · simp [Tab.insert, h] at hp
      rcases hp with rfl | rfl | hp <;> simp_all
    · simp [Tab.insert, h] at hp
      rcases hp with rfl | hp
      · simp
      · rcases ih p hp with rfl | hq
        · simp
        · simp [hq]

theorem Tab.wf_insert {α : Type} [DecidableEq α] (d : α) (t : Tab α) (k : Nat) (v : α) (hv : v ≠ d)
    (hk : ∀ p ∈ t, p.1 ≠ k) (h : Tab.wf d t = true) : Tab.wf d (Tab.insert t k v) = true := by
  induction t with
  | nil => simp [Tab.insert, Tab.wf, hv]
  | cons p t ih =>
    obtain ⟨i, w⟩ := p
    obtain ⟨hw, hl, ht⟩ := (Tab.wf_cons d i w t).1 h
    have hik : i ≠ k := hk (i, w) (by simp)
    by_cases g : k < i
    · simp only [Tab.insert, g, if_true]
      refine (Tab.wf_cons d k v _).2 ⟨hv, ?_, h⟩
      intro p hp
      rcases List.mem_cons.1 hp with rfl | hp
      · exact g
      · exact lt_trans g (hl p hp)
    · simp only [Tab.insert, g, if_false]
      refine (Tab.wf_cons d i w _).2 ⟨hw, ?_, ih (fun p hp => hk p (by simp [hp])) ht⟩
      intro p hp
      rcases Tab.insert_keys t k v p hp with rfl | hp
      · show i < k; omega
      · exact hl p hp

/-- Every write keeps the canonical form. -/
theorem Tab.wf_set {α : Type} [DecidableEq α] (d : α) (t : Tab α) (k : Nat) (v : α) (h : Tab.wf d t = true) :
    Tab.wf d (Tab.set d t k v) = true := by
  unfold Tab.set
  split
  · exact Tab.wf_erase d t k h
  · rename_i hv; exact Tab.wf_insert d _ k v hv (Tab.erase_no_key t k) (Tab.wf_erase d t k h)

theorem Tab.wf_filter {α : Type} [DecidableEq α] (d : α) (t : Tab α) (f : Nat × α → Bool) (h : Tab.wf d t = true) :
    Tab.wf d (t.filter f) = true := by
  induction t with
  | nil => rfl
  | cons p t ih =>
    obtain ⟨i, v⟩ := p
    obtain ⟨hv, hl, ht⟩ := (Tab.wf_cons d i v t).1 h
    by_cases g : f (i, v)
    · simp only [List.filter_cons, g, if_true]
      exact (Tab.wf_cons d i v _).2 ⟨hv, fun p hp => hl p (List.mem_of_mem_filter hp), ih ht⟩
    · simpa [List.filter_cons, g] using ih ht

/-! ## Memory -/

@[simp] theorem Memory.get_set_same (m : Memory) (a : Nat) (v : Byte) : (m.set a v).get a = v := Tab.get_set_same _ _ _ _

theorem Memory.get_set_other (m : Memory) (v : Byte) {a b : Nat} (h : b ≠ a) : (m.set a v).get b = m.get b :=
  Tab.get_set_other _ _ _ h

theorem Memory.wf_set (m : Memory) (a : Nat) (v : Byte) (h : m.wf = true) : (m.set a v).wf = true := Tab.wf_set _ _ _ _ h

/-- A write of bytes leaves every address outside them alone. -/
theorem Memory.get_write_outside (bs : List Byte) : ∀ (m : Memory) (a b : Nat), b < a ∨ a + bs.length ≤ b →
    (Memory.write m a bs).get b = m.get b := by
  induction bs with
  | nil => intro m a b _; rfl
  | cons x xs ih =>
    intro m a b h
    simp only [List.length_cons] at h
    rw [Memory.write, ih (m.set a x) (a + 1) b (by omega), Memory.get_set_other m x (by omega)]

/-- A write of bytes reads back, byte by byte. -/
theorem Memory.get_write_inside (bs : List Byte) : ∀ (m : Memory) (a i : Nat) (h : i < bs.length),
    (Memory.write m a bs).get (a + i) = bs[i] := by
  induction bs with
  | nil => intro m a i h; simp at h
  | cons x xs ih =>
    intro m a i h
    cases i with
    | zero => rw [Memory.write, Memory.get_write_outside xs _ _ _ (by omega)]; simp
    | succ j =>
      have := ih (m.set a x) (a + 1) j (by simpa using h)
      rw [Memory.write]
      simpa [Nat.add_assoc, Nat.add_comm 1 j] using this

/-- Every write of bytes keeps the canonical form. -/
theorem Memory.wf_write (bs : List Byte) : ∀ (m : Memory) (a : Nat), m.wf = true → (Memory.write m a bs).wf = true := by
  induction bs with
  | nil => intro m a h; exact h
  | cons x xs ih => intro m a h; exact ih _ _ (Memory.wf_set m a x h)

end Sys2Proof.Machine
end

