-- ==== Sys2Proof/Laws/State.lean ====
section
/-! SUPPORT. What each update of a unit leaves alone, and that a unit reads back what was written. -/

namespace Sys2Proof.Machine

/-! ## setCtx -/

@[simp] theorem State.setCtx_cores (s : State) (x : Nat) (c : Ctx) : (s.setCtx x c).cores = s.cores := rfl
@[simp] theorem State.setCtx_dies (s : State) (x : Nat) (c : Ctx) : (s.setCtx x c).dies = s.dies := rfl
@[simp] theorem State.setCtx_pkgs (s : State) (x : Nat) (c : Ctx) : (s.setCtx x c).pkgs = s.pkgs := rfl
@[simp] theorem State.setCtx_sheds (s : State) (x : Nat) (c : Ctx) : (s.setCtx x c).sheds = s.sheds := rfl
@[simp] theorem State.setCtx_mem (s : State) (x : Nat) (c : Ctx) : (s.setCtx x c).mem = s.mem := rfl
@[simp] theorem State.setCtx_host (s : State) (x : Nat) (c : Ctx) : (s.setCtx x c).host = s.host := rfl
@[simp] theorem State.setCtx_errs (s : State) (x : Nat) (c : Ctx) : (s.setCtx x c).errs = s.errs := rfl
@[simp] theorem State.setCtx_reqs (s : State) (x : Nat) (c : Ctx) : (s.setCtx x c).reqs = s.reqs := rfl
@[simp] theorem State.setCtx_verbs (s : State) (x : Nat) (c : Ctx) : (s.setCtx x c).verbs = s.verbs := rfl
@[simp] theorem State.setCtx_pkts (s : State) (x : Nat) (c : Ctx) : (s.setCtx x c).pkts = s.pkts := rfl
@[simp] theorem State.setCtx_nextId (s : State) (x : Nat) (c : Ctx) : (s.setCtx x c).nextId = s.nextId := rfl
@[simp] theorem State.setCtx_now (s : State) (x : Nat) (c : Ctx) : (s.setCtx x c).now = s.now := rfl
@[simp] theorem State.setCtx_turns (s : State) (x : Nat) (c : Ctx) : (s.setCtx x c).turns = s.turns := rfl
@[simp] theorem State.setCtx_round (s : State) (x : Nat) (c : Ctx) : (s.setCtx x c).round = s.round := rfl
@[simp] theorem State.setCtx_cur (s : State) (x : Nat) (c : Ctx) : (s.setCtx x c).cur = s.cur := rfl
@[simp] theorem State.setCtx_free (s : State) (x : Nat) (c : Ctx) : (s.setCtx x c).free = s.free := rfl
@[simp] theorem State.ctx_setCtx_same (s : State) (x : Nat) (c : Ctx) : (s.setCtx x c).ctx x = c :=
  Tab.get_set_same _ _ _ _
theorem State.ctx_setCtx_other (s : State) (c : Ctx) {x y : Nat} (h : y ≠ x) : (s.setCtx x c).ctx y = s.ctx y :=
  Tab.get_set_other _ _ _ h
@[simp] theorem State.core_setCtx (s : State) (x y : Nat) (c : Ctx) : (s.setCtx x c).core y = s.core y := rfl
@[simp] theorem State.die_setCtx (s : State) (x y : Nat) (c : Ctx) : (s.setCtx x c).die y = s.die y := rfl
@[simp] theorem State.pkg_setCtx (s : State) (x y : Nat) (c : Ctx) : (s.setCtx x c).pkg y = s.pkg y := rfl
@[simp] theorem State.req_setCtx (s : State) (x y : Nat) (c : Ctx) : (s.setCtx x c).req y = s.req y := rfl
@[simp] theorem State.verb_setCtx (s : State) (x y : Nat) (c : Ctx) : (s.setCtx x c).verb y = s.verb y := rfl
@[simp] theorem State.pkt_setCtx (s : State) (x y : Nat) (c : Ctx) : (s.setCtx x c).pkt y = s.pkt y := rfl

/-! ## setCore -/

@[simp] theorem State.setCore_ctxs (s : State) (c : Nat) (v : Core) : (s.setCore c v).ctxs = s.ctxs := rfl
@[simp] theorem State.setCore_dies (s : State) (c : Nat) (v : Core) : (s.setCore c v).dies = s.dies := rfl
@[simp] theorem State.setCore_pkgs (s : State) (c : Nat) (v : Core) : (s.setCore c v).pkgs = s.pkgs := rfl
@[simp] theorem State.setCore_sheds (s : State) (c : Nat) (v : Core) : (s.setCore c v).sheds = s.sheds := rfl
@[simp] theorem State.setCore_mem (s : State) (c : Nat) (v : Core) : (s.setCore c v).mem = s.mem := rfl
@[simp] theorem State.setCore_host (s : State) (c : Nat) (v : Core) : (s.setCore c v).host = s.host := rfl
@[simp] theorem State.setCore_errs (s : State) (c : Nat) (v : Core) : (s.setCore c v).errs = s.errs := rfl
@[simp] theorem State.setCore_reqs (s : State) (c : Nat) (v : Core) : (s.setCore c v).reqs = s.reqs := rfl
@[simp] theorem State.setCore_verbs (s : State) (c : Nat) (v : Core) : (s.setCore c v).verbs = s.verbs := rfl
@[simp] theorem State.setCore_pkts (s : State) (c : Nat) (v : Core) : (s.setCore c v).pkts = s.pkts := rfl
@[simp] theorem State.setCore_nextId (s : State) (c : Nat) (v : Core) : (s.setCore c v).nextId = s.nextId := rfl
@[simp] theorem State.setCore_now (s : State) (c : Nat) (v : Core) : (s.setCore c v).now = s.now := rfl
@[simp] theorem State.setCore_turns (s : State) (c : Nat) (v : Core) : (s.setCore c v).turns = s.turns := rfl
@[simp] theorem State.setCore_round (s : State) (c : Nat) (v : Core) : (s.setCore c v).round = s.round := rfl
@[simp] theorem State.setCore_cur (s : State) (c : Nat) (v : Core) : (s.setCore c v).cur = s.cur := rfl
@[simp] theorem State.setCore_free (s : State) (c : Nat) (v : Core) : (s.setCore c v).free = s.free := rfl
@[simp] theorem State.core_setCore_same (s : State) (c : Nat) (v : Core) : (s.setCore c v).core c = v :=
  Tab.get_set_same _ _ _ _
theorem State.core_setCore_other (s : State) (v : Core) {c y : Nat} (h : y ≠ c) : (s.setCore c v).core y = s.core y :=
  Tab.get_set_other _ _ _ h
@[simp] theorem State.ctx_setCore (s : State) (c y : Nat) (v : Core) : (s.setCore c v).ctx y = s.ctx y := rfl
@[simp] theorem State.die_setCore (s : State) (c y : Nat) (v : Core) : (s.setCore c v).die y = s.die y := rfl
@[simp] theorem State.pkg_setCore (s : State) (c y : Nat) (v : Core) : (s.setCore c v).pkg y = s.pkg y := rfl
@[simp] theorem State.req_setCore (s : State) (c y : Nat) (v : Core) : (s.setCore c v).req y = s.req y := rfl
@[simp] theorem State.verb_setCore (s : State) (c y : Nat) (v : Core) : (s.setCore c v).verb y = s.verb y := rfl
@[simp] theorem State.pkt_setCore (s : State) (c y : Nat) (v : Core) : (s.setCore c v).pkt y = s.pkt y := rfl

/-! ## setDie -/

@[simp] theorem State.setDie_ctxs (s : State) (d : Nat) (v : Die) : (s.setDie d v).ctxs = s.ctxs := rfl
@[simp] theorem State.setDie_cores (s : State) (d : Nat) (v : Die) : (s.setDie d v).cores = s.cores := rfl
@[simp] theorem State.setDie_pkgs (s : State) (d : Nat) (v : Die) : (s.setDie d v).pkgs = s.pkgs := rfl
@[simp] theorem State.setDie_sheds (s : State) (d : Nat) (v : Die) : (s.setDie d v).sheds = s.sheds := rfl
@[simp] theorem State.setDie_mem (s : State) (d : Nat) (v : Die) : (s.setDie d v).mem = s.mem := rfl
@[simp] theorem State.setDie_host (s : State) (d : Nat) (v : Die) : (s.setDie d v).host = s.host := rfl
@[simp] theorem State.setDie_errs (s : State) (d : Nat) (v : Die) : (s.setDie d v).errs = s.errs := rfl
@[simp] theorem State.setDie_reqs (s : State) (d : Nat) (v : Die) : (s.setDie d v).reqs = s.reqs := rfl
@[simp] theorem State.setDie_verbs (s : State) (d : Nat) (v : Die) : (s.setDie d v).verbs = s.verbs := rfl
@[simp] theorem State.setDie_pkts (s : State) (d : Nat) (v : Die) : (s.setDie d v).pkts = s.pkts := rfl
@[simp] theorem State.setDie_nextId (s : State) (d : Nat) (v : Die) : (s.setDie d v).nextId = s.nextId := rfl
@[simp] theorem State.setDie_now (s : State) (d : Nat) (v : Die) : (s.setDie d v).now = s.now := rfl
@[simp] theorem State.setDie_turns (s : State) (d : Nat) (v : Die) : (s.setDie d v).turns = s.turns := rfl
@[simp] theorem State.setDie_round (s : State) (d : Nat) (v : Die) : (s.setDie d v).round = s.round := rfl
@[simp] theorem State.setDie_cur (s : State) (d : Nat) (v : Die) : (s.setDie d v).cur = s.cur := rfl
@[simp] theorem State.setDie_free (s : State) (d : Nat) (v : Die) : (s.setDie d v).free = s.free := rfl
@[simp] theorem State.die_setDie_same (s : State) (d : Nat) (v : Die) : (s.setDie d v).die d = v :=
  Tab.get_set_same _ _ _ _
theorem State.die_setDie_other (s : State) (v : Die) {d y : Nat} (h : y ≠ d) : (s.setDie d v).die y = s.die y :=
  Tab.get_set_other _ _ _ h
@[simp] theorem State.ctx_setDie (s : State) (d y : Nat) (v : Die) : (s.setDie d v).ctx y = s.ctx y := rfl
@[simp] theorem State.core_setDie (s : State) (d y : Nat) (v : Die) : (s.setDie d v).core y = s.core y := rfl
@[simp] theorem State.pkg_setDie (s : State) (d y : Nat) (v : Die) : (s.setDie d v).pkg y = s.pkg y := rfl
@[simp] theorem State.req_setDie (s : State) (d y : Nat) (v : Die) : (s.setDie d v).req y = s.req y := rfl
@[simp] theorem State.verb_setDie (s : State) (d y : Nat) (v : Die) : (s.setDie d v).verb y = s.verb y := rfl
@[simp] theorem State.pkt_setDie (s : State) (d y : Nat) (v : Die) : (s.setDie d v).pkt y = s.pkt y := rfl

/-! ## setPkg -/

@[simp] theorem State.setPkg_ctxs (s : State) (p : Nat) (v : Pkg) : (s.setPkg p v).ctxs = s.ctxs := rfl
@[simp] theorem State.setPkg_cores (s : State) (p : Nat) (v : Pkg) : (s.setPkg p v).cores = s.cores := rfl
@[simp] theorem State.setPkg_dies (s : State) (p : Nat) (v : Pkg) : (s.setPkg p v).dies = s.dies := rfl
@[simp] theorem State.setPkg_sheds (s : State) (p : Nat) (v : Pkg) : (s.setPkg p v).sheds = s.sheds := rfl
@[simp] theorem State.setPkg_mem (s : State) (p : Nat) (v : Pkg) : (s.setPkg p v).mem = s.mem := rfl
@[simp] theorem State.setPkg_host (s : State) (p : Nat) (v : Pkg) : (s.setPkg p v).host = s.host := rfl
@[simp] theorem State.setPkg_errs (s : State) (p : Nat) (v : Pkg) : (s.setPkg p v).errs = s.errs := rfl
@[simp] theorem State.setPkg_reqs (s : State) (p : Nat) (v : Pkg) : (s.setPkg p v).reqs = s.reqs := rfl
@[simp] theorem State.setPkg_verbs (s : State) (p : Nat) (v : Pkg) : (s.setPkg p v).verbs = s.verbs := rfl
@[simp] theorem State.setPkg_pkts (s : State) (p : Nat) (v : Pkg) : (s.setPkg p v).pkts = s.pkts := rfl
@[simp] theorem State.setPkg_nextId (s : State) (p : Nat) (v : Pkg) : (s.setPkg p v).nextId = s.nextId := rfl
@[simp] theorem State.setPkg_now (s : State) (p : Nat) (v : Pkg) : (s.setPkg p v).now = s.now := rfl
@[simp] theorem State.setPkg_turns (s : State) (p : Nat) (v : Pkg) : (s.setPkg p v).turns = s.turns := rfl
@[simp] theorem State.setPkg_round (s : State) (p : Nat) (v : Pkg) : (s.setPkg p v).round = s.round := rfl
@[simp] theorem State.setPkg_cur (s : State) (p : Nat) (v : Pkg) : (s.setPkg p v).cur = s.cur := rfl
@[simp] theorem State.setPkg_free (s : State) (p : Nat) (v : Pkg) : (s.setPkg p v).free = s.free := rfl
@[simp] theorem State.pkg_setPkg_same (s : State) (p : Nat) (v : Pkg) : (s.setPkg p v).pkg p = v :=
  Tab.get_set_same _ _ _ _
theorem State.pkg_setPkg_other (s : State) (v : Pkg) {p y : Nat} (h : y ≠ p) : (s.setPkg p v).pkg y = s.pkg y :=
  Tab.get_set_other _ _ _ h
@[simp] theorem State.ctx_setPkg (s : State) (p y : Nat) (v : Pkg) : (s.setPkg p v).ctx y = s.ctx y := rfl
@[simp] theorem State.core_setPkg (s : State) (p y : Nat) (v : Pkg) : (s.setPkg p v).core y = s.core y := rfl
@[simp] theorem State.die_setPkg (s : State) (p y : Nat) (v : Pkg) : (s.setPkg p v).die y = s.die y := rfl
@[simp] theorem State.req_setPkg (s : State) (p y : Nat) (v : Pkg) : (s.setPkg p v).req y = s.req y := rfl
@[simp] theorem State.verb_setPkg (s : State) (p y : Nat) (v : Pkg) : (s.setPkg p v).verb y = s.verb y := rfl
@[simp] theorem State.pkt_setPkg (s : State) (p y : Nat) (v : Pkg) : (s.setPkg p v).pkt y = s.pkt y := rfl

/-! ## setReq -/

@[simp] theorem State.setReq_ctxs (s : State) (r : Nat) (q : Option Req) : (s.setReq r q).ctxs = s.ctxs := rfl
@[simp] theorem State.setReq_cores (s : State) (r : Nat) (q : Option Req) : (s.setReq r q).cores = s.cores := rfl
@[simp] theorem State.setReq_dies (s : State) (r : Nat) (q : Option Req) : (s.setReq r q).dies = s.dies := rfl
@[simp] theorem State.setReq_pkgs (s : State) (r : Nat) (q : Option Req) : (s.setReq r q).pkgs = s.pkgs := rfl
@[simp] theorem State.setReq_sheds (s : State) (r : Nat) (q : Option Req) : (s.setReq r q).sheds = s.sheds := rfl
@[simp] theorem State.setReq_mem (s : State) (r : Nat) (q : Option Req) : (s.setReq r q).mem = s.mem := rfl
@[simp] theorem State.setReq_host (s : State) (r : Nat) (q : Option Req) : (s.setReq r q).host = s.host := rfl
@[simp] theorem State.setReq_errs (s : State) (r : Nat) (q : Option Req) : (s.setReq r q).errs = s.errs := rfl
@[simp] theorem State.setReq_verbs (s : State) (r : Nat) (q : Option Req) : (s.setReq r q).verbs = s.verbs := rfl
@[simp] theorem State.setReq_pkts (s : State) (r : Nat) (q : Option Req) : (s.setReq r q).pkts = s.pkts := rfl
@[simp] theorem State.setReq_nextId (s : State) (r : Nat) (q : Option Req) : (s.setReq r q).nextId = s.nextId := rfl
@[simp] theorem State.setReq_now (s : State) (r : Nat) (q : Option Req) : (s.setReq r q).now = s.now := rfl
@[simp] theorem State.setReq_turns (s : State) (r : Nat) (q : Option Req) : (s.setReq r q).turns = s.turns := rfl
@[simp] theorem State.setReq_round (s : State) (r : Nat) (q : Option Req) : (s.setReq r q).round = s.round := rfl
@[simp] theorem State.setReq_cur (s : State) (r : Nat) (q : Option Req) : (s.setReq r q).cur = s.cur := rfl
@[simp] theorem State.setReq_free (s : State) (r : Nat) (q : Option Req) : (s.setReq r q).free = s.free := rfl
@[simp] theorem State.req_setReq_same (s : State) (r : Nat) (q : Option Req) : (s.setReq r q).req r = q :=
  Tab.get_set_same _ _ _ _
theorem State.req_setReq_other (s : State) (q : Option Req) {r y : Nat} (h : y ≠ r) : (s.setReq r q).req y = s.req y :=
  Tab.get_set_other _ _ _ h
@[simp] theorem State.ctx_setReq (s : State) (r y : Nat) (q : Option Req) : (s.setReq r q).ctx y = s.ctx y := rfl
@[simp] theorem State.core_setReq (s : State) (r y : Nat) (q : Option Req) : (s.setReq r q).core y = s.core y := rfl
@[simp] theorem State.die_setReq (s : State) (r y : Nat) (q : Option Req) : (s.setReq r q).die y = s.die y := rfl
@[simp] theorem State.pkg_setReq (s : State) (r y : Nat) (q : Option Req) : (s.setReq r q).pkg y = s.pkg y := rfl
@[simp] theorem State.verb_setReq (s : State) (r y : Nat) (q : Option Req) : (s.setReq r q).verb y = s.verb y := rfl
@[simp] theorem State.pkt_setReq (s : State) (r y : Nat) (q : Option Req) : (s.setReq r q).pkt y = s.pkt y := rfl

/-! ## setVerb -/

@[simp] theorem State.setVerb_ctxs (s : State) (r : Nat) (q : Option Verb) : (s.setVerb r q).ctxs = s.ctxs := rfl
@[simp] theorem State.setVerb_cores (s : State) (r : Nat) (q : Option Verb) : (s.setVerb r q).cores = s.cores := rfl
@[simp] theorem State.setVerb_dies (s : State) (r : Nat) (q : Option Verb) : (s.setVerb r q).dies = s.dies := rfl
@[simp] theorem State.setVerb_pkgs (s : State) (r : Nat) (q : Option Verb) : (s.setVerb r q).pkgs = s.pkgs := rfl
@[simp] theorem State.setVerb_sheds (s : State) (r : Nat) (q : Option Verb) : (s.setVerb r q).sheds = s.sheds := rfl
@[simp] theorem State.setVerb_mem (s : State) (r : Nat) (q : Option Verb) : (s.setVerb r q).mem = s.mem := rfl
@[simp] theorem State.setVerb_host (s : State) (r : Nat) (q : Option Verb) : (s.setVerb r q).host = s.host := rfl
@[simp] theorem State.setVerb_errs (s : State) (r : Nat) (q : Option Verb) : (s.setVerb r q).errs = s.errs := rfl
@[simp] theorem State.setVerb_reqs (s : State) (r : Nat) (q : Option Verb) : (s.setVerb r q).reqs = s.reqs := rfl
@[simp] theorem State.setVerb_pkts (s : State) (r : Nat) (q : Option Verb) : (s.setVerb r q).pkts = s.pkts := rfl
@[simp] theorem State.setVerb_nextId (s : State) (r : Nat) (q : Option Verb) : (s.setVerb r q).nextId = s.nextId := rfl
@[simp] theorem State.setVerb_now (s : State) (r : Nat) (q : Option Verb) : (s.setVerb r q).now = s.now := rfl
@[simp] theorem State.setVerb_turns (s : State) (r : Nat) (q : Option Verb) : (s.setVerb r q).turns = s.turns := rfl
@[simp] theorem State.setVerb_round (s : State) (r : Nat) (q : Option Verb) : (s.setVerb r q).round = s.round := rfl
@[simp] theorem State.setVerb_cur (s : State) (r : Nat) (q : Option Verb) : (s.setVerb r q).cur = s.cur := rfl
@[simp] theorem State.setVerb_free (s : State) (r : Nat) (q : Option Verb) : (s.setVerb r q).free = s.free := rfl
@[simp] theorem State.verb_setVerb_same (s : State) (r : Nat) (q : Option Verb) : (s.setVerb r q).verb r = q :=
  Tab.get_set_same _ _ _ _
theorem State.verb_setVerb_other (s : State) (q : Option Verb) {r y : Nat} (h : y ≠ r) : (s.setVerb r q).verb y = s.verb y :=
  Tab.get_set_other _ _ _ h
@[simp] theorem State.ctx_setVerb (s : State) (r y : Nat) (q : Option Verb) : (s.setVerb r q).ctx y = s.ctx y := rfl
@[simp] theorem State.core_setVerb (s : State) (r y : Nat) (q : Option Verb) : (s.setVerb r q).core y = s.core y := rfl
@[simp] theorem State.die_setVerb (s : State) (r y : Nat) (q : Option Verb) : (s.setVerb r q).die y = s.die y := rfl
@[simp] theorem State.pkg_setVerb (s : State) (r y : Nat) (q : Option Verb) : (s.setVerb r q).pkg y = s.pkg y := rfl
@[simp] theorem State.req_setVerb (s : State) (r y : Nat) (q : Option Verb) : (s.setVerb r q).req y = s.req y := rfl
@[simp] theorem State.pkt_setVerb (s : State) (r y : Nat) (q : Option Verb) : (s.setVerb r q).pkt y = s.pkt y := rfl

/-! ## setPkt -/

@[simp] theorem State.setPkt_ctxs (s : State) (r : Nat) (q : Option Pkt) : (s.setPkt r q).ctxs = s.ctxs := rfl
@[simp] theorem State.setPkt_cores (s : State) (r : Nat) (q : Option Pkt) : (s.setPkt r q).cores = s.cores := rfl
@[simp] theorem State.setPkt_dies (s : State) (r : Nat) (q : Option Pkt) : (s.setPkt r q).dies = s.dies := rfl
@[simp] theorem State.setPkt_pkgs (s : State) (r : Nat) (q : Option Pkt) : (s.setPkt r q).pkgs = s.pkgs := rfl
@[simp] theorem State.setPkt_sheds (s : State) (r : Nat) (q : Option Pkt) : (s.setPkt r q).sheds = s.sheds := rfl
@[simp] theorem State.setPkt_mem (s : State) (r : Nat) (q : Option Pkt) : (s.setPkt r q).mem = s.mem := rfl
@[simp] theorem State.setPkt_host (s : State) (r : Nat) (q : Option Pkt) : (s.setPkt r q).host = s.host := rfl
@[simp] theorem State.setPkt_errs (s : State) (r : Nat) (q : Option Pkt) : (s.setPkt r q).errs = s.errs := rfl
@[simp] theorem State.setPkt_reqs (s : State) (r : Nat) (q : Option Pkt) : (s.setPkt r q).reqs = s.reqs := rfl
@[simp] theorem State.setPkt_verbs (s : State) (r : Nat) (q : Option Pkt) : (s.setPkt r q).verbs = s.verbs := rfl
@[simp] theorem State.setPkt_nextId (s : State) (r : Nat) (q : Option Pkt) : (s.setPkt r q).nextId = s.nextId := rfl
@[simp] theorem State.setPkt_now (s : State) (r : Nat) (q : Option Pkt) : (s.setPkt r q).now = s.now := rfl
@[simp] theorem State.setPkt_turns (s : State) (r : Nat) (q : Option Pkt) : (s.setPkt r q).turns = s.turns := rfl
@[simp] theorem State.setPkt_round (s : State) (r : Nat) (q : Option Pkt) : (s.setPkt r q).round = s.round := rfl
@[simp] theorem State.setPkt_cur (s : State) (r : Nat) (q : Option Pkt) : (s.setPkt r q).cur = s.cur := rfl
@[simp] theorem State.setPkt_free (s : State) (r : Nat) (q : Option Pkt) : (s.setPkt r q).free = s.free := rfl
@[simp] theorem State.pkt_setPkt_same (s : State) (r : Nat) (q : Option Pkt) : (s.setPkt r q).pkt r = q :=
  Tab.get_set_same _ _ _ _
theorem State.pkt_setPkt_other (s : State) (q : Option Pkt) {r y : Nat} (h : y ≠ r) : (s.setPkt r q).pkt y = s.pkt y :=
  Tab.get_set_other _ _ _ h
@[simp] theorem State.ctx_setPkt (s : State) (r y : Nat) (q : Option Pkt) : (s.setPkt r q).ctx y = s.ctx y := rfl
@[simp] theorem State.core_setPkt (s : State) (r y : Nat) (q : Option Pkt) : (s.setPkt r q).core y = s.core y := rfl
@[simp] theorem State.die_setPkt (s : State) (r y : Nat) (q : Option Pkt) : (s.setPkt r q).die y = s.die y := rfl
@[simp] theorem State.pkg_setPkt (s : State) (r y : Nat) (q : Option Pkt) : (s.setPkt r q).pkg y = s.pkg y := rfl
@[simp] theorem State.req_setPkt (s : State) (r y : Nat) (q : Option Pkt) : (s.setPkt r q).req y = s.req y := rfl
@[simp] theorem State.verb_setPkt (s : State) (r y : Nat) (q : Option Pkt) : (s.setPkt r q).verb y = s.verb y := rfl

@[simp] theorem State.modCtx_eq (s : State) (n : Nat) (f : Ctx → Ctx) : s.modCtx n f = s.setCtx n (f (s.ctx n)) := rfl
@[simp] theorem State.modCore_eq (s : State) (n : Nat) (f : Core → Core) : s.modCore n f = s.setCore n (f (s.core n)) := rfl
@[simp] theorem State.modDie_eq (s : State) (n : Nat) (f : Die → Die) : s.modDie n f = s.setDie n (f (s.die n)) := rfl
@[simp] theorem State.modPkg_eq (s : State) (n : Nat) (f : Pkg → Pkg) : s.modPkg n f = s.setPkg n (f (s.pkg n)) := rfl

end Sys2Proof.Machine
end

