-- ==== Sys2Proof/Laws/Slots.lean ====
section
/-! SUPPORT. Everything that the common form of a slot can do (R54, R72, R155). -/

namespace Sys2Proof.Machine

/-- A slot of class A, B or M whose guard is false. -/
theorem slotABM_off (g : Guard) (rs : List (BitVec 5)) (f : State → SlotRes) (s : State) (is : Issue)
    (h : s.me.issue = some is) (hg : is.guardOk g = false) : slotABM g rs f s = .next (perform s) := by
  simp [slotABM, h, hg]

/-- A slot of class A, B or M that names a leased register. -/
theorem slotABM_leased (g : Guard) (rs : List (BitVec 5)) (f : State → SlotRes) (s : State) (is : Issue) (n : Nat)
    (h : s.me.issue = some is) (hg : is.guardOk g = true) (hl : leased s (rs.map (·.toNat)) = some n) :
    slotABM g rs f s = .next (takeFault s (Flt.mk0 0x03 (n + s.cur.slot * 2 ^ 8))) := by
  simp [slotABM, h, hg, hl]

/-- A slot of class A, B or M that has its own effect. -/
theorem slotABM_run (g : Guard) (rs : List (BitVec 5)) (f : State → SlotRes) (s : State) (is : Issue)
    (h : s.me.issue = some is) (hg : is.guardOk g = true) (hl : leased s (rs.map (·.toNat)) = none) :
    slotABM g rs f s = .next (settle (f s)) := by
  simp [slotABM, h, hg, hl]

/-- A slot of class E whose guard is false. -/
theorem slotE_off (g : Guard) (rs : List Nat) (f : State → SlotRes) (s : State) (is : Issue)
    (h : s.me.issue = some is) (hg : is.guardOk g = false) : slotE g rs f s = .next (perform s) := by
  simp [slotE, h, hg]

/-- A slot of class E waits while it names a leased register. -/
theorem slotE_leased (g : Guard) (rs : List Nat) (f : State → SlotRes) (s : State) (is : Issue) (n : Nat)
    (h : s.me.issue = some is) (hg : is.guardOk g = true) (hl : leased s rs = some n) : slotE g rs f s = .next s := by
  simp [slotE, h, hg, hl]

/-- A slot of class E that has its own effect. -/
theorem slotE_run (g : Guard) (rs : List Nat) (f : State → SlotRes) (s : State) (is : Issue)
    (h : s.me.issue = some is) (hg : is.guardOk g = true) (hl : leased s rs = none) : slotE g rs f s = .next (settle (f s)) := by
  simp [slotE, h, hg, hl]

/-- A kernel slot of an open bundle. -/
theorem kslot_run (g : Guard) (f : List Nat → State → State) (s : State) (i : Inv) (h : s.ca.inv = some i)
    (hb : i.bundle.isSome = true) : kslot g f s = .next (slotIssued (f (actOf s.ca g) s)) := by
  have hn : i.bundle.isNone = false := by cases hq : i.bundle <;> simp_all
  simp [kslot, h, hn]

/-- The slot that acts is performed; no other part of the state changes. -/
theorem perform_eq (s : State) : perform s = s.setCtx s.cur.x { s.me with
    issue := s.me.issue.map (fun is => { is with perf := setBit is.perf s.cur.slot true }) } := rfl

@[simp] theorem perform_mem (s : State) : (perform s).mem = s.mem := rfl
@[simp] theorem perform_host (s : State) : (perform s).host = s.host := rfl
@[simp] theorem perform_cores (s : State) : (perform s).cores = s.cores := rfl
@[simp] theorem perform_cur (s : State) : (perform s).cur = s.cur := rfl

/-- x0 reads as zero (R51). -/
@[simp] theorem Ctx.rx_zero (c : Ctx) : c.rx 0 = 0 := rfl

/-- A write to x0 is discarded (R51). -/
@[simp] theorem Ctx.wx_zero (c : Ctx) (v : Word) : c.wx 0 v = c := rfl

/-- A register reads back what was written to it. -/
theorem Ctx.rx_wx_same (c : Ctx) (n : Nat) (v : Word) (h : n ≠ 0) : (c.wx n v).rx n = v := by
  simp [Ctx.rx, Ctx.wx, h]

/-- A register write leaves the other registers alone. -/
theorem Ctx.rx_wx_other (c : Ctx) (v : Word) {m n : Nat} (h : m ≠ n) : (c.wx n v).rx m = c.rx m := by
  by_cases hn : n = 0
  · simp [Ctx.wx, hn]
  · by_cases hm : m = 0
    · simp [Ctx.rx, hm]
    · simp [Ctx.rx, Ctx.wx, hn, hm, Tab.get_set_other _ _ _ h]

end Sys2Proof.Machine
end

