-- ==== Sys2Proof/Tests/Slice0.lean ====
section
/-! SUPPORT. Tests of the model: well-formedness, decoding, worked examples of the spec, and for each statement a state that meets its
hypotheses. -/

namespace Sys2Proof.Tests

set_option Elab.async false

open Sys2Proof Sys2Proof.Machine

/-! ## WellFormed refuses a reserved value in every field that can hold one -/

/-- No prefix: g0, not inverted. -/
def g0 : Guard := ⟨0, false⟩

/-- R61, R155: GP 12 to 15, and g0 inverted. -/
theorem test_wf_guard : (Instr.add ⟨12, false⟩ 1 2 3).wf = false ∧ (Instr.add ⟨0, true⟩ 1 2 3).wf = false ∧
    (Instr.iadd ⟨12, false⟩ 1 2 3).wf = false ∧ (Instr.add ⟨11, true⟩ 1 2 3).wf = true := by decide

/-- R62, R156: predicate destinations 0 and 12, a predicate source 12. -/
theorem test_wf_predicates : (Instr.cmpeq g0 0 1 2).wf = false ∧ (Instr.cmpeqi g0 12 1 2).wf = false ∧ (Instr.sel g0 1 2 3 12).wf = false ∧
    (Instr.pand g0 1 12 2).wf = false ∧ (Instr.pand g0 1 2 12).wf = false ∧ (Instr.pnot g0 0 1).wf = false ∧
    (Instr.icmpeq g0 0 1 2).wf = false ∧ (Instr.fcmpeq g0 12 1 2).wf = false ∧ (Instr.selKernel g0 1 2 3 12).wf = false ∧
    (Instr.gand g0 12 1 2).wf = false ∧ (Instr.gnot g0 1 15).wf = false ∧ (Instr.icmpeqi g0 0 1 2).wf = false := by decide

/-- R62, R109, R17, R128, R268, R296: fields of control-processor words. -/
theorem test_wf_cp_fields : (Instr.bfx g0 1 2 60 4).wf = false ∧ (Instr.bfx g0 1 2 60 3).wf = true ∧ (Instr.mfs g0 1 10).wf = false ∧
    (Instr.mts g0 1 0).wf = false ∧ (Instr.mts g0 1 6).wf = false ∧ (Instr.fence g0 5).wf = false ∧ (Instr.bar g0 5 0 1).wf = false ∧
    (Instr.scopy g0 1 0 2).wf = false ∧ (Instr.aadd g0 1 2 5 0 0).wf = false ∧ (Instr.afadd g0 1 2 5 0).wf = false ∧
    (Instr.qpush g0 1 2 4 0).wf = false ∧ (Instr.qpop g0 1 2 0 0).wf = false ∧ (Instr.qpop g0 17 2 2 0).wf = false ∧
    (Instr.put g0 1 0 0).wf = false ∧ (Instr.signal g0 1 0).wf = false ∧ (Instr.lamo g0 1 1 9 0 0).wf = false ∧
    (Instr.lamo g0 1 1 1 0 1).wf = false := by decide

/-- R40, R150, R182, R192, R195, R198, R204, R219, R167: fields of cluster array words. -/
theorem test_wf_kernel_fields : (Instr.ishli g0 1 2 32).wf = false ∧ (Instr.fadd g0 1 2 3 5).wf = false ∧ (Instr.ffma g0 1 2 3 4 5).wf = false ∧
    (Instr.mvwm g0 32 1 0).wf = false ∧ (Instr.cvtto g0 1 2 0xFFFF 0).wf = false ∧ (Instr.cvtto g0 1 2 0x0791 5).wf = false ∧
    (Instr.cvtpack g0 1 2 0x00E0 0).wf = false ∧ (Instr.cvtunpk g0 32 2 0x0791 0).wf = false ∧ (Instr.cvtto g0 1 2 0x00EC 0).wf = false ∧ (Instr.srd g0 32 0 true).wf = false ∧
    (Instr.srd g0 32 0 false).wf = true ∧ (Instr.tcfg 0 0 1).wf = false ∧ (Instr.tcfg 0 1 0).wf = false ∧ (Instr.wait 0).wf = false := by decide

/-- R225, R235 to R241: fields of caddy words. A divisor of 49, an offset that runs past 47, a gate port outside IK. -/
theorem test_wf_caddy_fields : (Instr.cfmt g0 3 0x0791).wf = false ∧ (Instr.cfmt g0 0 0xFFFF).wf = false ∧
    (Instr.clatch g0 false 0 48 0 0).wf = false ∧ (Instr.clatchr g0 false 63 0 0 0).wf = false ∧ (Instr.clatchr g0 false 0 48 0 0).wf = false ∧
    (Instr.cube g0 0 false 0 1 false 0).wf = false ∧ (Instr.cube g0 0 false 0 0 false 1536).wf = false ∧
    (Instr.cmovzToM g0 32 0 0 0).wf = false ∧ (Instr.cstat g0 0 2 false).wf = false ∧
    (Instr.cbind g0 (BitVec.ofNat 33 (2 ^ 28))).wf = false ∧ (Instr.cbind g0 (BitVec.ofNat 33 (2 ^ 26 + 49 * 2 ^ 20))).wf = false ∧
    (Instr.cbind g0 (BitVec.ofNat 33 (2 ^ 12 + 2 ^ 6 + 1))).wf = false ∧ (Instr.cbind g0 (BitVec.ofNat 33 (3 * 2 ^ 12))).wf = false := by decide

/-! ## Decoding. Each word is laid out field by field from the spec: control-processor words from R61, R62, R65 to R67 and the chapters that own
the EN fields, kernel slot words from R155, R156, R158 and R235 to R242. Operands differ, so that a swapped field shows. -/

theorem test_decode_cp_00 : ∀ p ∈ ([
    (0b00000000000000000000000000000000, .nop)] : List (Word32 × Instr)), decodeCp p.1 = .ok p.2 := by decide

theorem test_decode_cp_01 : ∀ p ∈ ([
    (0b00001_0111_1_10101_01010_10011_0000000, .add ⟨7, true⟩ 21 10 19),
    (0b00001_0011_0_10101_01010_10011_0000001, .sub ⟨3, false⟩ 21 10 19),
    (0b00001_0111_1_10101_01010_10011_0000010, .and ⟨7, true⟩ 21 10 19),
    (0b00001_0011_0_10101_01010_10011_0000011, .or ⟨3, false⟩ 21 10 19),
    (0b00001_0111_1_10101_01010_10011_0000100, .xor ⟨7, true⟩ 21 10 19),
    (0b00001_0011_0_10101_01010_10011_0000101, .andn ⟨3, false⟩ 21 10 19),
    (0b00001_0111_1_10101_01010_10011_0000110, .shl ⟨7, true⟩ 21 10 19),
    (0b00001_0011_0_10101_01010_10011_0000111, .shr ⟨3, false⟩ 21 10 19),
    (0b00001_0111_1_10101_01010_10011_0001000, .sar ⟨7, true⟩ 21 10 19),
    (0b00001_0011_0_10101_01010_10011_0001001, .ror ⟨3, false⟩ 21 10 19),
    (0b00001_0111_1_10101_01010_10011_0001010, .mul ⟨7, true⟩ 21 10 19),
    (0b00001_0011_0_10101_01010_10011_0001011, .mulhu ⟨3, false⟩ 21 10 19),
    (0b00001_0111_1_10101_01010_10011_0001100, .mulhs ⟨7, true⟩ 21 10 19),
    (0b00001_0011_0_10101_01010_10011_0001101, .min ⟨3, false⟩ 21 10 19),
    (0b00001_0111_1_10101_01010_10011_0001110, .max ⟨7, true⟩ 21 10 19),
    (0b00001_0011_0_10101_01010_10011_0001111, .minu ⟨3, false⟩ 21 10 19),
    (0b00001_0111_1_10101_01010_10011_0010000, .maxu ⟨7, true⟩ 21 10 19),
    (0b00001_0011_0_10101_01010_000000010001, .clz ⟨3, false⟩ 21 10),
    (0b00001_0111_1_10101_01010_000000010010, .ctz ⟨7, true⟩ 21 10),
    (0b00001_0011_0_10101_01010_000000010011, .popc ⟨3, false⟩ 21 10)] : List (Word32 × Instr)), decodeCp p.1 = .ok p.2 := by decide

theorem test_decode_cp_02 : ∀ p ∈ ([
    (0b00010_0111_1_10101_01010_111111000000, .addi ⟨7, true⟩ 21 10 0xfc0)] : List (Word32 × Instr)), decodeCp p.1 = .ok p.2 := by decide

theorem test_decode_cp_03 : ∀ p ∈ ([
    (0b00011_0011_0_10101_01010_011111000011, .andi ⟨3, false⟩ 21 10 0x7c3)] : List (Word32 × Instr)), decodeCp p.1 = .ok p.2 := by decide

theorem test_decode_cp_04 : ∀ p ∈ ([
    (0b00100_0111_1_10101_01010_100000110101, .ori ⟨7, true⟩ 21 10 0x835)] : List (Word32 × Instr)), decodeCp p.1 = .ok p.2 := by decide

theorem test_decode_cp_05 : ∀ p ∈ ([
    (0b00101_0011_0_10101_01010_101001011011, .xori ⟨3, false⟩ 21 10 0xa5b)] : List (Word32 × Instr)), decodeCp p.1 = .ok p.2 := by decide

theorem test_decode_cp_06 : ∀ p ∈ ([
    (0b00110_0111_1_10101_01010_101101_000000, .shli ⟨7, true⟩ 21 10 0x2d),
    (0b00110_0011_0_10101_01010_010011_000001, .shri ⟨3, false⟩ 21 10 19),
    (0b00110_0111_1_10101_01010_111111_000010, .sari ⟨7, true⟩ 21 10 0x3f),
    (0b00110_0011_0_10101_01010_100000_000011, .rori ⟨3, false⟩ 21 10 0x20)] : List (Word32 × Instr)), decodeCp p.1 = .ok p.2 := by decide

theorem test_decode_cp_07 : ∀ p ∈ ([
    (0b00111_0111_1_10101_11010001010110011, .movi ⟨7, true⟩ 21 0x1a2b3)] : List (Word32 × Instr)), decodeCp p.1 = .ok p.2 := by decide

theorem test_decode_cp_08 : ∀ p ∈ ([
    (0b01000_0011_0_0101_01010_0000_10011_0000, .cmpeq ⟨3, false⟩ 5 10 19),
    (0b01000_0111_1_0101_01010_0001_10011_0000, .cmpne ⟨7, true⟩ 5 10 19),
    (0b01000_0011_0_0101_01010_0010_10011_0000, .cmplt ⟨3, false⟩ 5 10 19),
    (0b01000_0111_1_0101_01010_0011_10011_0000, .cmpge ⟨7, true⟩ 5 10 19),
    (0b01000_0011_0_0101_01010_0100_10011_0000, .cmpltu ⟨3, false⟩ 5 10 19),
    (0b01000_0111_1_0101_01010_0101_10011_0000, .cmpgeu ⟨7, true⟩ 5 10 19),
    (0b01000_0011_0_0101_01010_0110_10011_0000, .cmptst ⟨3, false⟩ 5 10 19)] : List (Word32 × Instr)), decodeCp p.1 = .ok p.2 := by decide

theorem test_decode_cp_09 : ∀ p ∈ ([
    (0b01001_0111_1_0101_01010_0000_101010101, .cmpeqi ⟨7, true⟩ 5 10 0x155),
    (0b01001_0011_0_0101_01010_0001_101010101, .cmpnei ⟨3, false⟩ 5 10 0x155),
    (0b01001_0111_1_0101_01010_0010_101010101, .cmplti ⟨7, true⟩ 5 10 0x155),
    (0b01001_0011_0_0101_01010_0011_101010101, .cmpgei ⟨3, false⟩ 5 10 0x155),
    (0b01001_0111_1_0101_01010_0100_101010101, .cmpltui ⟨7, true⟩ 5 10 0x155),
    (0b01001_0011_0_0101_01010_0101_101010101, .cmpgeui ⟨3, false⟩ 5 10 0x155),
    (0b01001_0111_1_0101_01010_0110_101010101, .cmptsti ⟨7, true⟩ 5 10 0x155)] : List (Word32 × Instr)), decodeCp p.1 = .ok p.2 := by decide

theorem test_decode_cp_0A : ∀ p ∈ ([
    (0b01010_0011_0_10101_01010_10011_1011_000, .sel ⟨3, false⟩ 21 10 19 11)] : List (Word32 × Instr)), decodeCp p.1 = .ok p.2 := by decide

theorem test_decode_cp_0B : ∀ p ∈ ([
    (0b01011_0111_1_10101_01010_100001_001001, .bfx ⟨7, true⟩ 21 10 0x21 9)] : List (Word32 × Instr)), decodeCp p.1 = .ok p.2 := by decide

theorem test_decode_cp_0C : ∀ p ∈ ([
    (0b01100_0011_0_10101_01010_110110_001001, .bfxs ⟨3, false⟩ 21 10 0x36 9)] : List (Word32 × Instr)), decodeCp p.1 = .ok p.2 := by decide

theorem test_decode_cp_0D : ∀ p ∈ ([
    (0b01101_0111_1_10101_01010_010010_001001, .bfi ⟨7, true⟩ 21 10 18 9)] : List (Word32 × Instr)), decodeCp p.1 = .ok p.2 := by decide

theorem test_decode_cp_0E : ∀ p ∈ ([
    (0b01110_0011_0_0101_1010_0011_0000000000, .pand ⟨3, false⟩ 5 10 3),
    (0b01110_0111_1_0101_1010_0011_0000000001, .por ⟨7, true⟩ 5 10 3),
    (0b01110_0011_0_0101_1010_0011_0000000010, .pxor ⟨3, false⟩ 5 10 3),
    (0b01110_0111_1_0101_1010_0011_0000000011, .pandn ⟨7, true⟩ 5 10 3),
    (0b01110_0011_0_0101_1010_00000000000100, .pnot ⟨3, false⟩ 5 10)] : List (Word32 × Instr)), decodeCp p.1 = .ok p.2 := by decide

theorem test_decode_cp_10 : ∀ p ∈ ([
    (0b10000_0111_1_1011110000111100011101, .br ⟨7, true⟩ 0x2f0f1d)] : List (Word32 × Instr)), decodeCp p.1 = .ok p.2 := by decide

theorem test_decode_cp_11 : ∀ p ∈ ([
    (0b10001_0011_0_1011110000111100011101, .call ⟨3, false⟩ 0x2f0f1d)] : List (Word32 × Instr)), decodeCp p.1 = .ok p.2 := by decide

theorem test_decode_cp_12 : ∀ p ∈ ([
    (0b10010_0111_1_00000_01010_000000000000, .brr ⟨7, true⟩ 10),
    (0b10010_0011_0_00000_01010_000000000001, .callr ⟨3, false⟩ 10)] : List (Word32 × Instr)), decodeCp p.1 = .ok p.2 := by decide

theorem test_decode_cp_13 : ∀ p ∈ ([
    (0b10011_0111_1_1011111011101111_000000, .trap ⟨7, true⟩ 0xbeef),
    (0b10011_0011_0_0000000000000000000001, .eret ⟨3, false⟩),
    (0b10011_0111_1_0000000000000000000010, .yield ⟨7, true⟩)] : List (Word32 × Instr)), decodeCp p.1 = .ok p.2 := by decide

theorem test_decode_cp_14 : ∀ p ∈ ([
    (0b10100_0011_0_10101_000000001001_00000, .mfs ⟨3, false⟩ 21 9),
    (0b10100_0111_1_10101_000000000101_00001, .mts ⟨7, true⟩ 21 5),
    (0b10100_0011_0_10101_00000000000000010, .rdtick ⟨3, false⟩ 21)] : List (Word32 × Instr)), decodeCp p.1 = .ok p.2 := by decide

theorem test_decode_cp_16 : ∀ p ∈ ([
    (0b10110_0111_1_10101_01010_00_1010100101, .ldub ⟨7, true⟩ 21 10 0x2a5),
    (0b10110_0011_0_10101_01010_01_1010100101, .lduh ⟨3, false⟩ 21 10 0x2a5),
    (0b10110_0111_1_10101_01010_10_1010100101, .lduw ⟨7, true⟩ 21 10 0x2a5),
    (0b10110_0011_0_10101_01010_11_1010100101, .ldd ⟨3, false⟩ 21 10 0x2a5)] : List (Word32 × Instr)), decodeCp p.1 = .ok p.2 := by decide

theorem test_decode_cp_17 : ∀ p ∈ ([
    (0b10111_0111_1_10101_01010_00_1010100101, .ldsb ⟨7, true⟩ 21 10 0x2a5),
    (0b10111_0011_0_10101_01010_01_1010100101, .ldsh ⟨3, false⟩ 21 10 0x2a5),
    (0b10111_0111_1_10101_01010_10_1010100101, .ldsw ⟨7, true⟩ 21 10 0x2a5)] : List (Word32 × Instr)), decodeCp p.1 = .ok p.2 := by decide

theorem test_decode_cp_18 : ∀ p ∈ ([
    (0b11000_0011_0_10101_01010_00_1010100101, .stb ⟨3, false⟩ 21 10 0x2a5),
    (0b11000_0111_1_10101_01010_01_1010100101, .sth ⟨7, true⟩ 21 10 0x2a5),
    (0b11000_0011_0_10101_01010_10_1010100101, .stw ⟨3, false⟩ 21 10 0x2a5),
    (0b11000_0111_1_10101_01010_11_1010100101, .std ⟨7, true⟩ 21 10 0x2a5)] : List (Word32 × Instr)), decodeCp p.1 = .ok p.2 := by decide

theorem test_decode_cp_19 : ∀ p ∈ ([
    (0b11001_0011_0_10101_101_00_100111000011, .ldpb ⟨3, false⟩ 21 5 0x9c3),
    (0b11001_0111_1_10101_101_01_100111000011, .ldph ⟨7, true⟩ 21 5 0x9c3),
    (0b11001_0011_0_10101_101_10_100111000011, .ldpw ⟨3, false⟩ 21 5 0x9c3),
    (0b11001_0111_1_10101_101_11_100111000011, .ldpd ⟨7, true⟩ 21 5 0x9c3)] : List (Word32 × Instr)), decodeCp p.1 = .ok p.2 := by decide

theorem test_decode_cp_1A : ∀ p ∈ ([
    (0b11010_0011_0_10101_101_00_10011_0000000, .ldprb ⟨3, false⟩ 21 5 19),
    (0b11010_0111_1_10101_101_01_10011_0000000, .ldprh ⟨7, true⟩ 21 5 19),
    (0b11010_0011_0_10101_101_10_10011_0000000, .ldprw ⟨3, false⟩ 21 5 19),
    (0b11010_0111_1_10101_101_11_10011_0000000, .ldprd ⟨7, true⟩ 21 5 19)] : List (Word32 × Instr)), decodeCp p.1 = .ok p.2 := by decide

theorem test_decode_cp_1B : ∀ p ∈ ([
    (0b11011_0011_0_011_0000000000000000000, .fence ⟨3, false⟩ 3),
    (0b11011_0111_1_011_10_01010_000000000001, .bar ⟨7, true⟩ 3 2 10)] : List (Word32 × Instr)), decodeCp p.1 = .ok p.2 := by decide

theorem test_decode_cp_1C : ∀ p ∈ ([
    (0b11100_0011_0_000000_10101_01101_10011_0, .lds4 ⟨3, false⟩ 21 13 19),
    (0b11100_0111_1_000000_10101_01101_10011_1, .lds8 ⟨7, true⟩ 21 13 19),
    (0b11100_0011_0_000001_10101_01101_10011_0, .sts4 ⟨3, false⟩ 21 13 19),
    (0b11100_0111_1_000001_10101_01101_10011_1, .sts8 ⟨7, true⟩ 21 13 19),
    (0b11100_0011_0_000010_10101_01101_10011_0, .saadd ⟨3, false⟩ 21 13 19),
    (0b11100_0111_1_000011_10101_01101_10011_0, .safadd ⟨7, true⟩ 21 13 19),
    (0b11100_0011_0_000100_10101_01101_10011_0, .samin ⟨3, false⟩ 21 13 19),
    (0b11100_0111_1_000101_10101_01101_10011_0, .samax ⟨7, true⟩ 21 13 19),
    (0b11100_0011_0_000110_10101_01101_10011_0, .saxchg ⟨3, false⟩ 21 13 19),
    (0b11100_0111_1_000111_10101_01101_10011_0, .sacas ⟨7, true⟩ 21 13 19)] : List (Word32 × Instr)), decodeCp p.1 = .ok p.2 := by decide

theorem test_decode_cp_1D : ∀ p ∈ ([
    (0b11101_0011_0_000000_10101_01101_01010_0, .salloc ⟨3, false⟩ 21 13 10),
    (0b11101_0111_1_000001_01101_00000000000, .sfree ⟨7, true⟩ 13),
    (0b11101_0011_0_000010_01101_01010_10011_0, .sload ⟨3, false⟩ 13 10 19),
    (0b11101_0111_1_000010_01101_01010_10011_1, .sloadx ⟨7, true⟩ 13 10 19),
    (0b11101_0011_0_000011_01101_01010_10011_0, .sstore ⟨3, false⟩ 13 10 19),
    (0b11101_0111_1_000100_01101_00110_1010_00, .sgather ⟨7, true⟩ 13 6 10),
    (0b11101_0011_0_000101_01101_00110_1010_00, .sbag ⟨3, false⟩ 13 6 10),
    (0b11101_0111_1_000101_01101_00110_1010_01, .sbagm ⟨7, true⟩ 13 6 10),
    (0b11101_0011_0_000110_01101_01010_10011_0, .scopy ⟨3, false⟩ 13 10 19),
    (0b11101_0111_1_000110_01101_01010_10011_1, .scopyp ⟨7, true⟩ 13 10 19),
    (0b11101_0011_0_000110_01101_00000000000, .srecv ⟨3, false⟩ 13),
    (0b11101_0111_1_000111_01101_00000000000, .swait ⟨7, true⟩ 13),
    (0b11101_0011_0_0001110000010000000000, .swaitAll ⟨3, false⟩)] : List (Word32 × Instr)), decodeCp p.1 = .ok p.2 := by decide

theorem test_decode_cp_1E : ∀ p ∈ ([
    (0b11110_0111_1_000000_01010_10011_00111_0, .krun ⟨7, true⟩ 10 19 7),
    (0b11110_0011_0_000001_11001_00000000000, .lwait ⟨3, false⟩ 25)] : List (Word32 × Instr)), decodeCp p.1 = .ok p.2 := by decide

theorem test_decode_cp_1F_a : ∀ p ∈ ([
    (0b11111_0111_1_000000_10110_00110_1010_00, .sscadd ⟨7, true⟩ 22 6 10),
    (0b11111_0011_0_000001_10110_00110_010_000, .srowupd ⟨3, false⟩ 22 6 2),
    (0b11111_0111_1_000010_10101_0101_011_10_1_0, .aadd ⟨7, true⟩ 21 5 3 2 1),
    (0b11111_0011_0_000011_10101_0101_011_10_00, .afadd ⟨3, false⟩ 21 5 3 2),
    (0b11111_0111_1_000100_10101_0101_011_10_1_0, .amin ⟨7, true⟩ 21 5 3 2 1),
    (0b11111_0011_0_000101_10101_0101_011_10_1_0, .amax ⟨3, false⟩ 21 5 3 2 1),
    (0b11111_0111_1_000110_10101_0101_011_10_1_0, .aand ⟨7, true⟩ 21 5 3 2 1),
    (0b11111_0011_0_000111_10101_0101_011_10_1_0, .aor ⟨3, false⟩ 21 5 3 2 1),
    (0b11111_0111_1_001000_10101_0101_011_10_1_0, .axor ⟨7, true⟩ 21 5 3 2 1),
    (0b11111_0011_0_001001_10101_0101_011_10_1_0, .axchg ⟨3, false⟩ 21 5 3 2 1),
    (0b11111_0111_1_001010_10101_0101_011_10_1_0, .acas ⟨7, true⟩ 21 5 3 2 1),
    (0b11111_0011_0_001011_10101_01010_010_011, .qpush ⟨3, false⟩ 21 10 2 3),
    (0b11111_0111_1_001100_11011_01010_010_011, .qpop ⟨7, true⟩ 27 10 2 3),
    (0b11111_0011_0_010000_10101_101_0000_10_00, .put ⟨3, false⟩ 21 5 2),
    (0b11111_0111_1_010001_10101_101_0000_10_00, .get ⟨7, true⟩ 21 5 2),
    (0b11111_0011_0_010010_10101_101_00000000, .signal ⟨3, false⟩ 21 5),
    (0b11111_0111_1_010011_10101_101_0011_10_1_0, .lamo ⟨7, true⟩ 21 5 3 2 1),
    (0b11111_0011_0_010100_10101_01010_1_00000, .synct ⟨3, false⟩ 21 10 1),
    (0b11111_0111_1_011000_10101_1010_0000000, .gopen ⟨7, true⟩ 21 10),
    (0b11111_0011_0_011001_11001_01010_01110_1, .gstore ⟨3, false⟩ 25 10 14 1)] : List (Word32 × Instr)), decodeCp p.1 = .ok p.2 := by decide

theorem test_decode_cp_1F_b : ∀ p ∈ ([
    (0b11111_0111_1_011010_01101_00000_010_000, .sstoreg ⟨7, true⟩ 13 2),
    (0b11111_0011_0_011011_10110_00110_010_000, .sscaddg ⟨3, false⟩ 22 6 2),
    (0b11111_0111_1_011100_10101_1010_0000000, .gseal ⟨7, true⟩ 21 10),
    (0b11111_0011_0_011101_10101_01110_000000, .gcommit ⟨3, false⟩ 21 14),
    (0b11111_0111_1_011110_10101_01110_000000, .gabort ⟨7, true⟩ 21 14),
    (0b11111_0011_0_011111_10101_01110_000000, .gwait ⟨3, false⟩ 21 14),
    (0b11111_0111_1_100000_10101_1010_0000000, .gpeek ⟨7, true⟩ 21 10),
    (0b11111_0011_0_100001_10101_1010_0000000, .gdeleg ⟨3, false⟩ 21 10),
    (0b11111_0111_1_100010_10101_01110_000000, .gstat ⟨7, true⟩ 21 14)] : List (Word32 × Instr)), decodeCp p.1 = .ok p.2 := by decide

theorem test_decode_k_01 : ∀ p ∈ ([
    (0b00000001_0111_1_1010101_0101010_1110001_0000000_000_000000_00000000000000, .iadd ⟨7, true⟩ 0x55 0x2a 0x71),
    (0b00000001_0111_1_1010101_0101010_1110001_0000000_000_000001_00000000000000, .isub ⟨7, true⟩ 0x55 0x2a 0x71),
    (0b00000001_0111_1_1010101_0101010_1110001_0000000_000_000010_00000000000000, .iand ⟨7, true⟩ 0x55 0x2a 0x71),
    (0b00000001_0111_1_1010101_0101010_1110001_0000000_000_000011_00000000000000, .ior ⟨7, true⟩ 0x55 0x2a 0x71),
    (0b00000001_0111_1_1010101_0101010_1110001_0000000_000_000100_00000000000000, .ixor ⟨7, true⟩ 0x55 0x2a 0x71),
    (0b00000001_0111_1_1010101_0101010_1110001_0000000_000_000101_00000000000000, .iandn ⟨7, true⟩ 0x55 0x2a 0x71),
    (0b00000001_0111_1_1010101_0101010_1110001_0000000_000_000110_00000000000000, .ishl ⟨7, true⟩ 0x55 0x2a 0x71),
    (0b00000001_0111_1_1010101_0101010_1110001_0000000_000_000111_00000000000000, .ishr ⟨7, true⟩ 0x55 0x2a 0x71),
    (0b00000001_0111_1_1010101_0101010_1110001_0000000_000_001000_00000000000000, .isar ⟨7, true⟩ 0x55 0x2a 0x71),
    (0b00000001_0111_1_1010101_0101010_1110001_0000000_000_001001_00000000000000, .imul ⟨7, true⟩ 0x55 0x2a 0x71),
    (0b00000001_0111_1_1010101_0101010_1110001_0000000_000_001010_00000000000000, .imulhu ⟨7, true⟩ 0x55 0x2a 0x71),
    (0b00000001_0111_1_1010101_0101010_1110001_0000000_000_001011_00000000000000, .imulhs ⟨7, true⟩ 0x55 0x2a 0x71),
    (0b00000001_0111_1_1010101_0101010_1110001_0000000_000_001100_00000000000000, .imin ⟨7, true⟩ 0x55 0x2a 0x71),
    (0b00000001_0111_1_1010101_0101010_1110001_0000000_000_001101_00000000000000, .imax ⟨7, true⟩ 0x55 0x2a 0x71),
    (0b00000001_0111_1_1010101_0101010_1110001_0000000_000_001110_00000000000000, .iminu ⟨7, true⟩ 0x55 0x2a 0x71),
    (0b00000001_0111_1_1010101_0101010_1110001_0000000_000_001111_00000000000000, .imaxu ⟨7, true⟩ 0x55 0x2a 0x71),
    (0b00000001_0111_1_1010101_0101010_0000000_0000000_000_010000_00000000000000, .iclz ⟨7, true⟩ 0x55 0x2a),
    (0b00000001_0111_1_1010101_0101010_0000000_0000000_000_010001_00000000000000, .ipopc ⟨7, true⟩ 0x55 0x2a)] : List (Word × Instr)), decodeKernel p.1 = .ok p.2 := by decide

theorem test_decode_k_02 : ∀ p ∈ ([
    (0b00000010_0111_1_1010101_0101010_00000_11011110101011011011111011101111, .iaddi ⟨7, true⟩ 0x55 0x2a 0xdeadbeef),
    (0b00000010_0111_1_1010101_0101010_00001_11011110101011011011111011101111, .iandi ⟨7, true⟩ 0x55 0x2a 0xdeadbeef),
    (0b00000010_0111_1_1010101_0101010_00010_11011110101011011011111011101111, .iori ⟨7, true⟩ 0x55 0x2a 0xdeadbeef),
    (0b00000010_0111_1_1010101_0101010_00011_11011110101011011011111011101111, .ixori ⟨7, true⟩ 0x55 0x2a 0xdeadbeef),
    (0b00000010_0111_1_1010101_0101010_00100_00000000000000000000000000011101, .ishli ⟨7, true⟩ 0x55 0x2a 29),
    (0b00000010_0111_1_1010101_0101010_00101_00000000000000000000000000011101, .ishri ⟨7, true⟩ 0x55 0x2a 29),
    (0b00000010_0111_1_1010101_0101010_00110_00000000000000000000000000011101, .isari ⟨7, true⟩ 0x55 0x2a 29),
    (0b00000010_0111_1_1010101_0101010_00111_11011110101011011011111011101111, .imuli ⟨7, true⟩ 0x55 0x2a 0xdeadbeef)] : List (Word × Instr)), decodeKernel p.1 = .ok p.2 := by decide

theorem test_decode_k_03 : ∀ p ∈ ([
    (0b00000011_0111_1_1010101_0000000_00000_00111111100000000000000000000000, .moviKernel ⟨7, true⟩ 0x55 0x3f800000)] : List (Word × Instr)), decodeKernel p.1 = .ok p.2 := by decide

theorem test_decode_k_04 : ∀ p ∈ ([
    (0b00000100_0111_1_1011_0101010_1110001_0000_00000000000000000000000000000, .icmpeq ⟨7, true⟩ 11 0x2a 0x71),
    (0b00000100_0111_1_1011_0101010_1110001_0001_00000000000000000000000000000, .icmpne ⟨7, true⟩ 11 0x2a 0x71),
    (0b00000100_0111_1_1011_0101010_1110001_0010_00000000000000000000000000000, .icmplt ⟨7, true⟩ 11 0x2a 0x71),
    (0b00000100_0111_1_1011_0101010_1110001_0011_00000000000000000000000000000, .icmpge ⟨7, true⟩ 11 0x2a 0x71),
    (0b00000100_0111_1_1011_0101010_1110001_0100_00000000000000000000000000000, .icmpltu ⟨7, true⟩ 11 0x2a 0x71),
    (0b00000100_0111_1_1011_0101010_1110001_0101_00000000000000000000000000000, .icmpgeu ⟨7, true⟩ 11 0x2a 0x71),
    (0b00000100_0111_1_1011_0101010_1110001_0110_00000000000000000000000000000, .icmptst ⟨7, true⟩ 11 0x2a 0x71)] : List (Word × Instr)), decodeKernel p.1 = .ok p.2 := by decide

theorem test_decode_k_05 : ∀ p ∈ ([
    (0b00000101_0111_1_1011_0101010_0000_0000_11111111111111110001001000110100, .icmpeqi ⟨7, true⟩ 11 0x2a 0xffff1234),
    (0b00000101_0111_1_1011_0101010_0001_0000_11111111111111110001001000110100, .icmpnei ⟨7, true⟩ 11 0x2a 0xffff1234),
    (0b00000101_0111_1_1011_0101010_0010_0000_11111111111111110001001000110100, .icmplti ⟨7, true⟩ 11 0x2a 0xffff1234),
    (0b00000101_0111_1_1011_0101010_0011_0000_11111111111111110001001000110100, .icmpgei ⟨7, true⟩ 11 0x2a 0xffff1234),
    (0b00000101_0111_1_1011_0101010_0100_0000_11111111111111110001001000110100, .icmpltui ⟨7, true⟩ 11 0x2a 0xffff1234),
    (0b00000101_0111_1_1011_0101010_0101_0000_11111111111111110001001000110100, .icmpgeui ⟨7, true⟩ 11 0x2a 0xffff1234),
    (0b00000101_0111_1_1011_0101010_0110_0000_11111111111111110001001000110100, .icmptsti ⟨7, true⟩ 11 0x2a 0xffff1234)] : List (Word × Instr)), decodeKernel p.1 = .ok p.2 := by decide

theorem test_decode_k_06 : ∀ p ∈ ([
    (0b00000110_0111_1_1010101_0101010_1110001_1001_00000000000000000000000000, .selKernel ⟨7, true⟩ 0x55 0x2a 0x71 9)] : List (Word × Instr)), decodeKernel p.1 = .ok p.2 := by decide

theorem test_decode_k_07 : ∀ p ∈ ([
    (0b00000111_0111_1_1011_0110_1001_000_000000000000000000000000000000000000, .gand ⟨7, true⟩ 11 6 9),
    (0b00000111_0111_1_1011_0110_1001_001_000000000000000000000000000000000000, .gor ⟨7, true⟩ 11 6 9),
    (0b00000111_0111_1_1011_0110_1001_010_000000000000000000000000000000000000, .gxor ⟨7, true⟩ 11 6 9),
    (0b00000111_0111_1_1011_0110_1001_011_000000000000000000000000000000000000, .gandn ⟨7, true⟩ 11 6 9),
    (0b00000111_0111_1_1011_0110_0000_100_000000000000000000000000000000000000, .gnot ⟨7, true⟩ 11 6)] : List (Word × Instr)), decodeKernel p.1 = .ok p.2 := by decide

theorem test_decode_k_08 : ∀ p ∈ ([
    (0b00001000_0111_1_1010101_0101010_1110001_0000000_011_000000_00000000000000, .fadd ⟨7, true⟩ 0x55 0x2a 0x71 3),
    (0b00001000_0111_1_1010101_0101010_1110001_0000000_011_000001_00000000000000, .fsub ⟨7, true⟩ 0x55 0x2a 0x71 3),
    (0b00001000_0111_1_1010101_0101010_1110001_0000000_011_000010_00000000000000, .fmul ⟨7, true⟩ 0x55 0x2a 0x71 3),
    (0b00001000_0111_1_1010101_0101010_1110001_0000000_000_000011_00000000000000, .fmin ⟨7, true⟩ 0x55 0x2a 0x71),
    (0b00001000_0111_1_1010101_0101010_1110001_0000000_000_000100_00000000000000, .fmax ⟨7, true⟩ 0x55 0x2a 0x71),
    (0b00001000_0111_1_1010101_0101010_0000000_0000000_000_000101_00000000000000, .fabs ⟨7, true⟩ 0x55 0x2a),
    (0b00001000_0111_1_1010101_0101010_0000000_0000000_000_000110_00000000000000, .fneg ⟨7, true⟩ 0x55 0x2a)] : List (Word × Instr)), decodeKernel p.1 = .ok p.2 := by decide

theorem test_decode_k_09 : ∀ p ∈ ([
    (0b00001001_0111_1_1010101_0101010_1110001_0001111_100_000000_00000000000000, .ffma ⟨7, true⟩ 0x55 0x2a 0x71 15 4),
    (0b00001001_0111_1_1010101_0101010_1110001_0001111_100_000001_00000000000000, .ffms ⟨7, true⟩ 0x55 0x2a 0x71 15 4),
    (0b00001001_0111_1_1010101_0101010_1110001_0001111_100_000010_00000000000000, .fnfma ⟨7, true⟩ 0x55 0x2a 0x71 15 4),
    (0b00001001_0111_1_1010101_0101010_1110001_0001111_100_000011_00000000000000, .fnfms ⟨7, true⟩ 0x55 0x2a 0x71 15 4)] : List (Word × Instr)), decodeKernel p.1 = .ok p.2 := by decide

theorem test_decode_k_0A : ∀ p ∈ ([
    (0b00001010_0111_1_1011_0101010_1110001_0000_00000000000000000000000000000, .fcmpeq ⟨7, true⟩ 11 0x2a 0x71),
    (0b00001010_0111_1_1011_0101010_1110001_0001_00000000000000000000000000000, .fcmplt ⟨7, true⟩ 11 0x2a 0x71),
    (0b00001010_0111_1_1011_0101010_1110001_0010_00000000000000000000000000000, .fcmple ⟨7, true⟩ 11 0x2a 0x71),
    (0b00001010_0111_1_1011_0101010_1110001_0011_00000000000000000000000000000, .fcmpun ⟨7, true⟩ 11 0x2a 0x71)] : List (Word × Instr)), decodeKernel p.1 = .ok p.2 := by decide

theorem test_decode_k_0B : ∀ p ∈ ([
    (0b00001011_0111_1_1010101_0101010_1110001_0000000_001_000000_00000000000000, .hadd ⟨7, true⟩ 0x55 0x2a 0x71 1),
    (0b00001011_0111_1_1010101_0101010_1110001_0000000_001_000001_00000000000000, .hsub ⟨7, true⟩ 0x55 0x2a 0x71 1),
    (0b00001011_0111_1_1010101_0101010_1110001_0000000_001_000010_00000000000000, .hmul ⟨7, true⟩ 0x55 0x2a 0x71 1),
    (0b00001011_0111_1_1010101_0101010_1110001_0000000_000_000011_00000000000000, .hmin ⟨7, true⟩ 0x55 0x2a 0x71),
    (0b00001011_0111_1_1010101_0101010_1110001_0000000_000_000100_00000000000000, .hmax ⟨7, true⟩ 0x55 0x2a 0x71)] : List (Word × Instr)), decodeKernel p.1 = .ok p.2 := by decide

theorem test_decode_k_0C : ∀ p ∈ ([
    (0b00001100_0111_1_1010101_0101010_1110001_0001111_010_000000_00000000000000, .hfma ⟨7, true⟩ 0x55 0x2a 0x71 15 2),
    (0b00001100_0111_1_1010101_0101010_1110001_0001111_010_000001_00000000000000, .hfms ⟨7, true⟩ 0x55 0x2a 0x71 15 2)] : List (Word × Instr)), decodeKernel p.1 = .ok p.2 := by decide

theorem test_decode_k_0D : ∀ p ∈ ([
    (0b00001101_0111_1_1010101_0101010_0000000_0000010_000_000000_00000000000000, .mvmw ⟨7, true⟩ 0x55 0x2a 2),
    (0b00001101_0111_1_0011011_0101010_0000000_0000011_000_000001_00000000000000, .mvwm ⟨7, true⟩ 27 0x2a 3)] : List (Word × Instr)), decodeKernel p.1 = .ok p.2 := by decide

theorem test_decode_k_20 : ∀ p ∈ ([
    (0b00100000_0111_1_1010101_0101010_0000000000000000_000_0000_00000000000000, .frsqs ⟨7, true⟩ 0x55 0x2a),
    (0b00100000_0111_1_1010101_0101010_0000000000000000_000_0001_00000000000000, .frcps ⟨7, true⟩ 0x55 0x2a),
    (0b00100000_0111_1_1010101_0101010_0000000000000000_000_0010_00000000000000, .fdivs ⟨7, true⟩ 0x55 0x2a)] : List (Word × Instr)), decodeKernel p.1 = .ok p.2 := by decide

theorem test_decode_k_21 : ∀ p ∈ ([
    (0b00100001_0111_1_1010101_0101010_0000011110010001_001_0000_00000000000000, .cvtto ⟨7, true⟩ 0x55 0x2a 0x791 1),
    (0b00100001_0111_1_1010101_0101010_0000011110010001_001_0001_00000000000000, .cvtfrom ⟨7, true⟩ 0x55 0x2a 0x791 1),
    (0b00100001_0111_1_1010101_0101010_0000011110010001_001_0010_00000000000000, .cvtpack ⟨7, true⟩ 0x55 0x2a 0x791 1),
    (0b00100001_0111_1_0011011_0101010_0000011110010001_001_0011_00000000000000, .cvtunpk ⟨7, true⟩ 27 0x2a 0x791 1)] : List (Word × Instr)), decodeKernel p.1 = .ok p.2 := by decide

theorem test_decode_k_30 : ∀ p ∈ ([
    (0b00110000_0111_1_0011011_101_01_000000000000000000000000000000000000000, .srd ⟨7, true⟩ 27 5 true)] : List (Word × Instr)), decodeKernel p.1 = .ok p.2 := by decide

theorem test_decode_k_31 : ∀ p ∈ ([
    (0b00110001_0111_1_1010101_110_00_000000000000000000000000000000000000000, .swr ⟨7, true⟩ 0x55 6 false)] : List (Word × Instr)), decodeKernel p.1 = .ok p.2 := by decide

theorem test_decode_k_38 : ∀ p ∈ ([
    (0b00111000_0111_1_1010101_0101010_0000000_1101_00000_000000000000000000000, .xsend ⟨7, true⟩ 0x55 0x2a 13),
    (0b00111000_0111_1_1010101_0101010_0000000_1101_00001_000000000000000000000, .xbcast ⟨7, true⟩ 0x55 0x2a 13),
    (0b00111000_0111_1_1010101_0101010_1110001_0000_00010_000000000000000000000, .xperm ⟨7, true⟩ 0x55 0x2a 0x71)] : List (Word × Instr)), decodeKernel p.1 = .ok p.2 := by decide

theorem test_decode_k_39 : ∀ p ∈ ([
    (0b00111001_0111_1_1010101_0101010_0000000_0000_00000_000000000000000000000, .xsum ⟨7, true⟩ 0x55 0x2a),
    (0b00111001_0111_1_1010101_0101010_0000000_0000_00001_000000000000000000000, .xsumf ⟨7, true⟩ 0x55 0x2a),
    (0b00111001_0111_1_1010101_0101010_0000000_0000_00010_000000000000000000000, .xmaxf ⟨7, true⟩ 0x55 0x2a),
    (0b00111001_0111_1_1010101_0101010_0000000_0000_00011_000000000000000000000, .xminf ⟨7, true⟩ 0x55 0x2a)] : List (Word × Instr)), decodeKernel p.1 = .ok p.2 := by decide

theorem test_decode_k_3A : ∀ p ∈ ([
    (0b00111010_0111_1_1010101_101_1011_000_0000000000000000_0000000000000000_00, .trow ⟨7, true⟩ 0x55 5 11),
    (0b00111010_0111_1_1010101_101_1011_001_0000000000000000_0000000000000000_00, .trowr ⟨7, true⟩ 0x55 5 11),
    (0b00111010_0111_1_1010101_101_1011_010_0000000000000000_0000000000000000_00, .tcol ⟨7, true⟩ 0x55 5 11),
    (0b00111010_0111_1_1010101_101_1011_011_0000000000000000_0000000000000000_00, .tcolr ⟨7, true⟩ 0x55 5 11)] : List (Word × Instr)), decodeKernel p.1 = .ok p.2 := by decide

theorem test_decode_k_3B : ∀ p ∈ ([
    (0b00111011_0111_1_0000000_101_0000_000_0000000000000000_0000000000000000_00, .tzero ⟨7, true⟩ 5),
    (0b00111011_0000_0_0000000_101_0000_001_1000000000000001_0000111111110000_00, .tcfg 5 0x8001 0xff0)] : List (Word × Instr)), decodeKernel p.1 = .ok p.2 := by decide

theorem test_decode_k_40 : ∀ p ∈ ([
    (0b01000000_0000_0_000000000000000000000000000000000000000000000000000, .loop)] : List (Word × Instr)), decodeKernel p.1 = .ok p.2 := by decide

theorem test_decode_k_41 : ∀ p ∈ ([
    (0b01000001_0000_0_00000000000000000000000000000000000_0001001000110100, .wait 0x1234)] : List (Word × Instr)), decodeKernel p.1 = .ok p.2 := by decide

theorem test_decode_k_48 : ∀ p ∈ ([
    (0b01001000_0111_1_01_0000011110010001_000000000000000000000000000000000, .cfmt ⟨7, true⟩ 1 0x791)] : List (Word × Instr)), decodeKernel p.1 = .ok p.2 := by decide

theorem test_decode_k_49 : ∀ p ∈ ([
    (0b01001001_0111_1_1_0_0000000_101_101111_1001101010111100_110111101111_00000, .clatch ⟨7, true⟩ true 5 0x2f 0x9abc 0xdef),
    (0b01001001_0111_1_0_1_0111110_000_011111_1001101010111100_110111101111_00000, .clatchr ⟨7, true⟩ false 0x3e 31 0x9abc 0xdef)] : List (Word × Instr)), decodeKernel p.1 = .ok p.2 := by decide

theorem test_decode_k_4A : ∀ p ∈ ([
    (0b01001010_0111_1_01_110_01_001000_000101_10_001000_000011_000000000000000000, .cbind ⟨7, true⟩ 0xe4816203)] : List (Word × Instr)), decodeKernel p.1 = .ok p.2 := by decide

theorem test_decode_k_4B : ∀ p ∈ ([
    (0b01001011_0111_1_101_1_0101000_0101001_1_10111111111_000000000000000000000, .cube ⟨7, true⟩ 5 true 0x28 0x29 true 0x5ff)] : List (Word × Instr)), decodeKernel p.1 = .ok p.2 := by decide

theorem test_decode_k_4C : ∀ p ∈ ([
    (0b01001100_0111_1_1010101_10110100101_11111111_0000000000000000000000000, .czero ⟨7, true⟩ 0x55 0x5a5 0xff)] : List (Word × Instr)), decodeKernel p.1 = .ok p.2 := by decide

theorem test_decode_k_4D : ∀ p ∈ ([
    (0b01001101_0111_1_0_0011011_0101010_10110100101_10_00000000000000000000000, .cmovzToM ⟨7, true⟩ 27 0x2a 0x5a5 2),
    (0b01001101_0111_1_1_1011011_0101010_10110100101_11_00000000000000000000000, .cmovzToZ ⟨7, true⟩ 0x5b 0x2a 0x5a5 3)] : List (Word × Instr)), decodeKernel p.1 = .ok p.2 := by decide

theorem test_decode_k_4E : ∀ p ∈ ([
    (0b01001110_0111_1_1010101_01_1_00000000000000000000000000000000000000000, .cstat ⟨7, true⟩ 0x55 1 true)] : List (Word × Instr)), decodeKernel p.1 = .ok p.2 := by decide

theorem test_decode_k_4F : ∀ p ∈ ([
    (0b01001111_0111_1_000000000000000000000000000000000000000000000000000, .cstop ⟨7, true⟩ )] : List (Word × Instr)), decodeKernel p.1 = .ok p.2 := by decide

/-- Encodings that the spec works out: R62, R102 to R111, R128, R139, R140, R164, R257, R260, R268, R309. -/
theorem test_spec_words_cp : ∀ p ∈ ([
    (0x10084040, .addi g0 4 4 64), (0xB00A4C00, .ldd g0 5 4 0), (0xD8100000, .fence g0 2), (0xD8200000, .fence g0 4),
    (0x98000140, .trap g0 5), (0x98000001, .eret g0), (0x98000002, .yield g0), (0xA0120002, .rdtick g0 9), (0xA0020120, .mfs g0 1 9),
    (0xA00200E1, .mts g0 1 7), (0xF0010000, .lwait g0 0), (0xF0013800, .lwait g0 7), (0xF000214C, .krun g0 4 5 6),
    (0xF80018A0, .sscadd g0 3 2 8), (0xE800384C, .salloc g0 7 1 6), (0xE8010800, .sfree g0 1), (0xE8020886, .sload g0 1 2 3),
    (0xE8020887, .sloadx g0 1 2 3), (0xE8051889, .sbagm g0 3 2 2), (0xE8070800, .swait g0 1), (0xE8070400, .swaitAll g0),
    (0xE000284C, .lds4 g0 5 1 6), (0xF8022A22, .aadd g0 5 4 2 0 1), (0xF80A32CC, .acas g0 6 5 4 3 0), (0xF80B298B, .qpush g0 5 6 1 3),
    (0xF80C4992, .qpop g0 9 6 2 2), (0xF8144AA0, .synct g0 9 10 1)] : List (Word32 × Instr)), decodeCp p.1 = .ok p.2 := by decide

/-- Encodings that the spec works out: R159, R167, R183, R184, R189, R197, R202, R204, R235 to R242. -/
theorem test_spec_words_kernel : ∀ p ∈ ([
    (0x0100506100000000, .iadd g0 5 3 4), (0x0170506100000000, .iadd ⟨7, false⟩ 5 3 4), (0x4000000000000000, .loop),
    (0x030030003F800000, .moviKernel g0 3 0x3F800000), (0x0501872000000064, .icmplti g0 3 7 100), (0x0900A16306800000, .ffma g0 10 11 12 13 0),
    (0x21006060F2208000, .cvtpack g0 6 3 0x0791 0), (0x210142A0F2200000, .cvtto g0 20 21 0x0791 0), (0x3900910000200000, .xsumf g0 9 8),
    (0x3B000407FFFFFFFC, .tcfg 2 0xFFFF 0xFFFF), (0x3A0054E000000000, .trow g0 5 2 7), (0x48020F2200000000, .cfmt g0 1 0x0791),
    (0x490000DE00000180, .clatch g0 false 1 47 0 12), (0x4B00080000000000, .cube g0 0 false 8 0 false 0),
    (0x4B00081300000000, .cube g0 0 false 8 9 true 0), (0x4B00080002000000, .cube g0 0 false 8 0 false 16),
    (0x4C0030007E000000, .czero g0 3 0 63), (0x4D00203021000000, .cmovzToM g0 4 3 16 2), (0x4E00940000000000, .cstat g0 9 1 false),
    (0x4F00000000000000, .cstop g0)] : List (Word × Instr)), decodeKernel p.1 = .ok p.2 := by decide

/-- A word is refused for a reserved guard, major opcode, FN, CC or SUB value, or field (R63, R159). -/
theorem test_decode_refuses :
    decodeCp 0x0E000000 = .error .field ∧ decodeCp 0x78000000 = .error .op ∧ decodeCp 0xA8000000 = .error .op ∧ decodeCp 0x08000014 = .error .sub ∧
    decodeCp 0xE83F0000 = .error .sub ∧ decodeCp 0x00000001 = .error .op ∧ decodeKernel 0xFE00000000000000 = .error .op ∧
    decodeKernel 0x0000000000000001 = .error .op ∧ decodeKernel 0x0100506100040000 = .error .field := by decide

/-! ## States for the witnesses -/

/-- An open bundle of four slots at address 8, captured registers and predicates given. -/
def openIssue (cap : Tab Word) (g : BitVec 12) : Issue :=
  { addr := 8, words := [0, 0, 0, 0], occ := 15, perf := 0, cap := [cap, cap, cap, cap], g := g, re := false, taken := none, bar := .none,
    sync := false, gwait := false, exit := false, tick := 0, lease := 0, ld := none }

/-- Context 0 holds a task and an open bundle. -/
def openCtx (cap : Tab Word) : Ctx := { Ctx.reset with issue := some (openIssue cap 0), task := some loadedTask }

/-- The slot of context 0, which the state says, is to be performed. -/
def openState (slot : Nat) (c : Ctx) : State := { State.reset.setCtx 0 c with cur := ⟨0, slot, 0⟩ }

/-- A read and write leaf for one page of device memory homed on die 0, of the same number (R279). -/
def dataLeaf (page : Nat) : TlbE := ⟨page, 0, 0, BitVec.ofNat 64 (2 ^ 63 + 2 ^ 61 + 3 * 2 ^ 59 + 2 ^ 56 + page * 2 ^ 16), []⟩

/-- The same for host memory. -/
def hostLeaf (page : Nat) : TlbE := ⟨page, 0, 0, BitVec.ofNat 64 (2 ^ 63 + 2 ^ 61 + 3 * 2 ^ 59 + 2 * 2 ^ 56 + page * 2 ^ 16), []⟩

/-- Page 0 is executable, page 1 device memory, page 2 host memory; the first line of page 0 marks every word as a target. -/
def mapped (s : State) : State :=
  let s := s.modCore 0 (fun v => { v with tlb := [loadedLeaf 0 0, dataLeaf 1, hostLeaf 2] })
  { s with mem := [(0, 0xFF), (1, 0xFF), (2, 0xFF), (3, 0xFF), (4, 0xFF), (5, 0xFF), (6, 0xFF), (7, 0x0F)] }

/-- Context 0 runs a slot, with registers x1 to x7 as given. -/
def slotState (slot : Nat) (xs : Tab Word) : State := mapped (openState slot (openCtx xs))

theorem slot_runs_of {s : State} {g : Guard} {rs : List Nat} (is : Issue) (h : s.me.issue = some is) (hg : is.guardOk g = true)
    (hl : leased s rs = none) : slotRuns s g rs := ⟨is, h, hg, hl⟩

def okOf (r : TrRes) : Bool :=
  match r with
  | .ok _ _ => true
  | _ => false

def placeOf (r : TrRes) : Place :=
  match r with
  | .ok p _ => p
  | _ => ⟨0, 0, 0, 0, 0⟩

def stateOf (s : State) (r : TrRes) : State :=
  match r with
  | .ok _ t => t
  | _ => s

/-- A translation that succeeds, as a witness of `translates`. -/
theorem translates_of {s : State} {va : Word} {kind : Nat} (hp : pagerHit s.me true va.toNat kind = none)
    (h : okOf (translation s va kind) = true) : translates s va kind (placeOf (translation s va kind)) (stateOf s (translation s va kind)) := by
  refine ⟨hp, ?_⟩
  revert h
  cases translation s va kind <;> simp [okOf, placeOf, stateOf]

/-- The word of a control-processor instruction. -/
def cpWord (i : Instr) : Word32 :=
  match encode i with
  | some (.cp w) => w
  | _ => 0

/-- A request of context 0 at an address of package 0's device memory, homed on a die. -/
def homeReq (kind : ReqKind) (pa home : Nat) (ans : Option (List Nat)) : Req :=
  { x := 0, kind := kind, pkg := 0, va := pa, pa := pa, pl := 1, home := home, release := false, acquire := none, noFill := false, ans := ans, line := [],
    flt := none, word := 0 }

def reqState (kind : ReqKind) (pa home : Nat) (ans : Option (List Nat)) : State :=
  State.reset.setReq 5 (some (homeReq kind pa home ans))

/-! ## Worked examples of the spec -/

/-- What an instruction leaves in x3, for x1 and x2 as given. -/
def x3After (i : Instr) (x1 x2 : Word) : Word :=
  match exec i (openState 0 { openCtx [(1, x1), (2, x2)] with x := [(1, x1), (2, x2)] }) with
  | .next t => t.me.rx 3
  | _ => 0

/-- R87: the examples of the register operations. -/
theorem test_register_examples :
    x3After (.mul g0 3 1 2) 0xFFFFFFFFFFFFFFFE 3 = 0xFFFFFFFFFFFFFFFA ∧ x3After (.mulhu g0 3 1 2) 0xFFFFFFFFFFFFFFFE 3 = 2 ∧
    x3After (.mulhs g0 3 1 2) 0xFFFFFFFFFFFFFFFE 3 = 0xFFFFFFFFFFFFFFFF ∧ x3After (.sar g0 3 1 2) 0xFFFFFFFFFFFFFFFE 3 = 0xFFFFFFFFFFFFFFFF ∧
    x3After (.minu g0 3 1 2) 0xFFFFFFFFFFFFFFFE 3 = 3 := by decide

/-- R87: results at the ends of the range: counts of 0, the sum that wraps, a shift count above 63. -/
theorem test_register_corners :
    x3After (.clz g0 3 1) 0 0 = 64 ∧ x3After (.ctz g0 3 1) 0 0 = 64 ∧ x3After (.popc g0 3 1) 0xFFFFFFFFFFFFFFFF 0 = 64 ∧
    x3After (.add g0 3 1 2) 0xFFFFFFFFFFFFFFFF 1 = 0 ∧ x3After (.sub g0 3 1 2) 0 1 = 0xFFFFFFFFFFFFFFFF ∧
    x3After (.shl g0 3 1 2) 1 65 = 2 ∧ x3After (.min g0 3 1 2) 0x8000000000000000 1 = 0x8000000000000000 ∧
    x3After (.addi g0 3 1 0xFFF) 0 0 = 0xFFFFFFFFFFFFFFFF ∧ x3After (.andi g0 3 1 0xFC0) 0x7F 0 = 0x40 ∧
    x3After (.movi g0 3 0x10000) 0 0 = 0xFFFFFFFFFFFF0000 := by decide

/-- R95: the examples of the bit fields. -/
theorem test_bit_field_examples :
    x3After (.bfx g0 3 1 4 7) 0xF3A0 0 = 0x3A ∧ x3After (.bfxs g0 3 1 8 7) 0xF3A0 0 = 0xFFFFFFFFFFFFFFF3 ∧
    x3After (.bfx g0 3 1 0 63) 0xFEDCBA9876543210 0 = 0xFEDCBA9876543210 := by decide

/-! ## Witnesses: encodings, steps, control processor -/

theorem witness_DecodeCpAfterEncode : (Instr.qpop ⟨11, true⟩ 31 31 1 4).wf = true ∧ (encode (.qpop ⟨11, true⟩ 31 31 1 4)).isSome = true := by decide
theorem witness_DecodeKernelAfterEncode : (Instr.cube g0 7 true 127 0 false 1535).wf = true ∧
    (encode (.cube g0 7 true 127 0 false 1535)).isSome = true := by decide
theorem witness_EncodeAfterDecode : decodeCp 0x10084040 = .ok (.addi g0 4 4 64) ∧ (0x4F00000000000000 : Word) ≠ 0 ∧
    decodeKernel 0x4F00000000000000 = .ok (.cstop g0) := by decide
theorem witness_NopHasNoEffect : (1 : Word32) ≠ 0 ∧ fldN (1 : Word32) 27 5 = 0 ∧ fldN (0x07FFFFFF : Word32) 27 5 = 0 := by decide

/-- A context's turn with an open bundle whose first slot is ADDI x4, x4, 64. -/
def turnState : State :=
  { openState 0 { openCtx [] with issue := some { openIssue [] 0 with words := [0x10084040, 0, 0, 0], occ := 1 } } with turns := [.cp 0] }

/-- An array's turn with the slot word of IADD.a0 d5, d3, d4. -/
def kernelTurnState : State :=
  { State.reset.modCore 0 (fun v => { v with ca := { v.ca with inv := some (loadedInv 0 0x0100506100000000) } }) with turns := [.kernel 0] }

theorem witness_StepRunsTheDecodedInstruction :
    (∃ is, turnState.turns = .cp 0 :: [] ∧ turnState.stopped (dieOfCtx 0) = false ∧ (turnState.ctx 0).issue = some is ∧ nextSlot turnState is = some 0 ∧
      decodeCp (is.words.getD 0 0) = .ok (.addi g0 4 4 64)) ∧
    (∃ v b, kernelTurnState.turns = .kernel 0 :: [] ∧ (kernelTurnState.core 0).ca.inv = some v ∧ v.bundle = some b ∧ b.todo = 0 :: [] ∧
      decodeKernel (b.words.getD 0 0) = .ok (.iadd g0 5 3 4)) ∧
    (∃ s : State, s.turns = .event (.clockStep 0) :: [] ∧ encode (.clockStep 0) = none) :=
  ⟨⟨_, rfl, by decide, rfl, by decide, by decide⟩, ⟨_, _, rfl, rfl, rfl, by decide, by decide⟩, ⟨{ State.reset with turns := [.event (.clockStep 0)] }, rfl, rfl⟩⟩

/-- A placed word: NOP at the first word of a line. -/
def placedState : State := State.reset.withFetchWord 32 0

def fetchedWords : FetchRes → List Word32
  | .ok ws _ => ws
  | .none _ => []

def fetchedState : FetchRes → State
  | .ok _ s => s
  | .none s => s

theorem witness_BundlesOpenAndEnd :
    (∃ is, (placedState.ctx 0).issue = none ∧ mayIssue placedState 0 = true ∧ (placedState.ctx 0).reissue = false ∧
      fetch placedState 0 = .ok (fetchedWords (fetch placedState 0)) (fetchedState (fetch placedState 0)) ∧
      mkIssue (placedState.ctx 0) (placedState.ctx 0).pc (fetchedWords (fetch placedState 0)) = some is ∧
      bundleReady (fetchedState (fetch placedState 0)) 0 is = true) ∧
    (∃ p a rest t, candidates placedState (cyclic 0 ((placedState.core 0).prev.getD 3)) = ((p, a) :: rest, t)) ∧
    (∃ is, ((openState 0 { openCtx [] with issue := some { openIssue [] 0 with perf := 15 } }).ctx 0).issue = some is ∧ is.todo = []) ∧
    (2 ^ 55 - 256 + 136 < 2 ^ 55) :=
  ⟨⟨_, by decide, by decide, by decide, by decide, by rfl, by decide⟩, ⟨_, _, _, _, rfl⟩, ⟨_, rfl, by decide⟩, by decide⟩

theorem witness_memoryInv_reset : memoryInv State.reset := ⟨rfl, rfl, fun _ => rfl⟩
theorem witness_StepKeepsMemoryCanonical : memoryInv State.reset ∧ ∃ t, step State.reset = .next t :=
  ⟨witness_memoryInv_reset, _, rfl⟩
theorem witness_StepKeepsMemoryCanonical_placed : (∃ t, step placedState = .next t) ∧ placedState.mem.wf = true ∧ placedState.host.wf = true :=
  ⟨⟨_, rfl⟩, by decide, by decide⟩

/-- The guard is false: g1 as read at issue is 0. -/
theorem witness_FalseGuardPerformsNothing : cpGuard (.trap ⟨1, false⟩ 5) = some ⟨1, false⟩ ∧
    (slotState 1 []).me.issue = some (openIssue [] 0) ∧ (openIssue [] 0).gwait = false ∧ (openIssue [] 0).guardOk ⟨1, false⟩ = false := by decide

/-- A slot runs, x0 and x31 among the registers that it names. -/
theorem slot_runs (slot : Nat) (xs : Tab Word) (rs : List Nat) (g : Guard) (hg : (openIssue xs 0).guardOk g = true)
    (hl : leased (slotState slot xs) rs = none) (hi : (slotState slot xs).me.issue = some (openIssue xs 0)) :
    slotRuns (slotState slot xs) g rs := ⟨_, hi, hg, hl⟩

theorem witness_AluRegisterResults :
    (fldN (0x08000000 : Word32) 27 5 = 1 ∧ (guardOf 0x08000000).wf = true ∧ fldN (0x08000000 : Word32) 0 7 = 0 ∧ fldN (0x08000010 : Word32) 0 7 = 16) ∧
    (fldN (0x08000013 : Word32) 27 5 = 1 ∧ fldN (0x08000013 : Word32) 0 7 = 0x13 ∧ fld (0x08000013 : Word32) 7 5 = 0 ∧
      fld (0x08000F93 : Word32) 7 5 ≠ 0) ∧
    slotRuns (slotState 0 [(1, 5)]) g0 [0, 1, 31] ∧ slotRuns (slotState 0 [(1, 5)]) ⟨1, true⟩ [31, 1] :=
  ⟨by decide, by decide, slot_runs _ _ _ _ (by decide) (by decide) (by decide), slot_runs _ _ _ _ (by decide) (by decide) (by decide)⟩

theorem witness_AluImmediateResults :
    ((guardOf 0x10000FFF).wf = true ∧ fldN (0x10000FFF : Word32) 27 5 = 2 ∧ fldN (0x28000001 : Word32) 27 5 = 5) ∧
    (fldN (0x30000003 : Word32) 27 5 = 6 ∧ fldN (0x30000003 : Word32) 0 6 = 3 ∧ 4 ≤ fldN (0x30000004 : Word32) 0 6) ∧
    fldN (0x38010000 : Word32) 27 5 = 7 ∧ slotRuns (slotState 0 []) g0 [31, 0] ∧ slotRuns (slotState 0 []) g0 [0] :=
  ⟨by decide, by decide, by decide, slot_runs _ _ _ _ (by decide) (by decide) (by decide), slot_runs _ _ _ _ (by decide) (by decide) (by decide)⟩

theorem witness_CompareResults :
    ((guardOf 0x402C0C00).wf = true ∧ predDst (fld (0x402C0C00 : Word32) 18 4) = true ∧ fldN (0x402C0C00 : Word32) 27 5 = 8 ∧
      fld (0x402C0C00 : Word32) 0 4 = 0 ∧ fldN (0x402C0C00 : Word32) 9 4 = 6) ∧
    ((guardOf 0x482C0DFF).wf = true ∧ predDst (fld (0x482C0DFF : Word32) 18 4) = true ∧ fldN (0x482C0DFF : Word32) 27 5 = 9 ∧
      fldN (0x482C0DFF : Word32) 9 4 = 6) ∧
    slotRuns (slotState 0 []) g0 [31, 0] ∧ slotRuns (slotState 0 []) g0 [0] :=
  ⟨by decide, by decide, slot_runs _ _ _ _ (by decide) (by decide) (by decide), slot_runs _ _ _ _ (by decide) (by decide) (by decide)⟩

theorem witness_SelectAndPredicateResults :
    (fldN (0x50000058 : Word32) 27 5 = 0x0A ∧ fld (0x50000058 : Word32) 0 3 = 0 ∧ predSrc (fld (0x50000058 : Word32) 3 4) = true ∧
      (guardOf 0x50000058).wf = true) ∧
    ((guardOf 0x702EEC03).wf = true ∧ fldN (0x702EEC03 : Word32) 27 5 = 0x0E ∧ predDst (fld (0x702EEC03 : Word32) 18 4) = true ∧
      predSrc (fld (0x702EEC03 : Word32) 14 4) = true ∧ fld (0x702EEC03 : Word32) 3 7 = 0 ∧ predSrc (fld (0x702EEC03 : Word32) 10 4) = true ∧
      fldN (0x702EEC03 : Word32) 0 3 = 3) ∧
    (fldN (0x70040004 : Word32) 0 3 = 4 ∧ fld (0x70040004 : Word32) 10 4 = 0 ∧ fld (0x70040404 : Word32) 10 4 ≠ 0 ∧ 5 ≤ fldN (0x70040005 : Word32) 0 3) ∧
    slotRuns (slotState 0 []) g0 [1, 2, 31] ∧ slotRuns (slotState 0 []) g0 [] :=
  ⟨by decide, by decide, by decide, slot_runs _ _ _ _ (by decide) (by decide) (by decide), slot_runs _ _ _ _ (by decide) (by decide) (by decide)⟩

theorem witness_BitFieldResults :
    ((guardOf 0x5800003F).wf = true ∧ fldN (0x5800003F : Word32) 27 5 = 0x0B ∧ fldN (0x5800003F : Word32) 6 6 + fldN (0x5800003F : Word32) 0 6 < 64) ∧
    64 ≤ fldN (0x58000FC1 : Word32) 6 6 + fldN (0x58000FC1 : Word32) 0 6 ∧
    (63 : BitVec 6).toNat + (0 : BitVec 6).toNat < 64 ∧ slotRuns (slotState 0 []) g0 [31, 0] :=
  ⟨by decide, by decide, by decide, slot_runs _ _ _ _ (by decide) (by decide) (by decide)⟩

theorem witness_RegisterFile : (31 : Nat) ≠ 0 ∧ (30 : Nat) ≠ 31 ∧ (11 : Nat) ≠ 0 ∧ 11 < 12 := by decide

theorem witness_FrameOfArithmetic :
    (xWriter (.bfi g0 3 1 63 0) = some (g0, 3, [3, 1]) ∧ slotRuns (slotState 0 []) g0 [3, 1] ∧ ∃ t, exec (.bfi g0 3 1 63 0) (slotState 0 []) = .next t) ∧
    (gWriter (.pnot g0 11 0) = some (g0, 11, []) ∧ slotRuns (slotState 0 []) g0 [] ∧ ∃ t, exec (.pnot g0 11 0) (slotState 0 []) = .next t) :=
  ⟨⟨by decide, slot_runs _ _ _ _ (by decide) (by decide) (by decide), _, rfl⟩,
   ⟨by decide, slot_runs _ _ _ _ (by decide) (by decide) (by decide), _, rfl⟩⟩

/-- Context 0 with x31 leased. -/
def leasedState : State := openState 0 { openCtx [] with issue := some { openIssue [] 0 with lease := 0x80000000 } }

theorem witness_LeasedRegisterFaults : xWriter (.add g0 1 31 2) = some (g0, 1, [1, 31, 2]) ∧ gWriter (.cmpeq g0 1 31 2) = some (g0, 1, [31, 2]) ∧
    leasedState.me.issue = some { openIssue [] 0 with lease := 0x80000000 } ∧ (openIssue [] 0).guardOk g0 = true ∧ leased leasedState [1, 31, 2] = some 31 ∧
    otherRegs (.call g0 5) = some (g0, [31]) ∧ otherRegs (.std g0 2 31 0) = some (g0, [2, 31]) ∧ leased leasedState [2, 31] = some 31 ∧
    commandRegs (.srowupd g0 1 2 7) = some (g0, [28, 29, 30, 31]) ∧ (openIssue [] 0).gwait = false ∧
    (leased (openState 3 { openCtx [] with lease := 0x80000000 }) [28, 29, 30, 31]).isSome = true := by decide

/-- Slot B with a target in x1: word 2 of line 0, which its header marks, or word 0, which is a header word. -/
def branchState (target : Word) : State := slotState 1 [(1, target)]

theorem witness_BranchesAndCalls :
    (∃ p t ws u, (8 : Word) ≠ exitVa ∧ reaches (branchState 8) 8 3 p t ∧ fetchLine t (coreOf t.cur.x) p = (.ok ws, u) ∧ targetOk ws 8 = true ∧
      slotRuns (branchState 8) g0 [1, 31] ∧ (branchState 8).rx 1 = 8 ∧ slotRuns (branchState 8) g0 [31] ∧
      BitVec.ofNat 64 (branchState 8).bundleAddr + (0 : BitVec 22).signExtend 64 * 4 = 8) ∧
    (∃ p t ws u, reaches (branchState 0) 0 3 p t ∧ fetchLine t (coreOf t.cur.x) p = (.ok ws, u) ∧ targetOk ws 0 = false ∧
      BitVec.ofNat 64 (branchState 0).bundleAddr + (0x3FFFFE : BitVec 22).signExtend 64 * 4 = (0 : Word)) ∧
    (∃ t, translate (branchState 0) 0 [] (BitVec.ofNat 64 (branchState 0).bundleAddr + (0x7FFFF : BitVec 22).signExtend 64 * 4) 3 =
      .fault 0x86 0x30002 t) ∧
    (∃ a : Nat, ∃ o : BitVec 22, BitVec.ofNat 64 a + o.signExtend 64 * 4 = exitVa) ∧
    slotRuns (branchState exitVa) g0 [1, 31] ∧ (branchState exitVa).rx 1 = exitVa :=
  ⟨⟨_, _, _, _, by decide, ⟨translates_of (by decide) (by decide), by decide⟩, rfl, by decide, slot_runs _ _ _ _ (by decide) (by decide) (by decide),
     by decide, slot_runs _ _ _ _ (by decide) (by decide) (by decide), by decide⟩,
   ⟨_, _, _, _, ⟨translates_of (by decide) (by decide), by decide⟩, rfl, by decide, by decide⟩, ⟨_, rfl⟩, ⟨0x007FFFFFFFFFFF08, 32, by decide⟩,
   slot_runs _ _ _ _ (by decide) (by decide) (by decide), by decide⟩

/-- A task with a trap handler at line 3, in the handler or not. -/
def trapState (t : Bool) (tvec : Word) : State := openState 1 { openCtx [] with t := t, tvec := tvec }

theorem witness_FaultEntersHandler : (trapState false 0x180).me.issue = some (openIssue [] 0) ∧ (trapState false 0x180).me.t = false ∧
    fldN (trapState false 0x180).me.tvec 7 48 ≠ 0 ∧
    ((trapState false 0x180).modMe (fun c => { c with lease := 0x20 })).me.lease ≠ 0 ∧
    ((trapState false 0x180).modMe (fun c => { c with lease := 0x20 })).me.issue = some (openIssue [] 0) ∧
    frameWaits (trapState false 0x180) 0 = false := by decide

/-- The bundle has a load of x3 on its way. -/
theorem witness_FaultEntersHandler_load :
    let s := State.reset.setReq 5 (some (homeReq (.load 3 8 false) 0x10000 0 none))
    let is := { openIssue [] 0 with perf := 4, ld := some 5 }
    is.ld = some 5 ∧ s.req 5 = some (homeReq (.load 3 8 false) 0x10000 0 none) ∧ (homeReq (.load 3 8 false) 0x10000 0 none).ans = none ∧
      (openIssue [] 0).ld = none := by decide

theorem witness_FaultsThatStopTheTask : (trapState true 0).me.issue = some (openIssue [] 0) ∧ (trapState true 0).me.kill = none ∧
    (trapState true 0).me.t = true ∧ (trapState false 0).me.t = false ∧ fldN (trapState false 0).me.tvec 7 48 = 0 ∧
    frameWaits (trapState true 0) 0 = false ∧ (openIssue [] 0).ld = none := by decide

theorem witness_TrapEntersHandler : (trapState false 0x180).me.issue = some (openIssue [] 0) ∧ (openIssue [] 0).guardOk g0 = true ∧
    (trapState false 0x180).me.t = false ∧ fldN (trapState false 0x180).me.tvec 7 48 ≠ 0 ∧ frameWaits (trapState false 0x180) 0 = false := by decide

/-- In the handler, with EPC, and a replay buffer that has slots left or none. -/
def eretState (epc : Word) (perf : BitVec 4) : State :=
  mapped (openState 1 { openCtx [] with t := true, epc := epc, rb := some { openIssue [] 0 with perf := perf } })

theorem witness_EretReturns :
    ((eretState 8 1).me.t = true ∧ (eretState 8 1).me.rb = some { openIssue [] 0 with perf := 1 } ∧ ({ openIssue [] 0 with perf := 1 } : Issue).todo ≠ [] ∧
      slotRuns (eretState 8 1) g0 []) ∧
    ((∀ is, (eretState 8 15).me.rb = some is → is.todo = []) ∧ (eretState 8 15).me.epc ≠ exitVa ∧
      ∃ p t ws u, reaches (eretState 8 15) (eretState 8 15).me.epc 3 p t ∧ fetchLine t (coreOf t.cur.x) p = (.ok ws, u) ∧
        targetOk ws (eretState 8 15).me.epc.toNat = true) ∧
    (∃ p t ws u, reaches (eretState 4 15) (eretState 4 15).me.epc 3 p t ∧ fetchLine t (coreOf t.cur.x) p = (.ok ws, u) ∧
        targetOk ws (eretState 4 15).me.epc.toNat = false) ∧
    (slotState 1 []).me.t = false ∧ (eretState exitVa 15).me.epc = exitVa :=
  ⟨⟨by decide, by decide, by decide, slot_runs_of (openIssue [] 0) (by decide) (by decide) (by decide)⟩,
   ⟨fun is h => by
      have : is = { openIssue [] 0 with perf := 15 } := by
        have h2 : (eretState 8 15).me.rb = some { openIssue [] 0 with perf := 15 } := by decide
        exact Option.some.inj (h.symm.trans h2)
      rw [this]; decide, by decide, _, _, _, _, ⟨translates_of (by decide) (by decide), by decide⟩, rfl, by decide⟩,
   ⟨_, _, _, _, ⟨translates_of (by decide) (by decide), by decide⟩, rfl, by decide⟩, by decide, by decide⟩

theorem witness_SystemInstructions : slotRuns (slotState 1 []) g0 [] ∧ slotRuns (slotState 1 []) g0 [0] ∧ slotRuns (slotState 1 []) g0 [31] ∧
    (trapState true 0).me.t = true ∧ (slotState 1 []).me.t = false ∧ 9 < (10 : BitVec 12).toNat ∧ 8 < (9 : BitVec 12).toNat ∧
    (slotState 1 []).me.issue.isSome = true ∧
    (let s := State.reset.modCtx 0 (fun c => { c with task := some loadedTask, yield := some ([2, 3], 16) })
     (s.ctx 0).yield = some ([2, 3], 16) ∧ s.cycles (pkgOfCtx 0) < 16 ∧ 16 ≤ { s with now := 16 }.cycles (pkgOfCtx 0) ∧
       coreOf 3 = coreOf 0 ∧ (s.modCtx 0 (fun c => { c with yield := some ([], 16) })).ctx 0 = { s.ctx 0 with yield := some ([], 16) }) :=
  ⟨slot_runs _ _ _ _ (by decide) (by decide) (by decide), slot_runs _ _ _ _ (by decide) (by decide) (by decide),
   slot_runs _ _ _ _ (by decide) (by decide) (by decide), by decide, by decide, by decide, by decide, by decide, by decide⟩

/-! ## Witnesses: memory, windows, stream and home commands -/

/-- Device memory with a page table: nodes on pages 16, 17 and 18, page 5 absent in region 3, page 6 data, the region table on page 19
and its queue for region 3 at page 20 (R277 to R279, R286). -/
def tables : Memory :=
  [(0, 0xFF), (1, 0xFF), (2, 0xFF), (3, 0xFF), (4, 0xFF), (5, 0xFF), (6, 0xFF), (7, 0x0F), (0x100002, 0x11), (0x100007, 0x81), (0x110002, 0x12),
   (0x110007, 0x81), (0x12002E, 3), (0x12002F, 0x20), (0x120032, 6), (0x120037, 0xB9), (0x13001A, 0x14), (0x13001F, 0x80)]

/-- Die 0 walks the tables. -/
def tabled (s : State) : State :=
  { (s.modDie 0 (fun v => { v with tbase := 0x8000000000104000, pgrbase := 0x8000000000130000 })) with mem := tables }

/-- Context 0 runs a slot; x registers and handles as read at issue. -/
def dataState (slot : Nat) (xs hs : Tab Word) : State :=
  mapped (openState slot { openCtx (xs ++ hs.map (fun p => (32 + p.1, p.2))) with x := xs, h := hs })

theorem data_runs (slot : Nat) (xs hs : Tab Word) (rs : List Nat)
    (hl : leased (dataState slot xs hs) rs = none)
    (hi : (dataState slot xs hs).me.issue = some (openIssue (xs ++ hs.map (fun p => (32 + p.1, p.2))) 0)) : slotRuns (dataState slot xs hs) g0 rs :=
  ⟨_, hi, rfl, hl⟩

/-- A line of the data cache for page 1. -/
def cached (s : State) : State := s.modCore 0 (fun v => { v with dc := [(0x10000 / 64, List.replicate 64 0x5A)] })

theorem witness_LoadsAndStoresComplete :
    (∃ p t, slotRuns (dataState 2 [(1, 0x10008)] []) g0 [31, 1] ∧ (dataState 2 [(1, 0x10008)] []).rx 1 + (0x3FF : BitVec 10).signExtend 64 * 8 = 0x10000 ∧
      translates (dataState 2 [(1, 0x10008)] []) 0x10000 0 p t ∧ dcHit t t.cur.x 0x10000 p = none) ∧
    (∃ p t l v, translates (cached (dataState 2 [(1, 0x10000)] [])) 0x10000 0 p t ∧ dcHit t t.cur.x 0x10000 p = some l ∧ dcRead t p 8 = (v, none)) ∧
    (∃ p t, translates (dataState 2 [(1, 0x1FFF8)] []) 0x1FFF8 1 p t ∧ (0x1FFF8 : Word).toNat % 8 = 0) :=
  ⟨⟨_, _, data_runs _ _ _ _ (by decide) (by decide), by decide, translates_of (by decide) (by decide), by decide⟩,
   ⟨_, _, _, _, translates_of (by decide) (by decide), rfl, rfl⟩, ⟨_, _, translates_of (by decide) (by decide), by decide⟩⟩

/-- A node of the tables is locked, or its words are in error (R289, R385). -/
def lockedState : State := { tabled (dataState 2 [(1, 0x50000)] []) with mem := [(0x100002, 0x11), (0x100006, 0x20), (0x100007, 0x81)] }
def checkState : State := { tabled (dataState 2 [(1, 0x50000)] []) with errs := [⟨.hbm, 0x100004, true⟩] }

/-- The pager has failed an access of a kind by the slot of a bundle that is reissued. -/
def failedState (kind : Nat) : State :=
  ((dataState 2 [(1, 0x10000)] []).modMe (fun c => { c with pagerFail := [⟨5, 0x10000, kind, true⟩] })).modIssue 0 (fun is => { is with re := true })

theorem witness_LoadAndStoreFaults :
    (slotRuns (dataState 2 [(1, 0x10001)] []) g0 [3, 1] ∧ (0x10001 : Word).toNat % 2 ≠ 0) ∧
    (∃ t, translation (dataState 2 [(1, 8)] []) 8 1 = .fault 0x82 0x10000 t) ∧ (0x5FFF8 : Word).toNat % 8 = 0 ∧
    pagerHit (tabled (dataState 2 [(1, 0x50000)] [])).me true 0x50000 0 = none ∧
    (∃ t, translation (tabled (dataState 2 [(1, 0x50000)] [])) 0x50000 0 = .serviced 0 false 3 0 t) ∧
    (∃ t, translation lockedState 0x50000 0 = .locked t) ∧ (∃ f t, translation checkState 0x50000 0 = .check f t) ∧
    (∀ kind ∈ [0, 7], slotRuns (failedState kind) g0 [3, 1] ∧ (failedState kind).me.issue = some { openIssue [(1, 0x10000)] 0 with re := true } ∧
      (failedState kind).rx 1 = 0x10000 ∧ (failedState kind).me.pagerFail = [⟨5, 0x10000, kind, true⟩]) := by
  refine ⟨⟨data_runs _ _ _ _ (by decide) (by decide), by decide⟩, ⟨_, rfl⟩, by decide, by decide, ⟨_, rfl⟩, ⟨_, rfl⟩, ⟨_, _, rfl⟩, fun kind h => ?_⟩
  fin_cases h <;>
    exact ⟨slot_runs_of { openIssue [(1, 0x10000)] 0 with re := true } (by decide) (by decide) (by decide), by decide, by decide, by decide⟩

/-- Window 1 lies at page 1 with 16 bytes; window 0 is not bound. -/
def windowState : State := (dataState 2 [(2, 8)] []).modMe (fun c => { c with w := [(1, BitVec.ofNat 128 (2 ^ 96 + 16 * 2 ^ 64 + 0x10000))] })

theorem witness_ParameterReads :
    let w : Quad := Tab.get 0 windowState.me.w 1
    (slotRuns windowState g0 [3, 2] ∧ winB (Tab.get 0 windowState.me.w 0) = false ∧ winB w = true ∧ winSize w = 16) ∧
    (winSize w < 9 + 2 ^ 3 ∧ 8 + 2 ^ 3 ≤ winSize w ∧ (windowState.rx 2).toNat % 8 = 0 ∧ ((9 : Word).toNat % 2 = 0) = False) ∧
    (∃ p t, translates windowState (winBase w + BitVec.ofNat 64 8) 0 p t ∧ dcHit t t.cur.x (winBase w + BitVec.ofNat 64 8).toNat p = none) :=
  ⟨⟨slot_runs_of (openIssue [(2, 8)] 0) (by decide) (by decide) (by decide), by decide, by decide, by decide⟩, by decide,
   ⟨_, _, translates_of (by decide) (by decide), by decide⟩⟩

/-- A record that is pending. -/
def someRec : Rec := ⟨0x73, 0, 0, 0⟩

/-- BAR x1 in slot M has arrived in generation 7. -/
def barState : State :=
  (dataState 2 [(1, 0x10000)] []).modIssue 0 (fun is => { is with words := [0, 0, 0xD8001001, 0], bar := .arrived 7 })

/-- A record is pending at a bundle that issues with it. -/
def pendState (slot : Nat) : State :=
  ((dataState slot [] []).modMe (fun c => { c with pend := some someRec })).modIssue 0 (fun is => { is with sync := true })

/-- A FENCE of scope cluster has been performed. -/
def fencedState : State := State.reset.modCtx 0 (fun c => { c with fence := some 2 })

theorem witness_OrderingAndWaits :
    (slotRuns (dataState 2 [(1, 0x10000)] []) g0 [1] ∧ entriesOf (dataState 2 [(1, 0x10000)] []) 0 = [] ∧ (0x10000 : Word).toNat % 8 = 0 ∧
      (0x10004 : Word).toNat % 8 ≠ 0 ∧ ∃ p t, translates (dataState 2 [(1, 0x10000)] []) 0x10000 2 p t) ∧
    (∃ is p t u, barState.me.issue = some is ∧ is.bar = .arrived 7 ∧ bit is.perf 2 = false ∧ barState.stopped (dieOfCtx 0) = false ∧
      reaches { barState with cur := ⟨0, 2, coreOf 0⟩ } (State.rxn { barState with cur := ⟨0, 2, coreOf 0⟩ } (fldN (is.words.getD 2 0) 12 5)) 0 p t ∧
      serveRead t (dieOfCtx t.cur.x) p 8 = (u, none)) ∧
    (swaitReady (dataState 3 [] [(1, 0x8000000100000004)]) 0 false 1 = true ∧ hV ((dataState 3 [] [(1, 0x8000000100000004)]).rh 1) = true) ∧
    (swaitReady ((dataState 3 [] []).modMe (fun c => { c with allocs := [⟨1, 2, 0⟩] })) 0 true 0 = false) ∧
    ((pendState 3).me.issue.map (·.sync) = some true ∧ (pendState 3).me.pend.isSome = true ∧ swaitReady (pendState 3) 0 true 0 = true) ∧
    (slotRuns (pendState 2) g0 [1] ∧ entriesOf (pendState 2) 0 = [] ∧ (pendState 2).me.issue.map (fun is => is.sync && (pendState 2).me.pend.isSome) = some true) ∧
    (let s := (pendState 2).modMe (fun c => { c with pend := none })
     (s.me.issue.map (fun is => is.sync && s.me.pend.isSome)) = some false ∧ entriesOf s 0 = [] ∧ barState.me.issue.map (fun is => decide (is.bar = .none)) = some false) ∧
    (let is := { openIssue [] 0 with words := [0, 0, cpWord (.ldd g0 3 1 0), cpWord (.sfree g0 1)] }
     (fencedState.ctx 0).fence = some 2 ∧ [2, 3].all (fun i => is.todo.contains i && is.guardOk (guardOf (is.words.getD i 0))) = true ∧
       classOf (is.words.getD 2 0) = .m ∧ classOf (is.words.getD 3 0) = .e ∧
       plainOut (fencedState.setReq 5 (some (homeReq (.load 3 8 false) 0x10000 0 none))) 0 = true ∧ plainOut fencedState 0 = false) ∧
    (let s := (State.reset.modCtx 0 (fun c => { c with task := some loadedTask, reissue := true, rb := some (openIssue [] 0) }))
     (s.ctx 0).issue = none ∧ mayIssue s 0 = true ∧ (s.ctx 0).reissue = true ∧ (s.ctx 0).rb = some (openIssue [] 0)) :=
  ⟨⟨data_runs _ _ _ _ (by decide) (by decide), by decide, by decide, by decide, _, _, translates_of (by decide) (by decide)⟩,
   ⟨_, _, _, _, rfl, rfl, by decide, by decide, ⟨translates_of (by decide) (by decide), by decide⟩, rfl⟩, by decide, by decide, by decide,
   ⟨slot_runs_of { openIssue [] 0 with sync := true } (by decide) (by decide) (by decide), by decide, by decide⟩, by decide, by decide, by decide⟩

/-- h1 names a stall of 64 granules at granule 2 with records of 8 bytes, h2 one of 4-byte records, and x1 to x7 are given. -/
def h1 : Word := handleOf { base := 2, len := 64, rsz := 8, glo := 0, ghi := 0, tag := 0, push := 0 }
def h2 : Word := handleOf { base := 70, len := 64, rsz := 4, glo := 0, ghi := 0, tag := 0, push := 0 }
def h3 : Word := handleOf { base := 140, len := 64, rsz := 16, glo := 0, ghi := 0, tag := 0, push := 0 }

/-- The last word of h1: its CAPR records of 8 bytes. -/
def lastWord : Nat := hCapr h1 * 8 - 4

theorem witness_WindowAccessesComplete :
    slotRuns (dataState 2 [(2, BitVec.ofNat 64 lastWord)] [(1, h1)]) g0 [3, 2] ∧ hV ((dataState 2 [(2, BitVec.ofNat 64 lastWord)] [(1, h1)]).rh 1) = true ∧
    lastWord % 4 = 0 ∧ lastWord % hRsz h1 + 4 ≤ hRsz h1 ∧ lastWord + 4 ≤ hCapr h1 * hRsz h1 ∧ 0 % 8 = 0 ∧ 0 % hRsz h1 + 8 ≤ hRsz h1 ∧ 0 + 8 ≤ hCapr h1 * hRsz h1 :=
  ⟨data_runs _ _ _ _ (by decide) (by decide), by decide⟩

theorem witness_WindowAccessFaults :
    slotRuns (dataState 2 [(2, 2)] [(1, h1)]) g0 [3, 2] ∧ hV ((dataState 2 [(2, 2)] [(1, h1)]).rh 1) = true ∧ hV ((dataState 2 [(2, 2)] [(1, h1)]).rh 4) = false ∧
    ((dataState 2 [(2, 2)] [(1, h1)]).rx 2).toNat % 4 ≠ 0 ∧ hCapr h1 * hRsz h1 < (lastWord + 4) + 4 ∧ (lastWord + 4) % 4 = 0 ∧
    (lastWord + 4) % hRsz h1 + 4 ≤ hRsz h1 ∧ hRsz h2 < 0 % hRsz h2 + 8 :=
  ⟨data_runs _ _ _ _ (by decide) (by decide), by decide⟩

theorem witness_WindowPort :
    (((dataState 2 [] []).modMe (fun c => { c with wins := [⟨5, 4, 3, 0, 1, 0⟩] })).ctx 0).wins = ⟨5, 4, 3, 0, 1, 0⟩ :: [] ∧
    (((dataState 2 [] []).modMe (fun c => { c with wins := [⟨0, 4, 3, 0, 1, 0⟩] })).ctx 0).wins = ⟨0, 4, 3, 0, 1, 0⟩ :: [] ∧
    (((dataState 2 [] []).modMe (fun c => { c with wins := [⟨0, 8, 3, 0, 0, 0⟩] })).ctx 0).wins = ⟨0, 8, 3, 0, 0, 0⟩ :: [] ∧
    (((dataState 2 [] []).modMe (fun c => { c with wins := [⟨0, 4, 3, 4, 7, 1⟩] })).ctx 0).wins = ⟨0, 4, 3, 4, 7, 1⟩ :: [] ∧
    (((dataState 2 [] []).modMe (fun c => { c with wins := [⟨1, 4, 0, 0, 1, 0⟩] })).ctx 0).wins = ⟨1, 4, 0, 0, 1, 0⟩ :: [] ∧
    (dataState 2 [] []).errs = [] := by decide

/-- A request for 64 granules of 8-byte records, in either half. -/
def request : Word := BitVec.ofNat 64 (64 * 2 ^ 32 + 8)

theorem witness_StallAllocation :
    (slotRuns (dataState 3 [(1, request)] []) g0 [3, 1] ∧ reqLen request ≠ 0 ∧ badRequest request = false ∧ hV ((dataState 3 [] []).rh 1) = false ∧
      hV ((dataState 3 [] [(1, h1)]).rh 1) = true ∧ reqLen 8 = 0 ∧ (8 : Word) ≠ 0 ∧ badRequest (request + 1) = true ∧ reqLen (request + 1) ≠ 0) ∧
    ((((dataState 3 [] []).modMe (fun c => { c with allocs := [⟨1, 3, request⟩] })).ctx 0).allocs = ⟨1, 3, request⟩ :: [] ∧
      firstFit ((dataState 3 [] []).core 0).stalls 0 4096 66 = some 0 ∧ halfRange (reqHalf request) (capg (dataState 3 [] []) 0) = (0, 4096) ∧
      firstFit [⟨1, 4094, 8, 0, 0, 0, 0⟩] 0 4096 66 = none) :=
  ⟨⟨data_runs _ _ _ _ (by decide) (by decide), by decide⟩, by decide⟩

/-- Context 0 in slot E with h1, h2 and h3 valid; the task's save area is zeroed and its package holds one loop record. -/
def cmdState (xs : Tab Word) : State := dataState 3 xs [(1, h1), (2, h2), (3, h3)]

theorem cmd_runs (xs : Tab Word) (rs : List Nat) (hl : leased (cmdState xs) rs = none)
    (hi : (cmdState xs).me.issue = some (openIssue (xs ++ [(33, h1), (34, h2), (35, h3)]) 0)) : slotRuns (cmdState xs) g0 rs := ⟨_, hi, rfl, hl⟩

theorem witness_StreamCommandsAccepted :
    (slotRuns (cmdState []) g0 [] ∧ hV ((cmdState []).rh 1) = true ∧ hV ((cmdState []).rh 2) = true) ∧
    (fldN (0 : Word) 60 4 = 0 ∧ fldN (BitVec.ofNat 64 (hCapr h1)) 0 32 ≤ hCapr ((cmdState []).rh 1)) ∧
    (fldN (0x1000000000000000 : Word) 62 2 = 0 ∧ fldN (0x1000000000000000 : Word) 60 2 ≠ 3 ∧ hRsz h3 % (8 * 2 ^ fldN (0x1000000000000000 : Word) 60 2) = 0) ∧
    (hRsz ((cmdState []).rh 2) = 4 ∧ fldN (0x4000000000000000 : Word) 62 2 ≠ 3 ∧ hRsz h1 % 2 = 0) ∧
    (bit (0x8000000000000000 : Word) 63 = true ∧ fldN (0x8000000000000000 : Word) 51 9 / 8 = coreOf (cmdState []).cur.x % 512 / 8) ∧
    (fldN (0x8000000000000000 : Word) 62 2 ≠ 3 ∧ 0 < fldN (0x3F800000 : Word) 0 32 ∧ fldN (0x7F7FFFFF : Word) 0 32 < 0x7F800000 ∧ hRsz h1 / 4 = 2 ^ 1) :=
  ⟨⟨cmd_runs _ _ (by decide) (by decide), by decide⟩, by decide, by decide, by decide, by decide, by decide⟩

/-- A package with microcode entries 0 and 1 (R356). -/
def somePackage : Loaded :=
  { id := 0, hdr := [], pkgva := 0, codeoff := 0, codelen := 0, ubase := 0, ulen := 2, widths := [], nodes := [], edges := [], binds := [], nframe := 0, argmin := 0 }

/-- Microcode entry 0 is a loop record of one stage with a body of one bundle, entry 1, and no port (R163). -/
def krunState : State :=
  ((cmdState [(1, 2 ^ 16)]).modCore 0 (fun v => { v with ca := { v.ca with
    store := [(0, BitVec.ofNat 512 (0xFE * 2 ^ 56 + 2 ^ 52 + 2 ^ 36 + 2 ^ 24))] } })).modPkg 0 (fun k => { k with loaded := [(0, some somePackage)] })

theorem witness_StreamCommandsAccepted_krun :
    slotRuns krunState g0 [1, 2, 3] ∧ krunState.me.task.all (·.zeroed) = true ∧ fldN (krunState.rx 1) 48 16 = 0 ∧ fldN (krunState.rx 1) 12 4 = 0 ∧
    checkRead krunState (dieOfCtx krunState.cur.x) (.store (coreOf krunState.cur.x)) (ucKey (fldN (krunState.rx 1) 0 12)) 64 = (krunState, none) ∧
    loadedOf krunState krunState.cur.x = some somePackage ∧
    recordLegal (storeWords (krunState.core (coreOf krunState.cur.x))) somePackage (fldN (krunState.rx 1) 0 12) = true ∧
    (∀ n < 8, badBinding krunState.me (storeWords (krunState.core (coreOf krunState.cur.x)) 0) (krunState.rx 2) n = false) :=
  ⟨slot_runs_of (openIssue ([(1, 2 ^ 16)] ++ [(33, h1), (34, h2), (35, h3)]) 0) (by decide) (by decide) (by decide), by decide, by decide, by decide,
   rfl, by decide, by decide +kernel, by decide +kernel⟩

theorem witness_InvalidHandlesFault : slotRuns (cmdState []) g0 [8, 9, 10, 11] ∧
    [(1 : BitVec 5), 7].find? (fun n => !hV ((cmdState []).rh n.toNat)) = some 7 ∧ [(7 : BitVec 5)].find? (fun n => !hV ((cmdState []).rh n.toNat)) = some 7 :=
  ⟨cmd_runs _ _ (by decide) (by decide), by decide⟩

theorem witness_AcceptanceEntersScoreboard : (cmdState []).me.issue = some (openIssue [(33, h1), (34, h2), (35, h3)] 0) ∧ [1, 2].Nodup ∧
    (cmdState []).entry (coreOf (cmdState []).cur.x) (freeEntry (cmdState []) (coreOf (cmdState []).cur.x)) = none := by decide

theorem witness_HomeCommands :
    (slotRuns (dataState 3 [(2, 0x10008), (4, 0x20000), (6, 0x10004)] []) g0 [31, 2, 3] ∧ (0x10008 : Word).toNat % 8 = 0 ∧ (0x10004 : Word).toNat % 8 ≠ 0 ∧
      ∃ p t, translates (dataState 3 [(2, 0x10008), (4, 0x20000), (6, 0x10004)] []) 0x10008 2 p t ∧ p.pl ≠ 2) ∧
    (∃ p t, translates (dataState 3 [(2, 0x10008), (4, 0x20000), (6, 0x10004)] []) 0x20000 2 p t ∧ p.pl = 2) ∧
    (slotRuns (dataState 3 [(1, 0x1FF00)] []) g0 (9 :: 1 :: regRun 24 8) ∧ (0x1FF00 : Word).toNat % 256 = 0 ∧
      ∃ p t, translates (dataState 3 [(1, 0x1FF00)] []) 0x1FF00 2 p t ∧ p.pl ≠ 2) ∧
    (slotRuns (dataState 3 [(1, 0x20000)] []) g0 (9 :: 1 :: regRun 24 8) ∧ (0x20000 : Word).toNat % 256 = 0 ∧ (0x200FF : Word).toNat % 256 ≠ 0 ∧
      ∃ p t, translates (dataState 3 [(1, 0x20000)] []) 0x20000 2 p t ∧ p.pl = 2) ∧
    (∃ t, translation (dataState 3 [(1, 0x90000)] []) 0x90000 2 = .fault 0x86 0x20002 t) ∧
    pagerHit (dataState 3 [(1, 0x90000)] []).me true 0x90000 2 = none :=
  ⟨⟨data_runs _ _ _ _ (by decide) (by decide), by decide, by decide, _, _, translates_of (by decide) (by decide), by decide⟩,
   ⟨_, _, translates_of (by decide) (by decide), by decide⟩,
   ⟨data_runs _ _ _ _ (by decide) (by decide), by decide, _, _, translates_of (by decide) (by decide), by decide⟩,
   ⟨data_runs _ _ _ _ (by decide) (by decide), by decide, by decide, _, _, translates_of (by decide) (by decide), by decide⟩, ⟨_, rfl⟩, by decide⟩

theorem witness_HomePerformsRequests :
    (reqReady (reqState (.load 3 8 false) 0x10000 0 none) 5 = some (homeReq (.load 3 8 false) 0x10000 0 none) ∧ State.reset.errs = [] ∧
      (homeReq (.load 3 8 false) 0x10000 0 none).converted = false) ∧
    (reqReady (reqState (.store 1 255) 0xFFFFFFFFFFF 3 none) 5 = some (homeReq (.store 1 255) 0xFFFFFFFFFFF 3 none) ∧
      (homeReq (.store 1 255) 0xFFFFFFFFFFF 3 none).converted = true) ∧
    (reqReady (reqState .bar 0x10000 0 none) 5 = some (homeReq .bar 0x10000 0 none)) ∧
    (reqReady (reqState (.atomic 3 8 (2 ^ 64 - 1) 0 3) 0x10000 0 none) 5 = some (homeReq (.atomic 3 8 (2 ^ 64 - 1) 0 3) 0x10000 0 none) ∧
      2 ^ 64 - 1 < 2 ^ (8 * 8)) := by decide

theorem witness_AnswersLand :
    ((reqState (.load 31 1 true) 0x10000 0 (some [0x80])).req 5 = some (homeReq (.load 31 1 true) 0x10000 0 (some [0x80])) ∧
      (reqState (.load 31 1 true) 0x10000 0 (some [0x80])).pkt 5 = none ∧
      landsNext (reqState (.load 31 1 true) 0x10000 0 (some [0x80])) 5 (homeReq (.load 31 1 true) 0x10000 0 (some [0x80])) = true ∧
      landsNext ((reqState (.load 31 1 true) 0x10000 0 (some [0x80])).setReq 4 (some (homeReq (.load 3 8 false) 0x10008 0 none))) 5
        (homeReq (.load 31 1 true) 0x10000 0 (some [0x80])) = false) ∧
    (((openState 2 (openCtx [])).setReq 5 (some (homeReq .bar 0x10000 0 (some [7])))).modIssue 0 (fun is => { is with bar := .sent })).req 5 =
      some (homeReq .bar 0x10000 0 (some [7])) ∧
    (reqState (.atomic 0 8 1 0 31) 0x10000 0 (some [9])).req 5 = some (homeReq (.atomic 0 8 1 0 31) 0x10000 0 (some [9])) ∧
    ((reqState (.qpush 31 []) 0x10000 0 (some [7])).req 5 = some (homeReq (.qpush 31 []) 0x10000 0 (some [7])) ∧
      State.reset.stopped (dieOfCtx 0) = false ∧ ({ homeReq (.qpush 31 []) 0x10000 0 (some []) with flt := some 0x73 } : Req).flt.isSome = true) ∧
    ((reqState (.qpop 9 2) 0x10000 0 (some (7 :: List.replicate 16 1))).req 5 = some (homeReq (.qpop 9 2) 0x10000 0 (some (7 :: List.replicate 16 1))) ∧
      (List.replicate 16 1).length = 16 ∧ ∀ i < 8, 9 ≠ 8 * 2 + i) := by decide

/-- A queue block of 256 bytes at page 1, empty or with one entry of no differing field. -/
def emptyQueue : Memory := [(0x10006, 0x80), (0x10007, 0x51), (0x1000A, 64)]
def fullQueue : Memory := [(0x10006, 0x80), (0x10007, 0x51), (0x10008, 1), (0x1000A, 60)]

def queueState (m : Memory) (kind : ReqKind) : State := { reqState kind 0x10000 0 none with mem := m }

theorem witness_QueuesAtHome :
    (reqReady (queueState emptyQueue (.qpush 3 (List.replicate 16 0))) 5 = some (homeReq (.qpush 3 (List.replicate 16 0)) 0x10000 0 none) ∧
      qOk (queueState emptyQueue (.qpush 3 (List.replicate 16 0))) 0 0x10000 = true ∧ qFree (queueState emptyQueue (.qpush 3 [])) 0 0x10000 = 64 ∧
      qOk (queueState [] (.qpush 3 (List.replicate 16 0))) 0 0x10000 = false) ∧
    (qFree (queueState fullQueue (.qpush 3 (List.replicate 16 1))) 0 0x10000 < 4 + 4 * 16 ∧
      qOk (queueState fullQueue (.qpush 3 (List.replicate 16 1))) 0 0x10000 = true) ∧
    (qOk (queueState fullQueue (.qpop 3 1)) 0 0x10000 = true ∧ qCount (queueState fullQueue (.qpop 3 1)) 0 0x10000 = 1 ∧
      qOk (queueState emptyQueue (.qpop 3 1)) 0 0x10000 = true ∧ qCount (queueState emptyQueue (.qpop 3 1)) 0 0x10000 = 0) ∧
    (queueState emptyQueue (.qpop 3 1)).errs = [] := by decide

/-- R267, R269: a push of 16 words of 1 into an empty block of 256 bytes needs 68 bytes and finds 64. -/
theorem test_qpush_needs_room :
    (qPush (queueState emptyQueue (.qpush 3 [])) 0 0x10000 (List.replicate 16 1)).2 = false ∧
    (qPush (queueState emptyQueue (.qpush 3 [])) 0 0x10000 (1 :: List.replicate 15 0)).2 = true ∧
    qFree (qPush (queueState emptyQueue (.qpush 3 [])) 0 0x10000 (1 :: List.replicate 15 0)).1 0 0x10000 = 56 := by decide +kernel


/-- Die 1 counts what die 0 asks of it: block 1 stands at a count, THR is 5, and a queue block lies at QPA, in page 1 that it homes. -/
def hotState (m : Memory) (count : Nat) (on : Bool) : State :=
  { State.reset.modDie 1 (fun v => { v with
      hotcfg := 0x500000001, hotq := if on then 0x10001 else 0x10000, hot := [(1, some (BitVec.ofNat 64 count))] }) with mem := m }

theorem witness_HomePerformsRequests_hot :
    hotClass 0 1 = some 0 ∧ bit ((hotState [] 4 true).die 1).hotcfg 0 = true ∧ 0x1FFFF / 2 ^ 16 < hotBlocks ∧ (hotState [] 4 true).errs = [] ∧
    fldN (hotWord (hotState [] 4 true) 1 1) 0 16 + 1 = fldN ((hotState [] 4 true).die 1).hotcfg 32 16 ∧
    fldN (hotWord (hotState [] 0xFFFF true) 1 1) 0 16 = 0xFFFF ∧ bit ((hotState [] 4 false).die 1).hotq 0 = false ∧
    fldN (hotWord (hotState [] 3 true) 1 1) 0 16 + 1 ≠ fldN ((hotState [] 3 true).die 1).hotcfg 32 16 ∧
    fldN ((hotState [] 4 true).die 1).hotq 8 36 * 2 ^ 8 = 0x10000 ∧ homeDieOf (queuePlaceOf 1 0x10000) = 1 ∧
    (qOk (hotState emptyQueue 5 true) 0 0x10000 = true ∧
      (qPush (hotState emptyQueue 5 true) 0 0x10000 (hotRecord (hotState emptyQueue 5 true) 1 1 0 5)).2 = true) ∧
    (let m := (emptyQueue.take 2) ++ [(0x10008, 1), (0x1000A, 8)]
     qOk (hotState m 5 true) 0 0x10000 = true ∧ (qPush (hotState m 5 true) 0 0x10000 (hotRecord (hotState m 5 true) 1 1 0 5)).2 = false) := by
  decide +kernel

/-- R273: the notification of a counter that reaches THR is one record of the queue. -/
theorem test_hot_notification : qCount (hotTouch (hotState emptyQueue 4 true) 0 1 0x10000) 0 0x10000 = 1 ∧
    qCount (hotTouch (hotState emptyQueue 3 true) 0 1 0x10000) 0 0x10000 = 0 := by decide +kernel

/-! ## Witnesses: verbs, links, migration -/

/-- x4 to x7 hold the operands of a verb. -/
def verbRegs (l v c g : Word) : State := dataState 3 [(4, l), (5, v), (6, c), (7, g)] []

/-- Port 0 of package 0 is up and carries the traffic of die 0 to package 1. -/
def linkUp (s : State) : State :=
  s.modDie 0 (fun v => { v with ilv := [(1, 0x8000000000000001)], lpcfg := [(0, 0x80000000000000AA)] })

theorem translatesAll_one {s : State} {va : Word} {kind : Nat} (hp : pagerHit s.me true va.toNat kind = none)
    (h : okOf (translation s va kind) = true) :
    translatesAll s [va] kind [placeOf (translation s va kind)] (stateOf s (translation s va kind)) :=
  ⟨_, _, _, translates_of hp h, ⟨rfl, rfl⟩, rfl⟩

/-- An address whose translation fails, the first of a list. -/
theorem fails_of {s t : State} {va : Word} {vas : List Word} {kind code detail : Nat} (hp : pagerHit s.me true va.toNat kind = none)
    (h : translation s va kind = .fault code detail t) : translationFails s (va :: vas) kind code va detail t :=
  ⟨[], vas, [], s, rfl, ⟨rfl, rfl⟩, hp, h⟩

theorem witness_VerbsAccepted_refused :
    ((verbRegs 0 0 0x1000001 0).rxn 6 = 0x1000001 ∧ 2 ^ 24 < fldN (0x1000001 : Word) 0 25 ∧ fldN (0x2000000 : Word) 25 7 ≠ 0 ∧
      fldN (0x2000000 : Word) 0 25 ≤ 2 ^ 24 ∧ fldN (1 : Word) 0 32 ≠ 0 ∧ fldN (0x40000000000 : Word) 42 22 ≠ 0 ∧ fldN (0x40000000000 : Word) 0 32 = 0 ∧
      (verbRegs 0 0 0 1).rxn 7 ≠ 0) ∧
    (∀ k < 3, ∃ u, translationFails (verbRegs 0x90000 0x90000 256 0x90000) [0x90000] k 0x86 0x90000 (k * 2 ^ 16 + 2) u) ∧
    pagesOf (verbOp .put 1 (verbRegs 0x90000 0x90000 256 0x90000)).l 256 = [0x90000] ∧
    (∃ ps t, translatesAll (verbRegs 0x20000 0 0 0) [0x20000] 2 ps t ∧ ∃ p ∈ ps, p.pl = 2) := by
  refine ⟨by decide, fun k h => ?_, by decide, _, _, translatesAll_one (by decide) (by decide), _, .head _, by decide⟩
  interval_cases k <;> exact ⟨_, fails_of (by decide) rfl⟩

theorem witness_VerbsAccepted :
    (let s := verbRegs 0x10000 0x10100 256 0x10008
     slotRuns s g0 (31 :: regRun 4 4) ∧ fldN (s.rxn 6) 42 22 = 0 ∧ fldN (s.rxn 6) 0 25 ≤ 2 ^ 24 ∧ fldN (0x1000000 : Word) 0 25 = 2 ^ 24 ∧
       fldN (0x1000000 : Word) 25 7 = 0 ∧
       (verbOp .put 1 s).target = pkgOfCtx s.cur.x ∧ verbMisaligned (verbOp .put 1 s) = false ∧ linked s (dieOfCtx s.cur.x) (verbOp .put 1 s).target = true ∧
       ∃ lps t vps u sps z, translatesAll s [0x10000] 0 lps t ∧ translatesAll t [0x10100] 1 vps u ∧ translatesAll u [0x10008] 2 sps z ∧
         pagesOf (verbOp .put 1 s).l (verbOp .put 1 s).len = [0x10000] ∧ pagesOf (verbOp .put 1 s).v (verbOp .put 1 s).len = [0x10100] ∧
         ∀ p ∈ sps, p.pl ≠ 2) ∧
    (let s := verbRegs 0x10000 5 0 0
     slotRuns s g0 (31 :: regRun 4 4) ∧ fldN (s.rxn 6) 42 22 = 0 ∧ fldN (s.rxn 6) 0 32 = 0 ∧ s.rxn 7 = 0 ∧
       verbMisaligned (verbOp .signal 1 { s with cur := s.cur }) = false ∧ (∃ hps v, translatesAll s [0x10000] 2 hps v ∧ ∀ p ∈ hps, p.pl ≠ 2)) ∧
    (verbMisaligned (verbOp .put 1 (verbRegs 0x10000 0x10100 256 4)) = true ∧
      verbMisaligned (verbOp (.lamo 0 4) 1 (verbRegs 0x10002 0 0 0)) = true) ∧
    (linked (verbRegs 0x10000 0x10000 0x100000000 0) 0 (verbOp .put 1 (verbRegs 0x10000 0x10000 0x100000000 0)).target = false ∧
      verbMisaligned (verbOp .put 1 (verbRegs 0x10000 0x10000 0x100000000 0)) = false) ∧
    (fldN (0x40000000000 : Word) 42 22 ≠ 0 ∧ fldN (0x40000000000 : Word) 0 32 = 0) ∧
    (routePort (linkUp State.reset) 0 1 0 = some 0 ∧ routePort State.reset 0 1 0 = none) :=
  ⟨⟨data_runs _ _ _ _ (by decide) (by decide), by decide, by decide, by decide, by decide, by decide, by decide, by decide, _, _, _, _, _, _,
     translatesAll_one (by decide) (by decide), translatesAll_one (by decide) (by decide),
     translatesAll_one (by decide) (by decide), by decide, by decide, by decide⟩,
   ⟨data_runs _ _ _ _ (by decide) (by decide), by decide, by decide, by decide, by decide, _, _,
     translatesAll_one (by decide) (by decide), by decide⟩, by decide, by decide, by decide, by decide⟩

/-- A verb of context 0 to package target, whose local, target and signal pages lie on device memory of package 0. -/
def someVerb (kind : VerbKind) (target len sig : Nat) : Verb :=
  { x := 0, kind := kind, xd := 31, word := 0, l := 0x10000, v := 0x20000, target := target, len := len, sig := sig, op := 1, cmp := 0, rel := false,
    acq := false, lps := [⟨0, 0x10000, 1, 0, 0⟩], vps := [⟨0, 0x20000, 1, 0, 0⟩], sps := [⟨0, 0x30000, 1, 0, 0⟩], seq := 0, gen := 0, port := 0,
    redirects := 0, start := 0, sent := false, moved := 0, performed := false, sigDone := false, ans := 0, flt := none }

def verbState (v : Verb) : State := State.reset.setVerb 3 (some v)

/-- Package 1 maps page 2 at its die 0 with a leaf of device memory (R277 to R279). -/
def peerTables (s : State) : State :=
  { (s.modDie 4 (fun v => { v with tbase := 0x8000000000104000 })) with
    mem := [(0x100000100002, 0x11), (0x100000100007, 0x81), (0x100000110002, 0x12), (0x100000110007, 0x81), (0x100000120012, 2), (0x100000120017, 0xB9)] }

/-- The same with a leaf of host memory. -/
def peerHost (s : State) : State :=
  { peerTables s with
    mem := [(0x100000100002, 0x11), (0x100000100007, 0x81), (0x100000110002, 0x12), (0x100000110007, 0x81), (0x100000120012, 2), (0x100000120017, 0xBA)] }

theorem witness_VerbEvents :
    (let v := someVerb .put 0 64 0
     (verbState v).verb 3 = some v ∧ v.busy = true ∧ v.performed = false ∧ verbWaits (verbState v) 3 v = false ∧ v.remote = false ∧
       (rewalk (verbState v) 3 { v with sent := true }).2 = none ∧
       (rewalk (verbState v) 3 { v with sent := true }).1.verb 3 = some { v with sent := true }) ∧
    (let v := someVerb .put 1 64 0
     (linkUp (verbState v)).verb 3 = some v ∧ verbWaits (linkUp (verbState v)) 3 v = false ∧ v.remote = true ∧ v.sent = false ∧
       portSends (linkUp (verbState v)) (pkgOfCtx v.x) v.port v.gen = true) ∧
    (let v := someVerb (.lamo 0 4) 0 0 0
     vPlace (verbState v) v v.v 2 = (.ok ⟨0, 0x20000, 1, 0, 0⟩, verbState v) ∧ gate (verbState v) ⟨0, 0x20000, 1, 0, 0⟩ = .go) ∧
    (vPlace (verbState (someVerb .signal 0 0 0)) (someVerb .signal 0 0 0) 0x20000 2 = (.ok ⟨0, 0x20000, 1, 0, 0⟩, verbState (someVerb .signal 0 0 0))) ∧
    (∃ p u w, vPlace (peerTables (linkUp (verbState (someVerb .signal 1 0 0)))) (someVerb .signal 1 0 0) 0x20000 2 = (.ok p, u) ∧
      gate u p = .go ∧ p.pl ≠ 2 ∧ serveRead u 0 p 8 = (w, none)) ∧
    (let v := { someVerb .put 0 64 0x30000 with performed := true }
     let y := (rewalk (verbState v) 3 v).1
     (verbState v).verb 3 = some v ∧ v.remote = false ∧ v.sigDone = false ∧ (rewalk (verbState v) 3 v).2 = none ∧ y.verb 3 = some v ∧
       gate y (placeIn v.sps v.sig v.sig) = .go ∧ (placeIn v.sps v.sig v.sig).pl ≠ 2 ∧
       serveRead y 0 (placeIn v.sps v.sig v.sig) 8 = (countHome y 0 (placeIn v.sps v.sig v.sig), none)) ∧
    (∃ u w, vPlace (linkUp (verbState (someVerb .put 1 64 0))) (someVerb .put 1 64 0) 0x20000 1 = (.bad 0x86 0x20000, u) ∧
      vPlace (linkUp (verbState (someVerb .signal 1 0 0))) (someVerb .signal 1 0 0) 0x20000 2 = (.bad 0x86 0x20000, w)) ∧
    (∃ p u, translateDie (peerHost (linkUp (verbState (someVerb .signal 1 0 0)))) 4 0x20000 2 = (.ok p, u) ∧ p.pl = 2 ∧
      (someVerb .signal 1 0 0).remote = true) ∧
    ({ someVerb .get 0 64 0 with performed := true }.busy = false ∧ { someVerb .get 0 64 0 with flt := some (0x93, 1, 7) }.busy = false) ∧
    (let v := { someVerb .put 1 64 0 with redirects := 7 }
     v.busy = true ∧ v.remote = true ∧ portSends (verbState v) (pkgOfCtx v.x) v.port v.gen = false ∧
       routePort (verbState v) (dieOfCtx v.x) v.target v.v = none) ∧
    (let v := { someVerb .put 1 64 0 with redirects := 6, port := 1 }
     portSends (linkUp (verbState v)) (pkgOfCtx v.x) v.port v.gen = false ∧
       routePort (linkUp (verbState v)) (dieOfCtx v.x) v.target v.v = some 0) ∧
    (let s := { verbState (someVerb .put 1 64 0) with now := 0x1000000 }
     fldN (s.die 0).lto 0 32 ≠ 0 ∧ fldN (s.die 0).lto 0 32 * 1024 ≤ elapsed s 0 0) ∧
    (let y : Sync := ⟨5, 31, 1000, [0, 1, 2, 3]⟩
     let s := (State.reset.modCtx 0 (fun c => { c with syncts := [y] }))
     let t := [0, 1, 2, 3].foldl (fun s d => s.modDie d (fun v => { v with sync := some 5 })) s
     let no := fun (s : State) => (y.dies.filter (fun d => decide (y.t0.toNat ≤ (s.tickOf d).toNat ∨ dhold s (pkgOfDie d) = true ∨
       (s.die d).sync ≠ some y.id))).length
     (s.ctx 0).syncts = y :: [] ∧ (t.ctx 0).syncts = y :: [] ∧ t.stopped (dieOfCtx 0) = false ∧ no t = 0 ∧ no s = 4 ∧ no { t with now := 1000 } = 4) :=
  ⟨by decide, by decide, by decide, by decide, ⟨_, _, _, rfl, rfl, by decide, rfl⟩, by decide, ⟨_, _, rfl, rfl⟩, ⟨_, _, rfl, by decide, by decide⟩,
   by decide, by decide, by decide, by decide, by decide⟩

/-- A repeated request, and a chunk within one page of a PUT and of a GET. -/
theorem witness_VerbEvents_moves :
    (let v := someVerb .get 1 64 0
     let s := (linkUp (verbState v)).modPkg 1 (fun k => { k with vdone := [(0, 0)] })
     repeated s v = true ∧ s.verb 3 = some v ∧ v.busy = true ∧ v.performed = false ∧ verbWaits s 3 v = false ∧
       portSends s (pkgOfCtx v.x) v.port v.gen = true ∧ (rewalk s 3 { v with sent := true }).2 = none ∧
       (rewalk s 3 { v with sent := true }).1.verb 3 = some { v with sent := true }) ∧
    (let v := someVerb .put 0 64 0
     vPlace (verbState v) v (v.v + v.moved) 1 = (.ok ⟨0, 0x20000, 1, 0, 0⟩, verbState v) ∧
       gate (verbState v) (placeIn v.lps v.l (v.l + v.moved)) = .go ∧ gate (verbState v) ⟨0, 0x20000, 1, 0, 0⟩ = .go ∧
       serveRead (verbState v) (dieOfCtx v.x) (placeIn v.lps v.l (v.l + v.moved)) 64 = (verbState v, none) ∧ v.l + v.len ≤ v.v) ∧
    (let v := { someVerb .get 0 64 0 with moved := 60 }
     vPlace (verbState v) v (v.v + v.moved) 0 = (.ok ⟨0, 0x2003C, 1, 0, 0⟩, verbState v) ∧
       serveRead (verbState v) (dieOfCtx v.x) ⟨0, 0x2003C, 1, 0, 0⟩ 4 = (verbState v, none)) := by decide

def migState (st : MigSt) (copied : Nat) (marked : List Nat) : State :=
  State.reset.modPkg 0 (fun k => { k with mig := { Mig.reset with st := st, old := 1, new := 2, copied := copied, marked := marked } })

/-- ITCTL says that the old generation is still accepted while a packet stamped with it has not left. -/
def drainState : State :=
  (State.reset.modPkg 0 (fun k => { k with itctl := BitVec.ofNat 64 (2 ^ 52 + 2 ^ 44) })).setVerb 3 (some (someVerb .put 1 64 0))

theorem witness_LinkAndMigrationEvents :
    hostReaches State.reset 0 ∧ itOv State.reset 0 = false ∧ itOv drainState 0 = true ∧
    (migState .idle 0 []).pkg 0 = { Pkg.reset with mig := { Mig.reset with old := 1, new := 2 } } ∧
    ((migState .copying 0 []).pkg 0).mig.st = .copying ∧ ((migState .copied 1024 []).pkg 0).mig.st = .copied ∧
    ((migState .moved 1024 []).pkg 0).mig.st = .moved ∧ ((migState .copying 1023 []).pkg 0).mig.copied + 1 = 1024 ∧
    (((migState .finalising 1024 [0, 1023]).pkg 0).mig.marked = 0 :: [1023] ∧ shedHolds (migState .finalising 1024 [0, 1023]) 0 1 = false) ∧
    (((migState .finalising 1024 []).pkg 0).mig.marked = [] ∧ shedHolds (migState .finalising 1024 []) 0 1 = false) ∧
    portUp State.reset 0 15 = false ∧ bit (lpcfgOf State.reset 0 15) 8 = false ∧ keysPresent State.reset 0 15 = false ∧
    keysPresent (State.reset.modDie 3 (fun v => { v with keys := [(6, some 1), (7, some 2)] })) 0 15 = true ∧
    portUp (linkUp State.reset) 0 0 = true ∧ fldN (lpcfgOf (linkUp State.reset) 0 0) 0 8 ≠ 0 ∧
    Tab.get 0 (((linkUp State.reset).modDie 0 (fun v => { v with tagFails := [(0, 2)] })).die 0).tagFails 0 = 2 ∧
    (([(0, 5), (7, 9)] : Tab (BitVec 64)).map (fun p => p.1)).Nodup ∧ (State.reset).errs = [] ∧
    bit (lpcfgOf State.reset 0 3) 8 = false ∧ bit (State.reset.die 0).tinv 63 = false ∧
    (bit ((State.reset.modDie 0 (fun v => { v with tinv := 0x8000000000000000 })).die 0).tinv 63 = true ∧
      tinvPending (State.reset.modDie 0 (fun v => { v with tinv := 0x8000000000000000 })) 0 = false) := by
  refine ⟨⟨by decide, by decide⟩, ?_⟩
  decide

/-- Page 1 has moved to page 2: a request that still holds the old address is redirected to the walked one (R291). -/
def redirectState : State :=
  (tabled (State.reset.modPkg 0 (fun k => { k with mig := { Mig.reset with st := .moved, old := 1, new := 6 } }))).setReq 5
    (some (homeReq (.load 3 8 false) 0x60000 0 none))

theorem witness_LinkAndMigrationEvents_redirect :
    let s := State.setReq redirectState 5 (some { homeReq (.load 3 8 false) 0x60000 0 none with pa := 0x10000 })
    s.req 5 = some { homeReq (.load 3 8 false) 0x60000 0 none with pa := 0x10000 } ∧
    gate s { (homeReq (.load 3 8 false) 0x60000 0 none).place with pa := 0x10000 } = .redirect ∧
    s.stopped (dieOfCtx 0) = false ∧ okOf (translateFor (dropTlb s 0 0x60000) 0 (some (64 + 5)) [] 0x60000 0) = true := by decide

/-! ## Witnesses: groups -/

/-- Group 1 of slot 0 of core 0, in a state and with sources and destinations. -/
def someSlot (st nsrc : Nat) (enl sld ds acks : List Nat) : GSlot :=
  { GSlot.reset with state := st, gen := 1, nsrc := nsrc, enlisted := enl, sealed := sld, dests := ds, acks := acks }

def groupState (v : GSlot) : State := State.reset.modCore 0 (fun c => { c with slots := [(0, v)] })

/-- Context 0 with a group open on its core; x4 to x7 as given. -/
def groupRegs (a b c : Word) : State :=
  (dataState 3 [(4, a), (5, b), (6, c)] [(1, h1), (2, h2)]).modCore 0 (fun v => { v with slots := [(0, someSlot 1 1 [] [] [] [])] })

theorem group_runs (a b c : Word) (rs : List Nat) (hl : leased (groupRegs a b c) rs = none)
    (hi : (groupRegs a b c).me.issue = some (openIssue [(4, a), (5, b), (6, c), (33, h1), (34, h2)] 0)) : slotRuns (groupRegs a b c) g0 rs := ⟨_, hi, rfl, hl⟩

theorem witness_GroupCommands :
    (slotRuns (groupRegs 0 0 0) g0 [31, 4, 5] ∧ comBad ((groupRegs 0 0 0).rxn 4) = false ∧ fldN ((groupRegs 0 0 0).rxn 5) 0 42 = 0 ∧
      freeSlot (groupRegs 0 0 0) 0 = some 1 ∧
      (freeSlot ((groupRegs 0 0 0).modCore 0 (fun v => { v with slots := (List.range 16).map (fun n => (n, someSlot 1 1 [] [] [] [])) })) 0).isNone = true ∧
      comBad (1 : Word) = true ∧ fldN (0x20000000000 : Word) 0 42 ≠ 0) ∧
    (grpBad (groupRegs 1 0 0) 1 false = false ∧ fldN ((groupRegs 1 0 0).rxn 5) 32 32 = 0 ∧ sourceFree (groupRegs 1 0 0) 1 ∧
      grpBad (groupRegs 1 0 0) 0 false = true) ∧
    (comBad (0x20000000000000 : Word) = false ∧ bit (0x20000000000000 : Word) 53 = true) ∧
    (grpBad (groupRegs 1 0x10000 0) 1 true = false ∧ (0x10000 : Word).toNat % 8 = 0 ∧ gwR 1 = false ∧
      ∃ p t, translates (groupRegs 1 0x10000 0) 0x10000 0 p t) ∧
    (gwR (0x40000000001 : Word) = true ∧ grpBad (groupRegs 0x40000000001 0x10000 0) 0x40000000001 true = false ∧
      grpBad (groupRegs 0x40000000001 0x10000 0) 0x40000000001 false = true) ∧
    (slotRuns (groupRegs 1 0 0) g0 [31, 4] ∧ (groupRegs 1 0 0).me.issue.map (·.gwait) = some false) ∧
    (slotRuns (groupRegs 1 0x1FFF8 0) g0 [3, 5, 4] ∧ (0x1FFFC : Word).toNat % 4 = 0 ∧ (0x1FFFC : Word).toNat % 8 ≠ 0 ∧
      ∃ p t, translates (groupRegs 1 0x1FFF8 0) 0x1FFF8 1 p t) ∧
    (slotRuns (groupRegs 0x10000 64 1) g0 [4, 5, 6] ∧ hV ((groupRegs 0x10000 64 1).rh 1) = true ∧ hV ((groupRegs 0x10000 64 1).rh 2) = true ∧
      grpBad (groupRegs 0x10000 64 1) 1 true = false ∧ fldN ((groupRegs 0x10000 64 1).rxn 5) 0 32 ≤ hCapr h2 ∧
      fldN ((groupRegs 0x10000 64 1).rxn 5) 60 4 = 0 ∧ hRsz h2 = 4 ∧ hRsz h1 % 4 = 0 ∧ (0x10000 : Word).toNat % 4 = 0) :=
  ⟨⟨group_runs _ _ _ _ (by decide) (by decide), by decide⟩, ⟨by decide, by decide, rfl, by decide⟩, by decide,
   ⟨by decide, by decide, by decide, _, _, translates_of (by decide) (by decide)⟩, by decide,
   ⟨group_runs _ _ _ _ (by decide) (by decide), by decide⟩,
   ⟨group_runs _ _ _ _ (by decide) (by decide), by decide, by decide, _, _, translates_of (by decide) (by decide)⟩,
   ⟨group_runs _ _ _ _ (by decide) (by decide), by decide⟩⟩

theorem witness_GroupStates :
    (let v := someSlot 1 2 [0, 5] [] [0] []
     current (groupState v) 1 = true ∧ (slotOf (groupState v) 1).state = 1 ∧ 5 ∈ (slotOf (groupState v) 1).enlisted ∧
       5 ∉ (slotOf (groupState v) 1).sealed ∧ (destPkgs ([0] ++ [0, 132, 264, 396, 528, 660, 792, 924].filter (fun d => !([0].contains d)))).length ≤ 8) ∧
    (current (groupState (someSlot 2 1 [0] [0] [7] [])) 1 = true ∧ (slotOf (groupState (someSlot 2 1 [0] [0] [7] [])) 1).dests ≠ []) ∧
    ((slotOf (groupState (someSlot 2 1 [0] [0] [] [])) 1).dests = [] ∧ (slotOf (groupState (someSlot 2 1 [0] [0] [] [])) 1).settled = false) ∧
    ((slotOf (groupState (someSlot 4 1 [0] [0] [] [])) 1).state ≠ 2 ∧ (slotOf (groupState (someSlot 4 1 [0] [0] [] [])) 1).state ≠ 1 ∧
      current (groupState (someSlot 4 1 [0] [0] [] [])) 1 = true) ∧
    (let v := someSlot 3 1 [0] [0] [7, 8] [7]
     (slotOf (groupState v) 1).state = 3 ∧ 8 ∈ (slotOf (groupState v) 1).dests ∧ 8 ∉ (slotOf (groupState v) 1).acks ∧
       (∀ e ∈ (slotOf (groupState v) 1).dests, e = 8 ∨ e ∈ (slotOf (groupState v) 1).acks)) ∧
    (let v := someSlot 5 1 [0] [0] [7, 8] []
     (slotOf (groupState v) 1).state = 5 ∧ 8 ∉ (slotOf (groupState v) 1).acks ∧
       (∃ e ∈ (slotOf (groupState v) 1).dests, e ≠ 8 ∧ e ∉ (slotOf (groupState v) 1).acks)) := by decide

/-- A packet within die 0 about group 1 of slot 0 of core 0. -/
def somePkt (k : PktKind) : Pkt := { group := 1, from_ := 0, to_ := 0, gen := 0, port := 0, redirects := 0, held := false, kind := k }

def pktState (k : PktKind) (v : GSlot) : State := (groupState v).setPkt 5 (some (somePkt k))

/-- A source entry of core 0 for group 1. -/
def someSrc : Src := { group := 1, next := 0, first := 0, enlist := .ok, sealed := false, dests := [], pkgs := [], frames := [0] }

def srcState (k : PktKind) (e : Src) : State := (pktState k (someSlot 1 1 [0] [] [] [])).modCore 0 (fun c => { c with srcs := [(3, some e)] })

theorem witness_GroupCommands_sources :
    (let s := (groupRegs 1 0 0).modCore 0 (fun v => { v with srcs := [(3, some { someSrc with sealed := true })] })
     srcAt s 0 1 = some (3, { someSrc with sealed := true }) ∧ s.me.issue = (groupRegs 1 0 0).me.issue) ∧
    (let s := (groupRegs 1 0 0).modCore 0 (fun v => { v with srcs := (List.range 16).map (fun n => (n, some { someSrc with group := 9 })) })
     srcAt s 0 1 = none ∧ freeSrc s 0 = none ∧ s.me.issue = (groupRegs 1 0 0).me.issue) ∧
    (grpBad (groupRegs 1 0x10004 0) 1 true = false ∧ ((groupRegs 1 0x10004 0).rxn 5).toNat % 8 ≠ 0) ∧
    grpBad (groupRegs 0x10000 64 0) ((groupRegs 0x10000 64 0).rxn 6) true = true := by decide

def someHeld : Held := ⟨0, 0, 0, 0x10000, [1, 2, 3, 4]⟩

/-- Destination 0 holds group 1. -/
def someShed (orphan : Bool) : ShedGroup := { group := 1, held := [someHeld], timer := 0, orphan := orphan, query := false }
def shedState (d : Nat) (k : PktKind) (orphan : Bool) : State := { pktState k (someSlot 1 1 [0] [] [] []) with sheds := [(d, [someShed orphan])] }

theorem witness_CommitChannel_enlist :
    (arrived (pktState (.enlist 9) (someSlot 1 1 [] [] [] [])) 5 = some (somePkt (.enlist 9)) ∧
      sourceFirst (pktState (.enlist 9) (someSlot 1 1 [] [] [] [])) 5 1 9 = true ∧ current (pktState (.enlist 9) (someSlot 1 1 [] [] [] [])) 1 = true ∧
      (slotOf (pktState (.enlist 9) (someSlot 1 1 [] [] [] [])) 1).enlisted.length < 1) ∧
    (1 ≤ (slotOf (pktState (.enlist 9) (someSlot 1 1 [0] [] [] [])) 1).enlisted.length ∧
      current (pktState (.enlist 9) (someSlot 1 1 [0] [] [] [])) 1 = true) ∧
    (current (pktState (.enlist 9) GSlot.reset) 1 = false) ∧
    (srcAt (srcState (.enlistAns 0 false) someSrc) 0 1 = some (3, someSrc)) := by decide

theorem witness_CommitChannel_stores :
    (let s := srcState (.store someHeld 0 none (some 5) 0x10000) someSrc
     arrived s 5 = some (somePkt (.store someHeld 0 none (some 5) 0x10000)) ∧ mayLeave s 0 1 = true ∧ gate s ⟨0, 0x10000, 0, 0, 0⟩ = .go ∧
       grpState s 1 ≠ 5 ∧ hasRoom s 5 1 someHeld = true) ∧
    (hasRoom (srcState (.store someHeld 0 none (some 32) 0x10000) someSrc) 32 1 someHeld = false) ∧
    (grpState (pktState (.store someHeld 0 none (some 5) 0) (someSlot 5 1 [0] [] [] [])) 1 = 5) ∧
    (∃ c a w, translateDie (srcState (.store someHeld 0 none none 0x60000) someSrc) 0 0x60000 (taggedKind someHeld none) = (.bad c a, w)) ∧
    (∃ q w, translateDie (tabled (srcState (.store someHeld 0 none none 0x60000) someSrc)) 0 0x60000 (taggedKind someHeld none) = (.ok q, w) ∧ q.pl ≠ 2 ∧
      mayLeave (tabled (srcState (.store someHeld 0 none none 0x60000) someSrc)) 0 1 = true) ∧
    (∃ w, translateDie { srcState (.store someHeld 0 none none 0x60000) someSrc with
        mem := [(0x100002, 0x11), (0x100006, 0x20), (0x100007, 0x81)], dies := [(0, { Die.reset with tbase := 0x8000000000104000 })] } 0 0x60000
        (taggedKind someHeld none) = (.wait, w)) ∧
    (arrived (srcState (.ack 0 0 none 7) someSrc) 5 = some (somePkt (.ack 0 0 none 7)) ∧
      srcAt (completeOf ((srcState (.ack 0 0 none 7) someSrc).setPkt 5 none) 0 0 none) 0 1 = some (3, someSrc) ∧ 7 ∉ someSrc.dests) ∧
    (arrived (srcState (.refuse 0 0 none 2) someSrc) 5 = some (somePkt (.refuse 0 0 none 2))) ∧
    (arrived (srcState (.srcAbort 0 7) someSrc) 5 = some (somePkt (.srcAbort 0 7)) ∧ sourceFirst (srcState (.srcAbort 0 7) someSrc) 5 1 0 = true) :=
  ⟨by decide, by decide, by decide, ⟨_, _, _, rfl⟩, ⟨_, _, rfl, by decide, by decide⟩, ⟨_, rfl⟩, by decide, by decide, by decide⟩

theorem witness_CommitChannel_decisions :
    (let s := srcState (.seal 0 0 0 31 (some (0, [7]))) someSrc
     arrived s 5 = some (somePkt (.seal 0 0 0 31 (some (0, [7])))) ∧ sourceFirst s 5 1 0 = true) ∧
    (let s := srcState (.seal 0 0 0 31 none) someSrc
     arrived s 5 = some (somePkt (.seal 0 0 0 31 none)) ∧ mayLeave s 0 1 = true ∧ taggedOut s 0 1 = false ∧ released s 0 5 = true ∧
       srcAt s 0 1 = some (3, someSrc)) ∧
    (arrived (pktState (.apply 0) (someSlot 3 1 [0] [0] [0] [])) 5).isSome = true ∧ (arrived (pktState (.applyAck 0) (someSlot 3 1 [0] [0] [0] [])) 5).isSome = true ∧
    (arrived (pktState (.abort 0 1) GSlot.reset) 5).isSome = true ∧ (arrived (pktState (.discardAck 0) GSlot.reset) 5).isSome = true ∧
    (arrived (pktState (.decision 0) GSlot.reset) 5).isSome = true ∧ (arrived (pktState (.query 0) GSlot.reset) 5).isSome = true ∧
    (let s := shedState 0 (.queryAns 0 1 0) false
     (arrived s 5).isSome = true ∧ (shedGroup s 0 1).isSome = true) ∧
    (let s := pktState (.notice 2 0) (someSlot 1 1 [0] [] [] [])
     arrived s 5 = some (somePkt (.notice 2 0)) ∧ (Tab.members s.pkts).all (fun q => decide (5 ≤ q.1)) = true) ∧
    (arrived (pktState (.answer 0 31 7 none) GSlot.reset) 5 = some (somePkt (.answer 0 31 7 none))) ∧
    (let s := pktState (.command 0 0 31 0 none 0 0 0) (someSlot 2 1 [0] [0] [] [])
     arrived s 5 = some (somePkt (.command 0 0 31 0 none 0 0 0)) ∧ released s 0 5 = true ∧ current s 1 = true ∧ isCommitter s 1 0 = true) := by decide

/-- A destination that applies, one of which holds one atomic addition, a paddock, and a peek. -/
theorem witness_CommitChannel_destinations :
    (isPaddock 5 = false ∧ shedGroup (shedState 5 (.query 0) false) 5 1 = some (someShed false) ∧ shedGroup (shedState 5 (.query 0) false) 5 2 = none ∧
      someHeld ∈ (someShed false).held ∧ someHeld.kind = 0 ∧ (∀ e ∈ (someShed false).held, e = someHeld) ∧
      (shedState 5 (.query 0) false).errs = []) ∧
    (let h := { someHeld with kind := 4 }
     let s := { shedState 5 (.query 0) false with sheds := [(5, [{ someShed false with held := [h] }])] }
     shedGroup s 5 1 = some { someShed false with held := [h] } ∧ h.data.length = 4) ∧
    (isPaddock 32 = true ∧ (shedGroup (shedState 32 (.query 0) false) 32 1).isSome = true) ∧
    ((someSlot 1 1 [] [] [] []).gen < 512 ∧ 0 < 2 ^ 19) ∧
    (let s := pktState (.peek 0 31 (some 5) 0x10000 0x10000 0) (someSlot 1 1 [0] [] [] [])
     arrived s 5 = some (somePkt (.peek 0 31 (some 5) 0x10000 0x10000 0)) ∧ gate s (placeOfDest 5 0x10000) = .go ∧ s.errs = []) ∧
    (let s := (shedState 0 (.query 0) false).modPkg 0 (fun k => { k with notices := [0] })
     0 ∈ (s.pkg 0).notices ∧ 1 ∉ (s.pkg 0).notices ∧ shedGroup s 0 1 = some (someShed false) ∧ 1 / 2 ^ 22 = 0) := by decide

/-- Context 0 waits in slot E with GWAIT x31, x4 for group 1, which is decided everywhere. -/
def gwaitState (st : Nat) : State :=
  ((openState 3 { openCtx [(4, 1)] with x := [(4, 1)] }).modIssue 0 (fun is => { is with words := [0, 0, 0, 0xF81FF900], gwait := true })).modCore 0
    (fun c => { c with slots := [(0, { someSlot st 1 [0] [0] [] [] with settled := true })] })

/-- A packet whose port is down. -/
def lostPkt (n : Nat) : Pkt := { somePkt (.apply 132) with to_ := 4, redirects := n, port := 1 }

theorem witness_CommitChannel_events :
    (let s := gwaitState 4
     let w : Word32 := 0xF81FF900
     (s.ctx 0).issue.map (fun is => (is.words.getD 3 0, is.gwait, gwNum (is.rx 3 (en2 w)))) = some (w, true, 1) ∧ s.stopped (dieOfCtx 0) = false ∧
       fldN (stateWord s 1) 61 3 = 4 ∧ fldN (stateWord (gwaitState 5) 1) 61 3 = 5 ∧ bit (stateWord s 1) 60 = true ∧
       pkgOfCtx 0 = pkgOf (grpCore 1) ∧ en1 w ≠ 0) ∧
    (let s := { shedState 0 (.query 0) false with now := 0x400000 }
     (shedGroup s 0 1).map (fun v => (v.orphan, v.timer)) = some (false, 0) ∧
       max 16 (fldN (s.die 0).celease 0 32) * 1024 ≤ elapsed s 0 0) ∧
    (deadlineLeft { groupState { someSlot 1 1 [] [] [] [] with deadline := some 65536, resumed := some 0 } with now := 65536 } 0
      { someSlot 1 1 [] [] [] [] with deadline := some 65536, resumed := some 0 } = some 0) ∧
    (hostReaches State.reset 0 ∧ orphanHolds (shedState 0 (.query 0) true) 0 1 = [0]) ∧
    (let s := State.reset.setPkt 5 (some (lostPkt 8))
     s.pkt 5 = some (lostPkt 8) ∧ arrives s (lostPkt 8) = false ∧ packetPort s 0 1 (1 * 2 ^ 12) = none ∧
       arrives (linkUp s) (lostPkt 8) = false ∧ packetPort (linkUp s) 0 1 (1 * 2 ^ 12) = some 0) ∧
    (let s := (shedState 32 (.query 0) false).modPkg 0 (fun k => { k with padcq := 0x8000000000000006, padq := [(1, 4, 0)] })
     (s.pkg 0).padq = (1, 4, 0) :: [] ∧ ringFull (s.pkg 0) = false ∧ bit (s.pkg 0).padcq 63 = true ∧
       ringFull { s.pkg 0 with padcqp := 0x000000000000003F } = true) := by
  refine ⟨by decide, by decide, by decide, ⟨⟨by decide, by decide⟩, by decide⟩, by decide, by decide⟩

/-! ## Witnesses: the cluster array and the caddy -/

/-- An invocation of context 0 in its body, with the bundle given and one LOOP pass of one bundle. -/
def someInv (b : Option KIssue) : Inv :=
  { slot := 4, word := 0xF0000000, ctx := 0, frame := 0, recaddr := 0, rec_ := [0xFE10001001000000, 0, 0, 0, 0, 0, 0, 0], trip := 2, scalar := 0, bind := 0,
    phase := .body, left := 1, index := 1, bundle := b, ports := [], touches := 0, touch := none, flt := none, boundary := false, reload := false, delay := 0 }

def someBundle : KIssue := { words := [], todo := [0, 7], wait := 0, taken := false }

/-- The array of core 0 issues slots at iteration count k. -/
def kernelState (k : Nat) : State :=
  State.reset.modCore 0 (fun v => { v with ca := { v.ca with k := k, inv := some (someInv (some someBundle)) } })

theorem kernel_runs {s : State} (h : s.ca.inv = some (someInv (some someBundle))) : kernelRuns s := ⟨_, h, rfl⟩

theorem witness_KernelIntegerResults : kernelRuns (kernelState 0) ∧ actOf (kernelState 0).ca g0 = List.range 16 := ⟨kernel_runs (by decide), by decide⟩

theorem witness_KernelPredicateResults : kernelRuns (kernelState 0) ∧ actOf (kernelState 0).ca ⟨1, false⟩ = [] := ⟨kernel_runs (by decide), by decide⟩

theorem witness_KernelFloatResults : kernelRuns (kernelState 0) ∧ (fmtOf 0x0082).isSome = true := ⟨kernel_runs (by decide), by decide⟩

/-- R30 to R38: n8e4, n8e5, n6e3, an unsigned format, i8, ui8 and FP32, one for each policy. -/
theorem witness_KernelFloatResults_formats :
    [0x0791, 0x0F94, 0x034E, 0x000B, 0x0082, 0x0083, 0x00E0].map (fun d => (fmtOf d).map (fun f => (f.w, f.pol))) =
      [some (8, .finite), some (8, .ieee), some (6, .satfinite), some (4, .unsigned), some (8, .integer), some (8, .integer), some (32, .ieee)] := by
  decide

/-- R34, R36, R44: 448 is the largest value of n8e4; what is beyond it becomes a NaN with its sign to nearest, and 448 towards zero. -/
theorem test_n8e4_overflow : (fmtOf 0x0791).map (fun f => (decodeNum f 0x7E, roundNum f 0 (.fin true 1000 0), roundNum f 1 (.fin true 1000 0))) =
    some (.fin false 14 5, 0xFF, 0xFE) := by decide

/-- R228: terms of opposite signs that leave nothing sum to zero, and a NaN to the canonical one. -/
theorem witness_CaddyEvents_stages :
    Machine.Num.fin false 3 0 ∈ [Machine.Num.fin false 3 0, .fin true 3 0] ∧ Int.log 2 (magOf 3 0) = 1 ∧
      stage1 [.fin false 3 0, .fin true 3 0] = 0 ∧ stage1 [.fin false 3 0, .nan] = 0x7FC00000 := by
  refine ⟨by decide, ?_, by decide, by decide⟩
  have h : magOf 3 0 = ((3 : ℕ) : ℚ) := by norm_num [magOf]
  rw [h, Int.log_natCast]
  decide

theorem witness_KernelMoveResults : kernelRuns (kernelState 0) ∧ (kernelState 0).errs = [] ∧
    (kernelState 0).ca.inv = some (someInv (some someBundle)) ∧
    0 + 1 < (someInv none).trip + recSc (someInv none).rec_ - 1 ∧ (someInv none).trip + recSc (someInv none).rec_ - 1 ≤ 1 + 1 ∧
    kernelRuns (kernelState 1) := ⟨kernel_runs (by decide), by decide, by decide, by decide, by decide, kernel_runs (by decide)⟩

/-- d3 of cluster 0 holds M 16 and NK 2, d4 a start point past the last row of block 0. -/
def caddyCore : Core := ((kernelState 0).modCore 0 (fun v => { v with
  ca := { v.ca with d := [(3, BitVec.ofNat 32 (2 * 2 ^ 16 + 16)), (4, 1)] }, cz := { v.cz with cube := some ⟨0, 5, none⟩, csts := 0x80000000 } })).core 0

theorem witness_CaddyCommands : kernelRuns (kernelState 0) ∧ actOf (kernelState 0).ca g0 ≠ [] ∧ (caddyCore.ca.inv).isSome = true ∧
    fldN (caddyCore.ca.rd 0 3) 16 16 ≤ 4095 ∧ fldN (caddyCore.ca.rd 0 3) 16 16 = 2 ∧ fldN (caddyCore.ca.rd 0 4) 0 11 = 1 ∧
    fldN (caddyCore.ca.rd 0 9) 0 16 = 0 ∧ caddyCore.cz.cube = some ⟨0, 5, none⟩ ∧ caddyCore.ca.cycle ≠ 5 ∧ (kernelState 0).ca.inv.isSome = true :=
  ⟨kernel_runs (by decide), by decide⟩

theorem witness_FrameOfKernelSlots : (encode (.iadd g0 3 1 2)).isSome = true ∧ kernelRuns (kernelState 0) ∧ (kernelState 0).errs = [] ∧
    ∃ t, exec (.iadd g0 3 1 2) (kernelState 0) = .next t := ⟨by decide, kernel_runs (by decide), by decide, _, rfl⟩

/-- Core 0 drains: a write to d5 of clusters 0 and 15 is due in cycle 9. -/
def owedWrite : Owed := ⟨9, 3, 0, .d 5, [0, 15], [(0, 7), (15, 8)]⟩
def owedState : State := State.reset.modCore 0 (fun v => { v with ca := { v.ca with owed := [owedWrite] } })

theorem witness_WritesLandInOrder : owedWrite.dst = .d 5 ∧ (owedWrite.lanes.map (·.1)).Nodup ∧ dueOn owedState 0 1 = some 9 ∧
    Owed.dst ⟨9, 3, 0, .d 127, [], []⟩ = .d 127 ∧ Owed.dst ⟨9, 3, 0, .m 63, [], []⟩ = .m 63 ∧ Owed.dst ⟨9, 3, 0, .g 11, [0], [(0, 1)]⟩ = .g 11 ∧
    (∃ o : Owed, o.dst = .row 7 15 ∧ o.lanes = [(15, 3)]) ∧ (∃ o : Owed, o.dst = .col 7 15 ∧ o.lanes = [(0, 3)]) ∧
    (∃ o : Owed, o.dst = .zero 7 ∧ o.lanes = [(15, 0)]) ∧ (∃ o : Owed, o.dst = .bank ∧ o.lanes = [(12, 5)]) ∧
    (∃ o : Owed, o.dst = .cfg 2 0xFFFF 1) ∧ (∃ o : Owed, o.dst = .loop 1 2) :=
  ⟨by decide, by decide, by decide, by decide, by decide, by decide, ⟨⟨9, 3, 0, .row 7 15, [15], [(15, 3)]⟩, rfl, rfl⟩,
   ⟨⟨9, 3, 0, .col 7 15, [0], [(0, 3)]⟩, rfl, rfl⟩, ⟨⟨9, 3, 0, .zero 7, [15], [(15, 0)]⟩, rfl, rfl⟩, ⟨⟨9, 3, 0, .bank, [0], [(12, 5)]⟩, rfl, rfl⟩,
   ⟨⟨9, 3, 0, .cfg 2 0xFFFF 1, [], []⟩, rfl⟩, ⟨⟨9, 3, 0, .loop 1 2, [], []⟩, rfl⟩⟩

/-! ## Witnesses: entries, the caddy's events, translation -/

/-- An entry of context 0 with command word w: its capture, stalls and state. -/
def someEntry (w : Word32) (cap : Tab Word) (reads : List (Nat × Word × BitVec 8)) (writes : List (Nat × Word)) (st : EntSt) : Entry :=
  { ctx := 0, word := w, cap := cap, reads := reads, writes := writes, st := st, seq := 0, resume := 0, done := [], tagOk := true, flt := none, stop := false,
    badMeta := none, touches := 0, touch := none, held := false, part := [], idx := [], snap := [], reach := [], cfail := none, kcount := 0, places := [], sub := 0, bag := 0, k := 0,
    acc := [], owed := 0, void := false }

/-- Stalls of h1, h2 and h3 on core 0. -/
def someStalls (push : Nat) : List Stall :=
  [⟨2, 64, 8, 0, 0, 0, push⟩, ⟨70, 64, 4, 0, 0, 0, 0⟩, ⟨140, 64, 16, 0, 0, 0, 0⟩]

def entryState (e : Entry) (push : Nat) : State := (mapped State.reset).modCore 0 (fun v => { v with stalls := someStalls push, sb := [(4, some e)] })

/-- An answer with a fault, and one without. -/
theorem witness_CommitChannel_answers :
    (∀ f ∈ [none, some (0x94, 5, 3, 7)], let s := pktState (.answer 0 5 0 f) GSlot.reset
      arrived s 5 = some (somePkt (.answer 0 5 0 f)) ∧ s.stopped (dieOfCtx 0) = false) := by decide

/-- The acknowledgment of a record finds its entry. -/
theorem witness_CommitChannel_entry :
    let e := { someEntry 0 [] [] [] .started with owed := 3 }
    (entryState e 0).entry 0 4 = some e ∧ ((entryState e 0).ctx (0 * 4 + e.ctx)).frame.toNat = 0 := by decide

/-- SLOAD h1, x1, x2 with COUNT 1; SRECV h1; KRUN x1, x2, x3; SFREE h1; SCOPYP. -/
def sloadWord : Word32 := 0b11101000000000100000100001000100
def srecvWord : Word32 := 0b11101000000001100000100000000000
def krunWord : Word32 := 0b11110000000000000000100010000110
def sfreeWord : Word32 := 0b11101000000000010000100000000000

theorem witness_EntryWords : opOf sloadWord = 0x1D ∧ subOf sloadWord = 2 ∧ isSrecv srecvWord = true ∧ opOf krunWord = 0x1E ∧ isSfree sfreeWord = true := by decide

/-- An invocation that has come to its start, an iteration boundary or its next bundle. -/
def invState (v : Inv) (save : Option SaveWhy) : State :=
  (State.reset.modCore 0 (fun c => { c with ca := { c.ca with inv := some v } })).modCtx 0 (fun c => { c with save := save })

theorem witness_EntriesAndInvocations :
    (let e := someEntry sloadWord [] [] [(1, h1)] .ready
     (entryState e 0).entry 0 4 = some e ∧ mayStart (entryState e 0) 0 e = true ∧ (entryState e 0).stopped (dieOf 0) = false) ∧
    (let e := someEntry srecvWord [] [] [(1, h1)] .ready
     mayStart (entryState e 1) 0 e = true ∧ e.writes = [(1, h1)] ∧ stallAt ((entryState e 1).core 0).stalls (hBase h1) = some ⟨2, 64, 8, 0, 0, 0, 1⟩) ∧
    (let e := someEntry krunWord [(1, 2 ^ 16)] [] [] .ready
     (entryState e 0).entry 0 4 = some e ∧ mayStart (entryState e 0) 0 e = true ∧ tilesWait (entryState e 0) 0 0 = false ∧ e.resume ≠ 1 ∧
       mayStart (entryState { e with resume := 1, held := true } 0) 0 { e with resume := 1, held := true } = true) ∧
    (let e := { someEntry sloadWord [(2, 1)] [] [(1, h1)] .started with resume := 1 }
     (entryState e 0).entry 0 4 = some e ∧ entryComplete (entryState e 0) 0 4 e = true ∧ isSrecv e.word = false ∧ isSfree e.word = false ∧
       stallAt ((entryState e 0).core 0).stalls (hBase h1) = some ⟨2, 64, 8, 0, 0, 0, 0⟩) ∧
    (let e := someEntry sfreeWord [] [] [(1, h1)] .started
     entryComplete (entryState e 0) 0 4 e = true ∧ isSfree e.word = true) ∧
    (let e := someEntry krunWord [(1, 2 ^ 16)] [] [] .started
     let v := { someInv none with phase := .ended }
     entryComplete ((entryState e 0).modCore 0 (fun c => { c with ca := { c.ca with inv := some v } })) 0 4 e = true) ∧
    (let e := { someEntry krunWord [(1, 2 ^ 16)] [] [] .started with stop := true }
     entryComplete (entryState e 0) 0 4 e = true ∧ ((entryState e 0).core 0).ca.inv = none) ∧
    (let v := { someInv none with phase := .start }
     ((invState v none).core 0).ca.inv = some v ∧ v.reload = false ∧ (invState v none).stopped (dieOf 0) = false) ∧
    (let v := { someInv none with boundary := true }
     v.bundle = none ∧ saveWanted (invState v (some .preempt)) 0 v = true ∧ settled ((invState v (some .preempt)).core 0) = true ∧
       ((invState v (some .preempt)).core 0).ca.inv = some v ∧ areaWaits (invState v (some .preempt)) 0 v.frame = false) ∧
    (let v := { someInv none with phase := .start, reload := true }
     v.reload = true ∧ areaWaits (invState v none) 0 v.frame = false ∧ (invState v none).stopped (dieOf 0) = false) ∧
    (∃ v b, someInv (some { someBundle with todo := [] }) = v ∧ v.bundle = some b ∧ b.todo = [] ∧ v.left ≤ 1 ∧ v.phase = .body ∧ b.taken = false) := by
  refine ⟨by decide, by decide, by decide, by decide, by decide, by decide, by decide, by decide, by decide, by decide, _, _, rfl, rfl, by decide, by decide,
    by decide, by decide⟩

/-- A bundle that issues, and a last bundle of a pass that lacks its LOOP (R167). -/
theorem witness_EntriesAndInvocations_bundles :
    (let v := { someInv none with left := 2 }
     mayIssueKernel (invState v none) 0 v = true ∧ bundleFault ((invState v none).core 0) 0 v (storeWords ((invState v none).core 0) v.index) = none ∧
       (checkRead (invState v none) (dieOf 0) (.store 0) (ucKey v.index) 64).2 = none) ∧
    (let v := { someInv none with left := 2 }
     let s := { invState v none with errs := [⟨.store 0, ucKey 1, true⟩] }
     mayIssueKernel s 0 v = true ∧ (checkRead s (dieOf 0) (.store 0) (ucKey v.index) 64).2.isSome = true) ∧
    (let v := someInv none
     mayIssueKernel (invState v none) 0 v = true ∧
       (bundleFault ((invState v none).core 0) 0 v (storeWords ((invState v none).core 0) v.index)).isSome = true) := by decide +kernel

/-- A CUBE of one row of cluster 0 runs: its next step is due in cycle 3. -/
def cubeState (q : Option Cube) (steps : List Step) (fs : List Fetch) : State :=
  State.reset.modCore 0 (fun v => { v with cz := { v.cz with cube := q, steps := steps, fetches := fs } })

def someFetch (remote served : Bool) (fail : Option (Nat × Nat)) : Fetch :=
  { bank := 3, plane := 0, m16 := false, ready := 20, remote := remote, served := served, bytes := [], fail := fail }

theorem witness_CaddyEvents :
    dueOn (cubeState (some ⟨0, 3, none⟩) [] []) 0 3 = some 3 ∧ dueOn (cubeState none [⟨15, 0, true, [(0, [1])]⟩] []) 0 0 = some 15 ∧
    ((cubeState (some ⟨0, 3, none⟩) [] []).core 0).cz.cube = some ⟨0, 3, none⟩ ∧
    ([⟨15, 0, true, [(0, [1]), (3, [2])]⟩] : List Step).filter (fun p => p.land = 15) = [⟨15, 0, true, [(0, [1]), (3, [2])]⟩] ∧
    (([(0, [1]), (3, [2])] : List (Nat × List Nat)).map (fun p => p.1 * 1536 + 0)).Nodup ∧
    (let f := { someFetch true true (some (4, 1)) with bank := 0 }
     fetchDue ((cubeState (some ⟨0, 30, none⟩) [] [f]).core 0) 0 20 = some f ∧ dueOn (cubeState (some ⟨0, 30, none⟩) [] [f]) 0 2 = some 20 ∧
       0 = f.plane % 2 ∧ ((cubeState (some ⟨0, 30, none⟩) [] [f]).core 0).cz.blk = f.plane) ∧
    (let f := { someFetch true true (some (4, 1)) with bank := 1, plane := 1 }
     fetchDue ((cubeState (some ⟨0, 30, none⟩) [] [f]).core 0) 1 20 = some f ∧ 1 = f.plane % 2 ∧
       ((cubeState (some ⟨0, 30, none⟩) [] [f]).core 0).cz.blk + 1 = f.plane) ∧
    (dueOn (cubeState none [] [someFetch false false none]) 0 2 = some 20 ∧
      fetchDue ((cubeState none [] [someFetch false false none]).core 0) 3 20 = some (someFetch false false none)) ∧
    (dueOn (cubeState none [] [someFetch true true (some (4, 1))]) 0 2 = some 20 ∧
      fetchDue ((cubeState none [] [someFetch true true (some (4, 1))]).core 0) 3 20 = some (someFetch true true (some (4, 1)))) ∧
    (((cubeState none [] [someFetch true false none]).core 0).cz.fetches = [someFetch true false none] ∧
      (someFetch true false none).ready ≤ ((cubeState none [] [someFetch true false none]).core 0).ca.cycle + 40 ∧
      remoteStall ((cubeState none [] [someFetch true false none]).core 0) 0 = false) ∧
    (let r : Word := BitVec.ofNat 64 (64 * 2 ^ 32 + 2 * 2 ^ 20 + 8)
     remoteStall ((entryState (someEntry 0 [] [] [] .ready) 0).core 0) r = true ∧ holderPlaced (entryState (someEntry 0 [] [] [] .ready) 0) 0 r = false ∧
       holderPlaced ((entryState (someEntry 0 [] [] [] .ready) 0).setCtx 0 { Ctx.reset with task := some loadedTask, h := [(1, h1)] }) 0 r = true) := by decide

/-- A CUBE of M = 1 reads its row of A, and a fetch its plane, from stall h1 of core 0; the first word of h1 is uncorrectable. -/
def badCube (fs : List Fetch) : State :=
  let s := State.reset.modCore 0 (fun v => { v with
    stalls := someStalls 0
    ca := { v.ca with inv := some { someInv none with phase := .ended, ports := [⟨1, 1, h1, 0, true, 0⟩] } }
    cz := { v.cz with cube := some ⟨0, 3, none⟩, fetches := fs, cdesc := 2 ^ 21, psc := psMake 0x0082 0 h1 } })
  { s with errs := [⟨.srf 0, recKey 2 8 0 0, true⟩] }

/-- R117, R385: what a step, a local fetch and a remote one read holds an uncorrectable word. -/
theorem witness_CaddyEvents_errors :
    (dueOn (badCube []) 0 3 = some 3 ∧ (rowReads ((badCube []).core 0) 0 0).any (fun r => uncorrectable (badCube []) (.srf 0) r.1 r.2) = true ∧
      ((badCube []).core 0).cz.blk = 0 ∧ ((badCube []).core 0).cz.row = 0) ∧
    (let f := someFetch false false none
     let s := (badCube [f]).modCore 0 (fun v => { v with cz := { v.cz with cube := none } })
     dueOn s 0 2 = some 20 ∧ fetchDue (s.core 0) 3 20 = some f ∧
       (planeReads (sourceStall (s.core 0) 3) ((s.core 0).cz.source 3) f.plane f.m16).any (fun k => uncorrectable s (.srf 0) k.1 k.2) = true) ∧
    (let f := someFetch true false none
     let s := badCube [f]
     let ps := (s.core 0).cz.source 3
     (s.core 0).cz.fetches = [f] ∧ f.ready ≤ (s.core 0).ca.cycle + 40 ∧ s.stopped (dieOf 0) = false ∧ fldN (psRef ps) 51 9 = 0 ∧
       (planeReads (psRef ps) ps f.plane f.m16).any (fun k => uncorrectable s (.srf 0) k.1 k.2) = true) := by decide +kernel

/-! ## Witnesses: entries that move data, translation events -/

/-- SCOPY and SCOPYP h1, x1, x2; SSCADD h1, h2, x4; SROWUPD h1, h2, x4. -/
def scopyWord : Word32 := 0b11101000000001100000100001000100
def scopypWord : Word32 := 0b11101000000001100000100001000101
def sscaddWord : Word32 := 0b11111000000000000000100010001000
def srowupdWord : Word32 := 0b11111000000000010000100010001000

/-- The last row of a table of 8-byte records at page 1. -/
def rowPlace : List Place := [⟨0, 0x10000, 1, 0, 0⟩]

def rowEntry (w : Word32) : Entry :=
  { someEntry w [(4, 0x10000), (5, 2 ^ 32 + 1), (6, 0), (7, 0)] [(1, h1, 0), (2, h2, 0)] [] .started with places := rowPlace, idx := [(0, some 0)] }

/-- The entry's next line is at an address that translates, to a page that no migration holds, and no word is in error. -/
def lineThere (e : Entry) (va kind : Nat) : Bool :=
  match entryPlace (entryState e 0) 0 4 va kind with
  | .ok (p, u) => gate u p = .go && (countHome (countLine u (dieOf 0) p) (dieOf 0) p).errs.isEmpty
  | .error _ => false

theorem witness_EntriesMoveData_lines :
    (let e := someEntry (cpWord (.sloadx g0 3 1 2)) [(1, 0x10000), (2, 1)] [] [(3, h3)] .started
     running (entryState e 0) 0 4 = some e ∧ opOf e.word = 0x1D ∧ subOf e.word = 2 ∧ bit e.word 0 = true ∧ e.tagOk = true ∧ 0 < e.count ∧
       e.isDone 0 = false ∧ (nextChunk (recordVa e 0) 10 0) = (0x10000, 10) ∧ hRsz e.wr / 2 + hRsz e.wr / 8 = 10 ∧ 2 ^ shEsz e.ctl = 1 ∧
       hRsz e.wr / 4 * 4 = hRsz e.wr ∧ lineThere e 0x10000 5 = true) ∧
    (let e := someEntry (cpWord (.sstore g0 1 1 2)) [(1, 0x10000), (2, 1)] [(1, h1, 0)] [] .started
     running (entryState e 0) 0 4 = some e ∧ opOf e.word = 0x1D ∧ subOf e.word = 3 ∧ e.tagOk = true ∧ 0 < e.count ∧ e.isDone 0 = false ∧ 0 = e.resume ∧
       (nextChunk (recordVa e 0) (hRsz (e.rd 0)) 0) = (0x10000, 8) ∧ lineThere e 0x10000 6 = true) ∧
    (let e := { someEntry (cpWord (.sgather g0 1 2 2)) [(4, 0x10000), (5, 2 ^ 32 + 1)] [(2, h2, 0)] [(1, h1)] .started with idx := [(0, some 0)] }
     running (entryState e 0) 0 4 = some e ∧ opOf e.word = 0x1D ∧ subOf e.word = 4 ∧ e.tagOk = true ∧ 0 < e.count ∧ e.isDone 0 = false ∧
       Tab.get none e.idx 0 = some 0 ∧ 0 < fldN e.ctl 32 32 ∧ nextChunk (e.rx e.xa).toNat (hRsz e.wr) 0 = (0x10000, 8) ∧
       hRsz e.wr = 8 ∧ lineThere e 0x10000 5 = true) ∧
    (let e := { someEntry (cpWord (.sgather g0 1 2 2)) [(4, 0x10000), (5, 1)] [(2, h2, 0)] [(1, h1)] .started with idx := [(0, some 1)] }
     running (entryState e 0) 0 4 = some e ∧ fldN e.ctl 32 32 ≤ 1 ∧ 0 = e.resume ∧ Tab.get none e.idx 0 = some 1) ∧
    (let e := { someEntry (cpWord (.sbag g0 1 2 2)) [(4, 0x10000), (5, 2 ^ 32 + 1)] [(2, h2, 0)] [(1, h1)] .started with idx := [(0, some (2 ^ 31))] }
     running (entryState e 0) 0 4 = some e ∧ opOf e.word = 0x1D ∧ subOf e.word = 5 ∧ e.tagOk = true ∧
       Tab.get none e.idx (e.resume + e.k) = some (2 ^ 31) ∧ 2 ^ 31 % 2 ^ 31 < fldN e.ctl 32 30 ∧ e.resume + e.k < e.count ∧
       e.isDone (e.resume + e.k) = false ∧ 0 < fldN e.ctl 32 30 ∧ nextChunk (e.rx e.xa).toNat 8 0 = (0x10000, 8) ∧ 0 + 1 = e.count ∧
       e.bag < hCapr e.wr ∧ lineThere e 0x10000 5 = true) ∧
    (let e := { someEntry (cpWord (.sbagm g0 1 2 2)) [(4, 0x10000), (5, 2)] [(2, h2, 0)] [(1, h1)] .started with idx := [(0, some 5)] }
     running (entryState e 0) 0 4 = some e ∧ subOf e.word = 5 ∧ fldN e.ctl 32 30 ≤ 5 ∧ 0 + 1 ≠ e.count ∧ (5 : Nat).testBit 31 = false ∧
       Tab.get none e.idx (e.resume + e.k) = some 5) ∧
    (let e := { someEntry (cpWord (.sbag g0 1 2 2)) [(4, 0x10000), (5, 2 ^ 32 + 1)] [(2, h2, 7)] [(1, h1)] .started with tagOk := false }
     running (entryState e 0) 0 4 = some e ∧ stallAt ((entryState e 0).core 0).stalls (hBase h2) = some ⟨70, 64, 4, 0, 0, 0, 0⟩ ∧ (0 : BitVec 8) ≠ 7) ∧
    (let e := { someEntry sloadWord [(1, 0x10000), (2, 1)] [] [(1, h1)] .started with tagOk := false }
     running (entryState e 0) 0 4 = some e ∧ e.reads = [] ∧ 0 < e.count ∧ e.isDone 0 = false) :=
  ⟨by decide, by decide, by decide, by decide, by decide, by decide, by decide, by decide⟩

/-- Entries whose index has not been read, and a store of which a line has gone. -/
theorem witness_EntriesMoveData_first :
    (let e := someEntry (cpWord (.sgather g0 1 2 2)) [(4, 0x10000), (5, 2 ^ 32 + 1)] [(2, h2, 0)] [(1, h1)] .started
     running (entryState e 0) 0 4 = some e ∧ opOf e.word = 0x1D ∧ subOf e.word = 4 ∧ e.tagOk = true ∧ e.isDone 0 = false ∧
       Tab.get none e.idx 0 = none ∧ 0 < e.count ∧ (entryState e 0).errs = []) ∧
    (let e := someEntry (cpWord (.sbag g0 1 2 2)) [(4, 0x10000), (5, 2 ^ 32 + 1)] [(2, h2, 0)] [(1, h1)] .started
     running (entryState e 0) 0 4 = some e ∧ opOf e.word = 0x1D ∧ subOf e.word = 5 ∧ 0 = e.resume + e.k ∧ e.tagOk = true ∧ e.isDone 0 = false ∧
       Tab.get none e.idx 0 = none ∧ 0 < e.count) ∧
    (let e := { rowEntry sscaddWord with idx := [] }
     running (entryState e 0) 0 4 = some e ∧ opOf e.word = 0x1F ∧ subOf e.word = 0 ∧ 0 = e.resume ∧ e.tagOk = true ∧
       Tab.get none e.idx 0 = none ∧ 0 < e.count) ∧
    (let e := { rowEntry srowupdWord with idx := [] }
     running (entryState e 0) 0 4 = some e ∧ opOf e.word = 0x1F ∧ subOf e.word = 1 ∧ 0 = e.resume ∧ e.tagOk = true ∧
       Tab.get none e.idx 0 = none ∧ 0 < e.count) ∧
    (let e := { someEntry (cpWord (.sstore g0 1 1 2)) [(1, 0x1FFFC), (2, 1)] [(1, h1, 0)] [] .started with snap := [(0, List.replicate 8 9)], part := [(0, [0, 0, 0, 0])] }
     running (entryState e 0) 0 4 = some e ∧ (Tab.get [] e.part 0).length = 4 ∧ Tab.get [] e.snap 0 ≠ [] ∧
       nextChunk (recordVa e 0) (hRsz (e.rd 0)) 4 = (0x20000, 4) ∧ nextChunk (recordVa e 0) (hRsz (e.rd 0)) 0 = (0x1FFFC, 4)) :=
  ⟨by decide, by decide, by decide, by decide, by decide⟩

/-- R134: the first two of four elements are given, and then none. -/
theorem test_expand : expand 1 16 ([1, 2, 3, 4, 5, 6, 7, 8] ++ [0x84, 0xE9]) =
    ([1, 2, 0, 0, 3, 0, 4, 0, 0, 5, 6, 0, 0, 0, 7, 8], false) ∧ (expand 1 16 ([1, 2, 3, 4, 5, 6, 7, 8] ++ [0x80, 0xE9])).2 = true := by decide

theorem witness_EntriesMoveData :
    (let e := someEntry sloadWord [(1, 0x10000), (2, 1)] [] [(1, h1)] .started
     running (entryState e 0) 0 4 = some e ∧ opOf e.word = 0x1D ∧ subOf e.word = 2 ∧ bit e.word 0 = false ∧ e.tagOk = true ∧ 0 < e.count ∧
       e.isDone 0 = false ∧ (nextChunk (recordVa e 0) (hRsz e.wr) 0).2 = hRsz e.wr ∧ (entryState e 0).errs = []) ∧
    (∃ p u, entryPlace (entryState (someEntry sloadWord [(1, 0x10000), (2, 1)] [] [(1, h1)] .started) 0) 0 4 0x10000 5 = .ok (p, u) ∧ gate u p = .go) ∧
    (let e := { someEntry scopyWord [(1, 0), (2, 1)] [] [(1, h1)] .started with sub := 1 }
     running (entryState e 0) 0 4 = some e ∧ isPull e.word = true ∧ e.resume < e.count) ∧
    (let e := { someEntry scopypWord [(1, 0), (2, 1)] [(1, h1, 0)] [] .started with sub := 1 }
     running (entryState e 0) 0 4 = some e ∧ isPush e.word = true ∧ e.resume < e.count) ∧
    (let e := rowEntry sscaddWord
     running (entryState e 0) 0 4 = some e ∧ opOf e.word = 0x1F ∧ subOf e.word = 0 ∧ e.resume < e.count ∧ e.places ≠ [] ∧
       Tab.get none e.idx e.resume = some 0 ∧ 0 < fldN e.ctl 32 30 ∧
       gate (entryState e 0) (placeAt e.places 0x10000 0) = .go) ∧
    (let e := rowEntry srowupdWord
     running (entryState e 0) 0 4 = some e ∧ opOf e.word = 0x1F ∧ subOf e.word = 1 ∧ e.resume < e.count ∧ e.places ≠ [] ∧
       Tab.get none e.idx e.resume = some 0 ∧ 0 < fldN e.ctl 32 30) :=
  ⟨by decide, ⟨_, _, rfl, by decide⟩, by decide, by decide, by decide, by decide⟩

/-- An executable microcode page whose entry has not been scanned. -/
def freshLeaf : TlbE := ⟨3, 0, 0, BitVec.ofNat 64 (2 ^ 63 + 3 * 2 ^ 61 + 2 ^ 58 + 3 * 2 ^ 16), []⟩

theorem read_nil (a n : Nat) : Memory.read [] a n = List.replicate n 0 := by
  induction n generalizing a with
  | zero => rfl
  | succ n ih => simp [Memory.read, ih, List.replicate_succ, Memory.get, Tab.get, Memory.blank]

/-- R22: a microcode page of zeros, which are NOPs, passes its scan. -/
theorem scan_of_zeros : scanPage State.reset (leafPlace 0 freshLeaf 0x30000) = none := by
  have h : scanEntry (words64 8 (List.replicate 64 0)) = none := by decide
  have hk : eKind (leafPlace 0 freshLeaf 0x30000).pte = 3 := by decide
  have hp : (leafPlace 0 freshLeaf 0x30000).pa = 0x30000 := by decide
  have hi : ∀ x < 1024, installed (decide ((leafPlace 0 freshLeaf 0x30000).pl = 2)) (0x30000 / 65536 * 65536 + 64 * x) 64 = true := by
    intro x hx
    have h2 : 0x30000 / 65536 * 65536 + 64 * x + 64 ≤ hbmBytes := by simp only [hbmBytes]; omega
    simp [installed, h2]
  simp only [scanPage, hk, hp, State.readBytes, State.reset, read_nil]
  generalize List.replicate 64 (0 : Byte) = z at h
  simp +contextual [h, hi]

/-- Core 0 alone translates through a leaf. -/
def leafState (e : TlbE) : State := State.reset.modCore 0 (fun v => { v with tlb := [e] })

/-- Where no counter counts and no word is in error, reads of homes change nothing. -/
theorem reads_quiet {s : State} (he : s.errs = []) (hh : ∀ d cls, bit (s.die d).hotcfg cls = false) (d : Nat) (rs : List (Place × Nat)) :
    serveReads s d rs = (s, none) := by
  have count : ∀ p, countHome s d p = s := by
    intro p
    rw [countHome, hotTouch, hotTouchN.eq_2]
    split
    · rfl
    · simp only [hh, Bool.not_false, Bool.true_or, if_true]
      split <;> rfl
  have check : ∀ p n, checkHome s p n = (s, none) := by
    intro p n
    simp [checkHome, checkRead, correct, uncorrectable, he]
  induction rs with
  | nil => rfl
  | cons r rs ih => simp [serveReads, serveRead, count, check, ih]

/-- What the scan of that page reads is not counted and not in error. -/
theorem scan_served : serveReads (leafState freshLeaf) 0 (scanReads (leafPlace 0 freshLeaf 0x30000)) = (leafState freshLeaf, none) :=
  reads_quiet rfl (fun d cls => by change bit (0 : Word) cls = false; simp [bit]) 0 _

/-- A walk that waits at a lock of the root entry, with the misses that share it. -/
def waitingWalk (s : State) (v : Walking) : State := s.modCore 0 (fun k => { k with walks := [v] })

/-- An upcall of region 3 that has not been pushed. -/
def someUpcall : Upcall := { ticket := 7, fields := [0, 5, 3, 7] ++ List.replicate 12 0, region := 3, pushed := false }

/-- The queue of region 3 lies at 0x140000. -/
def upcallState : State :=
  let s := tabled (State.reset.modDie 0 (fun v => { v with upcalls := [someUpcall] }))
  { s with mem := s.mem ++ [(0x140006, 0x80), (0x140007, 0x51), (0x14000A, 64)] }

/-- The answer queue of die 0 holds ticket 7. -/
def answerState : State :=
  { (State.reset.modDie 0 (fun v => { v with resq := 0x10001, upcalls := [{ someUpcall with pushed := true }] })) with
    mem := [(0x10006, 0x80), (0x10007, 0x51), (0x10008, 1), (0x1000A, 60)] }

theorem witness_TranslationEvents :
    (fldN (0x80000000000000 : Word) 55 9 ≠ 0) ∧
    (tlbHit ((mapped State.reset).core 0).tlb 1 = some (dataLeaf 1) ∧ permFault 3 (dataLeaf 1).pte ≠ 0 ∧ permFault 0 (dataLeaf 1).pte = 0 ∧
      (dataLeaf 1).scanned = []) ∧
    (∃ p t, translate (tabled State.reset) 0 [] 0x60000 0 = .ok p t) ∧ State.reset.stopped (dieOf 0) = false ∧
    (tlbHit ((leafState freshLeaf).core 0).tlb 3 = some freshLeaf ∧ permFault 4 freshLeaf.pte = 0 ∧ 3 ∉ freshLeaf.scanned ∧ 2 ≤ eKind freshLeaf.pte ∧
      gate (leafState freshLeaf) (leafPlace 0 freshLeaf 0x30000) = .go ∧ (freshLeaf.level ≠ 1 ∨ bit freshLeaf.pte 53 = false)) ∧
    serveReads (leafState freshLeaf) 0 (scanReads (leafPlace 0 freshLeaf 0x30000)) = (leafState freshLeaf, none) ∧
    scanPage (leafState freshLeaf) (leafPlace 0 freshLeaf 0x30000) = none ∧
    (let e := { freshLeaf with scanned := [3] }
     tlbHit ((leafState e).core 0).tlb 3 = some e ∧ permFault 4 e.pte = 0 ∧ (0x30000 : Word).toNat / 2 ^ 16 ∈ e.scanned) ∧
    (let v : Walking := ⟨6, 2, some (walk (tabled State.reset) 0 6 []).res, [(1, 6)]⟩
     let s := waitingWalk (tabled State.reset) v
     doneWalk s 0 [(1, 6)] = some v ∧ (v.gives 6).isSome = true ∧ v.gives 7 = none) ∧
    (∀ ts ∈ [[], [(1, 1)]], let v : Walking := ⟨1, 0, none, ts⟩
     let s := waitingWalk (tabled State.reset) v
     (s.core 0).walks[0]? = some v ∧ s.stopped (dieOf 0) = false ∧ (serveReads s 0 (walk s 0 1 []).reads).2 = none ∧ (walk s 0 1 []).res ≠ .lock 0 ∧
       (walk s 0 1 []).res ≠ .lock 1 ∧ (walk s 0 1 []).res ≠ .lock 2) ∧
    (let v : Walking := ⟨5, 0, none, [(1, 5)]⟩
     let s := waitingWalk lockedState v
     (s.core 0).walks[0]? = some v ∧ s.stopped (dieOf 0) = false ∧ (serveReads s 0 (walk s 0 5 []).reads).2 = none ∧
       (walk s 0 5 []).res = .lock 2) :=
  ⟨by decide, by decide, ⟨_, _, rfl⟩, by decide, by decide +kernel, scan_served, scan_of_zeros, by decide +kernel, by decide +kernel,
   by decide +kernel, by decide +kernel⟩

/-- The first word of a page is no kernel word. -/
def badPage : State := { leafState freshLeaf with mem := [(0x30007, 0xFE)] }

theorem witness_TranslationEvents_scanFails :
    gate badPage (leafPlace 0 freshLeaf 0x30000) = .go ∧
    serveReads badPage 0 (scanReads (leafPlace 0 freshLeaf 0x30000)) = (badPage, none) ∧
    (scanPage badPage (leafPlace 0 freshLeaf 0x30000)).isSome = true :=
  ⟨by decide, reads_quiet rfl (fun d cls => by change bit (0 : Word) cls = false; simp [bit]) 0 _,
   by decide +kernel⟩

/-- The queue of a region takes an upcall; the answer queue holds an answer. -/
theorem witness_TranslationEvents_queues :
    ((upcallState.die 0).upcalls[0]? = some someUpcall ∧ someUpcall.pushed = false ∧ regionQueue upcallState 0 3 = some 0x140000 ∧
      upcallState.errs = [] ∧ countHome upcallState 0 (regionPlace upcallState 0 3) = upcallState ∧
      countHome upcallState 0 (queuePlaceOf 0 0x140000) = upcallState ∧ qOk upcallState 0 0x140000 = true ∧
      (qPush upcallState 0 0x140000 (someUpcall.fields.map BitVec.toNat)).2 = true ∧
      (let s := { upcallState with mem := tables ++ [(0x140006, 0x80), (0x140007, 0x51), (0x140008, 1)] }
       qOk s 0 0x140000 = true ∧ (qPush s 0 0x140000 (someUpcall.fields.map BitVec.toNat)).2 = false)) ∧
    (bit (answerState.die 0).resq 0 = true ∧ answerState.errs = [] ∧ qOk answerState 0 (fldN (answerState.die 0).resq 8 36 * 2 ^ 8) = true ∧
      (qPop answerState 0 (fldN (answerState.die 0).resq 8 36 * 2 ^ 8)).2.isSome = true) :=
  by decide +kernel

/-! ## Witnesses: the launch ring, tasks, graphs, host -/

def accOk {α : Type} (r : Acc α × State) : Bool :=
  match r.1 with
  | .ok _ => true
  | _ => false

/-- An access of a die's engine that succeeds. -/
theorem acc_of {α : Type} {r : Acc α × State} (h : accOk r = true) : ∃ a t, r = (.ok a, t) := by
  obtain ⟨a | _ | _, t⟩ := r
  · exact ⟨a, t, rfl⟩
  all_goals simp [accOk] at h

theorem acc_unit {r : Acc Unit × State} (h : accOk r = true) : r = (.ok (), r.2) := by
  obtain ⟨_, t, rfl⟩ := acc_of h
  rfl

def accBadAt {α : Type} (r : Acc α × State) (va : Nat) : Bool :=
  match r.1 with
  | .bad _ a => a = va
  | _ => false

/-- An access of a die's engine that fails. -/
theorem bad_of {α : Type} {r : Acc α × State} {va : Nat} (h : accBadAt r va = true) : ∃ e t, r = (.bad e va, t) := by
  obtain ⟨_ | _ | ⟨e, a⟩, t⟩ := r <;> simp [accBadAt] at h
  exact ⟨e, t, by rw [h]⟩

/-- A write of a die's engine, its places given. -/
theorem write_of {s t : State} {d va n : Nat} {bs : List Byte} {ps : List ((Nat × Nat) × Place)} (hn : bs.length = n)
    (h : placesOf s d va 1 (pageCuts va n) = (.ok ps, t)) : writeRange s d va bs =
      (.ok (), ps.foldl (fun s p => s.writePhys p.2.pkg (p.2.pl = 2) p.2.pa ((bs.drop p.1.1).take p.1.2))
        ((lineReads ps).foldl (fun s r => countHome s d r.1) t)) := by
  simp only [writeRange, hn, h, accBind]

/-- A graph of one node, of a type, with word 2 of its record. -/
def graphOf (ty : Nat) (w2 : Word) : Loaded :=
  { somePackage with widths := [1, 0, 0, 0, 0, 0], nodes := [[BitVec.ofNat 64 (ty * 2 ^ 60), 0, w2, 0, 0, 0, 0, 0]], ulen := 0 }

/-- A package at 0x60000 whose one node is an event node (R355 to R358). -/
def packageBytes : Memory :=
  [(0x60001, 1), (0x60005, 1), (0x60006, 0x50), (0x60007, 0x47), (0x60008, 1), (0x60020, 1), (0x60024, 0x40), (0x6002C, 0x80), (0x60034, 0x80),
   (0x6003C, 0x80), (0x60047, 0x20)]

/-- The launch ring of package 0 at 0x140000 holds one record of a kind, and package bytes lie at 0x60000. -/
def ringMem (kind : Nat) (rest : Memory) : Memory :=
  tables.take 8 ++ packageBytes ++ tables.drop 8 ++ [(0x140007, BitVec.ofNat 8 (16 * kind))] ++ rest

def ring (kind : Nat) (rest : Memory) (l : Option Loaded) : State :=
  let s := (tabled State.reset).modPkg 0 (fun k => { k with
    lq := 0x8000000000140006, lqp := 0x100000000, loaded := match l with
      | some v => [(0, some v)]
      | none => [] })
  { s with mem := ringMem kind rest }

theorem witness_LaunchRing :
    (hostReaches State.reset 0 ∧ bit ((ring 1 [] none).pkg 0).lq 63 = true ∧ bit ((ring 1 [] none).pkg 0).sresn 3 = false ∧
      lqSize ((ring 1 [] none).pkg 0).lq = 64 ∧ (64 + 2 ^ 32 - lqHead ((ring 1 [] none).pkg 0)) % 2 ^ 32 ≤ 64 ∧
      ¬ (65 + 2 ^ 32 - lqHead ((ring 1 [] none).pkg 0)) % 2 ^ 32 ≤ 64) ∧
    ((ring 1 [(0x14000A, 6)] none).mem.wf = true) ∧
    ((nextRecord (ring 1 [(0x14000A, 6)] none) 0).map (fun r => (lrKind r, lrBad r, lrPh r, r.getD 1 0)) = some (1, none, 0, 0x60000)) ∧
    (∃ r v, checkLoad (ring 1 [(0x14000A, 6)] none) 0 0 0x60000 = (.ok r, v)) ∧
    ((nextRecord (ring 3 [] (some (graphOf 2 0))) 0).map (fun r => (lrKind r, lrBad r, accOk (checkRun (ring 3 [] (some (graphOf 2 0))) 0 r (graphOf 2 0)))) =
      some (3, none, true) ∧ countHome (ring 3 [] (some (graphOf 2 0))) 0 (ringPlace (ring 3 [] (some (graphOf 2 0))) 0) = ring 3 [] (some (graphOf 2 0)) ∧ Tab.get none ((ring 3 [] (some (graphOf 2 0))).pkg 0).loaded 0 = some (graphOf 2 0)) ∧
    ((nextRecord (ring 2 [] (some (graphOf 2 0))) 0).map (fun r => (lrKind r, lrBad r, bit (r.getD 0 0) 57)) = some (2, none, false) ∧
      ((ring 2 [] (some (graphOf 2 0))).pkg 0).runs = [] ∧ placed (ring 2 [] (some (graphOf 2 0))) 0 = [] ∧
      ((ring 2 [] (some (graphOf 2 0))).pkg 0).saved = []) ∧
    ((nextRecord (ring 15 [] none) 0).map (fun r => (lrKind r, lrBad r)) = some (15, some (60 * 2 ^ 8))) ∧
    ((nextRecord (ring 2 [(0x14003F, 0x80)] none) 0).map (fun r => (lrKind r, lrBad r)) = some (2, some (63 * 2 ^ 8 + 7))) ∧
    ((nextRecord (ring 3 [] (some { graphOf 2 0 with nframe := 2 })) 0).map (fun r => fldN (r.getD 4 0) 0 32) = some 0) ∧
    ((nextRecord (ring 1 [(0x14000A, 5)] none) 0).map (fun r => (lrKind r, lrBad r, doneWaits (ring 1 [(0x14000A, 5)] none) 0 (lrCaddr r))) =
      some (1, none, false) ∧ accOk (checkLoad (ring 1 [(0x14000A, 5)] none) 0 0 0x50000) = false) :=
  ⟨⟨⟨by decide, by decide⟩, by decide⟩, by decide, by decide, acc_of (by decide +kernel), by decide, by decide, by decide, by decide, by decide,
   by decide, by decide +kernel⟩

/-- A forced UNLOAD of a package in whose code a task runs, and the completion record. -/
theorem witness_LaunchRing_forced :
    (let l := { graphOf 2 0 with pkgva := 0x60000, codelen := 8 }
     let s := ring 2 [] (some l)
     let s := { s.setCtx 1 { Ctx.reset with task := some loadedTask, pc := 0x60008 } with
       mem := tables.take 8 ++ packageBytes ++ tables.drop 8 ++ [(0x140007, 0x22)] }
     (nextRecord s 0).map (fun r => (lrKind r, lrBad r, bit (r.getD 0 0) 57)) = some (2, none, true) ∧
       Tab.get none (s.pkg 0).loaded 0 = some l ∧ 1 ∈ placed s 0 ∧ inCode l (s.ctx 1).pc = true ∧ unloadTakes s 0 l 1 = true ∧ (s.ctx 1).kill = none) ∧
    (∃ q u, translateDie (tabled State.reset) 0 (BitVec.ofNat 64 0x60040) 1 = (.ok q, u)) ∧ 0x60040 % 64 = 0 ∧
    (∃ c a u, translateDie (tabled State.reset) 0 (BitVec.ofNat 64 0x50040) 1 = (.bad c a, u)) :=
  ⟨by decide, ⟨_, _, rfl⟩, by decide, ⟨_, _, _, rfl⟩⟩

/-- A forced UNLOAD takes a task of a run of the package that runs elsewhere, and stops the run; one that is not forced is refused while a
task runs in its code. -/
theorem witness_LaunchRing_unload :
    (let r : Run := ⟨0, graphOf 0 0, 1, 0, 0, 0, 0, 1, 0, [], [], 0, 0, false, none, false⟩
     let s := (ring 2 [] (some (graphOf 0 0))).modPkg 0 (fun k => { k with runs := [(5, some r)] })
     let s := { s.setCtx 1 { Ctx.reset with task := some { loadedTask with run := 5 }, pc := 0x10000 } with
       mem := tables.take 8 ++ packageBytes ++ tables.drop 8 ++ [(0x140007, 0x22)] }
     inCode (graphOf 0 0) (s.ctx 1).pc = false ∧ unloadTakes s 0 (graphOf 0 0) 1 = true ∧ 1 ∈ placed s 0 ∧ runOf s 0 5 = some r ∧
       r.l.id = (graphOf 0 0).id ∧ r.failed = none) ∧
    (let l := { graphOf 2 0 with pkgva := 0x60000, codelen := 8 }
     let s := (ring 2 [] (some l)).setCtx 1 { Ctx.reset with task := some loadedTask, pc := 0x60008 }
     (nextRecord s 0).map (fun r => (lrKind r, lrBad r, bit (r.getD 0 0) 57)) = some (2, none, false) ∧
       1 ∈ placed (examine s 0) 0 ∧ inCode l ((examine s 0).ctx 1).pc = true) := by decide +kernel

/-- A run of one node. -/
def someRun (ty : Nat) (w2 : Word) : Run :=
  { ph := 0, l := graphOf ty w2, prio := 1, tag := 0, args := 0x60000, caddr := 0x60040, fpool := 0x60000, nfpool := 1, order := 0, nodes := [],
    blocks := [], tasks := 0, iters := 0, maxit := false, failed := none, stopped := false }

def runState (r : Run) : State := (tabled State.reset).modPkg 0 (fun k => { k with runs := [(5, some r)] })

/-- A task of the run, on context 0. -/
def someTask (prio : Nat) : Task := { loadedTask with run := 5, prio := prio, zeroed := false }

def taskState (c : Ctx) : State := (tabled State.reset).setCtx 0 c

/-- The task waits at EXITVA. -/
def exitCtx : Ctx := { Ctx.reset with task := some (someTask 1), issue := some { openIssue [] 0 with exit := true } }

/-- A task saved on core 0 with its frame at 0x60000, whose headers say version 1 and nothing else. -/
def someSaved (prio : Nat) : Saved :=
  { task := { someTask prio with acc := true }, core := 0, frame := 0x60000, ticket := none, fail := none, ready := true, ents := [], failEnt := none, failKind := 0,
    failVa := 0, own := false, bg := none, seals := [], unmet := [] }

def savedState : State :=
  { ((tabled State.reset).modPkg 0 (fun k => { k with saved := [someSaved 1] })) with
    mem := tables.take 8 ++ [(0x60007, 1), (0x61007, 1)] ++ tables.drop 8 }

theorem witness_Tasks :
    (let s := runState (someRun 0 0)
     runOf s 0 5 = some (someRun 0 0) ∧ nType (someRun 0 0).l 0 = 0 ∧ (someRun 0 0).ready 0 0 = true ∧ pkgOfCtx 511 = 0 ∧ idle s 511 = true ∧
       affinity (someRun 0 0) 0 0 (coreOf 511) = true ∧ 0 < (someRun 0 0).nfpool ∧ 0 ∉ (someRun 0 0).blocks ∧
       firstWant s 0 ⟨3 - (someRun 0 0).prio, (someRun 0 0).order, 0, 0⟩ = true) ∧
    (∃ a b u, writeRange (runState (someRun 0 0)) (dieOfCtx 511) 0x60000 (leBytes 8 (2 ^ 56)) = (.ok (), a) ∧
      writeRange a (dieOfCtx 511) (0x60000 + 0x3D0) (List.replicate 48 0) = (.ok (), b) ∧
      writeRange b (dieOfCtx 511) (0x60000 + 0x400) (leBytes 8 0) = (.ok (), u)) ∧
    (((taskState { Ctx.reset with task := some (someTask 1) }).ctx 0).task = some (someTask 1) ∧ (someTask 1).zeroed = false) ∧
    (quiet (taskState exitCtx) 0 = true ∧ entriesOf (taskState exitCtx) 0 = [] ∧ ((taskState exitCtx).ctx 0).pend = none ∧
      ((taskState exitCtx).ctx 0).kill = none ∧ ((taskState exitCtx).ctx 0).issue.map (·.exit) = some true) ∧
    (((taskState { exitCtx with kill := some someRec }).ctx 0).kill = some someRec ∧ quiet (taskState { exitCtx with kill := some someRec }) 0 = true) ∧
    (let s := taskState { exitCtx with pend := some someRec, tvec := 0x80 }
     (s.ctx 0).pend = some someRec ∧ frameWaits s 0 = false ∧ (s.ctx 0).t = false ∧ fldN (s.ctx 0).tvec 7 48 ≠ 0 ∧
       frameWaits (taskState { exitCtx with pend := some someRec }) 0 = false ∧
       fldN ((taskState { exitCtx with pend := some someRec }).ctx 0).tvec 7 48 = 0) ∧
    (∀ why ∈ [SaveWhy.preempt, .fault 0x50000 0 false 3 0 none],
     let c : Ctx := { Ctx.reset with task := some (someTask 1), save := some why, frame := 0x60000 }
     ((taskState c).ctx 0).save = some why ∧ saveBundle ((taskState c).ctx 0) = some none ∧ saveReady (dropGwait (taskState c) 0) 0 = true ∧
       saveWaits (dropGwait (taskState c) 0) 0 (someTask 1) = false) := by
  refine ⟨by decide +kernel, ⟨_, _, _, rfl, rfl, rfl⟩, by decide, by decide, by decide, by decide, by decide +kernel⟩

/-- A preempted task that waits at a GSEAL which has not left; the save takes the seal along. -/
theorem witness_Tasks_seals :
    let c : Ctx := { Ctx.reset with task := some (someTask 1), save := some .preempt, frame := 0x60000, issue := some { openIssue [] 0 with gwait := true, perf := 15 } }
    let e := someEntry 0b11111_0111_1_011010_01101_00000_010_000 [] [] [] .stopped
    let s := { (taskState c).modCore 0 (fun v => { v with sb := [(4, some e)] }) with pkts := [(0, some ⟨0, 0, 0, 0, 0, 0, false, .seal 0 3 0 5 none⟩)] }
    s.stopped (dieOfCtx 0) = false ∧ (s.ctx 0).kill = none ∧ (saveBundle (s.ctx 0)).isSome = true ∧ saveReady (liftSeals (dropGwait s 0) 0) 0 = true ∧
      (heldSeals (dropGwait s 0) 0).map (·.2) = [(0, 3, 5)] ∧ saveWaits (dropGwait s 0) 0 (someTask 1) = false := by
  decide +kernel

/-- A saved task whose frame holds a bundle, with the predicates it read and a seal. -/
theorem witness_Tasks_restore_bundle :
    let v := { someSaved 1 with bg := some 5, seals := [(0, 3, 5)] }
    let s := { (savedState.modPkg 0 (fun k => { k with saved := [v] })) with
      mem := tables.take 8 ++ [(0x60007, 1), (0x602E1, 1), (0x61007, 1)] ++ tables.drop 8 }
    mayRestore s 0 v (coreOf 3) = true ∧ firstWant s 0 (savedWant s 0 v) = true ∧
      (match (readFrame s (dieOfCtx 3) v.frame).1 with
       | .ok ps => !(ps.rd 0 1).testBit 1 && (frameBad ps).isNone && decide (ps.rd 0x2E0 8 / 2 ^ 8 % 2 = 1)
       | _ => false) = true := by decide +kernel

/-- The frame of context 0 lies in pages 6 and 7, which are in host memory. -/
def fillState : State :=
  { taskState { Ctx.reset with task := some (someTask 1), frame := 0x60000 } with
    mem := tables.take 15 ++ [(0x120037, 0xBA), (0x12003A, 7), (0x12003F, 0xBA)] ++ tables.drop 16 }

theorem witness_Tasks_fill :
    ((fillState.ctx 0).task = some (someTask 1) ∧ (someTask 1).zeroed = false ∧ (fillState.ctx 0).frame.toNat % 2 ^ 16 = 0 ∧
      areaWaits fillState (coreOf 0) (fillState.ctx 0).frame.toNat = false) ∧
    (∃ a b, writeRange fillState (dieOfCtx 0) ((fillState.ctx 0).frame.toNat + 0x1000) (List.replicate 0xF000 0) = (.ok (), a) ∧
      writeRange a (dieOfCtx 0) ((fillState.ctx 0).frame.toNat + 0x1000 + 0xF000) (List.replicate 0x1000 0) = (.ok (), b)) ∧
    ∃ q u, translateDie fillState 0 (BitVec.ofNat 64 0x6FFF8) 1 = (.ok q, u) :=
  ⟨by decide, ⟨_, _, acc_unit (by decide +kernel), acc_unit (by decide +kernel)⟩, acc_of (by decide +kernel)⟩

theorem witness_Tasks_restore :
    (savedState.pkg 0).saved[0]? = some (someSaved 1) ∧ idle savedState 3 = true ∧ mayRestore savedState 0 (someSaved 1) (coreOf 3) = true ∧
    sbRoomFor savedState 3 (someSaved 1).ents.length = true ∧ firstWant savedState 0 (savedWant savedState 0 (someSaved 1)) = true ∧
    restoreWaits savedState (dieOfCtx 3) (coreOf 3) (someSaved 1) = false ∧
    (∃ ps u, readFrame savedState (dieOfCtx 3) (someSaved 1).frame = (.ok ps, u)) ∧
    (match (readFrame savedState (dieOfCtx 3) (someSaved 1).frame).1 with
     | .ok ps => !(ps.rd 0 1).testBit 1 && (frameBad ps).isNone
     | _ => false) = true := by
  refine ⟨by decide, by decide, by decide +kernel, by decide, by decide +kernel, by decide, acc_of (by decide +kernel), by decide +kernel⟩

/-- A frame with ORPH set, and one whose header has a reserved bit. -/
theorem witness_Tasks_restore_killed :
    (match (readFrame { savedState with mem := tables.take 8 ++ [(0x60000, 2), (0x60007, 1), (0x61007, 1)] ++ tables.drop 8 } 0 0x60000).1 with
     | .ok ps => (ps.rd 0 1).testBit 1
     | _ => false) = true ∧
    (match (readFrame { savedState with mem := tables.take 8 ++ [(0x60000, 4), (0x60007, 1), (0x61007, 1)] ++ tables.drop 8 } 0 0x60000).1 with
     | .ok ps => (frameBad ps).isSome
     | _ => false) = true := by decide +kernel

/-- Contexts 0 to 3 hold tasks of PRIO 0, and a task of PRIO 1 that only core 0 may take waits. -/
def crowded : State :=
  let s := (State.reset.modDie 0 (fun v => { v with dquant := 1 })).modPkg 0 (fun k => { k with saved := [someSaved 1] })
  let k := fun (n : Nat) => { Ctx.reset with task := some { someTask 0 with since := n } }
  { (((s.setCtx 0 (k 3)).setCtx 1 (k 2)).setCtx 2 (k 1)).setCtx 3 (k 0) with now := 1024 }

theorem crowded_victims : victims crowded 0 ⟨2, 0, 0, 0⟩ =
    [(0, { someTask 0 with since := 3 }), (1, { someTask 0 with since := 2 }), (2, { someTask 0 with since := 1 }), (3, someTask 0)] := by decide +kernel

theorem crowded_idle : (ctxsOf 0).all (fun y => !idle crowded y || !(readyWants crowded 0 (coreOf y)).contains ⟨2, 0, 0, 0⟩) = true := by decide +kernel

theorem witness_Tasks_preemption :
    ((crowded.ctx 0).task.isSome = true ∧ (crowded.ctx 0).kill = none ∧ (crowded.ctx 0).save = none ∧
      fldN (crowded.die 0).dquant 0 32 ≠ 0 ∧ fldN (crowded.die 0).dquant 0 32 * 1024 ≤ crowded.now - 0) ∧
    idleOn crowded 0 = false ∧ readyWants crowded 0 0 = [⟨2, 0, 0, 0⟩] ∧ (⟨2, 0, 0, 0⟩ : Want).low < 3 - 0 ∧
    (∃ v ∈ victims crowded 0 ⟨2, 0, 0, 0⟩, v.1 = 0) ∧
    (∀ v ∈ victims crowded 0 ⟨2, 0, 0, 0⟩, v.1 = 0 ∨ worse { someTask 0 with since := 3 } v.2 = true) := by
  rw [crowded_victims]
  decide

/-- The argument block of package 0 names a source, a destination and a length of 8 bytes. -/
def argState (r : Run) : State :=
  { runState r with mem := tables.take 8 ++ [(0x60002, 6), (0x60009, 1), (0x6000A, 6), (0x60010, 8)] ++ tables.drop 8 }

/-- A run of an event node that is done and a loop node whose body it is. -/
def loopRun (most : Nat) : Run :=
  { someRun 2 0 with
    l := { graphOf 2 0 with nodes := (graphOf 2 0).nodes ++ [[BitVec.ofNat 64 (4 * 2 ^ 60), 0, BitVec.ofNat 64 most, 0, 0, 0, 0, 0]] },
    nodes := [(0, { RunNode.reset with done := [0] })] }

/-- A conditional node with an edge to an event node for each of its branches. -/
def edgeRun (done : List Nat) (pred : Bool) (br : Nat) : Run :=
  { someRun 3 0 with
    l := { graphOf 3 0 with nodes := [[BitVec.ofNat 64 (3 * 2 ^ 60 + 2 ^ 28), 0, 0, 0, 0, 0, 0, 0], [BitVec.ofNat 64 (2 * 2 ^ 60), 0, 0, 0, 0, 0, 0, 0]],
                            edges := [BitVec.ofNat 32 (1 + br * 2 ^ 15)] },
    nodes := [(0, { RunNode.reset with done := done, pred := pred })] }

/-- R368: an edge of a source that is not complete, of the branch taken and of the other one. -/
theorem witness_GraphNodes_edges :
    (∀ br < 3, ∀ pred ∈ [false, true], eSource (edgeRun [0] pred br).l 0 = some 0 ∧ nType (edgeRun [0] pred br).l 0 = 3 ∧
      incoming (edgeRun [0] pred br).l 1 = [0] ∧ instances (edgeRun [0] pred br).l 0 = [0] ∧ ((edgeRun [0] pred br).node 0).done.Nodup) ∧
    ((edgeRun [] false 0).edgeResolved 0 0 = false ∧ (edgeRun [] false 0).edgeSkipped 0 = false ∧ (edgeRun [] false 0).ready 1 0 = false) ∧
    ((edgeRun [0] false 0).edgeResolved 0 0 = true ∧ (edgeRun [0] false 0).ready 1 0 = true) ∧
    ((edgeRun [0] false 1).edgeSkipped 0 = true ∧ (edgeRun [0] true 1).edgeSkipped 0 = false ∧
      (edgeRun [0] false 2).edgeSkipped 0 = false ∧ (edgeRun [0] true 2).edgeSkipped 0 = true) := by decide

/-- The argument block, with the page of the source and of the destination and the upper half of LEN given. -/
def argsAt (r : Run) (src dst len : BitVec 8) : State :=
  { runState r with mem := tables.take 8 ++ [(0x60002, src), (0x60009, 1), (0x6000A, dst), (0x60010, 8)] ++
      (if len = 0 then [] else [(0x60014, len)]) ++ tables.drop 8 }

/-- Nodes whose arguments, data or length fail their graph. -/
theorem witness_GraphNodes_fails :
    (∀ ty ∈ [1, 2, 3], let r := { someRun ty 0 with args := 0x50000 }
      readyNode (argState r) 0 5 0 ty = some r ∧ accBadAt (argWord (argState r) 0 r 0 0) 0x50000 = true) ∧
    (let r := { loopRun 2 with args := 0x50000 }
     readyNode (argState r) 0 5 1 4 = some r ∧ accBadAt (argWord (argState r) 0 r 1 0) 0x50000 = true) ∧
    (∀ ty ∈ [1, 2], let r := { someRun ty 0 with args := 0x6FFF8 }
      readyNode (argState r) 0 5 0 ty = some r ∧ accOk (argWord (argState r) 0 r 0 0) = true ∧
        accBadAt (argWord (argWord (argState r) 0 r 0 0).2 0 r 0 1) 0x70000 = true) ∧
    (let r := { someRun 1 0 with args := 0x6FFF0 }
     accOk (argWord (argState r) 0 r 0 1) = true ∧ accBadAt (argWord (argState r) 0 r 0 2) 0x70000 = true) ∧
    (let r := someRun 1 0
     readyNode (argsAt r 6 6 1) 0 5 0 1 = some r ∧ argWord (argsAt r 6 6 1) 0 r 0 2 = (.ok (2 ^ 32 + 8), argsAt r 6 6 1)) ∧
    (let r := someRun 1 0
     argWord (argsAt r 5 6 0) 0 r 0 0 = (.ok 0x50000, argsAt r 5 6 0) ∧ accBadAt (readRange (argsAt r 5 6 0) 0 0x50000 8) 0x50000 = true) ∧
    (let r := someRun 1 0
     argWord (argsAt r 6 5 0) 0 r 0 1 = (.ok 0x50100, argsAt r 6 5 0) ∧
       accBadAt (writeRange (argsAt r 6 5 0) 0 0x50100 [1, 2, 3, 4, 5, 6, 7, 8]) 0x50100 = true) ∧
    (let r := someRun 2 0
     readyNode (argsAt r 5 6 0) 0 5 0 2 = some r ∧ argWord (argsAt r 5 6 0) 0 r 0 0 = (.ok 0x50000, argsAt r 5 6 0) ∧
       accBadAt (writeRange (argsAt r 5 6 0) 0 0x50000 (leBytes 8 0x60100)) 0x50000 = true) ∧
    (readyNode (argState (someRun 1 0)) 0 5 0 2 = none ∧ readyNode (argState (someRun 1 0)) 0 5 1 1 = none) := by decide +kernel

theorem witness_GraphNodes :
    (let r := someRun 1 0
     readyNode (argState r) 0 5 0 1 = some r ∧ (8 : Nat) < 2 ^ 32) ∧
    (let r := someRun 1 0
     argWord (argState r) 0 r 0 0 = (.ok 0x60000, argState r) ∧ argWord (argState r) 0 r 0 1 = (.ok 0x60100, argState r) ∧
       argWord (argState r) 0 r 0 2 = (.ok 8, argState r)) ∧
    (∃ bs d, readRange (argState (someRun 1 0)) (0 * 4) 0x60000 8 = (.ok bs, d) ∧
      ∃ u, writeRange d (0 * 4) 0x60100 (copyBytes d 0x60000 0x60100 8 bs) = (.ok (), u)) ∧
    (let r := someRun 2 0
     readyNode (argState r) 0 5 0 2 = some r ∧ 0x60000 % 8 = 0) ∧
    (let r := someRun 2 0
     argWord (argState r) 0 r 0 0 = (.ok 0x60000, argState r) ∧ argWord (argState r) 0 r 0 1 = (.ok 0x60100, argState r) ∧
       ∃ u, writeRange (argState r) (0 * 4) 0x60000 (leBytes 8 0x60100) = (.ok (), u)) ∧
    (readyNode (argState (someRun 3 0)) 0 5 0 3 = some (someRun 3 0)) ∧
    (readyNode (argState (loopRun 2)) 0 5 1 4 = some (loopRun 2) ∧ inBody (loopRun 2).l 1 1 = false ∧
      ((loopRun 2).node 1).loops + 1 < loopMax (loopRun 2).l 1 ∧ ¬ ((loopRun 1).node 1).loops + 1 < loopMax (loopRun 1).l 1) ∧
    (argWord (argState (loopRun 2)) 0 (loopRun 2) 1 0 = (.ok 0x60000, argState (loopRun 2))) ∧
    (let r := { someRun 1 0 with args := 0x50000 }
     readyNode (argState r) 0 5 0 1 = some r) ∧
    (let r := { someRun 1 0 with args := 0x50000 }
     ∃ e a, argWord (argState r) 0 r 0 0 = (.bad e 0x50000, a)) ∧
    (let r := { someRun 1 0 with nodes := [(0, { RunNode.reset with done := [0] })] }
     runOf (argState r) 0 5 = some r ∧ r.over = true ∧ doneWaits (argState r) 0 r.caddr = false) := by
  refine ⟨by decide +kernel, by decide +kernel, ⟨_, _, rfl, _, rfl⟩, by decide +kernel, ⟨by decide +kernel, by decide +kernel, _, rfl⟩, by decide +kernel, by decide +kernel, by decide +kernel, by decide +kernel, bad_of (by decide +kernel), by decide +kernel⟩

theorem witness_HostAndService :
    (hostReaches State.reset 3 ∧ 0x5015 % 8 ≠ 0) ∧
    ((2 ^ 39 - 8) + 8 ≤ 2 ^ 39 ∧ (State.reset.pkg 0).safe = false ∧ gate State.reset ⟨0, 2 ^ 39 - 8, 0, 0, 0⟩ = .go ∧ State.reset.errs = []) ∧
    ((State.reset.pkg 0).starting = none ∧ (State.reset.pkg 0).thermal = false ∧ (4 : BitVec 3).toNat ≤ 4 ∧ 7 ≤ 7) ∧
    (portUp State.reset 0 15 = false ∧ portUp (linkUp State.reset) 0 0 = true ∧ (measurement State.reset 0 4).isSome = true ∧
      (sensor State.reset 0 4).isSome = true) ∧
    (let k := (State.reset.modPkg 0 (fun k => { k with sresn := 2 ^ 24 })).pkg 0
     k.safe = true ∧ (0x18 : Nat) ≠ 0x10 ∧ (4 : Nat) ≠ 8) ∧
    (∀ m ∈ [none, some true, some false], ({ pkg := 0, msg := m } : SvcCmd).msg = m) ∧
    (1 % 4 ≠ 2 % 4 ∧ (fldN (State.reset.die 1).flogp 0 8 + 1) % 256 ≠ fldN (State.reset.die 1).flogp 8 8) ∧
    (∀ (img key sig : List (BitVec 8)) (ver : BitVec 16),
      (Config.sm3 key = Config.fusedKeyHash ∧ Config.sm2Verify key (Config.sm3 img) sig = true ∧ Config.fusedMinVersion.toNat ≤ ver.toNat) ∨
      (Config.sm3 key ≠ Config.fusedKeyHash ∨ Config.sm2Verify key (Config.sm3 img) sig = false ∨ ver.toNat < Config.fusedMinVersion.toNat)) := by
  refine ⟨⟨⟨by decide, by decide⟩, by decide⟩, by decide, by decide, by decide, by decide, by decide, by decide, fun img key sig ver => ?_⟩
  by_cases h1 : Config.sm3 key = Config.fusedKeyHash
  · cases h2 : Config.sm2Verify key (Config.sm3 img) sig
    · exact .inr (.inr (.inl rfl))
    · by_cases h3 : Config.fusedMinVersion.toNat ≤ ver.toNat
      · exact .inl ⟨h1, rfl, h3⟩
      · exact .inr (.inr (.inr (Nat.lt_of_not_le h3)))
  · exact .inr (.inl h1)

/-- A package whose sensors have tripped: the host's restart is no order, and a start waits for the service port or a power cycle. -/
theorem witness_HostAndService_tripped :
    let s := State.reset.modPkg 0 (fun k => { k with thermal := true })
    (s.pkg 0).thermal = true ∧ (s.pkg 0).starting = none ∧ (∀ c ∈ [(1 : BitVec 3), 3], c ≠ 0 ∧ c ≠ 2) ∧ (4 : Nat) ≤ 4 := by decide

/-! ## Placed words run -/

/-- MOVI x3, 5 placed after reset: the next step performs it (R88, log 7). -/
theorem test_placed_word_runs : (match step (State.reset.withFetchWord 32 0x38060005) with
    | .next t => t.me.rx 3
    | _ => 0) = 5 := by decide +kernel

/-- A kernel MOVI d3, 5 placed after reset: the next step issues it, and its write is owed (R160, R187, log 7). -/
theorem test_placed_slot_runs : (match step (State.reset.withFetchWord 64 0x300300000000005) with
    | .next t => t.ca.owed.map (·.dst)
    | _ => []) = [.d 3] := by decide +kernel

/-! ## Further witnesses: bundles, frames, homes, verbs, links -/

theorem witness_BundlesOpenAndEnd_stopped :
    (State.reset.modDie 0 (fun v => { v with halt := true })).stopped (dieOf 0) = true ∧ placedState.stopped (dieOf 0) = false := by decide

/-- A task with a frame in page 6, which the tables map. -/
def frameState : State := tabled (State.reset.modCtx 0 (fun c => { c with frame := 0x60000 }))

theorem witness_FaultEntersHandler_record :
    (∃ p t, translateDie frameState (dieOfCtx 0) (BitVec.ofNat 64 ((frameState.ctx 0).frame.toNat + 0x3D0)) 1 = (.ok p, t)) ∧
    ((frameState.ctx 0).frame.toNat + 0x3D0) % 2 ^ 16 + 32 ≤ 2 ^ 16 ∧ (∀ e ∈ frameState.dies, e.2.hotcfg = 0) ∧
    (∀ f ∈ [Flt.mk0 0 0, Flt.mk0 0x1F 0, Flt.mk0 0x20 0, ⟨0x73, 3, 2 ^ 64 - 1, 2 ^ 64 - 1, 2 ^ 16 - 1⟩, Flt.mk0 0xFF 0],
      f.code < 2 ^ 8 ∧ f.ak < 4 ∧ f.unit < 2 ^ 16 ∧ f.addr < 2 ^ 64 ∧ f.detail < 2 ^ 64) :=
  ⟨acc_of (by decide +kernel), by decide, by decide, by decide⟩

/-- A class E slot that names x31, which is leased or is not. -/
theorem witness_LeasedRegisterFaults_ready :
    let is := { openIssue [] 0 with words := [0, 0, 0, cpWord (.aadd g0 31 2 0 0 0)] }
    decodeCp (is.words.getD 3 0) = .ok (.aadd g0 31 2 0 0 0) ∧ commandRegs (.aadd g0 31 2 0 0 0) = some (g0, [31, 4, 5]) ∧ 3 ∈ is.todo ∧
      is.guardOk g0 = true ∧ bit (leasedState.ctx 0).lease 31 = false ∧
      bit ((leasedState.modMe (fun c => { c with lease := 0x80000000 })).ctx 0).lease 31 = true := by decide

/-- R141: the new words of the SRF atomics at the ends of their ranges; a compare that fails, a NaN that is canonical. -/
theorem test_windowNew : windowNew 2 0xFFFFFFFF 2 0 = 1 ∧ windowNew 4 0x80000000 1 0 = 0x80000000 ∧ windowNew 5 0x80000000 1 0 = 1 ∧
    windowNew 7 5 9 5 = 9 ∧ windowNew 7 5 9 4 = 5 ∧ windowNew 3 0x3F800000 0x3F800000 0 = 0x40000000 := by decide +kernel

/-- The migration holds page 0, where the region lies, or page 1, where the queue lies. -/
def heldHot (old : Nat) (blk : Nat) : State :=
  let s := (hotState emptyQueue 4 true).modDie 1 (fun v => { v with hot := [(blk, some 4)] })
  s.modPkg 0 (fun k => { k with mig := { Mig.reset with st := .finalising, old := old, new := 9 } })

theorem witness_HomePerformsRequests_held :
    (hotClass 0 1 = some 0 ∧ bit ((heldHot 0 2).die 1).hotcfg 0 = true ∧ (Tab.get none ((heldHot 0 2).die 1).hot 1).isSome = false ∧
      gate (heldHot 0 2) (hotPlace (heldHot 0 2) 1 1) ≠ .go) ∧
    (Tab.get none ((heldHot 1 1).die 1).hot 1 = some 4 ∧ gate (heldHot 1 1) (queuePlaceOf 1 0x10000) ≠ .go ∧
      bit ((heldHot 1 1).die 1).hotq 0 = true ∧ fldN (hotWord (heldHot 1 1) 1 1) 0 16 + 1 = fldN ((heldHot 1 1).die 1).hotcfg 32 16) ∧
    (Tab.get none ((hotState [] 4 true).die 1).hot 1 = some 4 ∧ gate (hotState [] 4 true) (queuePlaceOf 1 0x10000) = .go ∧
      gate (hotState [] 4 true) (hotPlace (hotState [] 4 true) 1 2) = .go) := by decide +kernel

theorem witness_VerbsAccepted_x0 :
    (slotRuns (verbRegs 0 0 0 0) g0 [0, 4] ∧ slotRuns (verbRegs 0 0 0 0) g0 [31, 4] ∧ slotRuns (verbRegs 0x10000 0 0 0) g0 (0 :: regRun 4 4)) :=
  ⟨data_runs _ _ _ _ (by decide) (by decide), data_runs _ _ _ _ (by decide) (by decide), data_runs _ _ _ _ (by decide) (by decide)⟩

/-- A LAMO to the target's word, with a load of its context from the word's line that came before it, or after it. -/
theorem witness_VerbEvents_order :
    let v := someVerb (.lamo 0 4) 0 0 0
    let q := homeReq (.load 3 8 false) 0x20000 0 none
    ∀ r ∈ [2, 5], let s := (verbState v).setReq r (some q)
      s.verb 3 = some v ∧ v.kind.moves = false ∧ v.vps = [⟨0, 0x20000, 1, 0, 0⟩] ∧ s.req r = some q ∧ q.x = v.x ∧ q.ans = none ∧
        (⟨0, 0x20000, 1, 0, 0⟩ : Place).onLine q.place = true ∧ v.busy = true ∧ v.op < 2 ^ (8 * 4) := by decide

/-- A GET that has ended wrote its local range in package 0's memory. -/
theorem witness_VerbEvents_spans :
    let v := { someVerb .get 1 64 0 with performed := true }
    (verbState v).verb 3 = some v ∧ v.busy = false ∧ (∃ r ∈ v.spans, 0 < r.2.1 ∧ (placeIn r.2.2 r.1 r.1).pkg = pkgOfCtx v.x ∧
      (placeIn r.2.2 r.1 r.1).pl ≠ 2) ∧ (State.reset.stopped (dieOfCtx 0)) = false := by decide

/-- Nothing waits at the dies of package 0, or one counted request does at die 1. -/
theorem witness_LinkAndMigrationEvents_jobs :
    ((∀ i < 4, ((migState .moved 1024 []).die (0 * 4 + i)).hotJobs = []) ∧ (∀ i < 4, ((migState .finalising 1024 []).die (0 * 4 + i)).hotJobs = [])) ∧
    (let s := (migState .moved 1024 []).modDie 1 (fun v => { v with hotJobs := [.touch 0 0x10000] })
     pkgOfDie 1 = 0 ∧ (∀ i < 4, (s.die (0 * 4 + i)).hotJobs = if 1 % 4 = i then [.touch 0 0x10000] else []) ∧ (s.pkg 0).mig.st = .moved) ∧
    (hotHeld ((migState .finalising 0 []).modDie 0 (fun v => { v with hotbase := 0x10000 })) 0 = true ∧ hotHeld State.reset 0 = false ∧
      hotHeld ((migState .finalising 0 []).modDie 0 (fun v => { v with hotbase := 0x30000 })) 0 = false ∧
      (((heldHot 1 1).die 1).hot.map (fun p => p.1)).Nodup) := by decide

/-- SWAP while packets of the old generation have not left; LPCFG with a mode of 3, and a mode while the port is up. -/
theorem witness_LinkAndMigrationEvents_registers :
    itOv State.reset 0 = false ∧ itOv drainState 0 = true ∧ hostReaches drainState 0 ∧ fldN (0xFF : BitVec 64) 0 2 = 3 ∧
    bit (lpcfgOf State.reset 0 0) 63 = false ∧ bit (lpcfgOf (linkUp State.reset) 0 0) 63 = true ∧ bit (0x100 : BitVec 64) 8 = true ∧
    bit (lpcfgOf (linkUp State.reset) 0 0) 8 = false := ⟨by decide, by decide, ⟨by decide, by decide⟩, by decide⟩

/-! ## Further witnesses: groups -/

/-- GSTORE to an address that no leaf maps. -/
theorem witness_GroupCommands_gstore :
    slotRuns (groupRegs 1 0x90000 0) g0 [3, 5, 4] ∧ grpBad (groupRegs 1 0x90000 0) 1 true = false ∧ (0x90000 : Word).toNat % 8 = 0 ∧
    sourceFree (groupRegs 1 0x90000 0) 1 ∧ gwR 1 = false ∧
    ∃ t, translationFails (enlistMe (groupRegs 1 0x90000 0) 1) [0x90000] 1 0x86 0x90000 0x10002 t :=
  ⟨group_runs _ _ _ _ (by decide) (by decide), by decide, by decide, rfl, by decide, _, fails_of (by decide) rfl⟩

/-- The stream forms with a group word that is refused, a sealed source entry, and no source entry free. -/
theorem witness_GroupCommands_streams :
    (∀ w ∈ [(0 : Word), 1], slotRuns (groupRegs 0x10000 64 w) g0 [4, 5, 6] ∧ fldN (64 : Word) 0 32 ≤ hCapr h1 ∧ fldN (64 : Word) 0 32 ≤ hCapr h2 ∧
      fldN (64 : Word) 60 4 = 0 ∧ hV ((groupRegs 0x10000 64 w).rh 1) = true ∧ hV ((groupRegs 0x10000 64 w).rh 2) = true ∧ hRsz h2 = 4 ∧
      hRsz h1 % 4 = 0 ∧ ((groupRegs 0x10000 64 w).rxn 4).toNat % 4 = 0 ∧
      grpBad (groupRegs 0x10000 64 w) ((groupRegs 0x10000 64 w).rxn 6) true = decide (w = 0)) ∧
    (let s := (groupRegs 0x10000 64 1).modCore 0 (fun v => { v with srcs := [(3, some { someSrc with sealed := true })] })
     slotRuns s g0 [4, 5, 6] ∧ grpBad s (s.rxn 6) true = false ∧ srcAt s (coreOf s.cur.x) (gwNum (s.rxn 6)) = some (3, { someSrc with sealed := true })) ∧
    (let s := (groupRegs 0x10000 64 1).modCore 0 (fun v => { v with srcs := (List.range 16).map (fun n => (n, some { someSrc with group := 9 })) })
     slotRuns s g0 [4, 5, 6] ∧ grpBad s (s.rxn 6) true = false ∧ srcAt s (coreOf s.cur.x) (gwNum (s.rxn 6)) = none ∧ freeSrc s (coreOf s.cur.x) = none) := by
  refine ⟨fun w h => ?_, ⟨slot_runs_of (openIssue [(4, 0x10000), (5, 64), (6, 1), (33, h1), (34, h2)] 0) (by decide) (by decide) (by decide), by decide⟩,
    ⟨slot_runs_of (openIssue [(4, 0x10000), (5, 64), (6, 1), (33, h1), (34, h2)] 0) (by decide) (by decide) (by decide), by decide⟩⟩
  fin_cases h <;> exact ⟨group_runs _ _ _ _ (by decide) (by decide), by decide⟩

/-- A seal whose count is contradicted, one of nine packages, and a source that has sent to eight; a current group and an older one. -/
theorem witness_GroupStates_seals :
    (let v := someSlot 1 2 [0, 5] [] [0] []
     current (groupState v) 1 = true ∧ 5 ∈ v.enlisted ∧ 5 ∉ v.sealed ∧ (destPkgs [0]).length ≤ 8 ∧ (3 : Nat) ≠ 0 ∧ (3 : Nat) ≠ 4 ∧
       8 < (destPkgs ([0] ++ ((List.range 9).map (· * 132)).filter (fun d => !([0].contains d)))).length ∧ slotOf (groupState v) 1 = v) ∧
    (let e := { someSrc with pkgs := List.range 8 }
     srcAt (srcState (.enlist 0) e) 0 1 = some (3, e) ∧ e.pkgs.length = 8 ∧ 8 ∉ e.pkgs) ∧
    (let v := someSlot 1 2 [0, 5] [] [0] []
     current (groupState v) 1 = true ∧ v.state < 8 ∧ v.why < 16 ∧ v.sealed.length < 256 ∧ v.nsrc < 256 ∧ current (groupState v) 2 = false ∧
       current (groupState { v with done := 4, appl := 4 }) 2 = false ∧ bit ({ v with done := 4, appl := 4 } : GSlot).done (grpGen 2) = true ∧
       bit v.done (grpGen 2) = false) := by
  decide +kernel

/-- A command of each FN about group 1: of its committer, of another task, and about a group that is not current. -/
def commandState (fn : Nat) (arg : Word) (dest : Option Nat) (v : GSlot) : State := pktState (.command fn 0 31 arg dest 0x10000 0x10000 0) v

theorem witness_CommitChannel_commands :
    (∀ fn < 5, let s := commandState fn 1 (some 5) (someSlot 2 1 [0] [0] [] [])
      arrived s 5 = some (somePkt (.command fn 0 31 1 (some 5) 0x10000 0x10000 0)) ∧ s.stopped 0 = false ∧ released s 0 5 = true ∧
        current s 1 = true ∧ isCommitter s 1 0 = true) ∧
    (∀ fn < 4, let s := commandState fn 1 (some 5) { someSlot 2 1 [0] [0] [] [] with comFb := 0x60000 }
      arrived s 5 = some (somePkt (.command fn 0 31 1 (some 5) 0x10000 0x10000 0)) ∧ released s 0 5 = true ∧ current s 1 = true ∧
        isCommitter s 1 0 = false) ∧
    (∀ fn < 5, let s := commandState fn 1 none GSlot.reset
      arrived s 5 = some (somePkt (.command fn 0 31 1 none 0x10000 0x10000 0)) ∧ released s 0 5 = true ∧ current s 1 = false) ∧
    (∀ st ∈ [1, 2], (someSlot st 1 [0] [0] [] []).state = st) := by decide

/-- The originator's die is stopped. -/
theorem witness_CommitChannel_stopped :
    let s := (pktState (.enlist 9) (someSlot 1 1 [] [] [] [])).modDie 0 (fun v => { v with halt := true })
    arrived s 5 = some (somePkt (.enlist 9)) ∧ ¬ s.stopped (somePkt (.enlist 9)).to_ = false := by decide

/-- Two scatter-additions of each format to one place, and bytes that a paddock holds. -/
theorem witness_CommitChannel_held :
    (∀ fmt < 4, let h : Held := ⟨0, 0, 1 + fmt, 0x10000, List.replicate (eszOf fmt) 1⟩
     let v := { someShed false with held := [h, { h with key := 1 }] }
     let s := { shedState 5 (.query 0) false with sheds := [(5, [v])] }
     shedGroup s 5 1 = some v ∧ s.errs = [] ∧ isPaddock 5 = false ∧ ∀ e ∈ v.held, e.kind = 1 + fmt ∧ e.pa = 0x10000 ∧ e.data.length = eszOf fmt) ∧
    (let s := (shedState 32 (.query 0) false).modPkg 0 (fun k => { k with padq := [(1, 4, 0)] })
     (s.pkg 0).padq = (1, 4, 0) :: [] ∧ ringFull (s.pkg 0) = false ∧ shedGroup s (0 * 132 + 32) 1 = some (someShed false) ∧ s.errs = [] ∧
       bit (s.pkg 0).padcq 63 = false ∧ (∀ e ∈ (someShed false).held, e = someHeld) ∧ someHeld.kind = 0) := by decide

/-- GWAIT x0, x4 for group 1. -/
theorem witness_CommitChannel_gwait :
    let s := (gwaitState 4).modIssue 0 (fun is => { is with words := [0, 0, 0, cpWord (.gwait g0 0 4)] })
    let w := cpWord (.gwait g0 0 4)
    (s.ctx 0).issue.map (fun is => (is.words.getD 3 0, is.gwait, gwNum (is.rx 3 (en2 w)))) = some (w, true, 1) ∧ s.stopped (dieOfCtx 0) = false ∧
      s.stopped (grpDie 1) = false ∧ fldN (stateWord s 1) 61 3 = 4 ∧ bit (stateWord s 1) 60 = true ∧ pkgOfCtx 0 = pkgOf (grpCore 1) ∧ en1 w = 0 := by
  decide

/-! ## Further witnesses: the cluster array, entries, translation -/

/-- R188, R190, R194, R202: NaN and zero codes, and a value at each end of FP32. -/
theorem test_float_picks :
    (decodeNum Fmt.fp32 0x7F800001 = .nan ∧ decodeNum Fmt.fp32 0x80000000 = .fin true 0 (-149) ∧ decodeNum Fmt.fp32 0xFF800000 = .inf true) ∧
    (fcmpTest 0 0 0x80000000 = true ∧ fcmpTest 1 0x80000000 0 = false ∧ fcmpTest 2 0xFF800000 0x00000001 = true ∧
      fcmpTest 0 0x7F800001 0x7F800001 = false ∧ fcmpTest 3 0x7F800001 0 = true) ∧
    (fmin Fmt.fp32 0 0x80000000 = 0x80000000 ∧ fmax Fmt.fp32 0x80000000 0 = 0 ∧ fmin Fmt.fp32 0x7F800001 5 = 5 ∧
      fmax Fmt.fp32 0x7F800001 0xFFFFFFFF = 0x7FC00000 ∧ fmin Fmt.fp16 0x3C00 0xFC00 = 0xFC00) ∧
    (fabs 0x80000001 = 1 ∧ fneg 0 = 0x80000000 ∧ fabs 0xFFFFFFFF = 0x7FC00000 ∧ divScale 0x7F800000 = 0 ∧ divScale 0x80000000 = 0x7F800000 ∧
      divScale 0x40400000 = 0x3F000000) := by decide +kernel

/-- Port 0 of an array in whose yard a stall of one granule has a guard on each side. -/
def guardState : State := (kernelState 0).modCore 0 (fun v => { v with stalls := [⟨3, 1, 8, 0, 0, 0, 0⟩] })

theorem witness_KernelMoveResults_ports :
    (portWord guardState (2 * 64) = .guard ∧ portWord guardState (3 * 64) = .stall ∧ portWord guardState (4 * 64 - 4) = .stall ∧
      portWord guardState (4 * 64) = .guard ∧ portWord guardState (5 * 64) = .stall ∧ portWord guardState (2 ^ 18) = .free) ∧
    capg guardState 0 = 4096 ∧ (List.range 4).filter (fun w => portWord guardState (4 * 64 - 8 + 4 * w) = .guard) = [2, 3] ∧
    actOf guardState.ca g0 = 0 :: (List.range 16).drop 1 ∧ guardState.ca.inv = some (someInv (some someBundle)) := by decide +kernel

/-- R152, R199, R202: a cursor at its end, the first touch, and the tree of a sum in which two clusters take part. -/
theorem test_port_steps :
    (let s := modInv guardState 0 (fun v => { v with ports := [⟨1, 0, 0, 2 ^ 32 - 4, false, 0⟩] })
     ((stepPort [0] 0 16 true s).ca.port 0).cursor = 12 ∧ ((stepPort [0] 0 16 true s).ca.port 0).first = true) ∧
    ((noteTouches [5, 9] (4 * 64 - 8) 4 guardState).ca.inv.map (fun v => (v.touches, v.touch.map (fun t => (t.1, t.2.1))))) = some (2, some (5, 256)) ∧
    reduce (fun a b => 10 * a + b) ((List.range 16).map (fun c => if c = 3 then some 1 else if c = 12 then some 2 else none)) = 12 := by
  decide +kernel

/-- A KRUN whose invocation was ended while another one runs, and one with metadata and a touch to report. -/
theorem witness_EntriesAndInvocations_other :
    (let e := { someEntry krunWord [(1, 2 ^ 16)] [] [] .started with stop := true, badMeta := some (3, 9) }
     let s := (entryState e 0).modCore 0 (fun c => { c with ca := { c.ca with inv := some { someInv none with slot := 7, touch := some (2, 64, 5) } } })
     s.entry 0 4 = some e ∧ entryComplete s 0 4 e = true ∧ (s.core 0).ca.inv.map (·.slot) = some 7 ∧ e.badMeta = some (3, 9)) ∧
    (let v := { someInv none with phase := .start, reload := true }
     areaWaits (invState v none) 0 v.frame = false ∧ (invState v none).errs = [] ∧ ((invState v none).core 0).ca.inv = some v) ∧
    (let e := someEntry krunWord [(1, 2 ^ 16)] [] [] .ready
     tilesWait (entryState e 0) 0 0 = false ∧ (entryState e 0).errs = []) := by decide +kernel

/-- The save area of a kernel that was stopped holds a word that cannot be corrected. -/
theorem witness_EntriesAndInvocations_area :
    let v := { someInv none with phase := .start, reload := true, frame := 0x60000 }
    let s := { fillState.modCore 0 (fun c => { c with ca := { c.ca with inv := some v } }) with errs := [⟨.hbm, 0x100004, true⟩] }
    v.phase = .start ∧ v.reload = true ∧ areaWaits s 0 v.frame = false ∧ s.errs ≠ [] ∧ (areaCheck s 0 v.frame [(0, 2 ^ 16)]).2.isSome = true := by
  decide +kernel

/-- Scatter-adds and row updates whose index is the table's length, and an Adagrad step's operands. -/
theorem witness_EntriesMoveData_range :
    (let e := { rowEntry sscaddWord with idx := [(0, some 1)] }
     running (entryState e 0) 0 4 = some e ∧ opOf e.word = 0x1F ∧ subOf e.word = 0 ∧ e.resume < e.count ∧ e.tagOk = true ∧
       Tab.get none e.idx e.resume = some 1 ∧ fldN e.ctl 32 30 ≤ 1 ∧ e.done = []) ∧
    (let e := { rowEntry srowupdWord with idx := [(0, some 1)] }
     running (entryState e 0) 0 4 = some e ∧ opOf e.word = 0x1F ∧ subOf e.word = 1 ∧ e.resume < e.count ∧ e.tagOk = true ∧
       Tab.get none e.idx e.resume = some 1 ∧ fldN e.ctl 32 30 ≤ 1 ∧ e.done = []) ∧
    decodeNum Fmt.fp32 0x00000001 = .fin false 1 (-149) ∧ decodeNum Fmt.fp32 0x7F7FFFFF = .fin false 0xFFFFFF 104 :=
  ⟨by decide, by decide, by decide, by decide⟩

/-- R265: one Adagrad step with S 0, lr 1, g 1 and eps 1 takes a half from W. -/
theorem test_adagrad : optimise 2 0 0x3F800000 0x3F800000 0x3F800000 0 0x3F800000 = (0x3F000000, 0x3F800000) := by decide +kernel

/-- A miss whose page the TLB holds by now, and migrations that hold the queues. -/
theorem witness_TranslationEvents_misses :
    (let s := (mapped State.reset).modCore 0 (fun k => { k with misses := [(4, 1), (5, 1)] })
     (tlbHit (s.core 0).tlb 1).isSome = true ∧ doneWalk s 0 [(4, 1)] = none ∧ okOf (translateFor s 0 (some 4) [] 0x10000 0) = true) ∧
    (gate upcallState (regionPlace upcallState 0 3) = .go ∧ gate upcallState (queuePlaceOf 0 0x140000) = .go) ∧
    (gate answerState (queuePlaceOf 0 0x10000) = .go ∧ fldN (answerState.die 0).resq 8 36 * 2 ^ 8 = 0x10000 ∧
      gate (answerState.modPkg 0 (fun k => { k with mig := { Mig.reset with st := .finalising, old := 1, new := 2 } })) (queuePlaceOf 0 0x10000) ≠ .go) := by
  decide +kernel

theorem witness_TranslationEvents_fails :
    bit ((0xB900000000000006 : Word)) 60 = true ∧ (permFault 0 0 = 0x82) ∧ (gate badPage (leafPlace 0 freshLeaf 0x30000) = .go) := by decide

/-! ## Further witnesses: dispatch and service -/

/-- A RUN and an UNLOAD of a handle that holds no package. -/
theorem witness_LaunchRing_unloaded :
    ∀ kind ∈ [2, 3], (nextRecord (ring kind [] none) 0).map (fun r => (lrKind r, lrBad r, Tab.get none ((ring kind [] none).pkg 0).loaded (lrPh r))) =
      some (kind, none, none) ∧ (ring kind [] none).errs = [] ∧ gate (ring kind [] none) (ringPlace (ring kind [] none) 0) = .go ∧
      countHome (ring kind [] none) 0 (ringPlace (ring kind [] none) 0) = ring kind [] none := by decide +kernel

/-- A saved task comes back on core 1; its old core holds a tile of it, or is frozen. -/
theorem witness_Tasks_leave :
    (let s := savedState.modCore 0 (fun k => { k with ca := { k.ca with tiles := [(2, { k.ca.tile 2 with v := true, own := ownOf 0x60000 })] } })
     (s.pkg 0).saved[0]? = some (someSaved 1) ∧ coreOf 4 ≠ (someSaved 1).core ∧ (someSaved 1).frame ≠ 0 ∧ ((s.core 0).ca.tile 2).own = ownOf 0x60000 ∧
       ∀ t < 8, ¬ (((s.core 0).ca.tile t).v = true ∧ ((s.core 0).ca.tile t).d = true)) ∧
    (let s := savedState.modDie 0 (fun v => { v with halt := true })
     s.stopped (dieOf (someSaved 1).core) = true ∧ (s.pkg 0).saved[0]? = some (someSaved 1)) := by decide +kernel

/-- Contexts 0 to 3 hold tasks of the PRIO of the task that waits. -/
def evenState : State :=
  { [0, 1, 2, 3].foldl (fun s x => s.setCtx x { Ctx.reset with task := some (someTask 1) })
    ((State.reset.modDie 0 (fun v => { v with dquant := 1 })).modPkg 0 (fun k => { k with saved := [someSaved 1] })) with now := 1024 }

theorem even_idle : (ctxsOf 0).all (fun y => !idle evenState y || !(readyWants evenState 0 (coreOf y)).contains ⟨2, 0, 0, 0⟩) = true := by decide +kernel

theorem witness_Tasks_quantum :
    (evenState.ctx 0).task = some (someTask 1) ∧ (evenState.ctx 0).kill = none ∧ (evenState.ctx 0).save = none ∧
    fldN (evenState.die 0).dquant 0 32 ≠ 0 ∧ fldN (evenState.die 0).dquant 0 32 * 1024 ≤ evenState.cycles 0 - (someTask 1).start ∧
    wants evenState 0 0 = [⟨2, 0, 0, 0⟩] ∧ (⟨2, 0, 0, 0⟩ : Want).low = 3 - (someTask 1).prio ∧
    (wants State.reset 0 0 = [] ∧ readyWants State.reset 0 0 = []) := by decide +kernel

/-- A watchdog's start while a die is held, and another cause. -/
theorem witness_HostAndService_held :
    let s := State.reset.modDie 0 (fun v => { v with halt := true })
    dhold s 0 = true ∧ (s.pkg 0).starting = none ∧ (s.pkg 0).thermal = false ∧ (3 : BitVec 3) = 3 ∧ (1 : BitVec 3) ≠ 3 := by decide

end Sys2Proof.Tests
end

/-! PROOFS. Fields of words, reads after writes of memory, and soft errors: what the statements about registers and memory rest on. -/

namespace Sys2Proof.Machine

/-! ## Fields of words -/

theorem fldN_eq {w : Nat} (v : BitVec w) (lo n : Nat) : fldN v lo n = v.toNat / 2 ^ lo % 2 ^ n := by
  simp [fldN, BitVec.extractLsb'_toNat, Nat.shiftRight_eq_div_pow]

theorem fldN_ofNat (w m lo n : Nat) : fldN (BitVec.ofNat w m) lo n = m % 2 ^ w / 2 ^ lo % 2 ^ n := by
  rw [fldN_eq, BitVec.toNat_ofNat]

theorem bit_eq {w : Nat} (v : BitVec w) (i : Nat) : bit v i = decide (v.toNat / 2 ^ i % 2 = 1) := by
  rw [bit, ← BitVec.testBit_toNat, Nat.testBit_eq_decide_div_mod_eq]

/-- A field of n bits is those n bits. -/
theorem fldN_congr {w w' : Nat} {a : BitVec w} {b : BitVec w'} {lo n : Nat} (h : ∀ i < n, bit a (lo + i) = bit b (lo + i)) :
    fldN a lo n = fldN b lo n := by
  refine congrArg BitVec.toNat (BitVec.eq_of_getLsbD_eq fun i hi => ?_)
  simpa [hi, bit] using h i hi

/-- The word with ones in bits lo to lo + n - 1. -/
def fieldMask (lo n : Nat) : Word := BitVec.ofNat 64 ((2 ^ n - 1) * 2 ^ lo)

/-- What a write keeps of a field is the word under the field's mask. -/
theorem keep_eq_and (v : Word) (lo n : Nat) : keep v lo n = v &&& fieldMask lo n := by
  refine BitVec.eq_of_getLsbD_eq fun i hi => ?_
  simp only [keep, fldN, fieldMask, BitVec.getLsbD_and, BitVec.getLsbD_ofNat, Nat.testBit_mul_two_pow, hi, decide_true, Bool.true_and,
    Nat.testBit_two_pow_sub_one, BitVec.testBit_toNat, BitVec.getLsbD_extractLsb']
  by_cases h : lo ≤ i
  · simp [h, Bool.and_comm]
  · simp [h]

/-- Two fields are kept under the union of their masks. -/
theorem keep_or_keep (v : Word) (a m b n : Nat) : keep v a m ||| keep v b n = v &&& (fieldMask a m ||| fieldMask b n) := by
  rw [keep_eq_and, keep_eq_and, BitVec.and_or_distrib_left]

theorem bit_keep (v : Word) (lo n i : Nat) : bit (keep v lo n) i = (bit v i && decide (lo ≤ i ∧ i < lo + n)) := by
  by_cases hi : i < 64
  · simp only [keep_eq_and, bit, fieldMask, BitVec.getLsbD_and, BitVec.getLsbD_ofNat, Nat.testBit_mul_two_pow, hi, decide_true,
      Bool.true_and, Nat.testBit_two_pow_sub_one]
    by_cases h : lo ≤ i
    · simp [h, show (i - lo < n) ↔ (i < lo + n) by omega]
    · simp [h]
  · simp [bit, BitVec.getLsbD_of_ge _ _ (Nat.le_of_not_lt hi)]

@[simp] theorem bit_or (a b : Word) (i : Nat) : bit (a ||| b) i = (bit a i || bit b i) := BitVec.getLsbD_or
@[simp] theorem bit_zero (i : Nat) : bit (0 : Word) i = false := BitVec.getLsbD_zero

/-! ## Tables, bytes and memory -/

/-- An index that a filter keeps no entry of holds the default. -/
theorem Tab.get_filter_dropped {α : Type} (d : α) (t : Tab α) (f : Nat × α → Bool) (k : Nat) (h : ∀ v, f (k, v) = false) :
    Tab.get d (t.filter f) k = d := by
  induction t with
  | nil => rfl
  | cons e t ih =>
    obtain ⟨i, v⟩ := e
    by_cases hf : f (i, v) = true
    · have hi : i ≠ k := by rintro rfl; simp [h v] at hf
      simp [hf, Tab.get, hi, ih]
    · simp [hf, ih]

@[simp] theorem length_leBytes (n v : Nat) : (leBytes n v).length = n := by
  induction n generalizing v with
  | zero => rfl
  | succ n ih => simp [leBytes, ih]

/-- Bytes that are written read back. -/
theorem Memory.read_write_same (bs : List Byte) (m : Memory) (a : Nat) : Memory.read (Memory.write m a bs) a bs.length = bs := by
  induction bs generalizing m a with
  | nil => rfl
  | cons b bs ih =>
    have hb : (Memory.write m a (b :: bs)).get a = b := Memory.get_write_inside (b :: bs) m a 0 (by simp)
    rw [List.length_cons, Memory.read, hb, Memory.write, ih]

theorem writePhys_host (s : State) (p pa : Nat) (bs : List Byte) : (s.writePhys p false pa bs).host = s.host := by
  unfold State.writePhys
  split
  · rfl
  · simp only [Bool.false_eq_true, if_false]
    split <;> rfl

theorem writePhys_mem (s : State) (p pa : Nat) (bs : List Byte) :
    (s.writePhys p false pa bs).mem = if installed false pa bs.length then Memory.write s.mem (memKey p pa) bs else s.mem := by
  unfold State.writePhys
  by_cases h : installed false pa bs.length = true
  · simp only [h, Bool.not_true, Bool.false_eq_true, if_false, if_true]
    split <;> rfl
  · simp [h]

/-- Bytes that a home writes read back where memory is installed. -/
theorem writePhys_readsBack (s : State) (p pa : Nat) (bs : List Byte) : readsBack s (s.writePhys p false pa bs) p false pa bs := by
  unfold readsBack State.readBytes
  by_cases h : installed false pa bs.length = true
  · simp [h, writePhys_mem, Memory.read_write_same]
  · simp [h]

/-- A home's write of device memory leaves host memory and every other byte of device memory alone. -/
theorem readByte_writePhys_other (s : State) (p pa : Nat) (bs : List Byte) (q a : Nat) (h : Bool)
    (hout : h = true ∨ memKey q a < memKey p pa ∨ memKey p pa + bs.length ≤ memKey q a) :
    readByte (s.writePhys p false pa bs) q h a = readByte s q h a := by
  cases h with
  | true => simp [readByte, State.readPhys, State.readBytes, writePhys_host]
  | false =>
    have hget : (s.writePhys p false pa bs).mem.get (memKey q a) = s.mem.get (memKey q a) := by
      rw [writePhys_mem]
      split
      · exact Memory.get_write_outside bs _ _ _ (by simpa using hout)
      · rfl
    simp [readByte, State.readPhys, State.readBytes, Memory.read, hget]

/-- Memory reads as before where neither table of it has changed. -/
theorem sameMemory_of_eq {s t : State} (hm : t.mem = s.mem) (hh : t.host = s.host) : sameMemory s t := by
  intro p host pa
  simp [readByte, State.readPhys, State.readBytes, hm, hh]

/-! ## Reads where no stored word is in error -/

theorem checkRead_of_no_errs {s : State} (h : s.errs = []) (d : Nat) (p : Storage) (key n : Nat) : checkRead s d p key n = (s, none) := by
  have hc : correct s d p key n = s := by simp [correct, h]
  simp [checkRead, hc, uncorrectable, h]

theorem checkHome_of_no_errs {s : State} (h : s.errs = []) (p : Place) (n : Nat) : checkHome s p n = (s, none) := by
  simp [checkHome, checkRead_of_no_errs h]

theorem checkHomes_of_no_errs {s : State} (h : s.errs = []) (rs : List (Place × Nat)) : checkHomes s rs = (s, none) := by
  induction rs with
  | nil => rfl
  | cons r rs ih => simp [checkHomes, checkHome_of_no_errs h, ih]

theorem readDie_of_no_errs {s : State} (h : s.errs = []) (rs : List (Place × Nat)) (bad k : State → State) :
    readDie s rs bad k = k s := by
  simp [readDie, checkHomes_of_no_errs h]

end Sys2Proof.Machine

/-! PROOFS. Registers through BAR0 and what the service processor does (R382 to R391). -/

namespace Sys2Proof.Machine

/-! ## Registers through BAR0 -/

theorem regWrite_of_not_barOk (s : State) (d : Nat) {off n : Nat} (v : Word) (h : barOk off n = false) : regWrite s d off n v = s := by
  simp [regWrite, h]

theorem regRead_of_not_barOk (s : State) (d : Nat) {off n : Nat} (h : barOk off n = false) : regRead s d off n = 0 := by
  simp [regRead, h]

/-- In the safe state a write does nothing, except to SCTL (R390). -/
theorem regWrite_of_safe {s : State} {d off : Nat} (n : Nat) (v : Word) (h : (s.pkg (pkgOfDie d)).safe = true) (hoff : off ≠ 0x10) :
    regWrite s d off n v = s := by
  simp [regWrite, hoff, hostWrite, h]

/-- In the safe state only die 0's offsets 0x00 to 0x17 respond (R390). -/
theorem regRead_of_safe {s : State} {d off : Nat} (n : Nat) (h : (s.pkg (pkgOfDie d)).safe = true) (hoff : d % 4 ≠ 0 ∨ 0x18 ≤ off) :
    regRead s d off n = 0 := by
  have hout : (d % 4 = 0 && off < 0x18) = false := by
    simp only [Bool.and_eq_false_iff, decide_eq_false_iff_not]; omega
  simp [regRead, h, hout]

/-- A write that reaches a register of each die acts on that die. -/
theorem regWrite_die {s : State} {d off : Nat} (v : Word) (hr : hostReaches s d) (hok : barOk off 8 = true) (hz : dieZero off = false) :
    regWrite s d off 8 v = dieWrite s d off v := by
  have hne : off ≠ 0x10 := by rintro rfl; simp [dieZero] at hz
  simp [regWrite, hok, hne, hostWrite, hr.1, hr.2, hz]

theorem regRead_die {s : State} {d off : Nat} (hs : (s.pkg (pkgOfDie d)).safe = false) (hok : barOk off 8 = true)
    (hz : dieZero off = false) : regRead s d off 8 = dieRead s d off := by
  simp [regRead, hok, hs, hz]

/-- A register that each die has, and that reads as a field of the die, reads back what its write left there. -/
theorem registerWrite_reads {s : State} {d off : Nat} {v w : Word} {k : Die} (field : Die → Word) (hr : hostReaches s d)
    (hok : barOk off 8 = true) (hz : dieZero off = false) (hread : ∀ t, dieRead t d off = field (t.die d))
    (hwrite : dieWrite s d off v = s.setDie d k) (hk : field k = w) :
    ∃ t, exec (.registerWrite d ⟨off, 8⟩ v) s = .next t ∧ regRead t d off 8 = w := by
  refine ⟨s.setDie d k, ?_, ?_⟩
  · rw [exec_registerWrite, execRegisterWrite, regWrite_die v hr hok hz, hwrite]
  · rw [regRead_die (s := s.setDie d k) hr.1 hok hz, hread, State.die_setDie_same, hk]

/-- The registers of each die whose fields are plain, with the bits that a write takes (R383). -/
theorem registerWrite_plain {s : State} {d : Nat} (v : Word) (hr : hostReaches s d) :
    ∀ r ∈ [(0x20, 0xFFFFFFFFFFFFFFFF), (0x1010, 0x80000FFFFFFFF800), (0x1018, 0x00000FFFFFFFFF01), (0x2000, 0x0000FFFF0000000F),
        (0x2008, 0x00000FFFFFFFFF01), (0x2010, 0x00000FFFFFFF0000), (0x3010, 0xFFFFFFFF), (0x3018, 0xFFFFFFFFFFFFFFFF),
        (0x4000, 0xFFFFFFFF), (0x5010, 0xFFFFFFFF)],
      ∃ t, exec (.registerWrite d ⟨r.1, 8⟩ v) s = .next t ∧ regRead t d r.1 8 = v &&& r.2 := by
  have hall : v = v &&& 0xFFFFFFFFFFFFFFFF := (BitVec.and_allOnes (x := v)).symm
  simp only [List.forall_mem_cons, List.not_mem_nil, false_implies, implies_true, and_true]
  exact ⟨registerWrite_reads Die.cecnt hr rfl rfl (fun _ => rfl) rfl hall,
    registerWrite_reads Die.pgrbase hr rfl rfl (fun _ => rfl) rfl (keep_or_keep v 63 1 11 33),
    registerWrite_reads Die.resq hr rfl rfl (fun _ => rfl) rfl (keep_or_keep v 8 36 0 1),
    registerWrite_reads Die.hotcfg hr rfl rfl (fun _ => rfl) rfl (keep_or_keep v 32 16 0 4),
    registerWrite_reads Die.hotq hr rfl rfl (fun _ => rfl) rfl (keep_or_keep v 8 36 0 1),
    registerWrite_reads Die.hotbase hr rfl rfl (fun _ => rfl) rfl (keep_eq_and v 16 28),
    registerWrite_reads Die.lto hr rfl rfl (fun _ => rfl) rfl (keep_eq_and v 0 32),
    registerWrite_reads Die.lsreq hr rfl rfl (fun _ => rfl) rfl hall,
    registerWrite_reads Die.celease hr rfl rfl (fun _ => rfl) rfl (keep_eq_and v 0 32),
    registerWrite_reads Die.dquant hr rfl rfl (fun _ => rfl) rfl (keep_eq_and v 0 32)⟩

/-- TBASE takes V and ROOT as they are written (R278). -/
theorem tbaseValue_fields (v : Word) : bit (tbaseValue v) 63 = bit v 63 ∧ fldN (tbaseValue v) 16 28 = fldN v 16 28 := by
  have hroot : ∀ i, (16 ≤ i ∧ i < 44) ∨ i = 63 → bit (tbaseValue v) i = bit v i := by
    intro i hi
    have h15 : bit (if bit v 15 then 0 else keep v 14 1) i = false := by
      split
      · exact bit_zero i
      · simp only [bit_keep, Bool.and_eq_false_iff, decide_eq_false_iff_not]; omega
    simp only [tbaseValue, bit_or, bit_keep, h15]
    rcases hi with hi | rfl
    · simp [show ¬ (63 ≤ i ∧ i < 63 + 1) by omega, show 16 ≤ i ∧ i < 16 + 28 by omega, show ¬ (12 ≤ i ∧ i < 12 + 2) by omega]
    · simp
  exact ⟨hroot 63 (.inr rfl), fldN_congr fun i hi => hroot (16 + i) (by omega)⟩

/-! ## BAR2 -/

theorem bar2Access_safe {s : State} {p pa n : Nat} (wr : Bool) (data : BitVec 64) (h0 : 0 < n) (h8 : n ≤ 8) (hend : pa + n ≤ 2 ^ 39)
    (h : (s.pkg p).safe = true) :
    exec (.bar2Access p pa wr n data) s = .next (if wr then s else hostOut s p (List.replicate n 0)) := by
  rw [exec_bar2Access, execBar2Access, if_neg (by omega), if_pos h]

/-- A host access is performed at the home where no migration holds the page (R291, R382). -/
theorem bar2Access_go {s : State} {p pa n : Nat} (wr : Bool) (data : BitVec 64) (h0 : 0 < n) (h8 : n ≤ 8) (hend : pa + n ≤ 2 ^ 39)
    (h : (s.pkg p).safe = false) (hg : gate s ⟨p, pa, 0, 0, 0⟩ = .go) :
    exec (.bar2Access p pa wr n data) s =
      .next (if wr then s.writePhys p false pa (leBytes n data.toNat) else bar2Read s p pa n) := by
  rw [exec_bar2Access, execBar2Access, if_neg (by omega), h, if_neg Bool.false_ne_true, if_neg (not_not.2 hg)]
  cases wr <;> rfl

theorem bar2Read_of_no_errs {s : State} (h : s.errs = []) (p pa n : Nat) : bar2Read s p pa n = hostOut s p (s.readBytes p false pa n) :=
  readDie_of_no_errs h _ _ _

/-! ## Starts -/

/-- A new package and the vector for it are a matter of the packages only (R382). -/
theorem noteSresn_setPkg (b s : State) (p : Nat) (k : Pkg) : ∃ ks, noteSresn b (s.setPkg p k) p = { s with pkgs := ks } := by
  unfold noteSresn
  split
  · exact ⟨_, rfl⟩
  · exact ⟨_, rfl⟩

theorem noteSresn_pkg (b s : State) (p : Nat) : (noteSresn b s p).pkg p = { s.pkg p with
    vectors := (s.pkg p).vectors ++ (if sresnOf (b.pkg p) = sresnOf (s.pkg p) then [] else [6]) } := by
  unfold noteSresn raiseVector
  split
  · simp
  · simp

theorem clrFail_fails (s : State) (p : Nat) : ((clrFail s p).pkg p).fails = 0 := by simp [clrFail, noteSresn_pkg]

theorem orderStart_starting (s : State) (p : Nat) : ((orderStart s p).pkg p).starting = some ((s.pkg p).starting.getD 2) := by
  simp [orderStart]

/-- Sending the notices of a reset leaves memory and the clock alone (R332). -/
theorem sendResetNotices_frame (s : State) (p : Nat) :
    (sendResetNotices s p).mem = s.mem ∧ (sendResetNotices s p).host = s.host ∧ (sendResetNotices s p).now = s.now :=
  List.foldlRecOn (linkedWith s p) _ (motive := fun t : State => t.mem = s.mem ∧ t.host = s.host ∧ t.now = s.now) ⟨rfl, rfl, rfl⟩
    (fun _ ht _ _ => ht)

/-- Dies that are set one after another hold what they were set to. -/
theorem die_foldl_setDie (g : Nat → Die) (a : Nat) (s : State) {n i : Nat} (hi : i < n) :
    ((List.range n).foldl (fun s i => s.setDie (a + i) (g i)) s).die (a + i) = g i := by
  induction n with
  | zero => omega
  | succ n ih =>
    rw [List.range_succ, List.foldl_append, List.foldl_cons, List.foldl_nil]
    rcases Nat.lt_succ_iff_lt_or_eq.1 hi with h | rfl
    · rw [State.die_setDie_other _ _ (by omega), ih h]
    · exact State.die_setDie_same _ _ _

theorem resetUnits_die (s : State) (p : Nat) (sd : Nat → Bool) {i : Nat} (hi : i < 4) :
    (resetUnits s p sd).die (p * 4 + i) = { Die.reset with sd := sd i, tick := 0 - BitVec.ofNat 64 s.now } :=
  die_foldl_setDie (fun i => { Die.reset with sd := sd i, tick := 0 - BitVec.ofNat 64 s.now }) (p * 4) _ hi

theorem resetUnits_ctx (s : State) {p x : Nat} (sd : Nat → Bool) (hx : pkgOfCtx x = p) : (resetUnits s p sd).ctx x = Ctx.reset :=
  Tab.get_filter_dropped _ _ _ _ (fun _ => by simpa [pkgOfCtx] using hx)

theorem resetUnits_core (s : State) {p c : Nat} (sd : Nat → Bool) (hc : pkgOf c = p) : (resetUnits s p sd).core c = Core.reset :=
  Tab.get_filter_dropped _ _ _ _ (fun _ => by simpa [pkgOf] using hc)

/-- The package after a start, with vector 6 where SRESN has changed (R382, R390). -/
theorem startPkg_pkg (s : State) (p cause fail code : Nat) (sd : BitVec 4) :
    let k := startedPkg (s.pkg p) s.now cause (if fail = 4 then 0 else fail) code
    (startPkg s p cause fail code sd).pkg p =
      { k with vectors := (s.pkg p).vectors ++ (if sresnOf (s.pkg p) = sresnOf k then [] else [6]) } := by
  simp only [startPkg, noteSresn_pkg, State.pkg_setPkg_same]
  rfl

/-- Apart from the packages, a start is the units at reset; memory and the clock stay (R390, log 16). -/
theorem startPkg_eq (s : State) (p cause fail code : Nat) (sd : BitVec 4) : ∃ u keep ks,
    (u.mem = s.mem ∧ u.host = s.host ∧ u.now = s.now) ∧
      startPkg s p cause fail code sd = { resetUnits u p keep with pkgs := ks } := by
  obtain ⟨ks, h⟩ := noteSresn_setPkg s (resetUnits (sendResetNotices s p) p _) p _
  exact ⟨_, _, ks, sendResetNotices_frame s p, h⟩

theorem startPkg_sameMemory (s : State) (p cause fail code : Nat) (sd : BitVec 4) :
    sameMemory s (startPkg s p cause fail code sd) := by
  obtain ⟨u, keep, ks, ⟨hm, hh, -⟩, h⟩ := startPkg_eq s p cause fail code sd
  exact sameMemory_of_eq ((congrArg State.mem h).trans hm) ((congrArg State.host h).trans hh)

/-- A start leaves the contexts and the cores of its package at reset. -/
theorem startPkg_units (s : State) (p cause fail code : Nat) (sd : BitVec 4) :
    (∀ x, pkgOfCtx x = p → (startPkg s p cause fail code sd).ctx x = Ctx.reset) ∧
    ∀ c, pkgOf c = p → (startPkg s p cause fail code sd).core c = Core.reset := by
  obtain ⟨u, keep, ks, -, h⟩ := startPkg_eq s p cause fail code sd
  rw [h]
  exact ⟨fun _ hx => resetUnits_ctx u keep hx, fun _ hc => resetUnits_core u keep hc⟩

/-- The cycle counters of a package's dies begin at 0 at a start (R309). -/
theorem startPkg_tickOf (s : State) (p cause fail code : Nat) (sd : BitVec 4) {d : Nat} (hd : pkgOfDie d = p) :
    (startPkg s p cause fail code sd).tickOf d = 0 := by
  have hpos : d = p * 4 + d % 4 := by simp only [pkgOfDie] at hd; omega
  obtain ⟨u, keep, ks, ⟨-, -, hn⟩, h⟩ := startPkg_eq s p cause fail code sd
  have hnow : (startPkg s p cause fail code sd).now = s.now := (congrArg State.now h).trans hn
  have hdie : ((startPkg s p cause fail code sd).die d).tick = 0 - BitVec.ofNat 64 s.now := by
    rw [h, hpos, ← hn]
    exact congrArg Die.tick (resetUnits_die u p keep (Nat.mod_lt d (by decide)))
  have hticks : (startPkg s p cause fail code sd).ticks d = BitVec.ofNat 64 s.now := by
    simp [State.ticks, State.cycles, State.lagOf, hd, startPkg_pkg, startedPkg, hnow, Pkg.reset]
  rw [State.tickOf, hticks, hdie]
  simp

/-- The fields of SRESN that a start writes (R390). -/
theorem startedPkg_sresn (k : Pkg) (now : Nat) {cause fail code : Nat} (hcause : cause < 8) (hfail : fail < 256) (hcode : code < 256) :
    let v := (startedPkg k now cause fail code).sresn
    fldN v 0 3 = cause ∧ (bit v 3 = true ↔ k.fails = 3) ∧ fldN v 16 8 = (if fail = 0 then 0 else code) ∧ fldN v 24 8 = fail := by
  have hmin : b2n (decide (k.fails = 3)) = if k.fails = 3 then 1 else 0 := by by_cases h : k.fails = 3 <;> simp [b2n, h]
  simp only [startedPkg, fldN_ofNat, bit_eq, BitVec.toNat_ofNat, hmin, decide_eq_true_eq]
  refine ⟨?_, ?_, ?_, ?_⟩ <;> split_ifs <;> omega

/-- When a start may begin, after a thermal trip and while a die is held (R310, R391). -/
theorem mayStartUp_iff (s : State) (p : Nat) (cause : BitVec 3) : mayStartUp s p cause.toNat = true ↔
    (s.pkg p).starting.isSome = true ∨
      (((s.pkg p).thermal = false ∨ cause = 0 ∨ cause = 2) ∧ ¬ (cause = 3 ∧ dhold s p = true)) := by
  have hnat (n : BitVec 3) : cause = n ↔ cause.toNat = n.toNat := BitVec.toNat_inj.symm
  simp only [hnat, mayStartUp, Bool.or_eq_true, Bool.and_eq_true, Bool.not_eq_true', decide_eq_true_eq, Bool.and_eq_false_iff,
    decide_eq_false_iff_not, not_and, or_assoc, Bool.not_eq_true, imp_iff_not_or]
  rfl

theorem startUp_refused {s : State} {p : Nat} {cause : BitVec 3} (fail : Nat) (code : BitVec 8) (sd : BitVec 4)
    (h : mayStartUp s p cause.toNat ≠ true) : exec (.startUp p cause fail code sd) s = .next s := by
  rw [exec_startUp, execStartUp, if_pos (.inr (.inr (by simpa using h)))]

theorem startUp_started {s : State} {p fail c : Nat} {cause : BitVec 3} (code : BitVec 8) (sd : BitVec 4)
    (hmay : mayStartUp s p cause.toNat = true)
    (hcause : (if (s.pkg p).thermal = true then 4 else (s.pkg p).starting.getD cause.toNat) = c) (hc : c ≤ 4) (hfail : fail ≤ 7) :
    exec (.startUp p cause fail code sd) s = .next (startPkg s p c fail code.toNat sd) := by
  simp only [exec_startUp, execStartUp, hcause, hmay]
  exact if_neg (by simp [hc, hfail])

/-- A failure in step 4 is no start failure (R390). -/
theorem startPkg_sresn (s : State) (p : Nat) {cause fail code : Nat} (sd : BitVec 4) (hcause : cause < 8) (hfail : fail < 256)
    (hcode : code < 256) :
    let v := ((startPkg s p cause fail code sd).pkg p).sresn
    fldN v 0 3 = cause ∧ fldN v 24 8 = (if fail = 4 then 0 else fail) ∧ fldN v 16 8 = (if fail = 4 ∨ fail = 0 then 0 else code) ∧
      (bit v 3 = true ↔ (s.pkg p).fails = 3) := by
  obtain ⟨hlow, hmin, hdetail, hstep⟩ :=
    startedPkg_sresn (s.pkg p) s.now hcause (show (if fail = 4 then 0 else fail) < 256 by split_ifs <;> omega) hcode
  have hpass : (if fail = 4 then 0 else fail) = 0 ↔ fail = 4 ∨ fail = 0 := by split_ifs <;> omega
  simp only [hpass] at hdetail
  simp only [startPkg_pkg]
  exact ⟨hlow, hstep, hdetail, hmin⟩

/-- A start that fails counts in FAILS, and one that passes ends the count, except in minimal mode (R390). -/
theorem startPkg_fails (s : State) (p cause fail code : Nat) (sd : BitVec 4) :
    (fail ≠ 0 → fail ≠ 4 → ((startPkg s p cause fail code sd).pkg p).fails = min 3 ((s.pkg p).fails + 1)) ∧
    (fail = 0 ∨ fail = 4 → ((startPkg s p cause fail code sd).pkg p).fails = if (s.pkg p).fails = 3 then 3 else 0) := by
  simp only [startPkg_pkg, startedPkg]
  refine ⟨fun h0 h4 => by simp [h0, h4], fun hpass => ?_⟩
  have hbad : (if fail = 4 then 0 else fail) = 0 := by split_ifs <;> omega
  by_cases h : (s.pkg p).fails = 3 <;> simp [hbad, h]

/-- The staged image runs after a start, unless the start fails to verify it (R388, R390). -/
theorem startPkg_image (s : State) (p cause fail code : Nat) (sd : BitVec 4) :
    ((startPkg s p cause fail code sd).pkg p).image = (if fail = 1 then (s.pkg p).image else (s.pkg p).staged.or (s.pkg p).image) ∧
    ((startPkg s p cause fail code sd).pkg p).staged = none := by
  have h1 : (if fail = 4 then 0 else fail) = 1 ↔ fail = 1 := by by_cases h : fail = 4 <;> simp [h]
  simp [startPkg_pkg, startedPkg, startedImage, h1, Pkg.reset]

/-- Vector 6 is raised where a start changes SRESN (R382). -/
theorem startPkg_vectors (s : State) (p cause fail code : Nat) (sd : BitVec 4) :
    ((startPkg s p cause fail code sd).pkg p).vectors = (s.pkg p).vectors ++
      (if sresnOf ((startPkg s p cause fail code sd).pkg p) = sresnOf (s.pkg p) then [] else [6]) := by
  simp only [startPkg_pkg]
  exact congrArg _ (if_congr eq_comm rfl rfl)

/-! ## Failures that a die logs -/

/-- The code in a record (R26). -/
theorem mkRecDie_code (s : State) (d : Nat) (f : Flt) : (mkRecDie s d f).code = f.code % 256 := by
  simp only [Rec.code, mkRecDie, fldN_ofNat]
  omega

/-- A record enters the fault log at TAIL when the log has room (R384). -/
theorem logRec_flog {s : State} {d : Nat} (r : Rec)
    (hroom : (fldN (s.die d).flogp 0 8 + 1) % 256 ≠ fldN (s.die d).flogp 8 8) :
    Tab.get none ((logRec s d r).die d).flog (fldN (s.die d).flogp 0 8) = some r := by
  simp [logRec, hroom, raiseVector]

/-- A package that a sensor tripped issues nothing (R391). -/
theorem mayIssue_of_thermal {s : State} {x : Nat} (h : (s.pkg (pkgOfCtx x)).thermal = true) : mayIssue s x = false := by
  have hp : pkgOfDie (dieOfCtx x) = pkgOfCtx x := Nat.div_div_eq_div_mul x 512 4
  have hs : s.stopped (dieOfCtx x) = true := by simp [State.stopped, hp, h]
  simp [mayIssue, hs]

/-- A change of the clock leaves where the counters stand (R391). -/
theorem tickOf_clockStep (s : State) (p d c : Nat) :
    (s.modPkg p (fun k => { k with clock := c, lag := s.lagOf p, clockAt := s.now })).tickOf d = s.tickOf d := by
  have hlag : (s.modPkg p (fun k => { k with clock := c, lag := s.lagOf p, clockAt := s.now })).lagOf (pkgOfDie d) =
      s.lagOf (pkgOfDie d) := by
    by_cases h : pkgOfDie d = p
    · simp [State.lagOf, h]
    · simp [State.lagOf, State.pkg_setPkg_other _ _ h]
  simp only [State.tickOf, State.ticks, State.cycles, hlag]
  rfl

/-- After a thermal trip no context of the package may issue (R391). -/
theorem thermalTrip_stops {s : State} {p : Nat} (die : Nat) (h : (s.pkg p).thermal = false) :
    ∃ t, exec (.thermalTrip p die) s = .next t ∧ (t.pkg p).thermal = true ∧ ∀ x, pkgOfCtx x = p → mayIssue t x = false := by
  refine ⟨_, if_neg (by simp [h]), by simp, ?_⟩
  rintro x rfl
  exact mayIssue_of_thermal (by simp)

/-! ## Messages of the service port -/

/-- A message outside an SPDM secured session writes no SCTL (R387, log 69). -/
theorem sctlTaken_iff {p : SvcCmd} : sctlTaken p = true ↔ p.msg ≠ some false := by
  rcases p with ⟨q, _ | b⟩
  · simp [sctlTaken]
  · cases b <;> simp [sctlTaken]

/-- The service port orders a start, and the host does while no sensor has tripped (R390, R391). -/
theorem sctlRestart_ordered {s : State} {p : SvcCmd} (h : p.msg = some true ∨ (p.msg = none ∧ (s.pkg p.pkg).thermal = false)) :
    exec (.sctlRestart p) s = .next (orderStart s p.pkg) := by
  rcases h with h | ⟨h, ht⟩
  · simp [execSctlRestart, sctlTaken, h]
  · simp [execSctlRestart, sctlTaken, h, restart, ht]

/-- A key is taken inside a secured session while the port is down (R387). -/
theorem linkKeyLoad_accepted {s : State} {p : SvcCmd} {port : Nat} (dir : Bool) (key : BitVec 128) (hport : port < 16)
    (hup : portUp s p.pkg port = false) (hm : p.msg = some true) :
    ∃ t, exec (.linkKeyLoad p port dir key) s = .next t ∧ keyOf t p.pkg port (if dir then 1 else 0) = some key := by
  refine ⟨_, if_neg (by simp [hport, hup, hm]), ?_⟩
  simp [keyOf, b2n]

/-! ## The host interface and the service processor -/

/-- Settles O60: each clause from what one register, one start or one event of the service processor does. -/
theorem hostAndService : Obligations.HostAndService := by
  unfold Obligations.HostAndService
  refine ⟨fun s d v hr => ?registers, fun s d off n v => ?ignored, fun s p pa n wr data h0 h8 hend hs => ?bar2Safe,
    fun s p pa n data h0 h8 hend hs hg => ?bar2, fun s p => ?sctl, fun s p fail cause code sd => ?starts,
    fun s p port dir key => ?keys, fun s p idx => ?sensors, fun s p img key sig ver => ?firmware, fun s p a b hab hroom => ?link⟩
  case registers =>
    obtain ⟨t, ht, hread⟩ := registerWrite_reads (off := 0x1000) (v := v) Die.tbase hr rfl rfl (fun _ => rfl) rfl rfl
    refine ⟨registerWrite_plain v hr, registerWrite_reads Die.hotdrop hr rfl rfl (fun _ => rfl) rfl rfl, t, ht, ?_⟩
    rw [hread]
    exact tbaseValue_fields v
  case ignored =>
    refine ⟨fun h => ?_, fun hs hoff => ⟨congrArg _ (regWrite_of_safe n v hs hoff), regRead_of_safe n hs⟩, rfl⟩
    have hbar : barOk off n = false := by rcases h with h | h <;> simp [barOk, h]
    exact ⟨congrArg _ (regWrite_of_not_barOk s d v hbar), regRead_of_not_barOk s d hbar⟩
  case bar2Safe => exact bar2Access_safe wr data h0 h8 hend hs
  case bar2 =>
    refine ⟨⟨_, bar2Access_go true data h0 h8 hend hs hg, writePhys_readsBack s p pa _, fun q h a hout => ?_⟩, fun herr => ?_⟩
    · exact readByte_writePhys_other s p pa _ q a h (by simpa using hout)
    · exact (bar2Access_go false data h0 h8 hend hs hg).trans (congrArg _ (bar2Read_of_no_errs herr p pa n))
  case sctl =>
    refine ⟨fun h => ⟨clrFail s p.pkg, ?_, clrFail_fails s p.pkg⟩,
      fun h => ⟨_, sctlRestart_ordered h, orderStart_starting s p.pkg⟩, fun hm ht => ?_, fun hm => ?_⟩
    · rw [exec_sctlClrfail, execSctlClrfail, if_pos (sctlTaken_iff.2 h)]
    · simp [execSctlRestart, sctlTaken, hm, restart, ht]
    · simp [execSctlClrfail, execSctlRestart, sctlTaken, hm]
  case starts =>
    refine ⟨fun hmay => startUp_refused fail code sd (mt (mayStartUp_iff s p cause).1 hmay), fun hmay hc hfail => ?_⟩
    obtain ⟨hlow, hstep, hdetail, hmin⟩ :=
      startPkg_sresn s p sd (lt_of_le_of_lt hc (by decide)) (lt_of_le_of_lt hfail (by decide)) code.isLt
    obtain ⟨hctx, hcore⟩ := startPkg_units s p _ fail code.toNat sd
    obtain ⟨hcount, hended⟩ := startPkg_fails s p _ fail code.toNat sd
    obtain ⟨himage, hstaged⟩ := startPkg_image s p _ fail code.toNat sd
    exact ⟨_, startUp_started code sd ((mayStartUp_iff s p cause).2 hmay) rfl hc hfail, hctx, hcore, hlow, hstep, hdetail, hmin,
      startPkg_sameMemory s p _ fail code.toNat sd, hcount, hended, himage, hstaged, startPkg_vectors s p _ fail code.toNat sd,
      fun d hd => startPkg_tickOf s p _ fail code.toNat sd hd⟩
  case keys =>
    refine ⟨linkKeyLoad_accepted dir key, fun h => ?_⟩
    rw [exec_linkKeyLoad, execLinkKeyLoad, if_pos (.inr h)]
  case sensors =>
    refine ⟨fun m hm => ?_, fun v hv => ?_, ⟨_, rfl, by simp, fun d => tickOf_clockStep s p d _⟩, thermalTrip_stops idx⟩
    · simp [execSpdmMeasurement, hm, hostOut]
    · simp [execPldmSensorRead, hv, hostOut]
  case firmware =>
    refine ⟨fun hk hv hver => ?_, fun h => ?_⟩
    · rw [exec_firmwareUpdate, execFirmwareUpdate, if_pos ⟨hk, hv, hver⟩]
    · rw [exec_firmwareUpdate, execFirmwareUpdate, if_neg]
      rintro ⟨hk, hv, hver⟩
      rcases h with h | h | h
      · exact h hk
      · exact Bool.false_ne_true (h.symm.trans hv)
      · exact absurd hver (Nat.not_le_of_lt h)
  case link =>
    exact ⟨_, _, if_neg hab, logRec_flog (s := s.nextFree) _ hroom, mkRecDie_code s.nextFree (p * 4 + a % 4) _⟩

end Sys2Proof.Machine

/-! PROOFS. What one step runs: a slot, a kernel slot or an event. -/

namespace Sys2Proof.Machine
/-- The turn of a context whose open bundle has a slot left (R58, R60). -/
theorem cpTurn_slot {s : State} {x i : Nat} {is : Issue} {ins : Instr} (hstop : s.stopped (dieOfCtx x) = false)
    (hissue : (s.ctx x).issue = some is) (hslot : nextSlot s is = some i) (hdec : decodeCp (is.words.getD i 0) = .ok ins) :
    cpTurn x s = andThen (exec ins (atSlot s x i)) (fun t => closeBundle t x) := by
  have hins : slotInstr s x i = .ok ins := by simp only [slotInstr, hissue, hdec]
  simp [cpTurn, hstop, hissue, hslot, runSlot, hins]

/-- The turn of an array whose open bundle has a slot left (R154, R155). -/
theorem kernelTurn_slot {s : State} {c i : Nat} {todo : List Nat} {v : Inv} {b : KIssue} {ins : Instr}
    (hinv : (s.core c).ca.inv = some v) (hbundle : v.bundle = some b) (htodo : b.todo = i :: todo)
    (hdec : decodeKernel (b.words.getD i 0) = .ok ins) : kernelTurn c s = exec ins { s with cur := ⟨0, i, c⟩ } := by
  simp only [kernelTurn, hinv, hbundle, htodo, hdec]

theorem eventTurn_event {s : State} {ins : Instr} (h : encode ins = none) : eventTurn ins s = exec ins s := by
  simp [eventTurn, h]

/-- Settles O6: each kind of turn is exec of what the agent's next word decodes to, or of the event itself. -/
theorem stepRunsTheDecodedInstruction : Obligations.StepRunsTheDecodedInstruction := by
  unfold Obligations.StepRunsTheDecodedInstruction
  refine ⟨fun s x i rest is ins ht hs hi hn hd => ?cp, fun s c i rest todo v b ins ht hv hb hl hd => ?kernel,
    fun s rest ins ht he => ?event⟩
  case cp =>
    rw [step, ht]
    exact cpTurn_slot (s := { s with turns := rest }) hs hi hn hd
  case kernel =>
    rw [step, ht]
    exact kernelTurn_slot (s := { s with turns := rest }) hv hb hl hd
  case event =>
    rw [step, ht]
    exact eventTurn_event he
end Sys2Proof.Machine

/-! PROOFS. Writes of the cluster array land in order (R160 to R162). -/

namespace Sys2Proof.Machine

/-! ## Tables written entry by entry -/

section
variable {α β : Type} [DecidableEq α] (d : α) (key : β → Nat) (upd : β → α → α)

/-- The table after every item of a list has updated its own index in turn. -/
def Tab.updates (t : Tab α) (ps : List β) : Tab α := ps.foldl (fun t p => Tab.set d t (key p) (upd p (Tab.get d t (key p)))) t

/-- An index that no item names keeps its value. -/
theorem Tab.get_updates_other {ps : List β} {k : Nat} (hk : k ∉ ps.map key) (t : Tab α) :
    Tab.get d (Tab.updates d key upd t ps) k = Tab.get d t k := by
  induction ps generalizing t with
  | nil => rfl
  | cons p ps ih =>
    obtain ⟨hp, hps⟩ := not_or.1 (mt List.mem_cons.2 hk)
    exact (ih hps _).trans (Tab.get_set_other d t _ hp)

/-- Items with indices of their own each update the value that stood there. -/
theorem Tab.get_updates_same {ps : List β} (hnd : (ps.map key).Nodup) {p : β} (hp : p ∈ ps) (t : Tab α) :
    Tab.get d (Tab.updates d key upd t ps) (key p) = upd p (Tab.get d t (key p)) := by
  induction ps generalizing t with
  | nil => exact absurd hp List.not_mem_nil
  | cons q ps ih =>
    obtain ⟨hq, hnd'⟩ := List.nodup_cons.1 hnd
    rcases List.mem_cons.1 hp with rfl | hp
    · exact (Tab.get_updates_other d key upd hq _).trans (Tab.get_set_same d t _ _)
    · have hne : key p ≠ key q := fun h => hq (h ▸ List.mem_map_of_mem hp)
      exact (ih hnd' hp _).trans (congrArg (upd p) (Tab.get_set_other d t _ hne))

end

/-! ## The order of landing -/

/-- a lands no later than b: by cycle, then slot, then order of issue (R162). -/
def Owed.notAfter (a b : Owed) : Prop :=
  a.land < b.land ∨ (a.land = b.land ∧ (a.slot < b.slot ∨ (a.slot = b.slot ∧ a.order ≤ b.order)))

theorem Owed.notAfter_of_before {a b : Owed} (h : before a b = true) : a.notAfter b := by
  simp only [before, Bool.or_eq_true, Bool.and_eq_true, decide_eq_true_eq] at h
  unfold Owed.notAfter
  omega

theorem Owed.notAfter_of_not_before {a b : Owed} (h : ¬ before a b = true) : b.notAfter a := by
  simp only [before, Bool.or_eq_true, Bool.and_eq_true, decide_eq_true_eq] at h
  unfold Owed.notAfter
  omega

theorem Owed.notAfter_trans {a b c : Owed} (hab : a.notAfter b) (hbc : b.notAfter c) : a.notAfter c := by
  unfold Owed.notAfter at *
  omega

theorem insertOwed_perm (o : Owed) (l : List Owed) : (insertOwed o l).Perm (o :: l) := by
  induction l with
  | nil => exact .refl _
  | cons p ps ih =>
    unfold insertOwed
    split
    · exact .refl _
    · exact (ih.cons p).trans (.swap o p ps)

theorem insertOwed_sorted {o : Owed} {l : List Owed} (h : l.Pairwise Owed.notAfter) : (insertOwed o l).Pairwise Owed.notAfter := by
  induction l with
  | nil => exact List.pairwise_singleton _ o
  | cons p ps ih =>
    obtain ⟨hp, hps⟩ := List.pairwise_cons.1 h
    unfold insertOwed
    split
    case isTrue hb =>
      have hop := Owed.notAfter_of_before hb
      refine List.pairwise_cons.2 ⟨fun q hq => ?_, h⟩
      rcases List.mem_cons.1 hq with rfl | hq
      · exact hop
      · exact Owed.notAfter_trans hop (hp q hq)
    case isFalse hb =>
      refine List.pairwise_cons.2 ⟨fun q hq => ?_, ih hps⟩
      rcases List.mem_cons.1 ((insertOwed_perm o ps).subset hq) with rfl | hq
      · exact Owed.notAfter_of_not_before hb
      · exact hp q hq

/-- Writes put in their places one by one: all of them, in the order of landing (R162). -/
theorem foldl_insertOwed (os l : List Owed) (h : l.Pairwise Owed.notAfter) :
    (os.foldl (fun l o => insertOwed o l) l).Perm (l ++ os) ∧ (os.foldl (fun l o => insertOwed o l) l).Pairwise Owed.notAfter := by
  induction os generalizing l with
  | nil => simpa using h
  | cons o os ih =>
    obtain ⟨hperm, hsort⟩ := ih (insertOwed o l) (insertOwed_sorted h)
    exact ⟨hperm.trans (((insertOwed_perm o l).append_right os).trans List.perm_middle.symm), hsort⟩

/-! ## What one write changes -/

theorem landLane_owed (dst : KDst) (v : Core) (p : Nat × Nat) : (landLane dst v p).ca.owed = v.ca.owed := by
  cases dst <;> rfl

theorem foldl_landLane_owed (dst : KDst) (ps : List (Nat × Nat)) (v : Core) : (ps.foldl (landLane dst) v).ca.owed = v.ca.owed := by
  induction ps generalizing v with
  | nil => rfl
  | cons p ps ih => exact (ih _).trans (landLane_owed dst v p)

/-- A write that lands leaves the writes still owed alone. -/
theorem landWrite_owed (v : Core) (o : Owed) : (landWrite v o).ca.owed = v.ca.owed := by
  unfold landWrite
  split
  · rfl
  · rfl
  · exact foldl_landLane_owed _ _ v

theorem foldl_landWrite_owed (os : List Owed) (v : Core) : (os.foldl landWrite v).ca.owed = v.ca.owed := by
  induction os generalizing v with
  | nil => rfl
  | cons o os ih => exact (ih _).trans (landWrite_owed v o)

/-- The writes due by a cycle land in order, and are then owed no longer (R160, R162). -/
theorem landBy_spec (v : Core) (t : Nat) : ∃ l : List Owed,
    l.Perm (v.ca.owed.filter (fun o => o.land ≤ t)) ∧ l.Pairwise Owed.notAfter ∧
    landBy v t = l.foldl landWrite { v with ca := { v.ca with owed := v.ca.owed.filter (fun o => t < o.land) } } ∧
    (landBy v t).ca.owed = v.ca.owed.filter (fun o => t < o.land) := by
  obtain ⟨hperm, hsort⟩ := foldl_insertOwed (v.ca.owed.filter (fun o => o.land ≤ t)) [] List.Pairwise.nil
  exact ⟨_, hperm, hsort, rfl, foldl_landWrite_owed _ _⟩

/-- The lanes of a write to a d register (R160, R178). -/
theorem landWrite_d {v : Core} {o : Owed} {n : Nat} (h : o.dst = .d n) : landWrite v o = { v with ca := { v.ca with
    d := Tab.updates 0 (fun p : Nat × Nat => p.1 * 128 + n) (fun p _ => BitVec.ofNat 32 p.2) v.ca.d o.lanes } } := by
  rw [landWrite, h]
  exact List.foldl_hom (g₁ := fun t p => Tab.set 0 t (p.1 * 128 + n) (BitVec.ofNat 32 p.2)) (g₂ := landLane (.d n))
    (fun d => { v with ca := { v.ca with d := d } }) (fun _ _ => rfl)

theorem landWrite_m {v : Core} {o : Owed} {n : Nat} (h : o.dst = .m n) : landWrite v o = { v with ca := { v.ca with
    m := Tab.updates 0 (fun p : Nat × Nat => p.1 * 64 + n) (fun p _ => BitVec.ofNat 128 p.2) v.ca.m o.lanes } } := by
  rw [landWrite, h]
  exact List.foldl_hom (g₁ := fun t p => Tab.set 0 t (p.1 * 64 + n) (BitVec.ofNat 128 p.2)) (g₂ := landLane (.m n))
    (fun m => { v with ca := { v.ca with m := m } }) (fun _ _ => rfl)

theorem landWrite_g {v : Core} {o : Owed} {n : Nat} (h : o.dst = .g n) : landWrite v o = { v with ca := { v.ca with
    g := Tab.updates 0 Prod.fst (fun p g => setBit g n (p.2 % 2 = 1)) v.ca.g o.lanes } } := by
  rw [landWrite, h]
  exact List.foldl_hom (g₁ := fun t p => Tab.set 0 t p.1 (setBit (Tab.get 0 t p.1) n (p.2 % 2 = 1))) (g₂ := landLane (.g n))
    (fun g => { v with ca := { v.ca with g := g } }) (fun _ _ => rfl)

/-- A register of one cluster is told from the others by its index (R148). -/
theorem regIndex_inj {w a b i j : Nat} (hi : i < w) (hj : j < w) (h : a * w + i = b * w + j) : a = b ∧ i = j := by
  have hw : 0 < w := by omega
  have ha : (a * w + i) / w = a := by rw [Nat.add_comm, Nat.add_mul_div_right _ _ hw, Nat.div_eq_of_lt hi, Nat.zero_add]
  have hb : (b * w + j) / w = b := by rw [Nat.add_comm, Nat.add_mul_div_right _ _ hw, Nat.div_eq_of_lt hj, Nat.zero_add]
  have hab : a = b := by rw [← ha, ← hb, h]
  subst hab
  exact ⟨rfl, Nat.add_left_cancel h⟩

/-- One value for one register of each cluster that a write names: what each register reads afterwards. -/
theorem get_updates_lanes {α : Type} [DecidableEq α] (d : α) (t : Tab α) (f : Nat → α) {w n : Nat} (hn : n < w)
    (lanes : List (Nat × Nat)) (hnd : (lanes.map (·.1)).Nodup) :
    let u := Tab.updates d (fun p : Nat × Nat => p.1 * w + n) (fun p _ => f p.2) t lanes
    (∀ p ∈ lanes, Tab.get d u (p.1 * w + n) = f p.2) ∧
    ∀ c m, m < w → (m ≠ n ∨ c ∉ lanes.map (·.1)) → Tab.get d u (c * w + m) = Tab.get d t (c * w + m) := by
  have hkeys : (lanes.map (fun p : Nat × Nat => p.1 * w + n)).Nodup := by
    have := hnd.map (f := fun c => c * w + n) (fun a b h => (regIndex_inj hn hn h).1)
    rwa [List.map_map] at this
  refine ⟨fun p hp => Tab.get_updates_same d (fun p : Nat × Nat => p.1 * w + n) _ hkeys hp t, fun c m hm hout => ?_⟩
  refine Tab.get_updates_other d _ _ (fun hin => ?_) t
  obtain ⟨p, hp, hk⟩ := List.mem_map.1 hin
  obtain ⟨hc, hnm⟩ := regIndex_inj hn hm hk
  rcases hout with h | h
  · exact h hnm.symm
  · exact h (hc ▸ List.mem_map_of_mem hp)

/-- A bit of a mask after one of its bits has been set or cleared. -/
theorem bit_setBit {w : Nat} (g : BitVec w) (n : Nat) (b : Bool) {m : Nat} (hm : m < w) :
    bit (setBit g n b) m = if m = n then b else bit g m := by
  have htwo : (BitVec.ofNat w (2 ^ n)).getLsbD m = decide (m = n) := by
    simp only [BitVec.getLsbD_ofNat, hm, decide_true, Bool.true_and, Nat.testBit_two_pow, eq_comm]
  by_cases h : m = n
  · subst h
    cases b <;> simp only [setBit, bit, Bool.false_eq_true, if_false, if_true, BitVec.getLsbD_and, BitVec.getLsbD_not,
      BitVec.getLsbD_or, htwo, decide_true, Bool.not_true, Bool.and_false, Bool.or_true]
  · cases b <;> simp only [setBit, bit, Bool.false_eq_true, if_false, if_true, BitVec.getLsbD_and, BitVec.getLsbD_not,
      BitVec.getLsbD_or, hm, htwo, h, decide_true, decide_false, Bool.not_false, Bool.and_true, Bool.or_false]

theorem cellKey_inj {t a b a' b' : Nat} (hb : b < 16) (hb' : b' < 16) (h : cellKey t a b = cellKey t a' b') : a = a' ∧ b = b' := by
  unfold cellKey at h
  omega

/-- A cell of a tile that one element is put into. -/
theorem cell_set (ca : Ca) (t i j : Nat) (x : Word32) (hj : j < 16) {a b : Nat} (hb : b < 16) :
    (dirty { ca with tcell := Tab.set 0 ca.tcell (cellKey t i j) x } t).cell t a b = if (a, b) = (i, j) then x else ca.cell t a b := by
  by_cases h : (a, b) = (i, j)
  · obtain ⟨rfl, rfl⟩ := Prod.mk.inj h
    simp [Ca.cell, dirty]
  · rw [if_neg h]
    refine Tab.get_set_other _ _ _ (fun he => h ?_)
    obtain ⟨ha, hb⟩ := cellKey_inj hb hj he
    rw [ha, hb]

/-- A tile that is written differs from its owner's copy (R173). -/
theorem dirty_tile (ca : Ca) (t : Nat) : ((dirty ca t).tile t).d = true := by simp [dirty, Ca.tile]

/-- The cells of a column that TZERO clears (R203). -/
theorem get_zeroed_column (m : Tab Word32) (t c : Nat) {a : Nat} (ha : a < 16) :
    Tab.get 0 ((List.range 16).foldl (fun m i => Tab.set 0 m (cellKey t i c) 0) m) (cellKey t a c) = 0 := by
  have hnd : ((List.range 16).map (fun i => cellKey t i c)).Nodup :=
    List.nodup_range.map (fun i j h => by unfold cellKey at h; omega)
  have h := Tab.get_updates_same 0 (fun i => cellKey t i c) (fun _ _ => 0) hnd (List.mem_range.2 ha) m
  rwa [Tab.updates] at h

/-- Every cluster's stage predicates after a LOOP (R167). -/
theorem get_loop_stages (g : Tab (BitVec 12)) (trip k : Nat) {c : Nat} (hc : c < 16) :
    Tab.get 0 ((List.range 16).foldl (fun m c => Tab.set 0 m c (setStages (Tab.get 0 m c) trip k)) g) c =
      setStages (Tab.get 0 g c) trip k := by
  have hnd : ((List.range 16).map id).Nodup := by simpa using List.nodup_range
  have h := Tab.get_updates_same 0 id (fun _ g => setStages g trip k) hnd (List.mem_range.2 hc) g
  rwa [Tab.updates] at h

/-- Settles O52: a write's lanes name registers of their own, so each lands alone; the order is that in which they are put in place. -/
theorem writesLandInOrder : Obligations.WritesLandInOrder := by
  unfold Obligations.WritesLandInOrder
  refine ⟨landBy_spec, fun v o n hd hn hl => ?d, fun v o n hd hn hl => ?m, fun v o n hd hn hl => ?g, fun v o t i c x hi hc hl => ?lane,
    fun v o t k trip rm cm => ?whole, fun s c t h => ?event⟩
  case d =>
    rw [landWrite_d hd]
    obtain ⟨hin, hout⟩ := get_updates_lanes 0 v.ca.d (BitVec.ofNat 32) hn o.lanes hl
    exact ⟨hin, hout, rfl, rfl, rfl⟩
  case m =>
    rw [landWrite_m hd]
    obtain ⟨hin, hout⟩ := get_updates_lanes 0 v.ca.m (BitVec.ofNat 128) hn o.lanes hl
    exact ⟨hin, hout, rfl, rfl, rfl⟩
  case g =>
    rw [landWrite_g hd]
    let upd := fun (p : Nat × Nat) (g : BitVec 12) => setBit g n (p.2 % 2 = 1)
    refine ⟨fun p hp m hm => ?_, fun c hc => Tab.get_updates_other 0 Prod.fst upd hc v.ca.g, rfl, rfl, rfl⟩
    exact (congrArg (bit · m) (Tab.get_updates_same 0 Prod.fst upd hl hp v.ca.g)).trans (bit_setBit _ n _ hm)
  case lane =>
    refine ⟨fun k hk => ?_, fun hz => ?_, fun hb => ?_⟩
    · rcases hk with ⟨hd, rfl⟩ | ⟨hd, rfl⟩
      · simp only [landWrite, hd, hl, List.foldl_cons, List.foldl_nil, landLane]
        exact ⟨(cell_set v.ca t i c _ hc hc).trans (if_pos rfl), dirty_tile _ t,
          fun a b _ hb hne => (cell_set v.ca t i c _ hc hb).trans (if_neg hne)⟩
      · simp only [landWrite, hd, hl, List.foldl_cons, List.foldl_nil, landLane]
        exact ⟨(cell_set v.ca t c i _ hi hi).trans (if_pos rfl), dirty_tile _ t,
          fun a b _ hb hne => (cell_set v.ca t c i _ hi hb).trans (if_neg hne)⟩
    · simp only [landWrite, hz, hl, List.foldl_cons, List.foldl_nil, landLane]
      refine ⟨fun a ha => ?_, dirty_tile _ t⟩
      simp only [Ca.cell, dirty]
      rw [get_zeroed_column v.ca.tcell t c ha]
    · simp only [landWrite, hb, hl, List.foldl_cons, List.foldl_nil, landLane]
      refine ⟨by simpa using Memory.read_write_same (leBytes 4 x) v.yard c, fun a ha => ?_⟩
      simp only [Memory.read, Memory.get_write_outside (leBytes 4 x) v.yard c a (by simpa using ha)]
  case whole =>
    refine ⟨fun hd => ?_, fun hd => ?_⟩
    · simp only [landWrite, hd, Ca.tile, Tab.get_set_same]
    · simp only [landWrite, hd]
      exact ⟨trivial, fun c hc => get_loop_stages v.ca.g trip k hc⟩
  case event =>
    simp only [exec_writeLanding, execWriteLanding, h]

end Sys2Proof.Machine

/-! PROOFS. Acceptance of a command into the scoreboard (R121 to R124). -/

namespace Sys2Proof.Machine

/-! ## Tables of optional values -/

/-- A table whose values a function maps, which keeps the default, reads as that function of what it read. -/
theorem Tab.get_map_values {α : Type} (d : α) (f : α → α) (hf : f d = d) (t : Tab α) (k : Nat) :
    Tab.get d (t.map (fun p => (p.1, f p.2))) k = f (Tab.get d t k) := by
  induction t with
  | nil => exact hf.symm
  | cons p t ih =>
    by_cases h : p.1 = k
    · simp [Tab.get, h]
    · simpa [Tab.get, h] using ih

theorem Tab.members_map {α : Type} (f : α → α) (t : Tab (Option α)) :
    Tab.members (t.map (fun p => (p.1, p.2.map f))) = (Tab.members t).map (fun p => (p.1, f p.2)) := by
  simp only [Tab.members, List.filterMap_map, List.map_filterMap]
  congr 1
  funext p
  simp only [Function.comp_apply, Option.map_map]
  rfl

/-! ## Entries -/

theorem State.entry_setCtx (s : State) (x c e : Nat) (k : Ctx) : (s.setCtx x k).entry c e = s.entry c e := rfl

theorem freeEntry_congr {s t : State} {c : Nat} (h : (t.core c).sb = (s.core c).sb) : freeEntry t c = freeEntry s c := by
  simp only [freeEntry, State.entry, h]

/-- An entry that waits for no earlier one is ready (R122). -/
def wakened (es : List (Nat × Entry)) (e : Entry) : Entry :=
  if e.st = .waiting ∧ !es.any (fun q => dependsOn q.2 e) then { e with st := .ready } else e

theorem wakeEntries_eq (s : State) (c : Nat) : wakeEntries s c = s.setCore c { s.core c with
    sb := (s.core c).sb.map (fun p => (p.1, p.2.map (wakened (entries s c)))) } := rfl

theorem entry_wakeEntries (s : State) (c e : Nat) : (wakeEntries s c).entry c e = (s.entry c e).map (wakened (entries s c)) := by
  simp only [wakeEntries_eq, State.entry, State.core_setCore_same]
  exact Tab.get_map_values none (Option.map (wakened (entries s c))) rfl _ _

theorem entries_wakeEntries (s : State) (c : Nat) :
    entries (wakeEntries s c) c = (entries s c).map (fun q => (q.1, wakened (entries s c) q.2)) := by
  simp only [wakeEntries_eq, entries, State.core_setCore_same]
  exact Tab.members_map _ _

/-- Becoming ready changes nothing that a dependence looks at (R124). -/
theorem dependsOn_wakened (es : List (Nat × Entry)) (a b : Entry) : dependsOn (wakened es a) b = dependsOn a b := by
  unfold wakened
  split <;> rfl

theorem dependsOn_wakened_right (es : List (Nat × Entry)) (a b : Entry) : dependsOn a (wakened es b) = dependsOn a b := by
  unfold wakened
  split <;> rfl

/-- An entry that waited is ready exactly when it depends on no entry (R122, R124). -/
theorem wakened_ready_iff {es : List (Nat × Entry)} {e : Entry} (h : e.st = .waiting) :
    (wakened es e).st = .ready ↔ ∀ q ∈ es, dependsOn q.2 e = false := by
  have hany : (!es.any (fun q => dependsOn q.2 e)) = true ↔ ∀ q ∈ es, dependsOn q.2 e = false := by simp
  unfold wakened
  split
  case isTrue hw => exact ⟨fun _ => hany.1 hw.2, fun _ => rfl⟩
  case isFalse hw => exact ⟨fun hr => absurd (h.symm.trans hr) (by decide), fun hq => absurd ⟨h, hany.2 hq⟩ hw⟩

theorem wakened_fields (es : List (Nat × Entry)) (e : Entry) : (wakened es e).ctx = e.ctx ∧ (wakened es e).word = e.word ∧
    (wakened es e).seq = e.seq ∧ (wakened es e).reads = e.reads ∧ (wakened es e).writes = e.writes := by
  unfold wakened
  split <;> exact ⟨rfl, rfl, rfl, rfl, rfl⟩

/-- What entering an entry does: it stands at the lowest free number with the next place in the order of acceptance, and the entries that
wait for nothing become ready (R122, log 57). -/
theorem enterEntry_eq (s : State) (x : Nat) (e : Entry) : ∃ u,
    enterEntry s x e = wakeEntries u (coreOf x) ∧ u.ctxs = s.ctxs ∧ u.mem = s.mem ∧ u.host = s.host ∧ u.cur = s.cur ∧
    (u.core (coreOf x)).sb =
      Tab.set none (s.core (coreOf x)).sb (freeEntry s (coreOf x)) (some { e with seq := (s.core (coreOf x)).seq }) ∧
    (u.core (coreOf x)).seq = (s.core (coreOf x)).seq + 1 := by
  have hfree : ∀ k, freeEntry (dropMiss s (coreOf x) k) (coreOf x) = freeEntry s (coreOf x) := fun k =>
    freeEntry_congr (by simp [dropMiss, dropMisses])
  refine ⟨_, rfl, rfl, rfl, rfl, rfl, ?_, ?_⟩
  · simp only [State.modCore_eq, State.setEntry, State.core_setCore_same, hfree]
    simp only [dropMiss, dropMisses, State.modCore_eq, State.core_setCore_same]
  · simp only [State.modCore_eq, State.setEntry, dropMiss, dropMisses, State.core_setCore_same]

/-! ## Issued generations -/

/-- IGEN counts on (R15). -/
theorem hGen_stepGen (h : Word) : hGen (stepGen h) = hGen h + 1 := by
  refine BitVec.eq_of_getLsbD_eq fun i hi => ?_
  have hmask : (0x0FF0000000000000 : Word).getLsbD (52 + i) = true := by interval_cases i <;> rfl
  have hlt : 52 + i < 64 := by omega
  simp only [hGen, stepGen, fld, BitVec.getLsbD_extractLsb', BitVec.getLsbD_or, BitVec.getLsbD_and, BitVec.getLsbD_not, hmask, hi,
    hlt, decide_true, Bool.true_and, Bool.not_true, Bool.and_false, Bool.false_or, BitVec.getLsbD_ofNat, Nat.testBit_mul_two_pow]
  simp only [Nat.le_add_right, decide_true, Bool.true_and, Nat.add_sub_cancel_left, BitVec.testBit_toNat]

/-- Each handle's generation counts on once (R15, R121). -/
theorem foldl_stepGen (c : Ctx) (ws : List Nat) : ws.foldl (fun c n => c.wh n (stepGen (c.rh n))) c =
    { c with h := Tab.updates 0 id (fun _ => stepGen) c.h ws } :=
  List.foldl_hom (g₁ := fun h n => Tab.set 0 h n (stepGen (Tab.get 0 h n))) (fun h => { c with h := h }) (fun _ _ => rfl)

/-! ## Acceptance -/

/-- Settles O35: the new entry stands at the free number and is woken with the others; its handles count on one by one. -/
theorem acceptanceEntersScoreboard : Obligations.AcceptanceEntersScoreboard := by
  unfold Obligations.AcceptanceEntersScoreboard
  intro s is reads writes hissue hnd c k t hk
  let cap := (is.cap.getD 3 []).filter (fun p => p.1 < 32)
  let e := newEntry s s.cur.x s.word cap (reads.map (fun n => (n, s.me.rh n))) (writes.map (fun n => (n, s.me.rh n)))
  let v := s.modMe (fun c => writes.foldl (fun c n => c.wh n (stepGen (c.rh n))) c)
  have ht : t = enterEntry v s.cur.x e := by simp only [t, accept, hissue]; rfl
  obtain ⟨u, hu, hctxs, hmem, hhost, hcur, hsb, hseq⟩ := enterEntry_eq v s.cur.x e
  have hfree : freeEntry v c = k := freeEntry_congr rfl
  have hentry : u.entry c k = some { e with seq := (s.core c).seq } := by
    rw [State.entry, hsb, hfree, Tab.get_set_same]; rfl
  have htctx : ∀ y, t.ctx y = v.ctx y := fun y => by rw [ht, hu, State.ctx, wakeEntries_eq, State.setCore_ctxs, hctxs]; rfl
  have hme : t.me = { s.me with h := Tab.updates 0 id (fun _ => stepGen) s.me.h writes } := by
    have htcur : t.cur = s.cur := by rw [ht, hu, wakeEntries_eq, State.setCore_cur, hcur]; rfl
    rw [State.me, htcur, htctx, ← foldl_stepGen]
    exact State.ctx_setCtx_same _ _ _
  refine ⟨⟨wakened (entries u c) { e with seq := (s.core c).seq }, ?entry, ?fields⟩, ?gens, ?handles, ?regs, ?others, ?memory, ?order⟩
  case entry => rw [ht, hu, entry_wakeEntries, hentry]; rfl
  case fields =>
    obtain ⟨hc, hw, hs, hr, hws⟩ := wakened_fields (entries u c) { e with seq := (s.core c).seq }
    refine ⟨hc, hw, hs, hr.trans ?_, hws, (wakened_ready_iff rfl).trans ?_⟩
    · exact List.map_map
    · have hentries : entries t c = (entries u c).map (fun q => (q.1, wakened (entries u c) q.2)) := by
        rw [ht, hu]; exact entries_wakeEntries u c
      simp only [hentries, List.forall_mem_map, dependsOn_wakened, dependsOn_wakened_right]
  case gens =>
    intro n hn
    rw [hme, ← hGen_stepGen]
    exact congrArg hGen (Tab.get_updates_same 0 id (fun _ => stepGen) (by simpa using hnd) hn s.me.h)
  case handles =>
    intro n hn
    rw [hme]
    exact Tab.get_updates_other 0 id (fun _ => stepGen) (by simpa using hn) s.me.h
  case regs => intro n; rw [hme]; rfl
  case others => intro y hy; rw [htctx]; exact State.ctx_setCtx_other _ _ hy
  case memory =>
    refine sameMemory_of_eq ?_ ?_
    · rw [ht, hu, wakeEntries_eq, State.setCore_mem, hmem]; rfl
    · rw [ht, hu, wakeEntries_eq, State.setCore_host, hhost]; rfl
  case order => rw [ht, hu, wakeEntries_eq, State.core_setCore_same]; exact hseq

end Sys2Proof.Machine

/-! PROOFS. Answers of requests land: registers, leases and the core's copies of lines (R18, R71 to R73, R258, R269). -/

namespace Sys2Proof.Machine

/-! ## The data cache -/

/-- A change of data caches and of what fills them: no register and no memory changes, a request that is gone stays gone, and no line is
filled. -/
structure OnlyDrops (s t : State) : Prop where
  ctxs : t.ctxs = s.ctxs
  mem : t.mem = s.mem
  host : t.host = s.host
  req : ∀ r, s.req r = none → t.req r = none
  dcLine : ∀ c pa, dcLine s c pa = [] → dcLine t c pa = []

theorem OnlyDrops.refl (s : State) : OnlyDrops s s := ⟨rfl, rfl, rfl, fun _ h => h, fun _ _ h => h⟩

theorem OnlyDrops.trans {s t u : State} (h : OnlyDrops s t) (g : OnlyDrops t u) : OnlyDrops s u :=
  ⟨g.ctxs.trans h.ctxs, g.mem.trans h.mem, g.host.trans h.host, fun r hr => g.req r (h.req r hr),
    fun c pa hd => g.dcLine c pa (h.dcLine c pa hd)⟩

theorem OnlyDrops.ctx {s t : State} (h : OnlyDrops s t) (x : Nat) : t.ctx x = s.ctx x := congrArg (Tab.get Ctx.reset · x) h.ctxs

/-- An absent request is absent from a table whose requests a function maps. -/
theorem req_map_none (reqs : Tab (Option Req)) (f : Req → Req) {r : Nat} (h : Tab.get none reqs r = none) :
    Tab.get none (reqs.map (fun p => (p.1, p.2.map f))) r = none := by
  rw [Tab.get_map_values none (Option.map f) rfl, h]; rfl

theorem core_dcDrop_same (s : State) (c pa : Nat) :
    (dcDrop s c pa).core c = { s.core c with dc := Tab.erase (s.core c).dc (pa / 64) } := State.core_setCore_same s c _

theorem core_dcDrop_other (s : State) {c c' : Nat} (pa : Nat) (h : c' ≠ c) : (dcDrop s c pa).core c' = s.core c' :=
  State.core_setCore_other s _ h

theorem core_dcInvalidate_same (s : State) (c : Nat) : (dcInvalidate s c).core c = { s.core c with dc := [] } :=
  State.core_setCore_same s c _

theorem core_dcInvalidate_other (s : State) {c c' : Nat} (h : c' ≠ c) : (dcInvalidate s c).core c' = s.core c' :=
  State.core_setCore_other s _ h

theorem onlyDrops_dcDrop (s : State) (c pa : Nat) : OnlyDrops s (dcDrop s c pa) := by
  refine ⟨rfl, rfl, rfl, fun r hr => req_map_none s.reqs _ hr, fun c' pa' hd => ?_⟩
  by_cases hc : c' = c
  · subst hc
    rw [dcLine, core_dcDrop_same]
    by_cases hp : pa' / 64 = pa / 64
    · rw [hp]; exact Tab.get_erase_same _ _ _
    · exact (Tab.get_erase_other _ _ hp).trans hd
  · rwa [dcLine, core_dcDrop_other s pa hc]

/-- The copy of a line that is dropped is gone. -/
theorem dcLine_dcDrop (s : State) (c pa : Nat) : dcLine (dcDrop s c pa) c pa = [] := by
  rw [dcLine, core_dcDrop_same]; exact Tab.get_erase_same _ _ _

theorem onlyDrops_dcInvalidate (s : State) (c : Nat) : OnlyDrops s (dcInvalidate s c) := by
  refine ⟨rfl, rfl, rfl, fun r hr => req_map_none s.reqs _ hr, fun c' pa hd => ?_⟩
  by_cases hc : c' = c
  · subst hc
    rw [dcLine, core_dcInvalidate_same]; rfl
  · rwa [dcLine, core_dcInvalidate_other s hc]

theorem onlyDrops_acquire (s : State) (c scope : Nat) : OnlyDrops s (acquire s c scope) := by
  unfold acquire
  split
  · exact .refl s
  · exact onlyDrops_dcInvalidate s c

theorem onlyDrops_dropQueue (s : State) (q : Req) : OnlyDrops s (dropQueue s q) := by
  have h := fun (s : State) (off : Nat) => onlyDrops_dcDrop s (coreOf q.x) (q.pa + off)
  exact (((h s 0).trans (h _ 64)).trans (h _ 128)).trans (h _ 192)

/-- A queue command drops the core's copies of the lines of the block's header and records (R18). -/
theorem dcLine_dropQueue (s : State) (q : Req) : ∀ off ∈ [0, 64, 128, 192], dcLine (dropQueue s q) (coreOf q.x) (q.pa + off) = [] := by
  have gone := fun (s : State) (off : Nat) => dcLine_dcDrop s (coreOf q.x) (q.pa + off)
  have keeps := fun (s : State) (off : Nat) => (onlyDrops_dcDrop s (coreOf q.x) (q.pa + off)).dcLine
  simp only [List.forall_mem_cons, List.not_mem_nil, false_implies, implies_true, and_true]
  exact ⟨keeps _ 192 _ _ (keeps _ 128 _ _ (keeps _ 64 _ _ (gone _ 0))), keeps _ 192 _ _ (keeps _ 128 _ _ (gone _ 64)),
    keeps _ 192 _ _ (gone _ 128), gone _ 192⟩

/-- The end of a fence changes the context's fence only, and drops lines (R103). -/
theorem fenceCheck_cases (s : State) (x : Nat) :
    fenceCheck s x = s ∨ OnlyDrops (s.modCtx x (fun c => { c with fence := none })) (fenceCheck s x) := by
  unfold fenceCheck
  split
  · exact .inl rfl
  · split
    · exact .inl rfl
    · exact .inr (onlyDrops_acquire _ _ _)

theorem fenceCheck_frame (s : State) (x : Nat) : (fenceCheck s x).mem = s.mem ∧ (fenceCheck s x).host = s.host ∧
    (∀ r, s.req r = none → (fenceCheck s x).req r = none) ∧ ((fenceCheck s x).ctx x).x = (s.ctx x).x ∧
    ((fenceCheck s x).ctx x).await = (s.ctx x).await := by
  rcases fenceCheck_cases s x with h | h
  · rw [h]; exact ⟨rfl, rfl, fun _ hr => hr, rfl, rfl⟩
  · refine ⟨h.mem, h.host, h.req, ?_, ?_⟩
    · rw [h.ctx, State.modCtx_eq, State.ctx_setCtx_same]
    · rw [h.ctx, State.modCtx_eq, State.ctx_setCtx_same]

/-! ## Loads and arrivals -/

/-- A load's value lands: its register holds it and awaits nothing, and no other register and no byte of memory changes (R71). -/
theorem landLoad_lands (s : State) (r : Nat) (q : Req) (xd size : Nat) (sg : Bool) (v : Nat) :
    let t := landLoad s r q xd size sg v
    (xd ≠ 0 → (t.ctx q.x).rx xd = landVal size sg v ∧ (xd < 32 → bit (t.ctx q.x).await xd = false)) ∧
    (∀ m, m ≠ xd → (t.ctx q.x).rx m = (s.ctx q.x).rx m) ∧ t.req r = none ∧ sameMemory s t := by
  intro t
  obtain ⟨u, hctx, hmem, hhost, ht⟩ : ∃ u : State, u.ctx q.x = s.ctx q.x ∧ u.mem = s.mem ∧ u.host = s.host ∧
      t = fenceCheck ((u.modCtx q.x (fun c => { (c.wx xd (landVal size sg v)) with
        await := if xd = 0 then c.await else setBit c.await xd false })).setReq r none) q.x := by
    refine ⟨_, ?_, ?_, ?_, rfl⟩ <;> split_ifs <;> rfl
  obtain ⟨fmem, fhost, freq, fx, fawait⟩ := fenceCheck_frame ((u.modCtx q.x (fun c => { (c.wx xd (landVal size sg v)) with
    await := if xd = 0 then c.await else setBit c.await xd false })).setReq r none) q.x
  rw [← ht] at fmem fhost freq fx fawait
  simp only [State.modCtx_eq, State.ctx_setReq, State.ctx_setCtx_same, hctx] at fx fawait
  have hrx : ∀ m, (t.ctx q.x).rx m = ((s.ctx q.x).wx xd (landVal size sg v)).rx m := fun m => by simp only [Ctx.rx, fx]
  refine ⟨fun h0 => ⟨(hrx xd).trans (Ctx.rx_wx_same _ _ _ h0), fun h32 => ?_⟩, fun m hm => (hrx m).trans (Ctx.rx_wx_other _ _ hm),
    freq r (State.req_setReq_same _ _ _), sameMemory_of_eq (fmem.trans hmem) (fhost.trans hhost)⟩
  rw [fawait, if_neg h0, bit_setBit _ _ _ h32, if_pos rfl]

theorem loadAnswer_load {s : State} {r xd n v : Nat} {sg : Bool} {q : Req} (hq : s.req r = some q)
    (hrun : s.stopped (dieOfCtx q.x) = false) (hk : q.kind = .load xd n sg) (ha : q.ans = some [v]) :
    exec (.loadAnswer r) s = .next (if landsNext s r q then landLoad s r q xd n sg v else s) := by
  rw [exec_loadAnswer, execLoadAnswer, hq]
  simp only [whileRuns, hrun, hk, ha, Bool.false_eq_true, if_false]

/-- A BAR's arrival knows its generation, and the core's copy of its word is dropped (R18, R105). -/
theorem loadAnswer_bar {s : State} {r gen : Nat} {q : Req} (hq : s.req r = some q) (hrun : s.stopped (dieOfCtx q.x) = false)
    (hk : q.kind = .bar) (ha : q.ans = some [gen]) :
    exec (.loadAnswer r) s = .next ((dcDrop (s.setReq r none) (coreOf q.x) q.pa).modIssue q.x
      (fun is => if is.bar = .sent then { is with bar := .arrived gen } else is)) := by
  rw [exec_loadAnswer, execLoadAnswer, hq]
  simp only [whileRuns, hrun, hk, ha, Bool.false_eq_true, if_false]

/-! ## Leases -/

/-- The lease of a register ends with a value, or one answer less is outstanding where it is x0 (R72). -/
def Ctx.landed (c : Ctx) (p : Nat × Word) : Ctx :=
  if p.1 = 0 then { c with out0 := c.out0 - 1 } else { c.wx p.1 p.2 with lease := setBit c.lease p.1 false }

theorem endLease_eq (s : State) (x d : Nat) (v : Word) : endLease s x d v = s.setCtx x ((s.ctx x).landed (d, v)) := rfl

/-- Leases that end leave what they do not name alone. -/
theorem foldl_landed_other (ps : List (Nat × Word)) (c : Ctx) :
    (ps.foldl Ctx.landed c).pend = c.pend ∧ (ps.foldl Ctx.landed c).out0 = c.out0 - ps.countP (fun p => p.1 = 0) ∧
    (∀ m, (∀ p ∈ ps, p.1 ≠ m) → (ps.foldl Ctx.landed c).rx m = c.rx m) ∧
    (∀ m < 32, bit c.lease m = false → bit (ps.foldl Ctx.landed c).lease m = false) := by
  induction ps generalizing c with
  | nil => exact ⟨rfl, rfl, fun _ _ => rfl, fun _ _ h => h⟩
  | cons p ps ih =>
    obtain ⟨hpend, hout, hrx, hlease⟩ := ih (c.landed p)
    rw [List.foldl_cons, hpend, hout, List.countP_cons]
    by_cases h : p.1 = 0
    · refine ⟨by simp [Ctx.landed, h], by simp [Ctx.landed, h]; omega, fun m hm => ?_, fun m hm hb => hlease m hm ?_⟩
      · exact (hrx m (fun q hq => hm q (List.mem_cons_of_mem _ hq))).trans (by simp [Ctx.landed, h, Ctx.rx])
      · simpa [Ctx.landed, h] using hb
    · refine ⟨by simp [Ctx.landed, h, Ctx.wx], by simp [Ctx.landed, h, Ctx.wx], fun m hm => ?_, fun m hm hb => hlease m hm ?_⟩
      · refine (hrx m (fun q hq => hm q (List.mem_cons_of_mem _ hq))).trans ?_
        rw [Ctx.landed, if_neg h]
        exact Ctx.rx_wx_other c p.2 (hm p (by simp)).symm
      · simp only [Ctx.landed, h, if_false]
        rw [bit_setBit _ _ _ hm]
        split
        · rfl
        · exact hb

/-- A register whose lease ends holds the value, where each register's lease ends once (R72, R73). -/
theorem foldl_landed_same {ps : List (Nat × Word)} (hnd : (ps.map (·.1)).Nodup) {p : Nat × Word} (hp : p ∈ ps) (h0 : p.1 ≠ 0)
    (h32 : p.1 < 32) (c : Ctx) : (ps.foldl Ctx.landed c).rx p.1 = p.2 ∧ bit (ps.foldl Ctx.landed c).lease p.1 = false := by
  induction ps generalizing c with
  | nil => exact absurd hp List.not_mem_nil
  | cons q ps ih =>
    obtain ⟨hq, hnd'⟩ := List.nodup_cons.1 hnd
    rcases List.mem_cons.1 hp with rfl | hp
    · obtain ⟨-, -, hrx, hlease⟩ := foldl_landed_other ps (c.landed p)
      have hout : ∀ r ∈ ps, r.1 ≠ p.1 := fun r hr he => hq (List.mem_map.2 ⟨r, hr, he⟩)
      refine ⟨(hrx p.1 hout).trans ?_, hlease p.1 h32 ?_⟩
      · rw [Ctx.landed, if_neg h0]
        exact Ctx.rx_wx_same c p.1 p.2 h0
      · simp only [Ctx.landed, h0, if_false]
        rw [bit_setBit _ _ _ h32, if_pos rfl]
    · exact ih hnd' hp _

/-! ## Lease ends -/

/-- The leases of context x that one answer ends, each with its value. -/
def endLeases (s : State) (x : Nat) (ps : List (Nat × Word)) : State := ps.foldl (fun s p => endLease s x p.1 p.2) s

theorem endLeases_frame (s : State) (x : Nat) (ps : List (Nat × Word)) :
    (endLeases s x ps).ctx x = ps.foldl Ctx.landed (s.ctx x) ∧ (endLeases s x ps).cores = s.cores ∧
    (endLeases s x ps).reqs = s.reqs ∧ (endLeases s x ps).mem = s.mem ∧ (endLeases s x ps).host = s.host := by
  induction ps generalizing s with
  | nil => exact ⟨rfl, rfl, rfl, rfl, rfl⟩
  | cons p ps ih =>
    obtain ⟨hctx, hcores, hreqs, hmem, hhost⟩ := ih (endLease s x p.1 p.2)
    refine ⟨hctx.trans (congrArg (ps.foldl Ctx.landed) ?_), hcores, hreqs, hmem, hhost⟩
    rw [endLease_eq, State.ctx_setCtx_same]

theorem endLeases_cons (s : State) (x d : Nat) (v : Word) (ps : List (Nat × Word)) :
    endLeases s x ((d, v) :: ps) = endLeases (endLease s x d v) x ps := rfl

/-- The registers of a QPOP's group with the words that they receive (R268). -/
def groupPairs (grp : Nat) (ws : List Nat) : List (Nat × Word) :=
  (List.range 8).map (fun i => (8 * grp + i, BitVec.ofNat 64 (ws.getD (2 * i) 0 + 2 ^ 32 * ws.getD (2 * i + 1) 0)))

theorem landGroup_eq (s : State) (x grp : Nat) (ws : List Nat) : landGroup s x grp ws = endLeases s x (groupPairs grp ws) :=
  (List.foldl_map ..).symm

/-- What an answer leaves: the request is gone, its leases have ended, the lines dropped stay dropped, and memory is as before. -/
theorem answer_lands {s u t : State} {r x : Nat} {ps : List (Nat × Word)} (hdrop : OnlyDrops (s.setReq r none) u)
    (hacq : OnlyDrops (endLeases u x ps) t) : t.ctx x = ps.foldl Ctx.landed (s.ctx x) ∧ t.req r = none ∧ sameMemory s t ∧
    ∀ c pa, dcLine u c pa = [] → dcLine t c pa = [] := by
  obtain ⟨hctx, hcores, hreqs, hmem, hhost⟩ := endLeases_frame u x ps
  refine ⟨(hacq.ctx x).trans (hctx.trans (congrArg (ps.foldl Ctx.landed) (hdrop.ctx x))), hacq.req r ?_,
    sameMemory_of_eq (hacq.mem.trans (hmem.trans hdrop.mem)) (hacq.host.trans (hhost.trans hdrop.host)),
    fun c pa hd => hacq.dcLine c pa ?_⟩
  · exact (congrArg (Tab.get none · r) hreqs).trans (hdrop.req r (State.req_setReq_same _ _ _))
  · exact (congrArg (fun k => Tab.get [] (Tab.get Core.reset k c).dc (pa / 64)) hcores).trans hd

/-- The pending record of a context once an imprecise fault is reported (R27). -/
theorem postRec_pend {s t : State} {x : Nat} (r : Rec) (h : (t.ctx x).pend = (s.ctx x).pend) :
    ((postRec t x r).ctx x).pend = ((postRec s x r).ctx x).pend := by
  simp only [postRec, State.modCtx_eq, State.ctx_setCtx_same, h]

/-- A queue command's fault changes its context's pending record only: it names the cycle in which its home found the fault (R26). -/
theorem postQueueFault_frame (s w : State) (q : Req) (h : (w.ctx q.x).pend = (s.ctx q.x).pend) :
    let t := postQueueFault w q
    (∃ p, t.ctx q.x = { w.ctx q.x with pend := p }) ∧ t.cores = w.cores ∧ t.reqs = w.reqs ∧ t.mem = w.mem ∧ t.host = w.host ∧
    (∀ c, q.flt = some c → (t.ctx q.x).pend = ((postRec s q.x
      { mkRec s q.x false ⟨0x73, 0, 0, cmdDetail q.word 0xFF 0, homeCtl q.pa⟩ with w3 := c }).ctx q.x).pend) ∧
    (q.flt = none → (t.ctx q.x).pend = (s.ctx q.x).pend) := by
  intro t
  cases hf : q.flt with
  | none =>
    have ht : t = w := by simp only [t, postQueueFault, hf]
    rw [ht]
    exact ⟨⟨_, rfl⟩, rfl, rfl, rfl, rfl, fun c hc => absurd hc (by simp), fun _ => h⟩
  | some c =>
    have ht : t = postRec w q.x { mkRec s q.x false ⟨0x73, 0, 0, cmdDetail q.word 0xFF 0, homeCtl q.pa⟩ with w3 := c } := by
      simp only [t, postQueueFault, hf]; rfl
    rw [ht]
    refine ⟨⟨_, State.ctx_setCtx_same _ _ _⟩, rfl, rfl, rfl, rfl, fun c' hc => ?_, fun hc => absurd hc (by simp)⟩
    obtain rfl := Option.some.inj hc
    exact postRec_pend _ h

/-- The home request's answer is at hand and its die runs. -/
theorem leaseEnd_of_req {s : State} {r : Nat} {q : Req} (hq : s.req r = some q) (hk : s.pkt r = none)
    (hrun : s.stopped (dieOfCtx q.x) = false) : exec (.leaseEnd r) s = .next (reqLeaseEnd s r) := by
  rw [exec_leaseEnd, execLeaseEnd, hk, hq]
  simp [hrun]

theorem reqLeaseEnd_atomic {s : State} {r fn n op cmp xd : Nat} {q : Req} {as : List Nat} (hq : s.req r = some q)
    (hk : q.kind = .atomic fn n op cmp xd) (ha : q.ans = some as) :
    OnlyDrops (endLeases (dcDrop (s.setReq r none) (coreOf q.x) q.pa) q.x [(xd, BitVec.ofNat 64 (as.headD 0))]) (reqLeaseEnd s r) := by
  simp only [reqLeaseEnd, hq, hk, ha]
  cases q.acquire with
  | none => exact .refl _
  | some sc => exact onlyDrops_acquire _ _ sc

theorem reqLeaseEnd_qpush {s : State} {r xd : Nat} {fs : List Word32} {q : Req} {as : List Nat} (hq : s.req r = some q)
    (hk : q.kind = .qpush xd fs) (ha : q.ans = some as) : reqLeaseEnd s r =
      postQueueFault (endLeases (dropQueue (s.setReq r none) q) q.x [(xd, BitVec.ofNat 64 (as.headD 0))]) q := by
  simp only [reqLeaseEnd, hq, hk, ha]
  rfl

theorem reqLeaseEnd_qpop {s : State} {r xd grp : Nat} {q : Req} {as : List Nat} (hq : s.req r = some q)
    (hk : q.kind = .qpop xd grp) (ha : q.ans = some as) : ∃ w, reqLeaseEnd s r = postQueueFault w q ∧
      OnlyDrops (endLeases (dropQueue (s.setReq r none) q) q.x ((xd, BitVec.ofNat 64 (as.headD 0)) :: groupPairs grp (as.drop 1))) w := by
  rw [endLeases_cons, ← landGroup_eq]
  cases hacq : q.acquire with
  | none => exact ⟨_, by simp only [reqLeaseEnd, hq, hk, ha, hacq], .refl _⟩
  | some sc => exact ⟨_, by simp only [reqLeaseEnd, hq, hk, ha, hacq], onlyDrops_acquire _ (coreOf q.x) sc⟩

/-- What a queue command's answer leaves (R18, R72, R269). -/
theorem queueAnswer_lands {s w : State} {r : Nat} {q : Req} {ps : List (Nat × Word)}
    (h : OnlyDrops (endLeases (dropQueue (s.setReq r none) q) q.x ps) w) :
    let t := postQueueFault w q
    let c := ps.foldl Ctx.landed (s.ctx q.x)
    ((∀ m, (t.ctx q.x).rx m = c.rx m) ∧ (t.ctx q.x).lease = c.lease ∧ (t.ctx q.x).out0 = c.out0) ∧ t.req r = none ∧
    (∀ off ∈ [0, 64, 128, 192], dcLine t (coreOf q.x) (q.pa + off) = []) ∧
    ((∀ c, q.flt = some c → (t.ctx q.x).pend = ((postRec s q.x
      { mkRec s q.x false ⟨0x73, 0, 0, cmdDetail q.word 0xFF 0, homeCtl q.pa⟩ with w3 := c }).ctx q.x).pend) ∧
    (q.flt = none → (t.ctx q.x).pend = (s.ctx q.x).pend)) ∧ sameMemory s t := by
  intro t c
  obtain ⟨hctx, hreq, hsame, hline⟩ := answer_lands (onlyDrops_dropQueue _ q) h
  have hpend : (w.ctx q.x).pend = (s.ctx q.x).pend := by rw [hctx]; exact (foldl_landed_other ps _).1
  obtain ⟨⟨p, hp⟩, hcores, hreqs, hmem, hhost, hrec⟩ := postQueueFault_frame s w q hpend
  rw [hctx] at hp
  refine ⟨⟨fun m => by rw [hp]; rfl, by rw [hp], by rw [hp]⟩, (congrArg (Tab.get none · r) hreqs).trans hreq, fun off hoff => ?_, hrec,
    fun p host pa => ?_⟩
  · exact (congrArg (fun k => Tab.get [] (Tab.get Core.reset k (coreOf q.x)).dc ((q.pa + off) / 64)) hcores).trans
      (hline _ _ (dcLine_dropQueue _ q off hoff))
  · exact (sameMemory_of_eq hmem hhost p host pa).trans (hsame p host pa)

/-! ## The group of a QPOP -/

theorem groupPairs_regs (grp : Nat) (ws : List Nat) : (groupPairs grp ws).map (·.1) = (List.range 8).map (fun i => 8 * grp + i) := by
  simp [groupPairs]

theorem mem_groupPairs_reg {grp m : Nat} {ws : List Nat} : m ∈ (groupPairs grp ws).map (·.1) ↔ ∃ i < 8, 8 * grp + i = m := by
  simp [groupPairs_regs]

theorem mem_groupPairs {grp i : Nat} (ws : List Nat) (hi : i < 8) :
    (8 * grp + i, BitVec.ofNat 64 (ws.getD (2 * i) 0 + 2 ^ 32 * ws.getD (2 * i + 1) 0)) ∈ groupPairs grp ws :=
  List.mem_map.2 ⟨i, List.mem_range.2 hi, rfl⟩

/-- x0 stands in group 0 only. -/
theorem countP_groupPairs (grp : Nat) (ws : List Nat) : (groupPairs grp ws).countP (fun p => p.1 = 0) = if grp = 0 then 1 else 0 := by
  rw [groupPairs, List.countP_map]
  by_cases h : grp = 0
  · subst h; rfl
  · rw [if_neg h]
    exact List.countP_eq_zero.2 (fun i _ => by simp [h])

/-- Settles O38: every answer ends leases of registers of its own, and drops copies of lines; a load's answer ends no lease. -/
theorem answersLand : Obligations.AnswersLand := by
  unfold Obligations.AnswersLand
  intro s r q hq hk hrun ended dropped failed record
  refine ⟨fun xd n sg v hkind ha hl => ?waits, fun xd n sg v hkind ha hl => ?load, fun gen is hkind ha hissue hsent => ?bar,
    fun fn n op cmp xd v hkind ha hxd => ?atomic, fun xd fs as hkind ha hxd => ?qpush, fun xd grp as hkind ha hgrp hxd hne => ?qpop⟩
  case waits => rw [loadAnswer_load hq hrun hkind ha, if_neg (by simp [hl])]
  case load =>
    refine ⟨_, (loadAnswer_load hq hrun hkind ha).trans (by rw [if_pos hl]), landLoad_lands s r q xd n sg v⟩
  case bar =>
    have hdrop := onlyDrops_dcDrop (s.setReq r none) (coreOf q.x) q.pa
    have hctx : (dcDrop (s.setReq r none) (coreOf q.x) q.pa).ctx q.x = s.ctx q.x := hdrop.ctx q.x
    refine ⟨_, loadAnswer_bar hq hrun hkind ha, ?_, hdrop.req r (State.req_setReq_same _ _ _), dcLine_dcDrop _ _ _, fun m => ?_,
      sameMemory_of_eq hdrop.mem hdrop.host⟩
    · simp [State.modIssue, hctx, hissue, hsent]
    · simp [State.modIssue, hctx, Ctx.rx]
  case atomic =>
    obtain ⟨hctx, hreq, hsame, hline⟩ := answer_lands (onlyDrops_dcDrop _ _ _) (reqLeaseEnd_atomic hq hkind ha)
    obtain ⟨-, hout0, hother, -⟩ := foldl_landed_other [(xd, BitVec.ofNat 64 v)] (s.ctx q.x)
    refine ⟨_, leaseEnd_of_req hq hk hrun, fun h0 => ?_, fun h0 => ?_, fun m hm => ?_, hreq, hline _ _ (dcLine_dcDrop _ _ _), hsame⟩
    · rw [hctx]
      exact foldl_landed_same (p := (xd, BitVec.ofNat 64 v)) (by simp) (List.mem_singleton.2 rfl) h0 hxd (s.ctx q.x)
    · rw [hctx]
      exact hout0.trans (by simp [h0])
    · rw [hctx]
      exact hother m (by simpa using hm.symm)
  case qpush =>
    obtain ⟨⟨hrx, hlease, hout⟩, hreq, hdropped, hrec, hsame⟩ := queueAnswer_lands (OnlyDrops.refl
      (endLeases (dropQueue (s.setReq r none) q) q.x [(xd, BitVec.ofNat 64 (as.headD 0))]))
    rw [← reqLeaseEnd_qpush hq hkind ha] at hrx hlease hout hreq hdropped hrec hsame
    obtain ⟨-, hout0, hother, -⟩ := foldl_landed_other [(xd, BitVec.ofNat 64 (as.headD 0))] (s.ctx q.x)
    refine ⟨_, leaseEnd_of_req hq hk hrun, fun h0 => ?_, fun h0 => ?_, fun m hm => ?_, hreq, hdropped, hrec, hsame⟩
    · rw [hrx, hlease]
      exact foldl_landed_same (p := (xd, BitVec.ofNat 64 (as.headD 0))) (by simp) (List.mem_singleton.2 rfl) h0 hxd (s.ctx q.x)
    · exact hout.trans (hout0.trans (by simp [h0]))
    · exact (hrx m).trans (hother m (by simpa using hm.symm))
  case qpop =>
    obtain ⟨w, hw, hdrops⟩ := reqLeaseEnd_qpop hq hkind ha
    obtain ⟨⟨hrx, hlease, hout⟩, hreq, hdropped, hrec, hsame⟩ := queueAnswer_lands hdrops
    rw [← hw] at hrx hlease hout hreq hdropped hrec hsame
    obtain ⟨-, hout0, hother, -⟩ :=
      foldl_landed_other ((xd, BitVec.ofNat 64 (as.headD 0)) :: groupPairs grp (as.drop 1)) (s.ctx q.x)
    have hnd : (((xd, BitVec.ofNat 64 (as.headD 0)) :: groupPairs grp (as.drop 1)).map (·.1)).Nodup := by
      refine List.nodup_cons.2 ⟨fun hin => ?_, ?_⟩
      · obtain ⟨i, hi, he⟩ := mem_groupPairs_reg.1 hin
        exact hne i hi he.symm
      · rw [groupPairs_regs]
        exact List.nodup_range.map (fun i j h => Nat.add_left_cancel h)
    refine ⟨_, leaseEnd_of_req hq hk hrun, fun h0 => ?_, fun i hi h0 => ?_, ?_, fun m hm hm8 => ?_, hreq, hdropped, hrec, hsame⟩
    · rw [hrx, hlease]
      exact foldl_landed_same (p := (xd, BitVec.ofNat 64 (as.headD 0))) hnd List.mem_cons_self h0 hxd (s.ctx q.x)
    · have hin := List.mem_cons_of_mem (xd, BitVec.ofNat 64 (as.headD 0)) (mem_groupPairs (grp := grp) (as.drop 1) hi)
      rw [hrx, hlease]
      exact foldl_landed_same hnd hin h0 (show 8 * grp + i < 32 by omega) (s.ctx q.x)
    · refine hout.trans (hout0.trans ?_)
      rw [List.countP_cons, countP_groupPairs]
      simp [Nat.add_comm]
    · refine (hrx m).trans (hother m (fun p hp he => ?_))
      rcases List.mem_cons.1 hp with rfl | hp
      · exact hm he.symm
      · obtain ⟨i, hi, he'⟩ := mem_groupPairs_reg.1 (List.mem_map_of_mem (f := (·.1)) hp)
        exact hm8 i hi (he.symm.trans he'.symm)

end Sys2Proof.Machine

/-! PROOFS. What the homes and the engines of a die change when they read, count and write memory: nothing of the units of a core, and of
the dies and packages only logs, counters and the marks of a migration (R255, R271 to R273, R291, R385). -/

namespace Sys2Proof.Machine

/-! ## What a home may change -/

/-- A die whose fault log, counters of errors and hotness counters alone have changed. -/
def Die.sameButLogs (v w : Die) : Prop :=
  { w with cecnt := v.cecnt, flog := v.flog, flogp := v.flogp, hot := v.hot, hotLost := v.hotLost, hotdrop := v.hotdrop,
           hotJobs := v.hotJobs } = v

/-- A package in which only vectors have been raised and lines of a migration marked. -/
def Pkg.sameButMarks (k l : Pkg) : Prop := { l with vectors := k.vectors, mig := { l.mig with marked := k.mig.marked } } = k

theorem Die.sameButLogs.trans {v w z : Die} (h : v.sameButLogs w) (g : w.sameButLogs z) : v.sameButLogs z :=
  Eq.trans (congrArg (fun z : Die => { z with
    cecnt := v.cecnt, flog := v.flog, flogp := v.flogp, hot := v.hot, hotLost := v.hotLost, hotdrop := v.hotdrop,
    hotJobs := v.hotJobs }) g :) h

theorem Pkg.sameButMarks.trans {k l m : Pkg} (h : k.sameButMarks l) (g : l.sameButMarks m) : k.sameButMarks m :=
  Eq.trans (congrArg (fun z : Pkg => { z with vectors := k.vectors, mig := { z.mig with marked := k.mig.marked } }) g :) h

/-- What a home or an engine of a die changes: memory, the errors in it, and what dies and packages log. -/
structure HomeOnly (s t : State) : Prop where
  frame : { t with dies := s.dies, pkgs := s.pkgs, mem := s.mem, host := s.host, errs := s.errs, free := s.free } = s
  die : ∀ d, (s.die d).sameButLogs (t.die d)
  pkg : ∀ p, (s.pkg p).sameButMarks (t.pkg p)
  errs : s.errs = [] → t.errs = []
  memWf : s.mem.wf = true → t.mem.wf = true
  hostWf : s.host.wf = true → t.host.wf = true

theorem HomeOnly.refl (s : State) : HomeOnly s s := ⟨rfl, fun _ => rfl, fun _ => rfl, fun h => h, fun h => h, fun h => h⟩

theorem HomeOnly.trans {s t u : State} (h : HomeOnly s t) (g : HomeOnly t u) : HomeOnly s u where
  frame := (congrArg (fun v : State => { v with
    dies := s.dies, pkgs := s.pkgs, mem := s.mem, host := s.host, errs := s.errs, free := s.free }) g.frame).trans h.frame
  die d := (h.die d).trans (g.die d)
  pkg p := (h.pkg p).trans (g.pkg p)
  errs e := g.errs (h.errs e)
  memWf w := g.memWf (h.memWf w)
  hostWf w := g.hostWf (h.hostWf w)

section
variable {s t : State} (h : HomeOnly s t)
include h

theorem HomeOnly.ctxs : t.ctxs = s.ctxs := (congrArg State.ctxs h.frame :)
theorem HomeOnly.cores : t.cores = s.cores := (congrArg State.cores h.frame :)
theorem HomeOnly.sheds : t.sheds = s.sheds := (congrArg State.sheds h.frame :)
theorem HomeOnly.reqs : t.reqs = s.reqs := (congrArg State.reqs h.frame :)
theorem HomeOnly.cur : t.cur = s.cur := (congrArg State.cur h.frame :)
theorem HomeOnly.ctx (x : Nat) : t.ctx x = s.ctx x := congrArg (Tab.get Ctx.reset · x) h.ctxs
theorem HomeOnly.core (c : Nat) : t.core c = s.core c := congrArg (Tab.get Core.reset · c) h.cores
theorem HomeOnly.hotcfg (d : Nat) : (t.die d).hotcfg = (s.die d).hotcfg := (congrArg Die.hotcfg (h.die d) :)
theorem HomeOnly.hotq (d : Nat) : (t.die d).hotq = (s.die d).hotq := (congrArg Die.hotq (h.die d) :)

end

/-- Hotness counters of no die notify: none counts, or no queue is named (R272, R273). -/
def State.quiet (s : State) : Prop := ∀ d, (s.die d).hotcfg = 0 ∨ bit (s.die d).hotq 0 = false

theorem HomeOnly.quiet {s t : State} (h : HomeOnly s t) (hq : s.quiet) : t.quiet := fun d => by
  rw [h.hotcfg, h.hotq]; exact hq d

/-- What serving reads changes: memory only where a counter notifies (R273). -/
structure Served (s t : State) : Prop extends HomeOnly s t where
  host : t.host = s.host
  mem : s.quiet → t.mem = s.mem

theorem Served.refl (s : State) : Served s s := ⟨.refl s, rfl, fun _ => rfl⟩

theorem Served.trans {s t u : State} (h : Served s t) (g : Served t u) : Served s u :=
  ⟨h.toHomeOnly.trans g.toHomeOnly, g.host.trans h.host, fun hq => (g.mem (h.toHomeOnly.quiet hq)).trans (h.mem hq)⟩

theorem Served.sameMemory {s t : State} (h : Served s t) (hq : s.quiet) : sameMemory s t := sameMemory_of_eq (h.mem hq) h.host

/-! ## Logs, errors and counters -/

theorem served_modDie (s : State) (d : Nat) (f : Die → Die) (h : ∀ v : Die, v.sameButLogs (f v)) : Served s (s.modDie d f) := by
  refine ⟨⟨rfl, fun e => ?_, fun _ => rfl, fun h => h, fun h => h, fun h => h⟩, rfl, fun _ => rfl⟩
  by_cases he : e = d
  · subst he
    simp only [State.modDie_eq, State.die_setDie_same]
    exact h _
  · simp only [State.modDie_eq, State.die_setDie_other _ _ he]
    rfl

theorem served_modPkg (s : State) (p : Nat) (f : Pkg → Pkg) (h : ∀ k : Pkg, k.sameButMarks (f k)) : Served s (s.modPkg p f) := by
  refine ⟨⟨rfl, fun _ => rfl, fun q => ?_, fun h => h, fun h => h, fun h => h⟩, rfl, fun _ => rfl⟩
  by_cases hq : q = p
  · subst hq
    simp only [State.modPkg_eq, State.pkg_setPkg_same]
    exact h _
  · simp only [State.modPkg_eq, State.pkg_setPkg_other _ _ hq]
    rfl

theorem served_raiseVector (s : State) (p v : Nat) : Served s (raiseVector s p v) := served_modPkg s p _ fun _ => rfl

theorem served_nextFree (s : State) : Served s s.nextFree :=
  ⟨⟨rfl, fun _ => rfl, fun _ => rfl, fun h => h, fun h => h, fun h => h⟩, rfl, fun _ => rfl⟩

theorem served_logRec (s : State) (d : Nat) (r : Rec) : Served s (logRec s d r) := by
  unfold logRec
  dsimp only
  split
  · exact served_modDie s d _ fun _ => rfl
  · refine Served.trans ?_ (served_raiseVector _ _ _)
    exact served_modDie s d _ fun _ => rfl

theorem served_machineCheckDie (s : State) (d : Nat) (f : Flt) : Served s (machineCheckDie s d f) :=
  (served_nextFree s).trans (served_logRec _ _ _)

theorem served_correct (s : State) (d : Nat) (p : Storage) (lo n : Nat) : Served s (correct s d p lo n) := by
  unfold correct
  dsimp only
  split
  · exact .refl s
  · have hcount := served_modDie s d (fun v => { v with
      cecnt := (s.errs.filter (fun e => e.within p lo n && !e.hard)).foldl (fun w _ => countUp w p.field) v.cecnt }) fun _ => rfl
    refine hcount.trans ⟨⟨rfl, fun _ => rfl, fun _ => rfl, fun h => ?_, fun h => h, fun h => h⟩, rfl, fun _ => rfl⟩
    exact congrArg (List.filter _) h

theorem served_checkRead (s : State) (d : Nat) (p : Storage) (key n : Nat) : Served s (checkRead s d p key n).1 := served_correct s d p key n

theorem served_checkHome (s : State) (p : Place) (n : Nat) : Served s (checkHome s p n).1 := by
  unfold checkHome
  split
  · exact .refl s
  · have h := served_checkRead s (homeDieOf p) .mss (memKey p.pkg p.pa) n
    split
    case h_1 u f hu => rwa [hu] at h
    case h_2 u hu =>
      rw [hu] at h
      exact h.trans (served_checkRead u _ _ _ _)

theorem served_checkHomes (s : State) (rs : List (Place × Nat)) : Served s (checkHomes s rs).1 := by
  induction rs generalizing s with
  | nil => exact .refl s
  | cons r rs ih =>
    have h := served_checkHome s r.1 r.2
    unfold checkHomes
    split
    case h_1 u f hu => rwa [hu] at h
    case h_2 u hu =>
      rw [hu] at h
      exact h.trans (ih u)

/-- A read with no context goes on or logs a machine check; what follows it decides the rest. -/
theorem served_readDie {s : State} (rs : List (Place × Nat)) {bad k : State → State} (hbad : ∀ u, Served s u → Served u (bad u))
    (hk : ∀ u, Served s u → Served u (k u)) : Served s (readDie s rs bad k) := by
  have h := served_checkHomes s rs
  unfold readDie
  split
  case h_1 u hu =>
    rw [hu] at h
    exact h.trans (hk u h)
  case h_2 u f hu =>
    rw [hu] at h
    have hc := h.trans (served_machineCheckDie u ((rs.map (fun r => homeDieOf r.1)).headD 0) f)
    exact hc.trans (hbad _ hc)

/-! ## Writes -/

theorem homeOnly_mem (s : State) {m : Memory} (h : s.mem.wf = true → m.wf = true) : HomeOnly s { s with mem := m } :=
  ⟨rfl, fun _ => rfl, fun _ => rfl, fun h => h, h, fun h => h⟩

theorem homeOnly_writePhys (s : State) (p : Nat) (host : Bool) (pa : Nat) (bs : List Byte) : HomeOnly s (s.writePhys p host pa bs) := by
  have hmem : HomeOnly s { s with mem := Memory.write s.mem (memKey p pa) bs } := homeOnly_mem s (Memory.wf_write bs _ _)
  unfold State.writePhys
  split
  · exact .refl s
  · split
    · exact ⟨rfl, fun _ => rfl, fun _ => rfl, fun h => h, fun h => h, Memory.wf_write bs _ _⟩
    · dsimp only
      split
      · exact hmem
      · refine hmem.trans (served_modPkg _ p _ fun k => ?_).toHomeOnly
        unfold Pkg.sameButMarks migMark
        split <;> rfl

theorem homeOnly_foldl {α : Type} (f : State → α → State) (h : ∀ s a, HomeOnly s (f s a)) (l : List α) (s : State) :
    HomeOnly s (l.foldl f s) := by
  induction l generalizing s with
  | nil => exact .refl s
  | cons a l ih => exact (h s a).trans (ih _)

theorem served_foldl {α : Type} (f : State → α → State) (h : ∀ s a, Served s (f s a)) (l : List α) (s : State) :
    Served s (l.foldl f s) := by
  induction l generalizing s with
  | nil => exact .refl s
  | cons a l ih => exact (h s a).trans (ih _)

/-! ## Queue blocks -/

theorem homeOnly_qWrite (s : State) (p q at_ off : Nat) (ws : List Nat) : HomeOnly s (qWrite s p q at_ off ws) := by
  induction ws generalizing s off with
  | nil => exact .refl s
  | cons w ws ih => exact (homeOnly_writePhys s _ _ _ _).trans (ih _ _)

theorem homeOnly_qSet (s : State) (p q head tail free count : Nat) : HomeOnly s (qSet s p q head tail free count) :=
  (homeOnly_writePhys s _ _ _ _).trans (homeOnly_writePhys _ _ _ _ _)

theorem homeOnly_qPush (s : State) (p q : Nat) (r : List Nat) : HomeOnly s (qPush s p q r).1 := by
  unfold qPush
  dsimp only
  split
  · exact .refl s
  · exact ((homeOnly_qWrite s _ _ _ _ _).trans (homeOnly_writePhys _ _ _ _ _)).trans (homeOnly_qSet _ _ _ _ _ _ _)

theorem homeOnly_qPop (s : State) (p q : Nat) : HomeOnly s (qPop s p q).1 := by
  unfold qPop
  split
  · exact .refl s
  · exact (homeOnly_writePhys s _ _ _ _).trans (homeOnly_qSet _ _ _ _ _ _ _)

theorem qWrite_host (s : State) (p q at_ off : Nat) (ws : List Nat) : (qWrite s p q at_ off ws).host = s.host := by
  induction ws generalizing s off with
  | nil => rfl
  | cons w ws ih => exact (ih _ _).trans (writePhys_host _ _ _ _)

theorem qSet_host (s : State) (p q head tail free count : Nat) : (qSet s p q head tail free count).host = s.host :=
  (writePhys_host _ _ _ _).trans (writePhys_host _ _ _ _)

theorem qPush_host (s : State) (p q : Nat) (r : List Nat) : (qPush s p q r).1.host = s.host := by
  unfold qPush
  dsimp only
  split
  · rfl
  · exact (qSet_host _ _ _ _ _ _ _).trans ((writePhys_host _ _ _ _).trans (qWrite_host _ _ _ _ _ _))

/-! ## Hotness counters -/

theorem served_holdJob (s : State) (d : Nat) (j : HotJob) : Served s (holdJob s d j) := served_modDie s d _ fun _ => rfl

/-- Where a die counts and names a queue, a change of memory is one that a notification may make. -/
theorem HomeOnly.served {s t : State} (h : HomeOnly s t) (hh : t.host = s.host) (hloud : ¬ s.quiet) : Served s t :=
  ⟨h, hh, fun hq => absurd hq hloud⟩

theorem served_pushNote {count : State → Nat → Place → State} (hc : ∀ s d p, Served s (count s d p)) {s : State} (d : Nat)
    (rec : List Nat) (hloud : ¬ s.quiet) : Served s (pushNote count s d rec) := by
  unfold pushNote
  dsimp only
  split
  · exact served_holdJob s d _
  · refine (hc s d _).trans (served_readDie _ (fun u _ => .refl u) fun u hu => ?_)
    split
    · exact served_logRec u d _
    · have hcu := (hc s d (queuePlaceOf d (fldN (s.die d).hotq 8 36 * 2 ^ 8))).trans hu
      have hu' : ¬ u.quiet := fun hq => hloud fun e => by
        rw [← hcu.toHomeOnly.hotcfg, ← hcu.toHomeOnly.hotq]; exact hq e
      have hp := (homeOnly_qPush u (pkgOfDie d) (fldN (s.die d).hotq 8 36 * 2 ^ 8) rec).served (qPush_host _ _ _ _) hu'
      split
      case h_1 v hv =>
        rw [hv] at hp
        exact hp.trans (served_modDie v d _ fun _ => rfl)
      case h_2 v hv =>
        rw [hv] at hp
        exact hp.trans (served_modDie v d _ fun _ => rfl)

theorem served_hotNotify {count : State → Nat → Place → State} (hc : ∀ s d p, Served s (count s d p)) {s : State} (d blk cls : Nat)
    (w : Word) (hcfg : (s.die d).hotcfg ≠ 0) : Served s (hotNotify count s d blk cls w) := by
  unfold hotNotify
  split
  case isTrue hq => exact served_pushNote hc d _ fun h => (h d).elim hcfg fun hf => Bool.false_ne_true (hf.symm.trans hq)
  case isFalse => exact .refl s

theorem served_readHot {s : State} (d blk : Nat) {k : Word → State → State} (hk : ∀ w u, Served s u → Served u (k w u)) :
    Served s (readHot s d blk k) := by
  unfold readHot
  dsimp only
  split
  · have h := served_checkRead s d .mss (memKey (hotPlace s d blk).pkg (hotPlace s d blk).pa) 8
    split
    case h_1 u f hu =>
      rw [hu] at h
      exact h.trans (served_machineCheckDie u d f)
    case h_2 u hu =>
      rw [hu] at h
      exact h.trans (hk _ u h)
  · exact served_readDie _ (fun u _ => .refl u) fun u hu => hk _ u hu

/-- A count changes counters, and memory only where it notifies (R271, R273). -/
theorem served_hotTouchN (n : Nat) (s : State) (src d pa : Nat) : Served s (hotTouchN n s src d pa) := by
  induction n generalizing s src d pa with
  | zero => exact .refl s
  | succ n ih =>
    unfold hotTouchN
    dsimp only
    split
    · exact .refl s
    case h_2 cls hcls =>
      split
      · exact .refl s
      case isFalse hoff =>
        split
        · exact served_holdJob s d _
        · refine served_readHot d _ fun w u hu => ?_
          have hcfg : (s.die d).hotcfg ≠ 0 := fun h0 => by simp [h0, bit] at hoff
          split
          · exact .refl u
          · have hm := served_modDie u d (fun v => { v with
                hot := Tab.set none v.hot (pa / 2 ^ 16) (some (BitVec.ofNat 64 (w.toNat + 2 ^ (16 * cls)))) }) fun _ => rfl
            split
            · refine hm.trans (served_hotNotify (fun s src b => ih s src _ _) d _ _ _ ?_)
              rwa [hm.toHomeOnly.hotcfg, hu.toHomeOnly.hotcfg]
            · exact hm

theorem served_countHome (s : State) (src : Nat) (p : Place) : Served s (countHome s src p) := by
  unfold countHome
  split
  · exact .refl s
  · exact served_hotTouchN _ _ _ _ _

theorem served_serveRead (s : State) (src : Nat) (p : Place) (n : Nat) : Served s (serveRead s src p n).1 :=
  (served_countHome s src p).trans (served_checkHome _ _ _)

theorem served_serveReads (s : State) (src : Nat) (rs : List (Place × Nat)) : Served s (serveReads s src rs).1 := by
  induction rs generalizing s with
  | nil => exact .refl s
  | cons r rs ih =>
    have h := served_serveRead s src r.1 r.2
    unfold serveReads
    split
    case h_1 u f hu => rwa [hu] at h
    case h_2 u hu =>
      rw [hu] at h
      exact h.trans (ih u)

/-! ## Engines of a die -/

theorem served_translateDie (s : State) (d : Nat) (va : Word) (kind : Nat) : Served s (translateDie s d va kind).2 := by
  unfold translateDie
  dsimp only
  split
  · exact .refl s
  · have h := served_serveReads s d (walk s d (va.toNat / 2 ^ 16) []).reads
    split
    case h_1 u f hu =>
      rw [hu] at h
      exact h.trans (served_machineCheckDie u d f)
    case h_2 u hu =>
      rw [hu] at h
      split
      · exact h
      · exact h
      · exact h
      · exact h
      · exact h
      · exact h
      · split_ifs <;> exact h

theorem homeOnly_accBind {α β : Type} {s : State} {r : Acc α × State} {k : α → State → Acc β × State} (hr : HomeOnly s r.2)
    (hk : ∀ a u, HomeOnly u (k a u).2) : HomeOnly s (accBind r k).2 := by
  unfold accBind
  split
  · exact hr.trans (hk _ _)
  · exact hr
  · exact hr

theorem served_accBind {α β : Type} {s : State} {r : Acc α × State} {k : α → State → Acc β × State} (hr : Served s r.2)
    (hk : ∀ a u, Served u (k a u).2) : Served s (accBind r k).2 := by
  unfold accBind
  split
  · exact hr.trans (hk _ _)
  · exact hr
  · exact hr

theorem served_placesOf (s : State) (d va kind : Nat) (cs : List (Nat × Nat)) : Served s (placesOf s d va kind cs).2 := by
  induction cs generalizing s with
  | nil => exact .refl s
  | cons c cs ih =>
    exact served_accBind (served_translateDie s d _ kind) fun p u => served_accBind (ih u) fun ps v => .refl v

theorem served_readPieces (s : State) (d va : Nat) (ps : List ((Nat × Nat) × Place)) : Served s (readPieces s d va ps).2 := by
  have h := served_serveReads s d (lineReads ps)
  unfold readPieces
  split
  case h_1 u f hu =>
    rw [hu] at h
    exact h.trans (served_machineCheckDie u d f)
  case h_2 u hu => rwa [hu] at h

theorem served_readAs (s : State) (d va n kind : Nat) : Served s (readAs s d va n kind).2 :=
  served_accBind (served_placesOf s d va kind _) fun ps u => served_readPieces u d va ps

theorem homeOnly_writeRange (s : State) (d va : Nat) (bs : List Byte) : HomeOnly s (writeRange s d va bs).2 :=
  homeOnly_accBind (served_placesOf s d va 1 _).toHomeOnly fun _ u =>
    (served_foldl (fun s (r : Place × Nat) => countHome s d r.1) (fun s r => served_countHome s d r.1) _ u).toHomeOnly.trans
      (homeOnly_foldl _ (fun _ _ => homeOnly_writePhys _ _ _ _ _) _ _)

theorem homeOnly_writeFrameRec (s : State) (x off : Nat) (r : Rec) : HomeOnly s (writeFrameRec s x off r) := by
  rw [writeFrameRec, writeVaD]
  exact homeOnly_writeRange s _ _ _

end Sys2Proof.Machine

/-! PROOFS. A fault enters the trap handler: the replay buffer, the record and the frame that takes it (R26, R74 to R80). -/

namespace Sys2Proof.Machine

/-! ## The withdrawn load -/

theorem withdrawLoad_none {s : State} {x : Nat} {is : Issue} (h : is.ld = none) : withdrawLoad s x is = (is, s) := by
  simp only [withdrawLoad, h]

/-- A load whose value is not fixed is not performed, and its request is withdrawn (R19, R74). -/
theorem withdrawLoad_load {s : State} {x r xd sz : Nat} {sg : Bool} {is : Issue} {q : Req} (hld : is.ld = some r)
    (hq : s.req r = some q) (hk : q.kind = .load xd sz sg) (ha : q.ans = none) :
    withdrawLoad s x is = ({ is with perf := setBit is.perf 2 false },
      (s.setReq r none).modCtx x (fun c => { c with await := setBit c.await xd false })) := by
  simp only [withdrawLoad, hld, hq, hk, ha]

/-- A withdrawal changes requests and the context's awaited registers only. -/
theorem withdrawLoad_frame (s : State) (x : Nat) (is : Issue) :
    let u := (withdrawLoad s x is).2
    u.cur = s.cur ∧ (∃ a, u.ctx x = { s.ctx x with await := a }) ∧ ∀ y, y ≠ x → u.ctx y = s.ctx y := by
  unfold withdrawLoad
  split
  · exact ⟨rfl, ⟨_, rfl⟩, fun _ _ => rfl⟩
  · split
    · exact ⟨rfl, ⟨_, rfl⟩, fun _ _ => rfl⟩
    · split
      · exact ⟨rfl, ⟨_, State.ctx_setCtx_same _ _ _⟩, fun y hy => State.ctx_setCtx_other _ _ hy⟩
      · exact ⟨rfl, ⟨_, rfl⟩, fun _ _ => rfl⟩

theorem bit_setBit_false {w : Nat} (m : BitVec w) (n : Nat) : bit (setBit m n false) n = false := by
  by_cases h : n < w
  · rw [bit_setBit m n false h, if_pos rfl]
  · exact BitVec.getLsbD_of_ge _ _ (Nat.le_of_not_lt h)

/-! ## Delivery -/

/-- What a fault outside the trap handler leaves where a handler is set (R75, R76). -/
theorem takeFault_enters {s : State} {f : Flt} {is : Issue} (hissue : s.me.issue = some is) (ht : s.me.t = false)
    (htvec : fldN s.me.tvec 7 48 ≠ 0) (hframe : frameWaits s s.cur.x = false) :
    let u := (withdrawLoad s s.cur.x is).2
    takeFault s f = (writeFrameRec u s.cur.x 0x390 (mkRec u s.cur.x true f)).modCtx s.cur.x (fun c => { c with
      rb := some (withdrawLoad s s.cur.x is).1, issue := none, reissue := false, drain := true,
      epc := BitVec.ofNat 64 ((withdrawLoad s s.cur.x is).1.addr % 2 ^ 55), t := true, pc := fldN c.tvec 7 48 * 128 + 8 }) := by
  intro u
  obtain ⟨hcur, ⟨a, hctx⟩, -⟩ := withdrawLoad_frame s s.cur.x is
  have hut : (u.ctx s.cur.x).t = false := by rw [hctx]; exact ht
  have hutvec : (u.ctx s.cur.x).tvec = s.me.tvec := by rw [hctx]; rfl
  have hcx : u.cur.x = s.cur.x := by rw [hcur]
  rw [takeFault, hissue]
  simp only [hframe, Bool.false_eq_true, if_false, deliver]
  change (if (u.ctx u.cur.x).t = true then _ else _) = _
  rw [hcx, hut, hutvec, if_neg Bool.false_ne_true, if_neg htvec]

theorem withdrawLoad_addr (s : State) (x : Nat) (is : Issue) : (withdrawLoad s x is).1.addr = is.addr := by
  unfold withdrawLoad
  split
  · rfl
  · split
    · rfl
    · split <;> rfl

/-- What was in flight holds the context after a fault (R78). -/
theorem mayIssue_of_drain {s : State} {x : Nat} (hd : (s.ctx x).drain = true) (h : (s.ctx x).await ≠ 0 ∨ (s.ctx x).lease ≠ 0) :
    mayIssue s x = false := by
  have : ((s.ctx x).drain && (decide ((s.ctx x).await ≠ 0) || decide ((s.ctx x).lease ≠ 0))) = true := by
    simpa only [hd, Bool.true_and, Bool.or_eq_true, decide_eq_true_eq] using h
  simp only [mayIssue, this, Bool.not_true, Bool.and_false, Bool.false_and]

/-! ## The record -/

theorem engOf_lt {code : Nat} (h : code < 2 ^ 8) : engOf code < 16 := by
  unfold engOf
  split_ifs <;> omega

/-- The fields of a record's first word, laid out from R26. -/
theorem mkRec_w0_toNat {s : State} {x : Nat} {precise : Bool} {f : Flt} (hc : f.code < 2 ^ 8) (hk : f.ak < 4) (hu : f.unit < 2 ^ 16) :
    (mkRec s x precise f).w0.toNat = f.unit * 2 ^ 32 + f.ak * 2 ^ 28 + 2 ^ 27 + x % 4 * 2 ^ 25 + x / 4 % 512 * 2 ^ 16 + 2 ^ 14 +
      b2n precise * 2 ^ 13 + engOf f.code * 2 ^ 8 + f.code := by
  have he := engOf_lt hc
  have hp : b2n precise ≤ 1 := by cases precise <;> decide
  simp only [mkRec, coreId, coreOf, BitVec.toNat_ofNat]
  exact Nat.mod_eq_of_lt (by omega)

theorem ofLe_append (as bs : List Byte) : ofLe (as ++ bs) = ofLe as + 256 ^ as.length * ofLe bs := by
  induction as with
  | nil => simp [ofLe]
  | cons a as ih => simp only [List.cons_append, ofLe, ih, List.length_cons, pow_succ]; ring

theorem ofLe_leBytes (n v : Nat) : ofLe (leBytes n v) = v % 256 ^ n := by
  induction n generalizing v with
  | zero => simp [leBytes, ofLe, Nat.mod_one]
  | succ n ih =>
    rw [leBytes, ofLe, ih, pow_succ', Nat.mod_mul]
    simp

theorem length_recBytes (r : Rec) : r.bytes.length = 32 := by simp [Rec.bytes]

theorem ofLe_word (w : Word) : ofLe (leBytes 8 w.toNat) = w.toNat := by
  rw [ofLe_leBytes]
  exact Nat.mod_eq_of_lt w.isLt

/-- The bytes of a record are its four words, lowest first (R3, R26). -/
theorem ofLe_recBytes (r : Rec) : ofLe r.bytes = r.w0.toNat + 2 ^ 64 * r.w1.toNat + 2 ^ 128 * r.w2.toNat + 2 ^ 192 * r.w3.toNat := by
  simp only [Rec.bytes, ofLe_append, ofLe_word, List.length_append, length_leBytes]
  norm_num

/-! ## Writes of a place -/

theorem writePhys_of_host (s : State) (p pa : Nat) (bs : List Byte) :
    s.writePhys p true pa bs = { s with host := Memory.write s.host (hostKey p pa) bs } := rfl

/-- Bytes written at a place read back where memory is installed. -/
theorem readsBack_writePhys (s : State) (p : Nat) (host : Bool) (pa : Nat) (bs : List Byte) :
    readsBack s (s.writePhys p host pa bs) p host pa bs := by
  cases host with
  | false => exact writePhys_readsBack s p pa bs
  | true => simp [readsBack, State.readBytes, installed, writePhys_of_host, Memory.read_write_same]

/-- A write at a place leaves every other byte of memory alone. -/
theorem readByte_writePhys_outside {s : State} {p : Nat} {host : Bool} {pa : Nat} {bs : List Byte} {q a : Nat} {h : Bool}
    (hout : h ≠ host ∨ placeKey h q a < placeKey host p pa ∨ placeKey host p pa + bs.length ≤ placeKey h q a) :
    readByte (s.writePhys p host pa bs) q h a = readByte s q h a := by
  cases host with
  | false =>
    refine readByte_writePhys_other s p pa bs q a h ?_
    cases h with
    | true => exact .inl rfl
    | false => exact .inr (by simpa [placeKey] using hout)
  | true =>
    cases h with
    | false => simp [readByte, State.readPhys, State.readBytes, writePhys_of_host]
    | true =>
      have hget : (Memory.write s.host (hostKey p pa) bs).get (hostKey q a) = s.host.get (hostKey q a) :=
        Memory.get_write_outside bs _ _ _ (by simpa [placeKey] using hout)
      simp [readByte, State.readPhys, State.readBytes, installed, writePhys_of_host, Memory.read, hget]

/-- A range that lies in one page is one piece (R298). -/
theorem pageCuts_within {va n : Nat} (hn : n ≠ 0) (h : va % 2 ^ 16 + n ≤ 2 ^ 16) : pageCuts va n = [(0, n)] := by
  have hone : (va % 2 ^ 16 + n + 2 ^ 16 - 1) / 2 ^ 16 = 1 := by omega
  simp only [pageCuts, hn, if_false, hone, List.range_one, List.map_cons, List.map_nil]
  have hlen : min n ((0 + 1) * 2 ^ 16 - va % 2 ^ 16) - 0 = n := by omega
  rw [Nat.zero_mul, Nat.zero_sub, hlen]

/-- A write within one page that translates: the homes count its lines, and its bytes are written (R271, R366). -/
theorem writeRange_within {s t : State} {d va : Nat} {bs : List Byte} {p : Place} (hbs : bs.length ≠ 0)
    (hpage : va % 2 ^ 16 + bs.length ≤ 2 ^ 16) (htr : translateDie s d (BitVec.ofNat 64 va) 1 = (.ok p, t)) :
    (writeRange s d va bs).2 =
      ((lineCuts p bs.length).foldl (fun s l => countHome s d l.1) t).writePhys p.pkg (p.pl = 2) p.pa bs := by
  have hplaces : placesOf s d va 1 [(0, bs.length)] = (.ok [((0, bs.length), p)], t) := by
    simp only [placesOf, accBind, Nat.add_zero, htr]
  have hreads : lineReads [((0, bs.length), p)] = lineCuts p bs.length := List.append_nil _
  rw [writeRange, pageCuts_within hbs hpage, hplaces]
  simp only [accBind, hreads, List.foldl_cons, List.foldl_nil, List.drop_zero, List.take_length]

/-- A record goes to the place of its offset in the frame: the homes count its lines, and its bytes are written (R80, R271). -/
theorem writeFrameRec_eq {s t : State} {x off : Nat} {r : Rec} {p : Place} (hpage : ((s.ctx x).frame.toNat + off) % 2 ^ 16 + 32 ≤ 2 ^ 16)
    (htr : translateDie s (dieOfCtx x) (BitVec.ofNat 64 ((s.ctx x).frame.toNat + off)) 1 = (.ok p, t)) :
    writeFrameRec s x off r =
      ((lineCuts p 32).foldl (fun s l => countHome s (dieOfCtx x) l.1) t).writePhys p.pkg (p.pl = 2) p.pa r.bytes := by
  have hlen := length_recBytes r
  rw [writeFrameRec, writeVaD, writeRange_within (by rw [hlen]; decide) (by rwa [hlen]) htr, hlen]

/-- ENG of a code is the engine whose codes its range holds (R25). -/
theorem engOf_of_range {code : Nat} : ∀ e ∈ [(0x00, 0x1F, 0), (0x20, 0x3F, 1), (0x40, 0x5F, 2), (0x60, 0x6F, 3), (0x70, 0x7F, 4),
    (0x80, 0x8F, 5), (0x90, 0x9F, 6), (0xA0, 0xAF, 7), (0xB0, 0xBF, 8), (0xF0, 0xFF, 0xF)], e.1 ≤ code → code ≤ e.2.1 →
    engOf code = e.2.2 := by
  simp only [List.forall_mem_cons, List.not_mem_nil, false_implies, implies_true, and_true]
  refine ⟨?_, ?_, ?_, ?_, ?_, ?_, ?_, ?_, ?_, ?_⟩ <;> intro hlo hhi <;> unfold engOf <;> split_ifs <;> omega

/-- The fields of a record (R26). -/
theorem mkRec_fields (s : State) (x : Nat) (precise : Bool) {f : Flt} (hc : f.code < 2 ^ 8) (hk : f.ak < 4) (hu : f.unit < 2 ^ 16) :
    let w := (mkRec s x precise f).w0
    (fldN w 48 16 = 0 ∧ fldN w 32 16 = f.unit ∧ fldN w 30 2 = 0 ∧ fldN w 28 2 = f.ak ∧ bit w 27 = true ∧ fldN w 25 2 = x % 4 ∧
      fldN w 16 9 = x / 4 % 512) ∧
    bit w 15 = false ∧ bit w 14 = true ∧ bit w 13 = precise ∧ bit w 12 = false ∧ fldN w 0 8 = f.code ∧ fldN w 8 4 = engOf f.code := by
  have he := engOf_lt hc
  have hp : b2n precise = 0 ∧ precise = false ∨ b2n precise = 1 ∧ precise = true := by cases precise <;> simp [b2n]
  simp only [fldN_eq, bit_eq, mkRec_w0_toNat hc hk hu]
  have hcore : x / 4 % 512 < 512 := Nat.mod_lt _ (by decide)
  have hctx : x % 4 < 4 := Nat.mod_lt _ (by decide)
  generalize x / 4 % 512 = c at *
  generalize x % 4 = y at *
  refine ⟨⟨by omega, by omega, by omega, by omega, decide_eq_true (by omega), by omega, by omega⟩,
    decide_eq_false (by omega), decide_eq_true (by omega), ?_, decide_eq_false (by omega), by omega, by omega⟩
  rcases hp with ⟨hp, rfl⟩ | ⟨hp, rfl⟩
  · exact decide_eq_false (by omega)
  · exact decide_eq_true (by omega)

/-- Settles O20: a fault outside the handler is one delivery after the withdrawal of a load; its record is one write to the frame. -/
theorem faultEntersHandler : Obligations.FaultEntersHandler := by
  unfold Obligations.FaultEntersHandler
  refine ⟨fun s f is hissue ht htvec hframe => ?enters, fun s x precise f hc hk hu ha hd => ?record,
    fun s t x off r p => ?frame, fun s x is => ?withdrawn⟩
  case enters =>
    intro u w
    obtain ⟨hcur, ⟨a, hctx⟩, hother⟩ := withdrawLoad_frame s s.cur.x is
    have hw : HomeOnly u w := homeOnly_writeFrameRec _ _ _ _
    have hwx : w.ctx s.cur.x = u.me := by rw [hw.ctx, State.me, hcur]
    have htake : takeFault s f = w.modCtx s.cur.x (fun c => { c with
        rb := some (withdrawLoad s s.cur.x is).1, issue := none, reissue := false, drain := true,
        epc := BitVec.ofNat 64 (is.addr % 2 ^ 55), t := true, pc := fldN c.tvec 7 48 * 128 + 8 }) := by
      have h := takeFault_enters (f := f) hissue ht htvec hframe
      rwa [withdrawLoad_addr] at h
    have hutvec : u.me.tvec = s.me.tvec := by rw [State.me, hcur, hctx]; rfl
    have hme : (takeFault s f).ctx s.cur.x = { u.me with
        rb := some (withdrawLoad s s.cur.x is).1, issue := none, reissue := false, drain := true,
        epc := BitVec.ofNat 64 (is.addr % 2 ^ 55), t := true, pc := fldN s.me.tvec 7 48 * 128 + 8 } := by
      rw [htake, State.modCtx_eq, State.ctx_setCtx_same, hwx, ← hutvec]
    have hcur' : (takeFault s f).cur = s.cur := by rw [htake, State.modCtx_eq, State.setCtx_cur, hw.cur, hcur]
    refine ⟨hw.ctxs, ?_, fun hflight => mayIssue_of_drain ?_ ?_, ?_, fun y hy => ?_⟩
    · rw [State.me, hcur']; exact hme
    · rw [hme]
    · rw [hme]; exact hflight
    · rw [htake, State.modCtx_eq]; exact sameMemory_of_eq (State.setCtx_mem _ _ _) (State.setCtx_host _ _ _)
    · rw [htake, State.modCtx_eq, State.ctx_setCtx_other _ _ hy, hw.ctx]
      exact hother y hy
  case record =>
    intro r
    obtain ⟨hlow, hid, hdie, hpre, hovf, hcode, heng⟩ := mkRec_fields s x precise hc hk hu
    obtain ⟨hzero, hunit, hres, hak, hctxv, hctx, hcore⟩ := hlow
    have haddr : f.addr % 2 ^ 64 = f.addr := Nat.mod_eq_of_lt ha
    have hdetail : f.detail % 2 ^ 64 = f.detail := Nat.mod_eq_of_lt hd
    exact ⟨hzero, hunit, hres, hak, hctxv, hctx, hcore, hid, hdie, hpre, hovf, hcode,
      fun e he hlo hhi => heng.trans (engOf_of_range e he hlo hhi), (BitVec.toNat_ofNat _ _).trans haddr,
      (BitVec.toNat_ofNat _ _).trans hdetail, rfl, ofLe_recBytes r, length_recBytes r⟩
  case frame =>
    intro d va w hpage htr c host key
    have hw : w = c.writePhys p.pkg host p.pa r.bytes := writeFrameRec_eq hpage htr
    have hserved : Served s c := by
      have ht := served_translateDie s d (BitVec.ofNat 64 va) 1
      rw [htr] at ht
      exact ht.trans (served_foldl (fun s (l : Place × Nat) => countHome s d l.1) (fun s l => served_countHome s d l.1) _ t)
    rw [hw]
    refine ⟨readsBack_writePhys _ _ _ _ _, fun q h a hout => readByte_writePhys_outside ?_,
      fun hcfg => hserved.sameMemory fun e => .inl (hcfg e)⟩
    rw [length_recBytes]
    exact hout
  case withdrawn =>
    refine ⟨withdrawLoad_none, fun r xd sz sg q hld hq hk ha => ?_⟩
    rw [withdrawLoad_load hld hq hk ha]
    refine ⟨rfl, State.req_setReq_same s r none, ?_, sameMemory_of_eq rfl rfl⟩
    simp only [State.modCtx_eq, State.ctx_setCtx_same]
    exact bit_setBit_false _ _

end Sys2Proof.Machine

/-! PROOFS. An upcall waits for a migration that holds its region table (R288, R291). -/

namespace Sys2Proof.Machine

/-- Package 0 finalises the migration of page 1. There die 0's region table names, for region 1, the empty queue of 64 bytes in page 2; one
upcall of the region is not pushed. -/
def upcallBehindMigration : State :=
  { State.reset with
    dies := [(0, { Die.reset with pgrbase := BitVec.ofNat 64 (2 ^ 63 + 2 ^ 16), upcalls := [⟨0, [], 1, false⟩] })]
    pkgs := [(0, { Pkg.reset with mig := { Mig.reset with st := .finalising, old := 1, new := 3 } })]
    mem := [(0x1000A, 0x02), (0x1000F, 0x80), (0x20006, 0x80), (0x20007, 0x51), (0x2000A, 0x40)] }

/-- While the migration holds the region table, the upcall is not pushed (R291). -/
theorem upcallRetry_waits : exec (.upcallRetry 0 0) upcallBehindMigration = .next upcallBehindMigration := by
  have hheld : pushUpcall upcallBehindMigration 0 ⟨0, [], 1, false⟩ = upcallBehindMigration := if_pos (by decide)
  exact congrArg Host.Outcome.next hheld

/-- The region table's queue is sound and has room for the upcall. -/
theorem upcall_hasRoom :
    let y := countHome upcallBehindMigration 0 (regionPlace upcallBehindMigration 0 1)
    regionQueue y 0 1 = some 0x20000 ∧ qOk (countHome y 0 (queuePlaceOf 0 0x20000)) 0 0x20000 = true ∧
      (qPush (countHome y 0 (queuePlaceOf 0 0x20000)) 0 0x20000 []).2 = true := by decide +kernel

/-- Refutes O56: its clause on upcalls speaks of no migration; one that holds the region table has the upcall wait, although its queue has
room (R291). -/
theorem not_translationEvents : ¬ Obligations.TranslationEvents := by
  unfold Obligations.TranslationEvents
  rintro ⟨-, -, -, -, -, -, -, -, hupcall, -⟩
  obtain ⟨hqueue, hok, hroom⟩ := upcall_hasRoom
  obtain ⟨hpush, -⟩ := hupcall upcallBehindMigration _ 0 0 0x20000 ⟨0, [], 1, false⟩ rfl rfl rfl hqueue hok
  obtain ⟨v, hv, -, hpushed⟩ := hpush (Prod.ext rfl hroom)
  obtain rfl : upcallBehindMigration = v := Host.Outcome.next.inj (upcallRetry_waits.symm.trans hv)
  exact absurd (hpushed ⟨0, [], 1, false⟩ (by decide) rfl) (by decide)

end Sys2Proof.Machine

/-! PROOFS. Every step keeps every memory in its canonical form (O8, log 3). Each function that makes a state has one lemma: from a state
whose memories are canonical it makes another. What writes memory is `State.writePhys`, `writeRec`, `landLane`, the windows' two events and
`clearWords`; every other function's lemma follows from those of the functions that it calls. -/

namespace Sys2Proof.Machine

/-! ### What results of each kind keep -/

/-- The yard of a core is in its canonical form. -/
def yardInv (v : Core) : Prop := v.yard.wf = true

/-- The yards of a table of cores are in their canonical form. -/
def coresInv (t : Tab Core) : Prop := ∀ c, yardInv (Tab.get Core.reset t c)

/-- The state that comes before another result has its memories in their canonical form. -/
def headInv {α : Type} : State × α → Prop
  | (s, _) => memoryInv s

/-- The state that comes after another result has its memories in their canonical form. -/
def endInv {α : Type} : α × State → Prop
  | (_, s) => memoryInv s

/-- A next state, if there is one, has its memories in their canonical form. -/
def outInv : Out → Prop
  | .next s => memoryInv s
  | _ => True

/-- The state of a slot's result has its memories in their canonical form. -/
def slotInv : SlotRes → Prop
  | .done s | .fault _ s | .serviced _ _ _ _ _ _ s | .check _ s | .wait s => memoryInv s

/-- The state of a translation's result has its memories in their canonical form. -/
def trInv : TrRes → Prop
  | .ok _ s | .fault _ _ s | .serviced _ _ _ _ s | .locked s | .check _ s => memoryInv s

/-- The state of a fetch's result has its memories in their canonical form. -/
def fetchInv : FetchRes → Prop
  | .ok _ s | .none s => memoryInv s

/-- The state that an entry's translation leaves has its memories in their canonical form. -/
def placesInv {α : Type} : Except State (α × State) → Prop
  | .error s => memoryInv s
  | .ok p => memoryInv p.2

/-- Each of the moves keeps the memories in their canonical form. -/
def movesInv (l : List Move) : Prop := ∀ m ∈ l, ∀ s, memoryInv s → outInv (m s)

theorem memoryInv_iff (s : State) : memoryInv s ↔ s.mem.wf = true ∧ s.host.wf = true ∧ coresInv s.cores := Iff.rfl

theorem yardInv_core {s : State} (h : memoryInv s) (c : Nat) : yardInv (s.core c) := h.2.2 c

theorem memoryInv_foldl {α : Type} {f : State → α → State} (hf : ∀ t a, memoryInv t → memoryInv (f t a)) (l : List α) {s : State}
    (h : memoryInv s) : memoryInv (l.foldl f s) := by
  induction l generalizing s with
  | nil => exact h
  | cons a l ih => exact ih (hf s a h)

theorem yardInv_foldl {α : Type} {f : Core → α → Core} (hf : ∀ v a, yardInv v → yardInv (f v a)) (l : List α) {v : Core}
    (h : yardInv v) : yardInv (l.foldl f v) := by
  induction l generalizing v with
  | nil => exact h
  | cons a l ih => exact ih (hf v a h)

/-- Cores whose table is changed at one place. -/
theorem coresInv_set {t : Tab Core} (h : coresInv t) {v : Core} (hv : yardInv v) (c : Nat) : coresInv (Tab.set Core.reset t c v) := by
  intro y
  by_cases hy : y = c
  · rw [hy, Tab.get_set_same]
    exact hv
  · rw [Tab.get_set_other _ _ _ hy]
    exact h y

/-- A table of cores whose elements are changed, but for their indices and yards, has the same yards. -/
theorem yard_get_map {f : Nat × Core → Nat × Core} (hf : ∀ p, (f p).1 = p.1 ∧ (f p).2.yard = p.2.yard) (t : Tab Core) (c : Nat) :
    (Tab.get Core.reset (t.map f) c).yard = (Tab.get Core.reset t c).yard := by
  induction t with
  | nil => rfl
  | cons p t ih =>
    obtain ⟨hindex, hyard⟩ := hf p
    by_cases hc : p.1 = c
    · simp [Tab.get, hindex, hc, hyard]
    · simp [Tab.get, hindex, hc, ih]

theorem coresInv_map {t : Tab Core} (h : coresInv t) {f : Nat × Core → Nat × Core}
    (hf : ∀ p, (f p).1 = p.1 ∧ (f p).2.yard = p.2.yard) : coresInv (t.map f) := by
  intro c
  unfold yardInv
  rw [yard_get_map hf]
  exact h c

@[simp] theorem movesInv_nil : movesInv [] := fun _ hm => absurd hm List.not_mem_nil

@[simp] theorem movesInv_cons (m : Move) (l : List Move) : movesInv (m :: l) ↔ (∀ s, memoryInv s → outInv (m s)) ∧ movesInv l :=
  List.forall_mem_cons

@[simp] theorem movesInv_append (l m : List Move) : movesInv (l ++ m) ↔ movesInv l ∧ movesInv m := List.forall_mem_append

theorem movesInv_map {α : Type} {f : α → Move} (hf : ∀ a s, memoryInv s → outInv (f a s)) (l : List α) : movesInv (l.map f) :=
  List.forall_mem_map.mpr fun a _ => hf a

theorem movesInv_flatMap {α : Type} {f : α → List Move} (hf : ∀ a, movesInv (f a)) (l : List α) : movesInv (l.flatMap f) := by
  intro m hm
  obtain ⟨a, -, ha⟩ := List.mem_flatMap.mp hm
  exact hf a m ha

/-- A table of cores from which some indices are dropped. -/
theorem coresInv_filter {t : Tab Core} (h : coresInv t) (f : Nat → Bool) : coresInv (t.filter (fun p => f p.1)) := by
  intro c
  have hget : Tab.get Core.reset (t.filter (fun p => f p.1)) c = if f c then Tab.get Core.reset t c else Core.reset := by
    clear h
    induction t with
    | nil => simp [Tab.get]
    | cons p t ih => grind [Tab.get]
  rw [hget]
  split
  · exact h c
  · rfl

variable {s : State}

theorem memoryInv_ite {c : Prop} [Decidable c] {a b : State} (ha : memoryInv a) (hb : memoryInv b) : memoryInv (if c then a else b) :=
  iteInduction (fun _ => ha) (fun _ => hb)

theorem outInv_ite {c : Prop} [Decidable c] {a b : Out} (ha : outInv a) (hb : outInv b) : outInv (if c then a else b) :=
  iteInduction (fun _ => ha) (fun _ => hb)

theorem slotInv_ite {c : Prop} [Decidable c] {a b : SlotRes} (ha : slotInv a) (hb : slotInv b) : slotInv (if c then a else b) :=
  iteInduction (fun _ => ha) (fun _ => hb)

theorem headInv_ite {c : Prop} [Decidable c] {α : Type} {a b : State × α} (ha : headInv a) (hb : headInv b) : headInv (if c then a else b) :=
  iteInduction (fun _ => ha) (fun _ => hb)

theorem endInv_ite {c : Prop} [Decidable c] {α : Type} {a b : α × State} (ha : endInv a) (hb : endInv b) : endInv (if c then a else b) :=
  iteInduction (fun _ => ha) (fun _ => hb)

theorem trInv_ite {c : Prop} [Decidable c] {a b : TrRes} (ha : trInv a) (hb : trInv b) : trInv (if c then a else b) :=
  iteInduction (fun _ => ha) (fun _ => hb)

theorem yardInv_ite {c : Prop} [Decidable c] {a b : Core} (ha : yardInv a) (hb : yardInv b) : yardInv (if c then a else b) :=
  iteInduction (fun _ => ha) (fun _ => hb)

/-! ### The functions of Units -/

theorem memoryInv_setCtx (h : memoryInv s) (x : Nat) (c : Ctx) : memoryInv (State.setCtx s x c) := h

theorem memoryInv_setCore {s : State} (h : memoryInv s) {v : Core} (hv : yardInv v) (c : Nat) : memoryInv (State.setCore s c v) :=
  ⟨h.1, h.2.1, coresInv_set h.2.2 hv c⟩

theorem memoryInv_setDie (h : memoryInv s) (d : Nat) (v : Die) : memoryInv (State.setDie s d v) := h

theorem memoryInv_setPkg (h : memoryInv s) (p : Nat) (v : Pkg) : memoryInv (State.setPkg s p v) := h

theorem memoryInv_modCtx (h : memoryInv s) (x : Nat) (f : Ctx → Ctx) : memoryInv (State.modCtx s x f) := memoryInv_setCtx h _ _

theorem memoryInv_modCore (h : memoryInv s) (c : Nat) (f : Core → Core) (hf : ∀ a, yardInv a → yardInv (f a)) :
    memoryInv (State.modCore s c f) :=
  memoryInv_setCore h (hf _ (yardInv_core h _)) _

theorem memoryInv_modDie (h : memoryInv s) (d : Nat) (f : Die → Die) : memoryInv (State.modDie s d f) := memoryInv_setDie h _ _

theorem memoryInv_modPkg (h : memoryInv s) (p : Nat) (f : Pkg → Pkg) : memoryInv (State.modPkg s p f) := memoryInv_setPkg h _ _

theorem memoryInv_hostWrite (h : memoryInv s) (d : Nat) (f : State → State) (hf : ∀ t, memoryInv t → memoryInv (f t)) :
    memoryInv (hostWrite s d f) :=
  memoryInv_ite h (hf _ h)

theorem memoryInv_modMe (h : memoryInv s) (f : Ctx → Ctx) : memoryInv (State.modMe s f) := memoryInv_modCtx h _ _

theorem memoryInv_setReq (h : memoryInv s) (r : Nat) (q : Option Req) : memoryInv (State.setReq s r q) := h

theorem memoryInv_setVerb (h : memoryInv s) (v : Nat) (q : Option Verb) : memoryInv (State.setVerb s v q) := h

theorem memoryInv_setPkt (h : memoryInv s) (k : Nat) (q : Option Pkt) : memoryInv (State.setPkt s k q) := h

theorem memoryInv_setEntry (h : memoryInv s) (c e : Nat) (q : Option Entry) : memoryInv (State.setEntry s c e q) :=
  memoryInv_modCore h _ _ (fun _ ht => ht)

theorem memoryInv_addReq (h : memoryInv s) (q : Req) : memoryInv (State.addReq s q) := h

theorem memoryInv_addVerb (h : memoryInv s) (q : Verb) : memoryInv (State.addVerb s q) := h

theorem memoryInv_addPkt (h : memoryInv s) (q : Pkt) : memoryInv (State.addPkt s q) := h

theorem memoryInv_nextFree (h : memoryInv s) : memoryInv (State.nextFree s) := h

theorem memoryInv_spendFree (h : memoryInv s) (n : Nat) : memoryInv (State.spendFree s n) := h

theorem memoryInv_writePhys (h : memoryInv s) (p : Nat) (host : Bool) (pa : Nat) (bs : List Byte) :
    memoryInv (State.writePhys s p host pa bs) := by
  grind [State.writePhys, memoryInv_iff, memoryInv_modPkg, Memory.wf_write]

theorem memoryInv_postRec (h : memoryInv s) (x : Nat) (r : Rec) : memoryInv (postRec s x r) := memoryInv_modCtx h _ _

theorem memoryInv_raiseVector (h : memoryInv s) (p v : Nat) : memoryInv (raiseVector s p v) := memoryInv_modPkg h _ _

theorem memoryInv_logRec (h : memoryInv s) (d : Nat) (r : Rec) : memoryInv (logRec s d r) :=
  memoryInv_ite (memoryInv_modDie h _ _) (memoryInv_raiseVector (memoryInv_modDie h _ _) _ _)

/-! ### The functions of Errors -/

theorem memoryInv_machineCheckDie (h : memoryInv s) (d : Nat) (f : Flt) : memoryInv (machineCheckDie s d f) :=
  memoryInv_logRec (memoryInv_nextFree h) _ _

theorem memoryInv_correct (h : memoryInv s) (d : Nat) (p : Storage) (lo n : Nat) : memoryInv (correct s d p lo n) := by
  grind [correct, memoryInv_iff, memoryInv_modDie]

theorem headInv_checkRead (h : memoryInv s) (d : Nat) (p : Storage) (key n : Nat) : headInv (checkRead s d p key n) :=
  memoryInv_correct h _ _ _ _

theorem headInv_checkHome (h : memoryInv s) (p : Place) (n : Nat) : headInv (checkHome s p n) := by
  grind [checkHome, headInv, headInv_checkRead]

theorem headInv_checkHomes (h : memoryInv s) (u : List (Place × Nat)) : headInv (checkHomes s u) := by
  induction u generalizing s with
  | nil => exact h
  | cons r rs ih => grind [checkHomes, headInv, headInv_checkHome]

theorem headInv_checkHeld (h : memoryInv s) (d g : Nat) (h : Held) : headInv (checkHeld s d g h) := by
  grind [checkHeld, headInv, headInv_checkRead]

theorem memoryInv_readDie (h : memoryInv s) (rs : List (Place × Nat)) (bad k : State → State) (hbad : ∀ t, memoryInv t → memoryInv (bad t))
    (hk : ∀ t, memoryInv t → memoryInv (k t)) :
    memoryInv (readDie s rs bad k) := by
  grind [readDie, headInv, headInv_checkHomes, memoryInv_machineCheckDie]

/-! ### The functions of Queues -/

theorem memoryInv_qWrite (h : memoryInv s) (p q at_ : Nat) (u : Nat) (v : List Nat) : memoryInv (qWrite s p q at_ u v) := by
  induction v generalizing s u with
  | nil => exact h
  | cons w ws ih => exact ih (memoryInv_writePhys h _ _ _ _) _

theorem memoryInv_qSet (h : memoryInv s) (p q head tail free count : Nat) : memoryInv (qSet s p q head tail free count) :=
  memoryInv_writePhys (memoryInv_writePhys h _ _ _ _) _ _ _ _

theorem headInv_qPush (h : memoryInv s) (p q : Nat) (rec : List Nat) : headInv (qPush s p q rec) :=
  headInv_ite h (memoryInv_qSet (memoryInv_writePhys (memoryInv_qWrite h _ _ _ _ _) _ _ _ _) _ _ _ _ _ _)

theorem headInv_qPop (h : memoryInv s) (p q : Nat) : headInv (qPop s p q) := by
  grind [qPop, headInv, memoryInv_writePhys, memoryInv_qSet]

/-! ### The functions of Hot -/

theorem memoryInv_readHot (h : memoryInv s) (d blk : Nat) (k : Word → State → State) (hk : ∀ a t, memoryInv t → memoryInv (k a t)) :
    memoryInv (readHot s d blk k) := by
  grind [readHot, headInv, headInv_checkRead, memoryInv_machineCheckDie, memoryInv_readDie]

theorem memoryInv_holdJob (h : memoryInv s) (d : Nat) (j : HotJob) : memoryInv (holdJob s d j) := memoryInv_modDie h _ _

theorem memoryInv_pushNote (h : memoryInv s) (count : State → Nat → Place → State) (d : Nat) (rec : List Nat) (hcount : ∀ t b c,
    memoryInv t → memoryInv (count t b c)) :
    memoryInv (pushNote count s d rec) := by
  grind [pushNote, headInv, memoryInv_holdJob, memoryInv_readDie, memoryInv_logRec, headInv_qPush, memoryInv_modDie]

theorem memoryInv_hotNotify (h : memoryInv s) (count : State → Nat → Place → State) (d blk cls : Nat) (w : Word) (hcount : ∀ t b c,
    memoryInv t → memoryInv (count t b c)) :
    memoryInv (hotNotify count s d blk cls w) :=
  memoryInv_ite (memoryInv_pushNote h _ _ _ (fun _ _ _ ht => hcount _ _ _ ht)) h

theorem memoryInv_hotTouchN (h : memoryInv s) (u : Nat) (w : Nat) (x : Nat) (y : Nat) : memoryInv (hotTouchN u s w x y) := by
  induction u generalizing s w x y with
  | zero => exact h
  | succ n ih => grind [hotTouchN, memoryInv_holdJob, memoryInv_readHot, memoryInv_modDie, memoryInv_hotNotify]

theorem memoryInv_hotTouch (h : memoryInv s) (src d pa : Nat) : memoryInv (hotTouch s src d pa) := memoryInv_hotTouchN h _ _ _ _

theorem memoryInv_countHome (h : memoryInv s) (src : Nat) (p : Place) : memoryInv (countHome s src p) :=
  memoryInv_ite h (memoryInv_hotTouch h _ _ _)

theorem headInv_serveRead (h : memoryInv s) (src : Nat) (p : Place) (n : Nat) : headInv (serveRead s src p n) :=
  headInv_checkHome (memoryInv_countHome h _ _) _ _

/-! ### The functions of Translate -/

theorem headInv_serveReads (h : memoryInv s) (src : Nat) (u : List (Place × Nat)) : headInv (serveReads s src u) := by
  induction u generalizing s with
  | nil => exact h
  | cons r rs ih => grind [serveReads, headInv, headInv_serveRead]

theorem trInv_pageFault (h : memoryInv s) (d : Nat) (pops : List Nat) (node : Bool) (kind region level : Nat) :
    trInv (pageFault s d pops node kind region level) := by
  grind [pageFault, trInv, headInv, headInv_serveRead]

theorem memoryInv_dropTlb (h : memoryInv s) (c va : Nat) : memoryInv (dropTlb s c va) := memoryInv_modCore h _ _ (fun _ ht => ht)

theorem memoryInv_tlbFill (h : memoryInv s) (c : Nat) (e : TlbE) : memoryInv (tlbFill s c e) :=
  memoryInv_ite h (memoryInv_modCore h _ _ (fun _ ht => ht))

theorem trInv_useExec (h : memoryInv s) (c va : Nat) (e : TlbE) : trInv (useExec s c va e) := by
  grind [useExec, trInv, headInv, memoryInv_dropTlb, headInv_serveReads, memoryInv_tlbFill]

theorem trInv_useLeaf (h : memoryInv s) (c va kind : Nat) (e : TlbE) (fresh : Bool) : trInv (useLeaf s c va kind e fresh) := by
  grind [useLeaf, trInv, trInv_useExec, memoryInv_tlbFill]

theorem trInv_walkEnd (h : memoryInv s) (c : Nat) (who : Option Nat) (pops : List Nat) (page va kind : Nat) (r : WalkRes) :
    trInv (walkEnd s c who pops page va kind r) := by
  unfold walkEnd
  grind [trInv, yardInv, memoryInv_modCore, trInv_pageFault, trInv_useLeaf]

theorem memoryInv_dropMisses (h : memoryInv s) (c : Nat) (f : Nat × Nat → Bool) : memoryInv (dropMisses s c f) :=
  memoryInv_modCore h _ _ (fun _ ht => ht)

theorem memoryInv_dropMiss (h : memoryInv s) (c who : Nat) : memoryInv (dropMiss s c who) := memoryInv_dropMisses h _ _

theorem memoryInv_missServed (h : memoryInv s) (c : Nat) (me : List (Nat × Nat)) : memoryInv (missServed s c me) :=
  memoryInv_ite h (memoryInv_dropMisses h _ _)

theorem memoryInv_queueMiss (h : memoryInv s) (c : Nat) (me : List (Nat × Nat)) : memoryInv (queueMiss s c me) :=
  memoryInv_modCore h _ _ (fun _ ht => ht)

theorem memoryInv_joinWalk (h : memoryInv s) (c : Nat) (me : List (Nat × Nat)) (page : Nat) : memoryInv (joinWalk s c me page) :=
  memoryInv_modCore h _ _ (fun _ ht => ht)

theorem trInv_miss (h : memoryInv s) (c : Nat) (who : Option Nat) (pops : List Nat) (va kind : Nat) :
    trInv (miss s c who pops va kind) := by
  grind [miss, trInv, headInv, yardInv, memoryInv_joinWalk, memoryInv_queueMiss, headInv_serveReads, trInv_walkEnd, memoryInv_modCore]

theorem trInv_translateFor (h : memoryInv s) (c : Nat) (who : Option Nat) (pops : List Nat) (va : Word) (kind : Nat) :
    trInv (translateFor s c who pops va kind) := by
  grind [translateFor, trInv, memoryInv_missServed, trInv_walkEnd, trInv_useLeaf, trInv_miss]

theorem trInv_translate (h : memoryInv s) (c : Nat) (pops : List Nat) (va : Word) (kind : Nat) : trInv (translate s c pops va kind) :=
  trInv_translateFor h _ _ _ _ _

theorem memoryInv_TrRes_state {r : TrRes} (h : trInv r) (c : Nat) : memoryInv (TrRes.state r c) := by
  unfold TrRes.state
  grind [trInv, memoryInv_machineCheckDie]

theorem endInv_translateDie (h : memoryInv s) (d : Nat) (va : Word) (kind : Nat) : endInv (translateDie s d va kind) := by
  grind [translateDie, endInv, headInv, headInv_serveReads, memoryInv_machineCheckDie]

theorem endInv_accBind {α β : Type} {r : Acc α × State} (h : endInv r) (k : α → State → Acc β × State) (hk : ∀ a t,
    memoryInv t → endInv (k a t)) :
    endInv (accBind r k) := by
  obtain ⟨a, s⟩ := r
  cases a with
  | ok a => exact hk a s h
  | wait => exact h
  | bad => exact h

theorem endInv_placesOf (h : memoryInv s) (d va kind : Nat) (u : List (Nat × Nat)) : endInv (placesOf s d va kind u) := by
  induction u generalizing s with
  | nil => exact h
  | cons r rs ih => grind [placesOf, endInv, endInv_accBind, endInv_translateDie]

theorem endInv_readPieces (h : memoryInv s) (d va : Nat) (ps : List ((Nat × Nat) × Place)) : endInv (readPieces s d va ps) := by
  grind [readPieces, endInv, headInv, headInv_serveReads, memoryInv_machineCheckDie]

theorem endInv_readAs (h : memoryInv s) (d va n kind : Nat) : endInv (readAs s d va n kind) :=
  endInv_accBind (endInv_placesOf h _ _ _ _) _ (fun _ _ ht => endInv_readPieces ht _ _ _)

theorem endInv_readRange (h : memoryInv s) (d va n : Nat) : endInv (readRange s d va n) := endInv_readAs h _ _ _ _

theorem endInv_writeRange (h : memoryInv s) (d va : Nat) (bs : List Byte) : endInv (writeRange s d va bs) :=
  endInv_accBind (endInv_placesOf h _ _ _ _) _ (fun _ _ ht => memoryInv_foldl (fun _ _ ht1 => memoryInv_writePhys ht1 _ _ _ _) _
    (memoryInv_foldl (fun _ _ ht1 => memoryInv_countHome ht1 _ _) _ ht))

theorem memoryInv_writeVaD (h : memoryInv s) (d : Nat) (va : Nat) (bs : List Byte) : memoryInv (writeVaD s d va bs) :=
  endInv_writeRange h _ _ _

/-! ### The functions of Ops -/

theorem outInv_whileRuns (h : memoryInv s) {o : Out} (h : outInv o) (d : Nat) : outInv (whileRuns s d o) := by
  grind [whileRuns, outInv]

theorem memoryInv_wx (h : memoryInv s) (r : BitVec 5) (v : Word) : memoryInv (State.wx s r v) := memoryInv_modMe h _

theorem memoryInv_wg (h : memoryInv s) (p : BitVec 4) (v : Bool) : memoryInv (State.wg s p v) := memoryInv_modMe h _

theorem memoryInv_performSlot (h : memoryInv s) (x i : Nat) : memoryInv (performSlot s x i) := memoryInv_modCtx h _ _

theorem memoryInv_perform (h : memoryInv s) : memoryInv (perform s) := memoryInv_performSlot h _ _

theorem memoryInv_modIssue (h : memoryInv s) (x : Nat) (f : Issue → Issue) : memoryInv (State.modIssue s x f) := memoryInv_modCtx h _ _

theorem memoryInv_writeFrameRec (h : memoryInv s) (x off : Nat) (r : Rec) : memoryInv (writeFrameRec s x off r) :=
  memoryInv_writeVaD h _ _ _

theorem memoryInv_dropLease (h : memoryInv s) (x n : Nat) : memoryInv (dropLease s x n) := memoryInv_modCtx h _ _

theorem memoryInv_dropGwait (h : memoryInv s) (x : Nat) : memoryInv (dropGwait s x) := by
  grind [dropGwait, memoryInv_dropLease]

theorem memoryInv_killTask (h : memoryInv s) (x : Nat) (r : Rec) : memoryInv (killTask s x r) :=
  memoryInv_modCtx (memoryInv_dropMiss (memoryInv_dropGwait h _) _ _) _ _

theorem memoryInv_deliver (h : memoryInv s) (x : Nat) (r : Rec) (is : Option Issue) (addr epc : Nat) :
    memoryInv (deliver s x r is addr epc) :=
  memoryInv_ite (memoryInv_killTask (memoryInv_writeFrameRec h _ _ _) _ _) (memoryInv_ite (memoryInv_killTask
    (memoryInv_writeFrameRec h _ _ _) _ _) (memoryInv_modCtx (memoryInv_writeFrameRec h _ _ _) _ _))

theorem endInv_withdrawLoad (h : memoryInv s) (x : Nat) (is : Issue) : endInv (withdrawLoad s x is) := by
  grind [withdrawLoad, endInv, memoryInv_modCtx, memoryInv_setReq]

theorem memoryInv_takeFault (h : memoryInv s) (f : Flt) : memoryInv (takeFault s f) := by
  grind [takeFault, endInv, endInv_withdrawLoad, memoryInv_deliver]

theorem memoryInv_takeServiced (h : memoryInv s) (f : Flt) (va kind : Nat) (node : Bool) (region level : Nat) :
    memoryInv (takeServiced s f va kind node region level) := by
  grind [takeServiced, endInv, memoryInv_takeFault, endInv_withdrawLoad, memoryInv_modMe]

theorem memoryInv_deliverPending (h : memoryInv s) (x : Nat) : memoryInv (deliverPending s x) := by
  grind [deliverPending, memoryInv_deliver, memoryInv_modCtx]

theorem memoryInv_machineCheck (h : memoryInv s) (x : Nat) (f : Flt) : memoryInv (machineCheck s x f) :=
  memoryInv_killTask (memoryInv_ite (memoryInv_logRec (memoryInv_nextFree h) _ _) (memoryInv_writeFrameRec (memoryInv_logRec
    (memoryInv_nextFree h) _ _) _ _ _)) _ _

theorem memoryInv_settle {r : SlotRes} (h : slotInv r) : memoryInv (settle r) := by
  unfold settle
  grind [slotInv, memoryInv_perform, memoryInv_takeFault, memoryInv_takeServiced, memoryInv_machineCheck]

theorem outInv_slotABM (h : memoryInv s) (g : Guard) (rs : List (BitVec 5)) (f : State → SlotRes) (hf : ∀ t, memoryInv t → slotInv (f t)) :
    outInv (slotABM g rs f s) := by
  grind [slotABM, outInv, memoryInv_perform, memoryInv_takeFault, memoryInv_settle]

theorem outInv_slotE (h : memoryInv s) (g : Guard) (rs : List Nat) (f : State → SlotRes) (hf : ∀ t, memoryInv t → slotInv (f t)) :
    outInv (slotE g rs f s) := by
  grind [slotE, outInv, memoryInv_perform, memoryInv_settle]

theorem slotInv_setX (h : memoryInv s) (d : BitVec 5) (v : Word) : slotInv (setX d v s) := memoryInv_wx h _ _

theorem memoryInv_takeLease (h : memoryInv s) (x d : Nat) : memoryInv (takeLease s x d) := memoryInv_modCtx h _ _

theorem memoryInv_lease (h : memoryInv s) (d : Nat) : memoryInv (lease s d) := memoryInv_takeLease h _ _

theorem memoryInv_endLease (h : memoryInv s) (x d : Nat) (v : Word) : memoryInv (endLease s x d v) := memoryInv_modCtx h _ _

theorem slotInv_withPlace (h : memoryInv s) (va : Word) (kind : Nat) (k : Place → State → SlotRes) (hk : ∀ a t,
    memoryInv t → slotInv (k a t)) :
    slotInv (withPlace s va kind k) := by
  grind [withPlace, slotInv, trInv, memoryInv_modMe, trInv_translateFor]

theorem slotInv_withGate (h : memoryInv s) (va : Word) (kind : Nat) (k : Place → State → SlotRes) (hk : ∀ a t,
    memoryInv t → slotInv (k a t)) :
    slotInv (withGate s va kind k) := by
  grind [withGate, slotInv, slotInv_withPlace, memoryInv_dropTlb]

theorem memoryInv_dcDrop (h : memoryInv s) (c pa : Nat) : memoryInv (dcDrop s c pa) := by
  grind [dcDrop, yardInv, memoryInv_iff, memoryInv_modCore]

theorem memoryInv_dcInvalidate (h : memoryInv s) (c : Nat) : memoryInv (dcInvalidate s c) := by
  grind [dcInvalidate, yardInv, memoryInv_iff, memoryInv_modCore]

theorem memoryInv_acquire (h : memoryInv s) (c scope : Nat) : memoryInv (acquire s c scope) := memoryInv_ite h (memoryInv_dcInvalidate h _)

theorem memoryInv_fenceCheck (h : memoryInv s) (x : Nat) : memoryInv (fenceCheck s x) := by
  grind [fenceCheck, memoryInv_acquire, memoryInv_modCtx]

theorem memoryInv_dropWritten (h : memoryInv s) (v : Verb) : memoryInv (dropWritten s v) := by
  grind [dropWritten, yardInv, memoryInv_iff, memoryInv_modCore]

/-! ### The functions of Yard -/

theorem memoryInv_writeRec (h : memoryInv s) (c base rsz r b : Nat) (bs : List Byte) : memoryInv (writeRec s c base rsz r b bs) := by
  grind [writeRec, yardInv, memoryInv_modCore, Memory.wf_write]

theorem memoryInv_modStall (h : memoryInv s) (c base : Nat) (f : Stall → Stall) : memoryInv (modStall s c base f) :=
  memoryInv_modCore h _ _ (fun _ ht => ht)

/-! ### The functions of KernelCore -/

theorem yardInv_landLane {v : Core} (hv : yardInv v) (dst : KDst) (lane : Nat × Nat) : yardInv (landLane dst v lane) := by
  unfold landLane
  grind [yardInv, Memory.wf_write]

theorem yardInv_landWrite {v : Core} (hv : yardInv v) (o : Owed) : yardInv (landWrite v o) := by
  grind [landWrite, yardInv, yardInv_foldl, yardInv_landLane]

theorem yardInv_landBy {v : Core} (hv : yardInv v) (t : Nat) : yardInv (landBy v t) :=
  yardInv_foldl (fun _ _ ht => yardInv_landWrite ht _) _ hv

theorem yardInv_reachCycle {v : Core} (hv : yardInv v) (t : Nat) : yardInv (reachCycle v t) := hv

theorem outInv_execWriteLanding (h : memoryInv s) (c : Nat) : outInv (execWriteLanding c s) := by
  grind [execWriteLanding, outInv, memoryInv_modCore, yardInv_reachCycle, yardInv_landBy]

theorem memoryInv_oweFor (h : memoryInv s) (slot off : Nat) (dst : KDst) (act : List Nat) (lanes : List (Nat × Nat)) :
    memoryInv (oweFor s slot off dst act lanes) :=
  memoryInv_modCore h _ _ (fun _ ht => ht)

theorem memoryInv_owe (h : memoryInv s) (slot off : Nat) (dst : KDst) (lanes : List (Nat × Nat)) : memoryInv (owe s slot off dst lanes) :=
  memoryInv_oweFor h _ _ _ _ _

theorem memoryInv_modInv (h : memoryInv s) (c : Nat) (f : Inv → Inv) : memoryInv (modInv s c f) := memoryInv_modCore h _ _ (fun _ ht => ht)

theorem memoryInv_closeKernel (h : memoryInv s) (c : Nat) : memoryInv (closeKernel s c) := by
  grind [closeKernel, yardInv, memoryInv_modCore]

theorem memoryInv_slotIssued (h : memoryInv s) : memoryInv (slotIssued s) := memoryInv_closeKernel (memoryInv_modInv h _ _) _

theorem outInv_kslot (h : memoryInv s) (g : Guard) (f : List Nat → State → State) (hf : ∀ a t, memoryInv t → memoryInv (f a t)) :
    outInv (kslot g f s) := by
  grind [kslot, outInv, memoryInv_slotIssued]

theorem memoryInv_oweD (h : memoryInv s) (d : BitVec 7) (off : Nat) (act : List Nat) (v : Nat → Nat) : memoryInv (oweD d off act v s) :=
  memoryInv_owe h _ _ _ _

theorem memoryInv_oweM (h : memoryInv s) (d : BitVec 7) (off : Nat) (act : List Nat) (v : Nat → Nat) : memoryInv (oweM d off act v s) :=
  memoryInv_owe h _ _ _ _

theorem memoryInv_oweG (h : memoryInv s) (p : BitVec 4) (off : Nat) (act : List Nat) (v : Nat → Bool) : memoryInv (oweG p off act v s) :=
  memoryInv_owe h _ _ _ _

/-! ### The functions of KernelMove -/

theorem outInv_execMvmw (h : memoryInv s) (g : Guard) (d a : BitVec 7) (w : BitVec 2) : outInv (execMvmw g d a w s) :=
  outInv_kslot h _ _ (fun _ _ ht => memoryInv_oweD ht _ _ _ _)

theorem outInv_execMvwm (h : memoryInv s) (g : Guard) (d a : BitVec 7) (w : BitVec 2) : outInv (execMvwm g d a w s) :=
  outInv_kslot h _ _ (fun _ _ ht => memoryInv_owe ht _ _ _ _)

theorem memoryInv_modPort (h : memoryInv s) (p : Nat) (f : Port → Port) : memoryInv (modPort s p f) := memoryInv_modInv h _ _

theorem memoryInv_noteTouches (h : memoryInv s) (act : List Nat) (o n : Nat) : memoryInv (noteTouches act o n s) := by
  unfold noteTouches
  grind [memoryInv_modInv]

theorem memoryInv_checkWords (h : memoryInv s) (p : Storage) (c : Nat) (rs : List (Nat × Nat)) (k : State → State) (hk : ∀ t,
    memoryInv t → memoryInv (k t)) :
    memoryInv (checkWords p c rs s k) := by
  grind [checkWords, memoryInv_foldl, memoryInv_correct, memoryInv_machineCheck]

theorem memoryInv_checkPort (h : memoryInv s) (act : List Nat) (o n : Nat) (k : State → State) (hk : ∀ t, memoryInv t → memoryInv (k t)) :
    memoryInv (checkPort act o n s k) :=
  memoryInv_checkWords h _ _ _ _ (fun _ ht => hk _ ht)

theorem memoryInv_checkTile (h : memoryInv s) (cells : List Nat) (k : State → State) (hk : ∀ t, memoryInv t → memoryInv (k t)) :
    memoryInv (checkTile cells s k) :=
  memoryInv_checkWords h _ _ _ _ (fun _ ht => hk _ ht)

theorem memoryInv_stepPort (h : memoryInv s) (act : List Nat) (p size : Nat) (rd : Bool) : memoryInv (stepPort act p size rd s) :=
  memoryInv_modPort h _ _

theorem outInv_execSrd (h : memoryInv s) (g : Guard) (r : BitVec 7) (port : BitVec 3) (quad : Bool) : outInv (execSrd g r port quad s) :=
  outInv_kslot h _ _ (fun _ _ ht => memoryInv_stepPort (memoryInv_noteTouches (memoryInv_checkPort ht _ _ _ _ (fun _ ht1 => memoryInv_ite
    (memoryInv_oweM ht1 _ _ _ _) (memoryInv_oweD ht1 _ _ _ _))) _ _ _) _ _ _ _)

theorem outInv_execSwr (h : memoryInv s) (g : Guard) (r : BitVec 7) (port : BitVec 3) (quad : Bool) : outInv (execSwr g r port quad s) :=
  outInv_kslot h _ _ (fun _ _ ht => memoryInv_stepPort (memoryInv_noteTouches (memoryInv_owe ht _ _ _ _) _ _ _) _ _ _ _)

theorem outInv_execXsend (h : memoryInv s) (g : Guard) (d a : BitVec 7) (cl : BitVec 4) : outInv (execXsend g d a cl s) :=
  outInv_kslot h _ _ (fun _ _ ht => memoryInv_oweD ht _ _ _ _)

theorem outInv_execXbcast (h : memoryInv s) (g : Guard) (d a : BitVec 7) (cl : BitVec 4) : outInv (execXbcast g d a cl s) :=
  outInv_kslot h _ _ (fun _ _ ht => memoryInv_oweD ht _ _ _ _)

theorem outInv_execXperm (h : memoryInv s) (g : Guard) (d a b : BitVec 7) : outInv (execXperm g d a b s) :=
  outInv_kslot h _ _ (fun _ _ ht => memoryInv_oweD ht _ _ _ _)

theorem outInv_kReduce (h : memoryInv s) (g : Guard) (d a : BitVec 7) (op : Nat → Nat → Nat) (fix : Nat → Nat) :
    outInv (kReduce g d a op fix s) :=
  outInv_kslot h _ _ (fun _ _ ht => memoryInv_oweD ht _ _ _ _)

theorem outInv_execXsum (h : memoryInv s) (g : Guard) (d a : BitVec 7) : outInv (execXsum g d a s) := outInv_kReduce h _ _ _ _ _

theorem outInv_execXsumf (h : memoryInv s) (g : Guard) (d a : BitVec 7) : outInv (execXsumf g d a s) := outInv_kReduce h _ _ _ _ _

theorem outInv_execXmaxf (h : memoryInv s) (g : Guard) (d a : BitVec 7) : outInv (execXmaxf g d a s) := outInv_kReduce h _ _ _ _ _

theorem outInv_execXminf (h : memoryInv s) (g : Guard) (d a : BitVec 7) : outInv (execXminf g d a s) := outInv_kReduce h _ _ _ _ _

theorem outInv_execTrow (h : memoryInv s) (g : Guard) (d : BitVec 7) (t : BitVec 3) (i : BitVec 4) : outInv (execTrow g d t i s) :=
  outInv_kslot h _ _ (fun _ _ ht => memoryInv_oweFor ht _ _ _ _ _)

theorem outInv_execTrowr (h : memoryInv s) (g : Guard) (d : BitVec 7) (t : BitVec 3) (i : BitVec 4) : outInv (execTrowr g d t i s) :=
  outInv_kslot h _ _ (fun _ _ ht => memoryInv_checkTile ht _ _ (fun _ ht1 => memoryInv_oweD ht1 _ _ _ _))

theorem outInv_execTcol (h : memoryInv s) (g : Guard) (d : BitVec 7) (t : BitVec 3) (j : BitVec 4) : outInv (execTcol g d t j s) :=
  outInv_kslot h _ _ (fun _ _ ht => memoryInv_checkTile ht _ _ (fun _ ht1 => memoryInv_oweD ht1 _ _ _ _))

theorem outInv_execTcolr (h : memoryInv s) (g : Guard) (d : BitVec 7) (t : BitVec 3) (j : BitVec 4) : outInv (execTcolr g d t j s) :=
  outInv_kslot h _ _ (fun _ _ ht => memoryInv_oweFor ht _ _ _ _ _)

theorem outInv_execTzero (h : memoryInv s) (g : Guard) (t : BitVec 3) : outInv (execTzero g t s) :=
  outInv_kslot h _ _ (fun _ _ ht => memoryInv_owe ht _ _ _ _)

theorem outInv_execTcfg (h : memoryInv s) (t : BitVec 3) (rm cm : BitVec 16) : outInv (execTcfg t rm cm s) :=
  outInv_kslot h _ _ (fun _ _ ht => memoryInv_owe ht _ _ _ _)

theorem outInv_execLoop (h : memoryInv s) : outInv (execLoop s) := by
  grind [execLoop, outInv_kslot, memoryInv_modInv, memoryInv_owe]

theorem outInv_execWait (h : memoryInv s) (n : BitVec 16) : outInv (execWait n s) :=
  outInv_kslot h _ _ (fun _ _ ht => memoryInv_modInv ht _ _)

/-! ### The functions of Caddy -/

theorem yardInv_cubeStep {v : Core} (hv : yardInv v) (t : Nat) : yardInv (cubeStep v t) := by
  grind [cubeStep, yardInv]

theorem memoryInv_checkCube (h : memoryInv s) (b c : Nat) (rs : List (Nat × Nat)) (bad k : State → State) (hbad : ∀ t,
    memoryInv t → memoryInv (bad t)) (hk : ∀ t, memoryInv t → memoryInv (k t)) :
    memoryInv (checkCube b c rs s bad k) := by
  unfold checkCube
  split
  · exact hbad _ (memoryInv_modCore (memoryInv_checkWords h _ _ _ _ fun _ ht => ht) _ _ fun _ hv => hv)
  · exact hk _ (memoryInv_checkWords h _ _ _ _ fun _ ht => ht)

theorem memoryInv_checkRow (h : memoryInv s) (c : Nat) (k : State → State) (hk : ∀ t, memoryInv t → memoryInv (k t)) :
    memoryInv (checkRow c s k) := by
  grind [checkRow, memoryInv_checkCube]

theorem outInv_caddyCmd (h : memoryInv s) (g : Guard) (f : Core → Core) (hf : ∀ a, yardInv a → yardInv (f a)) : outInv (caddyCmd g f s) :=
  outInv_kslot h _ _ (fun _ _ ht => memoryInv_ite (memoryInv_modCore ht _ _ (fun _ ht1 => hf _ ht1)) ht)

theorem outInv_execCfmt (h : memoryInv s) (g : Guard) (opd : BitVec 2) (fd : BitVec 16) : outInv (execCfmt g opd fd s) :=
  outInv_caddyCmd h _ _ (fun _ ht => ht)

theorem outInv_execCbind (h : memoryInv s) (g : Guard) (b : BitVec 33) : outInv (execCbind g b s) := outInv_caddyCmd h _ _ (fun _ ht => ht)

theorem yardInv_latchSource {v : Core} (hv : yardInv v) (pl : Bool) (cmd : BitVec 46) (ref : Word) : yardInv (latchSource v pl cmd ref) :=
  hv

theorem yardInv_firstMade {v : Core} (hv : yardInv v) (p : Nat) : yardInv (firstMade v p) := hv

theorem outInv_execClatch (h : memoryInv s) (g : Guard) (pl : Bool) (port : BitVec 3) (kc : BitVec 6) (ofg : BitVec 16) (psg : BitVec 12) :
    outInv (execClatch g pl port kc ofg psg s) :=
  outInv_caddyCmd h _ _ (fun _ ht => yardInv_latchSource (yardInv_firstMade ht _) _ _ _)

theorem outInv_execClatchr (h : memoryInv s) (g : Guard) (pl : Bool) (dr : BitVec 7) (kc : BitVec 6) (ofg : BitVec 16) (psg : BitVec 12) :
    outInv (execClatchr g pl dr kc ofg psg s) :=
  outInv_caddyCmd h _ _ (fun _ ht => yardInv_latchSource ht _ _ _)

theorem yardInv_cubeRun {v : Core} (hv : yardInv v) (aport : Nat) (sc : Bool) (dm ds : BitVec 7) (st : Bool) (zb : Nat) :
    yardInv (cubeRun v aport sc dm ds st zb) := by
  grind [cubeRun, yardInv, yardInv_firstMade]

theorem outInv_execCube (h : memoryInv s) (g : Guard) (aport : BitVec 3) (sc : Bool) (dm ds : BitVec 7) (st : Bool) (zb : BitVec 11) :
    outInv (execCube g aport sc dm ds st zb s) :=
  outInv_caddyCmd h _ _ (fun _ ht => yardInv_cubeRun ht _ _ _ _ _ _)

theorem outInv_execCzero (h : memoryInv s) (g : Guard) (dz : BitVec 7) (zo : BitVec 11) (n : BitVec 8) : outInv (execCzero g dz zo n s) :=
  outInv_kslot h _ _ (fun _ _ ht => memoryInv_owe ht _ _ _ _)

theorem outInv_execCmovzToM (h : memoryInv s) (g : Guard) (m dz : BitVec 7) (zo : BitVec 11) (q : BitVec 2) :
    outInv (execCmovzToM g m dz zo q s) :=
  outInv_kslot h _ _ (fun _ _ ht => memoryInv_oweM ht _ _ _ _)

theorem outInv_execCmovzToZ (h : memoryInv s) (g : Guard) (m dz : BitVec 7) (zo : BitVec 11) (q : BitVec 2) :
    outInv (execCmovzToZ g m dz zo q s) :=
  outInv_kslot h _ _ (fun _ _ ht => memoryInv_owe ht _ _ _ _)

theorem outInv_execCstat (h : memoryInv s) (g : Guard) (d : BitVec 7) (sel : BitVec 2) (clr : Bool) : outInv (execCstat g d sel clr s) :=
  outInv_kslot h _ _ (fun _ _ ht => memoryInv_ite (memoryInv_modCore (memoryInv_oweD ht _ _ _ _) _ _ (fun _ ht1 => ht1))
    (memoryInv_oweD ht _ _ _ _))

theorem memoryInv_cubeStop (h : memoryInv s) (c : Nat) : memoryInv (cubeStop c s) := by
  grind [cubeStop, yardInv, memoryInv_modCore, memoryInv_checkRow, yardInv_cubeStep]

theorem outInv_execCstop (h : memoryInv s) (g : Guard) : outInv (execCstop g s) :=
  outInv_kslot h _ _ (fun _ _ ht => memoryInv_ite (memoryInv_cubeStop ht _) ht)

/-! ### The functions of CaddyRun -/

theorem outInv_execCubeStepIssue (h : memoryInv s) (c : Nat) : outInv (execCubeStepIssue c s) := by
  grind [execCubeStepIssue, outInv, memoryInv_checkRow, memoryInv_modCore, yardInv_reachCycle, yardInv_cubeStep]

theorem yardInv_addRow {v : Core} (hv : yardInv v) (row : Nat) (p : Nat × List Nat) : yardInv (addRow row v p) := hv

theorem yardInv_landSteps {v : Core} (hv : yardInv v) (t : Nat) : yardInv (landSteps v t) :=
  yardInv_foldl (fun _ _ ht => yardInv_foldl (fun _ _ ht1 => yardInv_addRow ht1 _ _) _ ht) _ hv

theorem outInv_execCubeStepLanding (h : memoryInv s) (c : Nat) : outInv (execCubeStepLanding c s) := by
  grind [execCubeStepLanding, outInv, memoryInv_modCore, yardInv_reachCycle, yardInv_landSteps]

theorem yardInv_fillBank {v : Core} (hv : yardInv v) (f : Fetch) : yardInv (fillBank v f) := hv

theorem yardInv_loseFetch {v : Core} (hv : yardInv v) (f : Fetch) : yardInv (loseFetch v f) := hv

theorem outInv_execPlaneFetchReady (h : memoryInv s) (c b : Nat) : outInv (execPlaneFetchReady c b s) := by
  unfold execPlaneFetchReady
  grind [outInv, yardInv_core, memoryInv_setCore, yardInv_reachCycle, yardInv_fillBank, memoryInv_checkCube, memoryInv_modCore,
    yardInv_loseFetch]

theorem yardInv_failFetch {v : Core} (hv : yardInv v) (f : Fetch) (why core : Nat) : yardInv (failFetch v f why core) := hv

theorem outInv_execPlaneFetchFailure (h : memoryInv s) (c b : Nat) : outInv (execPlaneFetchFailure c b s) := by
  grind [execPlaneFetchFailure, outInv, yardInv_core, memoryInv_setCore, yardInv_reachCycle, yardInv_failFetch]

theorem memoryInv_answerFetch (h : memoryInv s) (c b : Nat) (f : Fetch → Fetch) : memoryInv (answerFetch s c b f) :=
  memoryInv_modCore h _ _ (fun _ ht => ht)

theorem memoryInv_readRemote (h : memoryInv s) (c b : Nat) (f : Fetch) (k : State → State) (hk : ∀ t, memoryInv t → memoryInv (k t)) :
    memoryInv (readRemote c b f s k) :=
  memoryInv_checkCube h _ _ _ _ _ (fun _ ht => memoryInv_answerFetch ht _ _ _) (fun _ ht => hk _ ht)

theorem outInv_execRemotePlaneRead (h : memoryInv s) (c b : Nat) : outInv (execRemotePlaneRead c b s) := by
  grind [execRemotePlaneRead, outInv, memoryInv_readRemote, memoryInv_answerFetch]

/-! ### The functions of Checks -/

theorem memoryInv_checkedFor {c : State × Option Flt} (h : headInv c) (x : Nat) (bad k : State → State) (hbad : ∀ t,
    memoryInv t → memoryInv (bad t)) (hk : ∀ t, memoryInv t → memoryInv (k t)) :
    memoryInv (checkedFor x c bad k) := by
  obtain ⟨s, f⟩ := c
  cases f with
  | none => exact hk s h
  | some f => exact memoryInv_machineCheck (hbad s h) x f

theorem memoryInv_readHome (h : memoryInv s) (x : Nat) (p : Place) (n : Nat) (bad k : State → State) (hbad : ∀ t,
    memoryInv t → memoryInv (bad t)) (hk : ∀ t, memoryInv t → memoryInv (k t)) :
    memoryInv (readHome s x p n bad k) := by
  exact memoryInv_checkedFor (headInv_checkHome h _ _) x bad k hbad hk

theorem memoryInv_readHomes (h : memoryInv s) (x : Nat) (rs : List (Place × Nat)) (bad k : State → State) (hbad : ∀ t,
    memoryInv t → memoryInv (bad t)) (hk : ∀ t, memoryInv t → memoryInv (k t)) :
    memoryInv (readHomes s x rs bad k) := by
  exact memoryInv_checkedFor (headInv_checkHomes h _) x bad k hbad hk

theorem memoryInv_readSrf (h : memoryInv s) (x c key n : Nat) (bad k : State → State) (hbad : ∀ t, memoryInv t → memoryInv (bad t))
    (hk : ∀ t, memoryInv t → memoryInv (k t)) :
    memoryInv (readSrf s x c key n bad k) := by
  exact memoryInv_checkedFor (headInv_checkRead h _ _ _ _) x bad k hbad hk

theorem memoryInv_readStore (h : memoryInv s) (x c key n : Nat) (bad k : State → State) (hbad : ∀ t, memoryInv t → memoryInv (bad t))
    (hk : ∀ t, memoryInv t → memoryInv (k t)) :
    memoryInv (readStore s x c key n bad k) := by
  exact memoryInv_checkedFor (headInv_checkRead h _ _ _ _) x bad k hbad hk

/-! ### The functions of Issue -/

theorem memoryInv_addCycles (h : memoryInv s) (n : Nat) : memoryInv (addCycles s n) := h

theorem endInv_fetchLine (h : memoryInv s) (c : Nat) (p : Place) : endInv (fetchLine s c p) := by
  grind [fetchLine, endInv, headInv, yardInv, headInv_checkRead, headInv_serveRead, memoryInv_modCore]

theorem fetchInv_fetch (h : memoryInv s) (x : Nat) : fetchInv (fetch s x) := by
  grind [fetch, fetchInv, trInv, endInv, memoryInv_deliver, memoryInv_modCtx, trInv_translateFor, memoryInv_dropTlb, endInv_fetchLine,
    memoryInv_machineCheck]

theorem endInv_nextBundle (h : memoryInv s) (x : Nat) : endInv (nextBundle s x) := by
  grind [nextBundle, endInv, fetchInv, fetchInv_fetch]

theorem endInv_candidate (h : memoryInv s) (x : Nat) : endInv (candidate s x) := by
  grind [candidate, endInv, endInv_nextBundle]

theorem memoryInv_noteIssue (h : memoryInv s) (x : Nat) : memoryInv (noteIssue s x) := by
  grind [noteIssue, memoryInv_foldl, memoryInv_modCtx]

theorem memoryInv_openWith (h : memoryInv s) (x : Nat) (is : Issue) : memoryInv (openWith s x is) :=
  memoryInv_modCtx (memoryInv_noteIssue h _) _ _

theorem memoryInv_closeBundle (h : memoryInv s) (x : Nat) : memoryInv (closeBundle s x) := by
  grind [closeBundle, memoryInv_modCtx]

theorem endInv_candidates (h : memoryInv s) (u : List Nat) : endInv (candidates s u) := by
  induction u generalizing s with
  | nil => exact h
  | cons x xs ih => grind [candidates, endInv, endInv_candidate]

theorem endInv_issueCycle (h : memoryInv s) (c : Nat) : endInv (issueCycle s c) := by
  grind [issueCycle, endInv, yardInv, endInv_candidates, memoryInv_modCore, memoryInv_openWith, memoryInv_addCycles]

theorem memoryInv_mergeCycle (h : memoryInv s) (c : Nat) : memoryInv (mergeCycle s c) := by
  grind [mergeCycle, endInv, memoryInv_iff, endInv_issueCycle]

/-! ### The functions of Branch -/

theorem slotInv_checkTarget (h : memoryInv s) (target : Word) (k : State → SlotRes) (hk : ∀ t, memoryInv t → slotInv (k t)) :
    slotInv (checkTarget target k s) := by
  grind [checkTarget, slotInv, endInv, slotInv_withGate, endInv_fetchLine]

theorem slotInv_waitExit (h : memoryInv s) : slotInv (waitExit s) := memoryInv_modIssue h _ _

theorem slotInv_branchTo (h : memoryInv s) (target : Word) (link : Bool) : slotInv (branchTo target link s) :=
  slotInv_ite (slotInv_waitExit h) (slotInv_checkTarget h _ _ (fun _ ht => memoryInv_modIssue (memoryInv_ite (memoryInv_wx ht _ _) ht) _ _))

theorem outInv_execBr (h : memoryInv s) (g : Guard) (o : BitVec 22) : outInv (execBr g o s) :=
  outInv_slotABM h _ _ _ (fun _ ht => slotInv_branchTo ht _ _)

theorem outInv_execCall (h : memoryInv s) (g : Guard) (o : BitVec 22) : outInv (execCall g o s) :=
  outInv_slotABM h _ _ _ (fun _ ht => slotInv_branchTo ht _ _)

theorem outInv_execBrr (h : memoryInv s) (g : Guard) (a : BitVec 5) : outInv (execBrr g a s) :=
  outInv_slotABM h _ _ _ (fun _ ht => slotInv_branchTo ht _ _)

theorem outInv_execCallr (h : memoryInv s) (g : Guard) (a : BitVec 5) : outInv (execCallr g a s) :=
  outInv_slotABM h _ _ _ (fun _ ht => slotInv_branchTo ht _ _)

theorem memoryInv_trapEntry (h : memoryInv s) (i : BitVec 16) : memoryInv (trapEntry i s) := memoryInv_ite h (memoryInv_deliver h _ _ _ _ _)

theorem outInv_execTrap (h : memoryInv s) (g : Guard) (i : BitVec 16) : outInv (execTrap g i s) := by
  grind [execTrap, outInv, memoryInv_trapEntry, memoryInv_perform]

theorem memoryInv_eretReissue (h : memoryInv s) (is : Issue) : memoryInv (eretReissue is s) := memoryInv_modMe h _

theorem memoryInv_eretResume (h : memoryInv s) : memoryInv (eretResume s) := memoryInv_modMe h _

theorem slotInv_eretBody (h : memoryInv s) : slotInv (eretBody s) := by
  grind [eretBody, slotInv, slotInv_waitExit, slotInv_checkTarget, memoryInv_eretResume, memoryInv_eretReissue]

theorem outInv_execEret (h : memoryInv s) (g : Guard) : outInv (execEret g s) := outInv_slotABM h _ _ _ (fun _ ht => slotInv_eretBody ht)

theorem outInv_execYield (h : memoryInv s) (g : Guard) : outInv (execYield g s) := outInv_slotABM h _ _ _ (fun _ ht => memoryInv_modMe ht _)

/-! ### The functions of LoadStore -/

theorem slotInv_loadFrom (h : memoryInv s) (va : Word) (xd size : Nat) (signed : Bool) (p : Place) :
    slotInv (loadFrom va xd size signed p s) := by
  grind [loadFrom, slotInv, headInv, headInv_checkRead, memoryInv_modMe, memoryInv_modIssue, memoryInv_addReq]

theorem memoryInv_dcStore (h : memoryInv s) (c va : Nat) (p : Place) (bs : List Byte) : memoryInv (dcStore s c va p bs) := by
  grind [dcStore, yardInv, memoryInv_iff, memoryInv_modCore]

theorem slotInv_storeTo (h : memoryInv s) (va : Word) (size : Nat) (v : Word) (p : Place) : slotInv (storeTo va size v p s) :=
  memoryInv_addReq (memoryInv_dcStore h _ _ _ _) _

theorem slotInv_aligned (h : memoryInv s) (ea : Word) (sz : Nat) (k : State → SlotRes) (hk : ∀ t, memoryInv t → slotInv (k t)) :
    slotInv (aligned ea sz k s) :=
  slotInv_ite h (hk _ h)

theorem outInv_loadOp (h : memoryInv s) (g : Guard) (d a : BitVec 5) (o : BitVec 10) (sz : Nat) (signed : Bool) :
    outInv (loadOp g d a o sz signed s) :=
  outInv_slotABM h _ _ _ (fun _ ht => slotInv_aligned ht _ _ _ (fun _ ht1 => slotInv_withPlace ht1 _ _ _ (fun _ _ ht2 =>
    slotInv_loadFrom ht2 _ _ _ _ _)))

theorem outInv_storeOp (h : memoryInv s) (g : Guard) (d a : BitVec 5) (o : BitVec 10) (sz : Nat) : outInv (storeOp g d a o sz s) :=
  outInv_slotABM h _ _ _ (fun _ ht => slotInv_aligned ht _ _ _ (fun _ ht1 => slotInv_withPlace ht1 _ _ _ (fun _ _ ht2 =>
    slotInv_storeTo ht2 _ _ _ _)))

theorem outInv_execLdub (h : memoryInv s) (g : Guard) (d a : BitVec 5) (o : BitVec 10) : outInv (execLdub g d a o s) :=
  outInv_loadOp h _ _ _ _ _ _

theorem outInv_execLduh (h : memoryInv s) (g : Guard) (d a : BitVec 5) (o : BitVec 10) : outInv (execLduh g d a o s) :=
  outInv_loadOp h _ _ _ _ _ _

theorem outInv_execLduw (h : memoryInv s) (g : Guard) (d a : BitVec 5) (o : BitVec 10) : outInv (execLduw g d a o s) :=
  outInv_loadOp h _ _ _ _ _ _

theorem outInv_execLdd (h : memoryInv s) (g : Guard) (d a : BitVec 5) (o : BitVec 10) : outInv (execLdd g d a o s) :=
  outInv_loadOp h _ _ _ _ _ _

theorem outInv_execLdsb (h : memoryInv s) (g : Guard) (d a : BitVec 5) (o : BitVec 10) : outInv (execLdsb g d a o s) :=
  outInv_loadOp h _ _ _ _ _ _

theorem outInv_execLdsh (h : memoryInv s) (g : Guard) (d a : BitVec 5) (o : BitVec 10) : outInv (execLdsh g d a o s) :=
  outInv_loadOp h _ _ _ _ _ _

theorem outInv_execLdsw (h : memoryInv s) (g : Guard) (d a : BitVec 5) (o : BitVec 10) : outInv (execLdsw g d a o s) :=
  outInv_loadOp h _ _ _ _ _ _

theorem outInv_execStb (h : memoryInv s) (g : Guard) (d a : BitVec 5) (o : BitVec 10) : outInv (execStb g d a o s) :=
  outInv_storeOp h _ _ _ _ _

theorem outInv_execSth (h : memoryInv s) (g : Guard) (d a : BitVec 5) (o : BitVec 10) : outInv (execSth g d a o s) :=
  outInv_storeOp h _ _ _ _ _

theorem outInv_execStw (h : memoryInv s) (g : Guard) (d a : BitVec 5) (o : BitVec 10) : outInv (execStw g d a o s) :=
  outInv_storeOp h _ _ _ _ _

theorem outInv_execStd (h : memoryInv s) (g : Guard) (d a : BitVec 5) (o : BitVec 10) : outInv (execStd g d a o s) :=
  outInv_storeOp h _ _ _ _ _

/-! ### The functions of WindowAccess -/

theorem slotInv_windowCheck (h : memoryInv s) (hn size o : Nat) (k : Word → State → SlotRes) (hk : ∀ a t, memoryInv t → slotInv (k a t)) :
    slotInv (windowCheck hn size o k s) :=
  slotInv_ite h (slotInv_ite h (slotInv_ite h (hk _ _ h)))

theorem memoryInv_pushWin (h : memoryInv s) (w : Win) : memoryInv (pushWin w s) := memoryInv_modMe h _

theorem outInv_windowLoad (h : memoryInv s) (g : Guard) (d h b : BitVec 5) (size : Nat) : outInv (windowLoad g d h b size s) := by
  grind [windowLoad, slotInv, outInv_slotABM, slotInv_windowCheck, memoryInv_pushWin]

theorem outInv_windowStore (h : memoryInv s) (g : Guard) (d h b : BitVec 5) (size : Nat) : outInv (windowStore g d h b size s) := by
  grind [windowStore, slotInv, outInv_slotABM, slotInv_windowCheck, memoryInv_pushWin]

theorem outInv_windowAtomic (h : memoryInv s) (g : Guard) (d h b : BitVec 5) (fn : Nat) : outInv (windowAtomic g d h b fn s) := by
  grind [windowAtomic, slotInv, outInv_slotABM, slotInv_windowCheck, memoryInv_pushWin]

theorem memoryInv_takeWin (h : memoryInv s) (x : Nat) (w : Win) (rest : List Win) : memoryInv (takeWin s x w rest) := by
  grind [takeWin, yardInv, memoryInv_modCtx, memoryInv_modCore, memoryInv_fenceCheck, Memory.wf_write]

theorem memoryInv_serveWin (h : memoryInv s) (x : Nat) (w : Win) (rest : List Win) : memoryInv (serveWin s x w rest) :=
  memoryInv_readSrf h _ _ _ _ _ _ (fun _ ht => memoryInv_modCtx ht _ _) (fun _ ht => memoryInv_takeWin ht _ _ _)

theorem outInv_execWindowAnswer (h : memoryInv s) (x : Nat) : outInv (execWindowAnswer x s) := by
  grind [execWindowAnswer, outInv, outInv_whileRuns, memoryInv_serveWin]

theorem outInv_execWindowStoreWrite (h : memoryInv s) (x : Nat) : outInv (execWindowStoreWrite x s) := by
  grind [execWindowStoreWrite, outInv, yardInv, outInv_whileRuns, memoryInv_modCore, memoryInv_fenceCheck, memoryInv_modCtx,
    Memory.wf_write]

theorem outInv_execLds4 (h : memoryInv s) (g : Guard) (d h b : BitVec 5) : outInv (execLds4 g d h b s) := by
  grind [execLds4, outInv_windowLoad]

theorem outInv_execLds8 (h : memoryInv s) (g : Guard) (d h b : BitVec 5) : outInv (execLds8 g d h b s) := by
  grind [execLds8, outInv_windowLoad]

theorem outInv_execSts4 (h : memoryInv s) (g : Guard) (d h b : BitVec 5) : outInv (execSts4 g d h b s) := by
  grind [execSts4, outInv_windowStore]

theorem outInv_execSts8 (h : memoryInv s) (g : Guard) (d h b : BitVec 5) : outInv (execSts8 g d h b s) := by
  grind [execSts8, outInv_windowStore]

theorem outInv_execSaadd (h : memoryInv s) (g : Guard) (d h b : BitVec 5) : outInv (execSaadd g d h b s) := by
  grind [execSaadd, outInv_windowAtomic]

theorem outInv_execSafadd (h : memoryInv s) (g : Guard) (d h b : BitVec 5) : outInv (execSafadd g d h b s) := by
  grind [execSafadd, outInv_windowAtomic]

theorem outInv_execSamin (h : memoryInv s) (g : Guard) (d h b : BitVec 5) : outInv (execSamin g d h b s) := by
  grind [execSamin, outInv_windowAtomic]

theorem outInv_execSamax (h : memoryInv s) (g : Guard) (d h b : BitVec 5) : outInv (execSamax g d h b s) := by
  grind [execSamax, outInv_windowAtomic]

theorem outInv_execSaxchg (h : memoryInv s) (g : Guard) (d h b : BitVec 5) : outInv (execSaxchg g d h b s) := by
  grind [execSaxchg, outInv_windowAtomic]

theorem outInv_execSacas (h : memoryInv s) (g : Guard) (d h b : BitVec 5) : outInv (execSacas g d h b s) := by
  grind [execSacas, outInv_windowAtomic]

/-! ### The functions of Home -/

theorem memoryInv_landGroup (h : memoryInv s) (x grp : Nat) (rec : List Nat) : memoryInv (landGroup s x grp rec) :=
  memoryInv_foldl (fun _ _ ht => memoryInv_endLease ht _ _ _) _ h

theorem memoryInv_dropReq (h : memoryInv s) (r : Nat) (q : Req) : memoryInv (dropReq s r q) := by
  grind [dropReq, memoryInv_setReq, memoryInv_modCtx, memoryInv_endLease, memoryInv_landGroup]

theorem memoryInv_performPlain (h : memoryInv s) (r : Nat) (q : Req) : memoryInv (performPlain s r q) := by
  grind [performPlain, memoryInv_countHome, memoryInv_readHome, memoryInv_dropReq, memoryInv_setReq, memoryInv_fenceCheck,
    memoryInv_writePhys]

theorem memoryInv_cpPlainAccess (h : memoryInv s) (r : Nat) : memoryInv (cpPlainAccess s r) := by
  grind [cpPlainAccess, memoryInv_performPlain]

theorem outInv_execConvertedAccess (h : memoryInv s) (r : Nat) : outInv (execConvertedAccess r s) := by
  grind [execConvertedAccess, outInv, memoryInv_performPlain]

theorem outInv_execAtomicAtHome (h : memoryInv s) (r : Nat) : outInv (execAtomicAtHome r s) := by
  grind [execAtomicAtHome, outInv, memoryInv_countHome, memoryInv_readHome, memoryInv_dropReq, memoryInv_setReq, memoryInv_writePhys]

theorem memoryInv_serveQueue (h : memoryInv s) (r : Nat) (q : Req) (pop : Bool) (k : State → State) (hk : ∀ t,
    memoryInv t → memoryInv (k t)) :
    memoryInv (serveQueue s r q pop k) :=
  memoryInv_readHomes (memoryInv_countHome h _ _) _ _ _ _ (fun _ ht => memoryInv_dropReq ht _ _) (fun _ ht => hk _ ht)

theorem memoryInv_queueFault (h : memoryInv s) (r : Nat) (q : Req) : memoryInv (queueFault s r q) := memoryInv_setReq h _ _

theorem outInv_execQpushAtHome (h : memoryInv s) (r : Nat) : outInv (execQpushAtHome r s) := by
  grind [execQpushAtHome, outInv, headInv, memoryInv_serveQueue, headInv_qPush, memoryInv_setReq, memoryInv_queueFault]

theorem outInv_execQpopAtHome (h : memoryInv s) (r : Nat) : outInv (execQpopAtHome r s) := by
  grind [execQpopAtHome, outInv, headInv, memoryInv_serveQueue, headInv_qPop, memoryInv_setReq, memoryInv_queueFault]

theorem memoryInv_dcFill (h : memoryInv s) (c pa : Nat) (line : List Byte) : memoryInv (dcFill s c pa line) :=
  memoryInv_modCore h _ _ (fun _ ht => ht)

theorem memoryInv_landLoad (h : memoryInv s) (r : Nat) (q : Req) (xd size : Nat) (signed : Bool) (v : Nat) :
    memoryInv (landLoad s r q xd size signed v) :=
  memoryInv_fenceCheck (memoryInv_setReq (memoryInv_modCtx (memoryInv_ite h (memoryInv_ite (memoryInv_dcDrop h _ _)
    (memoryInv_dcFill h _ _ _))) _ _) _ _) _

theorem outInv_execLoadAnswer (h : memoryInv s) (r : Nat) : outInv (execLoadAnswer r s) := by
  grind [execLoadAnswer, outInv, outInv_whileRuns, memoryInv_landLoad, memoryInv_dcDrop, memoryInv_setReq, memoryInv_modIssue]

theorem memoryInv_postQueueFault (h : memoryInv s) (q : Req) : memoryInv (postQueueFault s q) := by
  grind [postQueueFault, memoryInv_postRec]

theorem memoryInv_dropQueue (h : memoryInv s) (q : Req) : memoryInv (dropQueue s q) :=
  memoryInv_foldl (fun _ _ ht => memoryInv_dcDrop ht _ _) _ h

theorem memoryInv_reqLeaseEnd (h : memoryInv s) (r : Nat) : memoryInv (reqLeaseEnd s r) := by
  grind [reqLeaseEnd, memoryInv_dcDrop, memoryInv_setReq, memoryInv_endLease, memoryInv_acquire, memoryInv_postQueueFault,
    memoryInv_dropQueue, memoryInv_landGroup]

theorem outInv_execMigrationRedirect (h : memoryInv s) (r : Nat) : outInv (execMigrationRedirect r s) := by
  grind [execMigrationRedirect, outInv, trInv, trInv_translateFor, memoryInv_dropTlb, memoryInv_setReq, memoryInv_machineCheck,
    memoryInv_dropReq]

/-! ### The functions of Ordering -/

theorem outInv_execFence (h : memoryInv s) (g : Guard) (sc : BitVec 3) : outInv (execFence g sc s) :=
  outInv_slotABM h _ _ _ (fun _ ht => memoryInv_fenceCheck (memoryInv_modMe ht _) _)

theorem slotInv_barBody (h : memoryInv s) (o : BitVec 2) (a : BitVec 5) : slotInv (barBody o a s) := by
  grind [barBody, slotInv, memoryInv_deliverPending, slotInv_withPlace, memoryInv_modIssue, memoryInv_addReq]

theorem outInv_execBar (h : memoryInv s) (g : Guard) (_sc : BitVec 3) (o : BitVec 2) (a : BitVec 5) : outInv (execBar g _sc o a s) :=
  outInv_slotABM h _ _ _ (fun _ ht => slotInv_barBody ht _ _)

theorem memoryInv_departure (h : memoryInv s) (w : Word32) (gen : Nat) : memoryInv (departure w gen s) := by
  grind [departure, slotInv, headInv, memoryInv_settle, slotInv_withGate, headInv_serveRead, memoryInv_dcDrop, memoryInv_acquire]

theorem outInv_execBarDeparture (h : memoryInv s) (x : Nat) : outInv (execBarDeparture x s) := by
  grind [execBarDeparture, outInv, memoryInv_iff, memoryInv_closeBundle, memoryInv_departure]

/-! ### The functions of Scoreboard -/

theorem memoryInv_wakeEntries (h : memoryInv s) (c : Nat) : memoryInv (wakeEntries s c) := memoryInv_modCore h _ _ (fun _ ht => ht)

theorem memoryInv_enterEntry (h : memoryInv s) (x : Nat) (e : Entry) : memoryInv (enterEntry s x e) := by
  grind [enterEntry, yardInv, memoryInv_dropMiss, memoryInv_wakeEntries, memoryInv_modCore, memoryInv_setEntry]

theorem memoryInv_accept (h : memoryInv s) (reads writes : List Nat) : memoryInv (accept reads writes s) := by
  unfold accept
  exact memoryInv_enterEntry (memoryInv_modMe h _) _ _

theorem slotInv_needHandles (h : memoryInv s) (hs : List Nat) (k : State → SlotRes) (hk : ∀ t, memoryInv t → slotInv (k t)) :
    slotInv (needHandles hs k s) := by
  grind [needHandles, slotInv]

theorem slotInv_checked (h : memoryInv s) (bad : List (Bool × Nat × Nat)) (k : State → SlotRes) (hk : ∀ t, memoryInv t → slotInv (k t)) :
    slotInv (checked bad k s) := by
  grind [checked, slotInv]

theorem memoryInv_stepTag (h : memoryInv s) (c base : Nat) : memoryInv (stepTag s c base) := memoryInv_modStall h _ _ _

theorem memoryInv_failEntry (h : memoryInv s) (c i : Nat) (f : Flt) : memoryInv (failEntry s c i f) := by
  grind [failEntry, memoryInv_setEntry]

theorem memoryInv_entryFault (h : memoryInv s) (c i code v : Nat) : memoryInv (entryFault s c i code v) := by
  grind [entryFault, memoryInv_failEntry]

theorem memoryInv_stopEntry (h : memoryInv s) (c i va kind : Nat) (node : Bool) (region level : Nat) :
    memoryInv (stopEntry s c i va kind node region level) := by
  grind [stopEntry, memoryInv_modCtx, memoryInv_setEntry]

theorem memoryInv_endEntry (h : memoryInv s) (c i : Nat) : memoryInv (endEntry s c i) := memoryInv_setEntry h _ _ _

theorem placesInv_entryPlace (h : memoryInv s) (c i va kind : Nat) : placesInv (entryPlace s c i va kind) := by
  grind [entryPlace, placesInv, trInv, trInv_translateFor, memoryInv_failEntry, memoryInv_stopEntry, memoryInv_machineCheck,
    memoryInv_endEntry]

theorem memoryInv_retireWrites (h : memoryInv s) (c : Nat) (e : Entry) : memoryInv (retireWrites s c e) :=
  memoryInv_ite (memoryInv_modCore h _ _ (fun _ ht => ht)) (memoryInv_ite h (memoryInv_foldl (fun _ _ ht => memoryInv_stepTag ht _ _) _ h))

theorem memoryInv_retireEntry (h : memoryInv s) (c i : Nat) (recs : List Rec) : memoryInv (retireEntry s c i recs) := by
  grind [retireEntry, memoryInv_foldl, memoryInv_retireWrites, memoryInv_postRec, memoryInv_wakeEntries, memoryInv_setEntry]

/-! ### The functions of HomeCmd -/

theorem slotInv_homePlace (h : memoryInv s) (va : Word) (k : Place → State → SlotRes) (hk : ∀ a t, memoryInv t → slotInv (k a t)) :
    slotInv (homePlace va k s) :=
  slotInv_withPlace h _ _ _ (fun _ _ ht => slotInv_ite ht (hk _ _ ht))

theorem slotInv_amoBody (h : memoryInv s) (d : BitVec 5) (p : BitVec 4) (sc : BitVec 3) (o : BitVec 2) (z : Bool) (fn : Nat) :
    slotInv (amoBody d p sc o z fn s) :=
  slotInv_ite h (slotInv_homePlace h _ _ (fun _ _ ht => memoryInv_lease (memoryInv_addReq ht _) _))

theorem outInv_amoOp (h : memoryInv s) (g : Guard) (d : BitVec 5) (p : BitVec 4) (sc : BitVec 3) (o : BitVec 2) (z : Bool) (fn : Nat) :
    outInv (amoOp g d p sc o z fn s) :=
  outInv_slotE h _ _ _ (fun _ ht => slotInv_amoBody ht _ _ _ _ _ _)

theorem outInv_execAadd (h : memoryInv s) (g : Guard) (d : BitVec 5) (p : BitVec 4) (sc : BitVec 3) (o : BitVec 2) (z : BitVec 1) :
    outInv (execAadd g d p sc o z s) :=
  outInv_amoOp h _ _ _ _ _ _ _

theorem outInv_execAfadd (h : memoryInv s) (g : Guard) (d : BitVec 5) (p : BitVec 4) (sc : BitVec 3) (o : BitVec 2) :
    outInv (execAfadd g d p sc o s) :=
  outInv_amoOp h _ _ _ _ _ _ _

theorem outInv_execAmin (h : memoryInv s) (g : Guard) (d : BitVec 5) (p : BitVec 4) (sc : BitVec 3) (o : BitVec 2) (z : BitVec 1) :
    outInv (execAmin g d p sc o z s) :=
  outInv_amoOp h _ _ _ _ _ _ _

theorem outInv_execAmax (h : memoryInv s) (g : Guard) (d : BitVec 5) (p : BitVec 4) (sc : BitVec 3) (o : BitVec 2) (z : BitVec 1) :
    outInv (execAmax g d p sc o z s) :=
  outInv_amoOp h _ _ _ _ _ _ _

theorem outInv_execAand (h : memoryInv s) (g : Guard) (d : BitVec 5) (p : BitVec 4) (sc : BitVec 3) (o : BitVec 2) (z : BitVec 1) :
    outInv (execAand g d p sc o z s) :=
  outInv_amoOp h _ _ _ _ _ _ _

theorem outInv_execAor (h : memoryInv s) (g : Guard) (d : BitVec 5) (p : BitVec 4) (sc : BitVec 3) (o : BitVec 2) (z : BitVec 1) :
    outInv (execAor g d p sc o z s) :=
  outInv_amoOp h _ _ _ _ _ _ _

theorem outInv_execAxor (h : memoryInv s) (g : Guard) (d : BitVec 5) (p : BitVec 4) (sc : BitVec 3) (o : BitVec 2) (z : BitVec 1) :
    outInv (execAxor g d p sc o z s) :=
  outInv_amoOp h _ _ _ _ _ _ _

theorem outInv_execAxchg (h : memoryInv s) (g : Guard) (d : BitVec 5) (p : BitVec 4) (sc : BitVec 3) (o : BitVec 2) (z : BitVec 1) :
    outInv (execAxchg g d p sc o z s) :=
  outInv_amoOp h _ _ _ _ _ _ _

theorem outInv_execAcas (h : memoryInv s) (g : Guard) (d : BitVec 5) (p : BitVec 4) (sc : BitVec 3) (o : BitVec 2) (z : BitVec 1) :
    outInv (execAcas g d p sc o z s) :=
  outInv_amoOp h _ _ _ _ _ _ _

theorem slotInv_queuePlace (h : memoryInv s) (q : Word) (k : Place → State → SlotRes) (hk : ∀ a t, memoryInv t → slotInv (k a t)) :
    slotInv (queuePlace q k s) :=
  slotInv_ite h (slotInv_homePlace h _ _ (fun _ _ ht => hk _ _ ht))

theorem outInv_execQpush (h : memoryInv s) (g : Guard) (d a : BitVec 5) (r sc : BitVec 3) : outInv (execQpush g d a r sc s) :=
  outInv_slotE h _ _ _ (fun _ ht => slotInv_queuePlace ht _ _ (fun _ _ ht1 => memoryInv_lease (memoryInv_addReq ht1 _) _))

theorem outInv_execQpop (h : memoryInv s) (g : Guard) (d a : BitVec 5) (r sc : BitVec 3) : outInv (execQpop g d a r sc s) :=
  outInv_slotE h _ _ _ (fun _ ht => slotInv_queuePlace ht _ _ (fun _ _ ht1 => memoryInv_foldl (fun _ _ ht2 => memoryInv_lease ht2 _) _
    (memoryInv_lease (memoryInv_modMe (memoryInv_addReq ht1 _) _) _)))

theorem slotInv_baseAligned (h : memoryInv s) (t : Word) (n : Nat) (k : State → SlotRes) (hk : ∀ t, memoryInv t → slotInv (k t)) :
    slotInv (baseAligned t n k s) :=
  slotInv_ite h (hk _ h)

theorem outInv_execSscadd (h : memoryInv s) (g : Guard) (v i : BitVec 5) (a : BitVec 4) : outInv (execSscadd g v i a s) :=
  outInv_slotE h _ _ _ (fun _ ht => slotInv_needHandles ht _ _ (fun _ ht1 => slotInv_checked ht1 _ _ (fun _ ht2 =>
    slotInv_baseAligned ht2 _ _ _ (fun _ ht3 => memoryInv_accept ht3 _ _))))

theorem outInv_execSrowupd (h : memoryInv s) (g : Guard) (v i : BitVec 5) (a : BitVec 3) : outInv (execSrowupd g v i a s) :=
  outInv_slotE h _ _ _ (fun _ ht => slotInv_needHandles ht _ _ (fun _ ht1 => slotInv_checked ht1 _ _ (fun _ ht2 =>
    slotInv_baseAligned ht2 _ _ _ (fun _ ht3 => memoryInv_accept ht3 _ _))))

/-! ### The functions of LinkCore -/

theorem memoryInv_setLpcfg (h : memoryInv s) (p port : Nat) (v : Word) : memoryInv (setLpcfg s p port v) := memoryInv_modDie h _ _

theorem memoryInv_portDown (h : memoryInv s) (p port why : Nat) : memoryInv (portDown s p port why) :=
  memoryInv_modDie (memoryInv_setLpcfg h _ _ _) _ _

theorem memoryInv_shiftTimers (h : memoryInv s) (p n : Nat) : memoryInv (shiftTimers s p n) := by
  refine ⟨h.1, h.2.1, coresInv_map h.2.2 fun q => ?_⟩
  split
  · exact ⟨rfl, rfl⟩
  · exact ⟨rfl, rfl⟩

theorem memoryInv_updateHold (h : memoryInv s) (p : Nat) : memoryInv (updateHold s p) := by
  grind [updateHold, memoryInv_modPkg, memoryInv_shiftTimers]

/-! ### The functions of StreamCmd -/

theorem slotInv_sallocBody (h : memoryInv s) (d h a : BitVec 5) : slotInv (sallocBody d h a s) := by
  grind [sallocBody, slotInv, memoryInv_modMe, memoryInv_lease]

theorem outInv_execSalloc (h : memoryInv s) (g : Guard) (d h a : BitVec 5) : outInv (execSalloc g d h a s) := by
  grind [execSalloc, outInv_slotE, slotInv_sallocBody]

theorem memoryInv_answerAlloc (h : memoryInv s) (x : Nat) (a : Alloc) : memoryInv (answerAlloc s x a) := by
  grind [answerAlloc, yardInv, memoryInv_endLease, memoryInv_modCore, memoryInv_modCtx]

theorem outInv_execSallocAnswer (h : memoryInv s) (x : Nat) : outInv (execSallocAnswer x s) := by
  grind [execSallocAnswer, outInv, outInv_whileRuns, memoryInv_answerAlloc, memoryInv_modCtx]

theorem outInv_execSfree (h : memoryInv s) (g : Guard) (h : BitVec 5) : outInv (execSfree g h s) := by
  grind [execSfree, slotInv, outInv_slotE, slotInv_needHandles, memoryInv_modMe, memoryInv_accept]

theorem outInv_execSload (h : memoryInv s) (g : Guard) (h a b : BitVec 5) : outInv (execSload g h a b s) := by
  grind [execSload, slotInv, outInv_slotE, slotInv_needHandles, slotInv_checked, memoryInv_accept]

theorem outInv_execSloadx (h : memoryInv s) (g : Guard) (h a b : BitVec 5) : outInv (execSloadx g h a b s) := by
  grind [execSloadx, slotInv, outInv_slotE, slotInv_needHandles, slotInv_checked, memoryInv_accept]

theorem outInv_execSstore (h : memoryInv s) (g : Guard) (h a b : BitVec 5) : outInv (execSstore g h a b s) := by
  grind [execSstore, slotInv, outInv_slotE, slotInv_needHandles, slotInv_checked, memoryInv_accept]

theorem outInv_execSgather (h : memoryInv s) (g : Guard) (h i : BitVec 5) (a : BitVec 4) : outInv (execSgather g h i a s) := by
  grind [execSgather, slotInv, outInv_slotE, slotInv_needHandles, slotInv_checked, memoryInv_accept]

theorem slotInv_bagBody (h : memoryInv s) (h i : BitVec 5) (a : BitVec 4) : slotInv (bagBody h i a s) := by
  grind [bagBody, slotInv, slotInv_checked, memoryInv_accept]

theorem outInv_execSbag (h : memoryInv s) (g : Guard) (h i : BitVec 5) (a : BitVec 4) : outInv (execSbag g h i a s) := by
  grind [execSbag, outInv_slotE, slotInv_needHandles, slotInv_bagBody]

theorem outInv_execSbagm (h : memoryInv s) (g : Guard) (h i : BitVec 5) (a : BitVec 4) : outInv (execSbagm g h i a s) := by
  grind [execSbagm, outInv_slotE, slotInv_needHandles, slotInv_bagBody]

theorem outInv_execScopy (h : memoryInv s) (g : Guard) (h a b : BitVec 5) : outInv (execScopy g h a b s) := by
  grind [execScopy, slotInv, outInv_slotE, slotInv_needHandles, slotInv_checked, memoryInv_accept]

theorem outInv_execScopyp (h : memoryInv s) (g : Guard) (h a b : BitVec 5) : outInv (execScopyp g h a b s) := by
  grind [execScopyp, slotInv, outInv_slotE, slotInv_needHandles, slotInv_checked, memoryInv_accept]

theorem outInv_execSrecv (h : memoryInv s) (g : Guard) (h : BitVec 5) : outInv (execSrecv g h s) := by
  grind [execSrecv, slotInv, outInv_slotE, slotInv_needHandles, memoryInv_accept]

theorem slotInv_syncPoint (h : memoryInv s) : slotInv (syncPoint s) := by
  grind [syncPoint, slotInv, memoryInv_deliverPending]

theorem outInv_execSwait (h : memoryInv s) (g : Guard) (h : BitVec 5) : outInv (execSwait g h s) := by
  grind [execSwait, slotInv, outInv_slotE, slotInv_needHandles, slotInv_syncPoint]

theorem outInv_execSwaitAll (h : memoryInv s) (g : Guard) : outInv (execSwaitAll g s) :=
  outInv_slotE h _ _ _ (fun _ ht => slotInv_ite (slotInv_syncPoint ht) ht)

theorem outInv_execLwait (h : memoryInv s) (g : Guard) (n : BitVec 5) : outInv (execLwait g n s) :=
  outInv_slotE h _ _ _ (fun _ ht => slotInv_ite ht ht)

/-! ### The functions of StreamMove -/

theorem memoryInv_firstRead (h : memoryInv s) (c i : Nat) (e : Entry) (k : State → State) (hk : ∀ t, memoryInv t → memoryInv (k t)) :
    memoryInv (firstRead s c i e k) := by
  grind [firstRead, memoryInv_entryFault, memoryInv_setEntry]

theorem memoryInv_modEntry (h : memoryInv s) (c i : Nat) (f : Entry → Entry) : memoryInv (modEntry s c i f) := memoryInv_setEntry h _ _ _

theorem memoryInv_noteIndex (h : memoryInv s) (x idx : Nat) : memoryInv (noteIndex s x idx) := memoryInv_modCtx h _ _

theorem memoryInv_countLine (h : memoryInv s) (d : Nat) (p : Place) : memoryInv (countLine s d p) :=
  memoryInv_ite h (memoryInv_modDie h _ _)

theorem memoryInv_entryLine (h : memoryInv s) (c i va kind : Nat) (k : Place → State → State) (hk : ∀ a t,
    memoryInv t → memoryInv (k a t)) :
    memoryInv (entryLine s c i va kind k) := by
  grind [entryLine, placesInv, placesInv_entryPlace, memoryInv_dropTlb, memoryInv_countHome, memoryInv_countLine]

theorem memoryInv_readYard (h : memoryInv s) (c i b key n : Nat) (e : Entry) (k : State → State) (hk : ∀ t, memoryInv t → memoryInv (k t)) :
    memoryInv (readYard s c i b key n e k) :=
  memoryInv_readSrf h _ _ _ _ _ _ (fun _ ht => memoryInv_endEntry ht _ _) (fun _ ht => hk _ ht)

theorem memoryInv_readLine (h : memoryInv s) (c i r va n : Nat) (e : Entry) (done : List Byte → State → State) (hdone : ∀ a t,
    memoryInv t → memoryInv (done a t)) :
    memoryInv (readLine s c i r va n e done) := by
  grind [readLine, memoryInv_entryLine, memoryInv_readHome, memoryInv_endEntry, memoryInv_modEntry]

theorem memoryInv_finishRec (h : memoryInv s) (c i r : Nat) : memoryInv (finishRec s c i r) := memoryInv_modEntry h _ _ _

theorem memoryInv_moveLoad (h : memoryInv s) (c i r : Nat) (e : Entry) : memoryInv (moveLoad s c i r e) := by
  grind [moveLoad, memoryInv_readLine, memoryInv_finishRec, memoryInv_writeRec, memoryInv_modEntry]

theorem memoryInv_storeData (h : memoryInv s) (c i r : Nat) (e : Entry) (k : List Byte → State → State) (hk : ∀ a t,
    memoryInv t → memoryInv (k a t)) :
    memoryInv (storeData s c i r e k) := by
  grind [storeData, memoryInv_readYard, memoryInv_modEntry]

theorem memoryInv_moveStore (h : memoryInv s) (c i r : Nat) (e : Entry) : memoryInv (moveStore s c i r e) := by
  grind [moveStore, memoryInv_entryLine, memoryInv_storeData, memoryInv_dcDrop, memoryInv_writePhys, memoryInv_modEntry,
    memoryInv_finishRec]

theorem memoryInv_readIndex (h : memoryInv s) (c i j : Nat) (h : Word) (e : Entry) (k : Nat → State → State) (hk : ∀ a t,
    memoryInv t → memoryInv (k a t)) :
    memoryInv (readIndex s c i j h e k) := by
  grind [readIndex, memoryInv_readYard, memoryInv_modEntry]

theorem memoryInv_moveGather (h : memoryInv s) (c i r : Nat) (e : Entry) : memoryInv (moveGather s c i r e) := by
  grind [moveGather, memoryInv_readIndex, memoryInv_finishRec, memoryInv_writeRec, memoryInv_noteIndex, memoryInv_readLine]

theorem memoryInv_bagTake (h : memoryInv s) (c i j : Nat) (e : Entry) (w : Nat) (vs : List Nat) : memoryInv (bagTake s c i j e w vs) :=
  memoryInv_ite (memoryInv_ite (memoryInv_entryFault h _ _ _ _) (memoryInv_modEntry (memoryInv_writeRec h _ _ _ _ _ _) _ _ _))
    (memoryInv_modEntry h _ _ _)

theorem memoryInv_moveBag (h : memoryInv s) (c i j : Nat) (e : Entry) : memoryInv (moveBag s c i j e) :=
  memoryInv_ite h (memoryInv_readIndex h _ _ _ _ _ _ (fun _ _ ht => memoryInv_ite (memoryInv_bagTake
    (memoryInv_noteIndex ht _ _) _ _ _ _ _ _) (memoryInv_readLine ht _ _ _ _ _ _ _ (fun _ _ ht1 => memoryInv_bagTake ht1 _ _ _ _ _ _))))

theorem memoryInv_streamAccess (h : memoryInv s) (c i r : Nat) : memoryInv (streamAccess s c i r) := by
  grind [streamAccess, memoryInv_firstRead, memoryInv_moveLoad, memoryInv_moveStore, memoryInv_moveGather, memoryInv_moveBag]

theorem memoryInv_copyCheck (h : memoryInv s) (c i : Nat) (e : Entry) : memoryInv (copyCheck s c i e) := by
  grind [copyCheck, memoryInv_entryFault, memoryInv_modEntry]

theorem memoryInv_copyNext (h : memoryInv s) (c i : Nat) (e : Entry) : memoryInv (copyNext s c i e) := by
  grind [copyNext, memoryInv_readYard, memoryInv_finishRec, memoryInv_spendFree, memoryInv_writeRec, memoryInv_modEntry, memoryInv_modStall]

theorem outInv_execRemoteStallCopy (h : memoryInv s) (c i : Nat) : outInv (execRemoteStallCopy c i s) := by
  grind [execRemoteStallCopy, outInv, memoryInv_firstRead, memoryInv_copyCheck, memoryInv_copyNext]

theorem placesInv_rowPlaces (h : memoryInv s) (c i va n : Nat) : placesInv (rowPlaces s c i va n) := by
  grind [rowPlaces, placesInv, placesInv_entryPlace]

theorem memoryInv_startRow (h : memoryInv s) (c i va n idx tlen : Nat) (e : Entry) (k : List Place → State → State) (hk : ∀ a t,
    memoryInv t → memoryInv (k a t)) :
    memoryInv (startRow s c i va n idx tlen e k) := by
  grind [startRow, placesInv, memoryInv_finishRec, memoryInv_noteIndex, placesInv_rowPlaces, memoryInv_failEntry, memoryInv_modEntry]

theorem memoryInv_rowGate (h : memoryInv s) (c i va : Nat) (p : Place) (k : State → State) (hk : ∀ t, memoryInv t → memoryInv (k t)) :
    memoryInv (rowGate s c i va p k) := by
  grind [rowGate, memoryInv_modEntry, memoryInv_dropTlb]

theorem memoryInv_addElement (h : memoryInv s) (c i : Nat) (e : Entry) : memoryInv (addElement s c i e) := by
  grind [addElement, memoryInv_readIndex, memoryInv_startRow, memoryInv_rowGate, memoryInv_readYard, memoryInv_readHome,
    memoryInv_countHome, memoryInv_endEntry, memoryInv_writePhys, memoryInv_modEntry]

theorem outInv_execScatterAddAtHome (h : memoryInv s) (c i : Nat) : outInv (execScatterAddAtHome c i s) := by
  grind [execScatterAddAtHome, outInv, memoryInv_firstRead, memoryInv_addElement]

theorem memoryInv_updateRow (h : memoryInv s) (c i : Nat) (e : Entry) : memoryInv (updateRow s c i e) := by
  grind [updateRow, memoryInv_readIndex, memoryInv_startRow, memoryInv_rowGate, memoryInv_readYard, memoryInv_readHome,
    memoryInv_countHome, memoryInv_endEntry, memoryInv_writePhys, memoryInv_modEntry]

theorem outInv_execRowUpdateAtHome (h : memoryInv s) (c i : Nat) : outInv (execRowUpdateAtHome c i s) := by
  grind [execRowUpdateAtHome, outInv, memoryInv_firstRead, memoryInv_updateRow]

/-! ### The functions of GroupCore -/

theorem memoryInv_sendPkt (h : memoryInv s) (g src dst : Nat) (kind : PktKind) : memoryInv (sendPkt s g src dst kind) :=
  memoryInv_addPkt h _

theorem memoryInv_setSlot (h : memoryInv s) (g : Nat) (v : GSlot) : memoryInv (setSlot s g v) := memoryInv_modCore h _ _ (fun _ ht => ht)

theorem memoryInv_tellAll (h : memoryInv s) (g : Nat) (v : GSlot) (kind : Nat → PktKind) : memoryInv (tellAll s g v kind) :=
  memoryInv_foldl (fun _ _ ht => memoryInv_sendPkt ht _ _ _ _) _ (memoryInv_foldl (fun _ _ ht => memoryInv_sendPkt ht _ _ _ _) _ h)

theorem memoryInv_abortGroup (h : memoryInv s) (g why : Nat) : memoryInv (abortGroup s g why) :=
  memoryInv_ite (memoryInv_tellAll (memoryInv_setSlot h _ _) _ _ _) h

theorem memoryInv_commitGroup (h : memoryInv s) (g : Nat) : memoryInv (commitGroup s g) :=
  memoryInv_ite (memoryInv_tellAll (memoryInv_setSlot h _ _) _ _ _) h

theorem memoryInv_ackSlot (h : memoryInv s) (g st dest : Nat) : memoryInv (ackSlot s g st dest) := memoryInv_ite (memoryInv_setSlot h _ _) h

theorem memoryInv_setSrc (h : memoryInv s) (c n : Nat) (v : Option Src) : memoryInv (setSrc s c n v) :=
  memoryInv_modCore h _ _ (fun _ ht => ht)

theorem memoryInv_enlistSrc (h : memoryInv s) (c g frame : Nat) : memoryInv (enlistSrc s c g frame) := by
  grind [enlistSrc, memoryInv_setSrc, memoryInv_sendPkt]

theorem memoryInv_freeSrcAt (h : memoryInv s) (c n g : Nat) : memoryInv (freeSrcAt s c n g) := by
  grind [freeSrcAt, yardInv, memoryInv_modPkg, memoryInv_modCore, memoryInv_setSrc]

theorem memoryInv_forgetFrame (h : memoryInv s) (c frame : Nat) : memoryInv (forgetFrame s c frame) :=
  memoryInv_modCore h _ _ (fun _ ht => ht)

theorem memoryInv_dropSrc (h : memoryInv s) (c g : Nat) : memoryInv (dropSrc s c g) := by
  grind [dropSrc, memoryInv_freeSrcAt]

theorem memoryInv_completeOf (h : memoryInv s) (c frame : Nat) (ent : Option Nat) : memoryInv (completeOf s c frame ent) := by
  unfold completeOf
  grind [memoryInv_modEntry]

theorem memoryInv_liftSeals (h : memoryInv s) (x : Nat) : memoryInv (liftSeals s x) :=
  memoryInv_foldl (fun _ _ ht => memoryInv_dropLease (memoryInv_setPkt ht _ _) _ _) _ h

theorem memoryInv_resumeSeals (h : memoryInv s) (x : Nat) (qs : List (Nat × Nat × Nat)) : memoryInv (resumeSeals s x qs) :=
  memoryInv_foldl (fun _ _ ht => memoryInv_takeLease (memoryInv_sendPkt ht _ _ _ _) _ _) _ h

theorem memoryInv_sendTagged (h : memoryInv s) (c g frame : Nat) (ent : Option Nat) (kind pkg : Nat) (parts : List Part) :
    memoryInv (sendTagged s c g frame ent kind pkg parts) := by
  unfold sendTagged
  grind [memoryInv_foldl, memoryInv_setSrc, memoryInv_sendPkt, memoryInv_modEntry]

theorem memoryInv_setShed (h : memoryInv s) (d : Nat) (v : List ShedGroup) : memoryInv (setShed s d v) := h

theorem memoryInv_modShed (h : memoryInv s) (d g : Nat) (f : ShedGroup → ShedGroup) : memoryInv (modShed s d g f) := memoryInv_setShed h _ _

theorem memoryInv_touchShed (h : memoryInv s) (d g : Nat) : memoryInv (touchShed s d g) := memoryInv_modShed h _ _ _

theorem memoryInv_holdEntry (h : memoryInv s) (d g : Nat) (h : Held) : memoryInv (holdEntry s d g h) := by
  grind [holdEntry, memoryInv_modShed, memoryInv_setShed]

theorem memoryInv_addAt (h : memoryInv s) (p : Nat) (host : Bool) (fmt pa v : Nat) : memoryInv (addAt s p host fmt pa v) :=
  memoryInv_writePhys h _ _ _ _

theorem memoryInv_performHeld (h : memoryInv s) (d : Nat) (h : Held) : memoryInv (performHeld s d h) := by
  grind [performHeld, memoryInv_foldl, memoryInv_writePhys, memoryInv_addAt]

theorem headInv_readsHeld (h : memoryInv s) (d g : Nat) (h : Held) : headInv (readsHeld s d g h) := by
  grind [readsHeld, headInv, headInv_checkHeld, headInv_checkHomes]

theorem memoryInv_applyHeld (h : memoryInv s) (d g : Nat) (h : Held) : memoryInv (applyHeld s d g h) := by
  grind [applyHeld, headInv, headInv_readsHeld, memoryInv_performHeld, memoryInv_machineCheckDie]

theorem memoryInv_performGroup (h : memoryInv s) (d g : Nat) : memoryInv (performGroup s d g) := by
  grind [performGroup, memoryInv_foldl, memoryInv_applyHeld]

theorem memoryInv_dropGroup (h : memoryInv s) (d g : Nat) : memoryInv (dropGroup s d g) := memoryInv_setShed h _ _

theorem memoryInv_queuePaddock (h : memoryInv s) (d g st why : Nat) : memoryInv (queuePaddock s d g st why) := memoryInv_modPkg h _ _

theorem memoryInv_applyAt (h : memoryInv s) (d g : Nat) : memoryInv (applyAt s d g) :=
  memoryInv_ite (memoryInv_queuePaddock (memoryInv_touchShed h _ _) _ _ _ _) (memoryInv_sendPkt (memoryInv_dropGroup
    (memoryInv_performGroup h _ _) _ _) _ _ _ _)

theorem memoryInv_discardAt (h : memoryInv s) (d g why : Nat) : memoryInv (discardAt s d g why) :=
  memoryInv_ite (memoryInv_queuePaddock (memoryInv_touchShed h _ _) _ _ _ _) (memoryInv_sendPkt (memoryInv_dropGroup h _ _) _ _ _ _)

theorem memoryInv_tellDies (h : memoryInv s) (p frame ev : Nat) : memoryInv (tellDies s p frame ev) :=
  memoryInv_foldl (fun _ _ ht => memoryInv_sendPkt ht _ _ _ _) _ h

theorem memoryInv_sendNotice (h : memoryInv s) (x ev : Nat) : memoryInv (sendNotice s x ev) := memoryInv_tellDies h _ _ _

theorem memoryInv_abortFrame (h : memoryInv s) (c f : Nat) : memoryInv (abortFrame s c f) :=
  memoryInv_foldl (fun _ _ ht => memoryInv_ite (memoryInv_sendPkt ht _ _ _ _) ht) _ h

theorem memoryInv_abortSources (h : memoryInv s) (x : Nat) : memoryInv (abortSources s x) := memoryInv_abortFrame h _ _

/-! ### The functions of KernelSave -/

theorem memoryInv_putSave (h : memoryInv s) (c frame off : Nat) (bs : List Byte) : memoryInv (putSave s c frame off bs) :=
  memoryInv_writeVaD h _ _ _

theorem memoryInv_noteSave (h : memoryInv s) (c frame off n : Nat) : memoryInv (noteSave s c frame off n) := endInv_readRange h _ _ _

theorem headInv_areaCheck (h : memoryInv s) (c frame : Nat) (u : List (Nat × Nat)) : headInv (areaCheck s c frame u) := by
  induction u generalizing s with
  | nil => exact h
  | cons r rs ih => grind [areaCheck, headInv, headInv_checkHomes]

theorem memoryInv_withArea (h : memoryInv s) (x c frame : Nat) (rs : List (Nat × Nat)) (bad k : State → State) (hbad : ∀ t,
    memoryInv t → memoryInv (bad t)) (hk : ∀ t, memoryInv t → memoryInv (k t)) :
    memoryInv (withArea s x c frame rs bad k) := by
  unfold withArea
  split
  · exact hk s h
  · exact memoryInv_checkedFor (headInv_areaCheck h _ _ _) x bad k hbad hk

theorem memoryInv_spendSave (h : memoryInv s) : memoryInv (spendSave s) := memoryInv_spendFree h _

theorem memoryInv_setTile (h : memoryInv s) (c t : Nat) (v : Tile) : memoryInv (setTile s c t v) := memoryInv_modCore h _ _ (fun _ ht => ht)

theorem memoryInv_saveTile (h : memoryInv s) (c t : Nat) : memoryInv (saveTile s c t) := by
  grind [saveTile, headInv, headInv_checkRead, memoryInv_putSave, memoryInv_machineCheckDie]

theorem memoryInv_loadTile (h : memoryInv s) (c t f : Nat) : memoryInv (loadTile s c t f) := by
  grind [loadTile, yardInv, memoryInv_modCore, memoryInv_noteSave, memoryInv_setTile]

theorem headInv_moveTile {a : State × Nat} (h : headInv a) (c f : Nat) (t : Nat) : headInv (moveTile c f a t) := by
  obtain ⟨s, n⟩ := a
  have hsave : headInv (if ((s.core c).ca.tile t).own ≠ 0 ∧ ((s.core c).ca.tile t).v ∧ ((s.core c).ca.tile t).d
      then (saveTile s c t, n + 1) else (s, n)) := by
    split
    · exact memoryInv_saveTile h c t
    · exact h
  rw [moveTile]
  dsimp only
  generalize (if ((s.core c).ca.tile t).own ≠ 0 ∧ ((s.core c).ca.tile t).v ∧ ((s.core c).ca.tile t).d
    then (saveTile s c t, n + 1) else (s, n)) = r at hsave ⊢
  obtain ⟨u, m⟩ := r
  split
  · exact h
  · split
    · exact memoryInv_spendSave (memoryInv_loadTile (memoryInv_noteSave hsave _ _ _ _) _ _ _)
    · exact memoryInv_spendSave (memoryInv_setTile (memoryInv_noteSave hsave _ _ _ _) _ _ _)

theorem headInv_moveTiles (h : memoryInv s) (c f : Nat) (tmask : BitVec 8) : headInv (moveTiles s c f tmask) := by
  exact List.foldlRecOn (motive := headInv) _ _ h fun a ha t _ => headInv_moveTile ha c f t

theorem memoryInv_dropTiles (h : memoryInv s) (c f : Nat) (save : Bool) : memoryInv (dropTiles s c f save) :=
  memoryInv_foldl (fun _ _ ht => memoryInv_ite ht (memoryInv_setTile (memoryInv_ite (memoryInv_saveTile ht _ _) ht) _ _ _)) _ h

theorem yardInv_kernelLoad {v : Core} (hv : yardInv v) (rd : Nat → Nat → Nat) (bytes : Nat → Nat → List Byte) (t : Nat)
    (reach : List (List Nat)) (fail : Option (Nat × Nat)) (count : Nat) (i : Inv) :
    yardInv (kernelLoad rd bytes t reach fail count v i) := by
  grind [kernelLoad, yardInv]

/-! ### The functions of Sequencer -/

theorem slotInv_krunBody (h : memoryInv s) (a b c : BitVec 5) : slotInv (krunBody a b c s) := by
  grind [krunBody, slotInv, headInv, headInv_checkRead, memoryInv_accept]

theorem outInv_execKrun (h : memoryInv s) (g : Guard) (a b c : BitVec 5) : outInv (execKrun g a b c s) :=
  outInv_slotE h _ _ _ (fun _ ht => slotInv_krunBody ht _ _ _)

theorem memoryInv_startKernel (h : memoryInv s) (c i : Nat) (e : Entry) : memoryInv (startKernel s c i e) := by
  grind [startKernel, headInv, yardInv, memoryInv_endEntry, memoryInv_withArea, memoryInv_readStore, headInv_moveTiles, memoryInv_modCore]

theorem memoryInv_startEntry (h : memoryInv s) (c i : Nat) (e : Entry) : memoryInv (startEntry s c i e) :=
  memoryInv_ite (memoryInv_startKernel (memoryInv_setEntry h _ _ _) _ _ _) (memoryInv_ite (memoryInv_foldl (fun _ _ ht =>
    memoryInv_modStall ht _ _ _) _ (memoryInv_setEntry h _ _ _)) (memoryInv_setEntry h _ _ _))

theorem outInv_execEntryStart (h : memoryInv s) (c i : Nat) : outInv (execEntryStart c i s) := by
  grind [execEntryStart, outInv, memoryInv_startEntry]

theorem outInv_execEntryRetire (h : memoryInv s) (c i : Nat) : outInv (execEntryRetire c i s) := by
  grind [execEntryRetire, outInv, yardInv, memoryInv_retireEntry, memoryInv_modCore]

theorem yardInv_firstState {v : Core} (hv : yardInv v) (i : Inv) : yardInv (firstState v i) := hv

theorem outInv_execInvocationFirstBundle (h : memoryInv s) (c : Nat) : outInv (execInvocationFirstBundle c s) := by
  grind [execInvocationFirstBundle, outInv, memoryInv_modCore, yardInv_firstState]

theorem memoryInv_kernelFault (h : memoryInv s) (c : Nat) (i : Inv) (slot : Nat) (f : KFlt) : memoryInv (kernelFault s c i slot f) :=
  memoryInv_modCore h _ _ (fun _ ht => ht)

theorem outInv_execKernelBundleIssue (h : memoryInv s) (c : Nat) : outInv (execKernelBundleIssue c s) := by
  grind [execKernelBundleIssue, outInv, headInv, headInv_checkRead, memoryInv_machineCheck, memoryInv_modInv, memoryInv_kernelFault,
    memoryInv_closeKernel]

theorem yardInv_landStopCycle {v : Core} (hv : yardInv v) (t : Nat) : yardInv (landStopCycle v t) :=
  yardInv_foldl (fun _ _ ht => yardInv_landWrite ht _) _ (yardInv_landSteps hv _)

theorem yardInv_landAtStop {v : Core} (hv : yardInv v) : yardInv (landAtStop v) :=
  yardInv_foldl (fun _ _ ht => yardInv_landStopCycle ht _) _ hv

theorem outInv_execIterationBoundaryStop (h : memoryInv s) (c : Nat) : outInv (execIterationBoundaryStop c s) := by
  grind [execIterationBoundaryStop, outInv, yardInv, memoryInv_foldl, memoryInv_modCore, yardInv_landAtStop, memoryInv_putSave,
    memoryInv_setEntry]

theorem memoryInv_serveAll (h : memoryInv s) (c : Nat) : memoryInv (serveAll s c) := by
  grind [serveAll, memoryInv_foldl, memoryInv_readRemote, memoryInv_modCore, yardInv_failFetch, memoryInv_answerFetch]

theorem memoryInv_reload (h : memoryInv s) (c : Nat) (i : Inv) : memoryInv (reload s c i) := by
  unfold reload
  exact memoryInv_serveAll (memoryInv_setCore (memoryInv_noteSave (memoryInv_spendSave h) _ _ _ _) (yardInv_kernelLoad (yardInv_core
    (memoryInv_noteSave (memoryInv_spendSave h) _ _ _ _) _) _ _ _ _ _ _ _) _) _

theorem outInv_execKernelReload (h : memoryInv s) (c : Nat) : outInv (execKernelReload c s) := by
  grind [execKernelReload, outInv, memoryInv_withArea, memoryInv_modInv, memoryInv_reload]

/-! ### The functions of System -/

theorem outInv_execMfs (h : memoryInv s) (g : Guard) (d : BitVec 5) (n : BitVec 12) : outInv (execMfs g d n s) :=
  outInv_slotABM h _ _ _ (fun _ ht => slotInv_setX ht _ _)

theorem outInv_execMts (h : memoryInv s) (g : Guard) (d : BitVec 5) (n : BitVec 12) : outInv (execMts g d n s) :=
  outInv_slotABM h _ _ _ (fun _ ht => slotInv_ite ht (memoryInv_modMe ht _))

theorem outInv_execRdtick (h : memoryInv s) (g : Guard) (d : BitVec 5) : outInv (execRdtick g d s) :=
  outInv_slotABM h _ _ _ (fun _ ht => slotInv_setX ht _ _)

/-! ### The functions of TransEvents -/

theorem memoryInv_flushWords (h : memoryInv s) (d : Nat) : memoryInv (flushWords s d) := by
  grind [flushWords, headInv, memoryInv_foldl, headInv_checkRead, memoryInv_machineCheckDie, memoryInv_writePhys]

theorem memoryInv_hotFlush (h : memoryInv s) (d : Nat) : memoryInv (hotFlush s d) :=
  memoryInv_ite (memoryInv_holdJob h _ _) (memoryInv_flushWords h _)

theorem memoryInv_clearWords (h : memoryInv s) (d : Nat) : memoryInv (clearWords s d) := by
  exact ⟨Tab.wf_filter _ _ _ h.1, h.2.1, h.2.2⟩

theorem memoryInv_hotClear (h : memoryInv s) (d : Nat) : memoryInv (hotClear s d) :=
  memoryInv_ite (memoryInv_holdJob h _ _) (memoryInv_clearWords h _)

theorem memoryInv_runJob (h : memoryInv s) (d : Nat) (j : HotJob) : memoryInv (runJob s d j) := by
  unfold runJob
  grind [memoryInv_hotTouch, memoryInv_pushNote, memoryInv_countHome, memoryInv_hotFlush, memoryInv_hotClear]

theorem memoryInv_runJobs (h : memoryInv s) (p : Nat) : memoryInv (runJobs s p) :=
  memoryInv_foldl (fun _ _ ht => memoryInv_ite ht (memoryInv_foldl (fun _ _ ht1 => memoryInv_runJob ht1 _ _) _
    (memoryInv_modDie ht _ _))) _ h

theorem outInv_execHotctlFlush (h : memoryInv s) (d : Nat) : outInv (execHotctlFlush d s) :=
  memoryInv_hostWrite h _ _ (fun _ ht => memoryInv_hotFlush ht _)

theorem outInv_execHotctlClear (h : memoryInv s) (d : Nat) : outInv (execHotctlClear d s) :=
  memoryInv_hostWrite h _ _ (fun _ ht => memoryInv_hotClear ht _)

theorem outInv_execTableWalk (h : memoryInv s) (c : Nat) (va : BitVec 64) (kind : BitVec 4) : outInv (execTableWalk c va kind s) := by
  grind [execTableWalk, outInv, outInv_whileRuns, memoryInv_TrRes_state, trInv_translate]

theorem outInv_execPageScan (h : memoryInv s) (c : Nat) (va : BitVec 64) : outInv (execPageScan c va s) := by
  grind [execPageScan, outInv, outInv_whileRuns, memoryInv_TrRes_state, trInv_useExec]

theorem memoryInv_setWalk (h : memoryInv s) (c n : Nat) (w : Option Walking) : memoryInv (setWalk s c n w) :=
  memoryInv_modCore h _ _ (fun _ ht => ht)

theorem outInv_execMigrationLockReread (h : memoryInv s) (c n : Nat) : outInv (execMigrationLockReread c n s) := by
  grind [execMigrationLockReread, outInv, headInv, yardInv, headInv_serveReads, memoryInv_setWalk, memoryInv_machineCheckDie,
    memoryInv_modCore]

theorem memoryInv_pushUpcall (h : memoryInv s) (d : Nat) (u : Upcall) : memoryInv (pushUpcall s d u) := by
  grind [pushUpcall, headInv, memoryInv_readDie, memoryInv_countHome, headInv_qPush, memoryInv_modDie]

theorem outInv_execUpcallRetry (h : memoryInv s) (d n : Nat) : outInv (execUpcallRetry d n s) := by
  grind [execUpcallRetry, outInv, memoryInv_pushUpcall]

theorem memoryInv_answerTicket (h : memoryInv s) (d ticket : Nat) (fail : Option Nat) : memoryInv (answerTicket s d ticket fail) :=
  memoryInv_modDie (memoryInv_modPkg h _ _) _ _

theorem outInv_execPagerAnswer (h : memoryInv s) (d : Nat) : outInv (execPagerAnswer d s) := by
  grind [execPagerAnswer, outInv, headInv, memoryInv_readDie, memoryInv_countHome, headInv_qPop, memoryInv_answerTicket]

theorem memoryInv_tinvStart (h : memoryInv s) (d : Nat) (all : Bool) (vpn : Nat) : memoryInv (tinvStart s d all vpn) := by
  grind [tinvStart, yardInv, memoryInv_foldl, memoryInv_modCore, memoryInv_modDie]

theorem outInv_execTinvVpn (h : memoryInv s) (d : Nat) (vpn : BitVec 39) : outInv (execTinvVpn d vpn s) :=
  memoryInv_hostWrite h _ _ (fun _ ht => memoryInv_tinvStart ht _ _ _)

theorem outInv_execTinvAll (h : memoryInv s) (d : Nat) : outInv (execTinvAll d s) :=
  memoryInv_hostWrite h _ _ (fun _ ht => memoryInv_tinvStart ht _ _ _)

theorem outInv_execTinvComplete (h : memoryInv s) (d : Nat) : outInv (execTinvComplete d s) := memoryInv_ite (memoryInv_modDie h _ _) h

/-! ### The functions of Verbs -/

theorem slotInv_withPlaces {s : State} (h : memoryInv s) (kind : Nat) (vas : List Word) (k : List Place → State → SlotRes)
    (hk : ∀ ps t, memoryInv t → slotInv (k ps t)) : slotInv (withPlaces kind vas k s) := by
  induction vas generalizing s k with
  | nil => exact hk [] s h
  | cons va vas ih => exact slotInv_withPlace h va kind _ fun p t ht => ih ht _ fun ps u hu => hk (p :: ps) u hu

theorem slotInv_withHomes (h : memoryInv s) (va : Nat) (on : Bool) (k : List Place → State → SlotRes) (hk : ∀ a t,
    memoryInv t → slotInv (k a t)) :
    slotInv (withHomes va on k s) := by
  unfold withHomes
  split
  · refine slotInv_withPlaces h 2 _ _ fun ps t ht => ?_
    split
    · exact ht
    · exact hk ps t ht
  · exact hk [] s h

theorem memoryInv_enterVerb (h : memoryInv s) (o : VerbOp) (xd : Nat) (rel acq : Bool) (lps vps sps : List Place) :
    memoryInv (enterVerb o xd rel acq lps vps sps s) :=
  memoryInv_lease (memoryInv_addVerb (memoryInv_modDie h _ _) _) _

theorem slotInv_verbBody (h : memoryInv s) (kind : VerbKind) (xd q : Nat) (rel acq : Bool) : slotInv (verbBody kind xd q rel acq s) :=
  slotInv_checked h _ _ (fun _ ht => slotInv_withPlaces ht _ _ _ (fun _ _ ht1 => slotInv_withPlaces ht1 _ _ _ (fun _ _ ht2 =>
    slotInv_withHomes ht2 _ _ _ (fun _ _ ht3 => slotInv_withHomes ht3 _ _ _ (fun _ _ ht4 => memoryInv_enterVerb ht4 _ _ _ _ _ _ _)))))

theorem outInv_verbCmd (h : memoryInv s) (g : Guard) (d : BitVec 5) (q : BitVec 3) (kind : VerbKind) (rel acq : Bool) :
    outInv (verbCmd g d q kind rel acq s) :=
  outInv_slotE h _ _ _ (fun _ ht => slotInv_verbBody ht _ _ _ _ _)

theorem outInv_execPut (h : memoryInv s) (g : Guard) (d : BitVec 5) (q : BitVec 3) (o : BitVec 2) : outInv (execPut g d q o s) :=
  outInv_verbCmd h _ _ _ _ _ _

theorem outInv_execGet (h : memoryInv s) (g : Guard) (d : BitVec 5) (q : BitVec 3) (o : BitVec 2) : outInv (execGet g d q o s) :=
  outInv_verbCmd h _ _ _ _ _ _

theorem outInv_execSignal (h : memoryInv s) (g : Guard) (d : BitVec 5) (q : BitVec 3) : outInv (execSignal g d q s) :=
  outInv_verbCmd h _ _ _ _ _ _

theorem outInv_execLamo (h : memoryInv s) (g : Guard) (d : BitVec 5) (q : BitVec 3) (f : BitVec 4) (o : BitVec 2) (z : BitVec 1) :
    outInv (execLamo g d q f o z s) :=
  outInv_verbCmd h _ _ _ _ _ _

theorem endInv_targetPlace (h : memoryInv s) (v : Verb) (a kind : Nat) : endInv (targetPlace s v a kind) := by
  grind [targetPlace, endInv, endInv_translateDie]

theorem endInv_vPlace (h : memoryInv s) (v : Verb) (a kind : Nat) : endInv (vPlace s v a kind) := endInv_ite (endInv_targetPlace h _ _ _) h

theorem memoryInv_failVerb (h : memoryInv s) (n : Nat) (v : Verb) (code val : Nat) : memoryInv (failVerb s n v code val) :=
  memoryInv_setVerb h _ _

theorem memoryInv_refuseVerb (h : memoryInv s) (n : Nat) (v : Verb) (code : Nat) : memoryInv (refuseVerb s n v code) :=
  memoryInv_failVerb h _ _ _ _

theorem memoryInv_atTarget (h : memoryInv s) (n : Nat) (v : Verb) (a kind : Nat) (k : Place → State → State) (hk : ∀ a t,
    memoryInv t → memoryInv (k a t)) :
    memoryInv (atTarget s n v a kind k) := by
  grind [atTarget, endInv, endInv_vPlace, memoryInv_refuseVerb]

theorem memoryInv_verbRead (h : memoryInv s) (n : Nat) (v : Verb) (p : Place) (len : Nat) (k : State → State) (hk : ∀ t,
    memoryInv t → memoryInv (k t)) :
    memoryInv (verbRead s n v p len k) :=
  memoryInv_checkedFor (headInv_serveRead h _ _ _) _ _ _ (fun _ ht => memoryInv_endLease (memoryInv_setVerb ht _ _) _ _ _) (fun _ ht =>
    hk _ ht)

theorem memoryInv_verbGate (h : memoryInv s) (c va : Nat) (p : Place) (k : State → State) (hk : ∀ t, memoryInv t → memoryInv (k t)) :
    memoryInv (verbGate s c va p k) := by
  grind [verbGate, memoryInv_dropTlb]

theorem headInv_rewalkPages (h : memoryInv s) (n x kind : Nat) (u : List (Nat × Place)) : headInv (rewalkPages s n x kind u).1 := by
  induction u generalizing s with
  | nil => exact h
  | cons q ps ih =>
    obtain ⟨a, old⟩ := q
    grind [rewalkPages, headInv, trInv, trInv_translateFor, memoryInv_TrRes_state]

theorem headInv_rewalk (h : memoryInv s) (n : Nat) (v : Verb) : headInv (rewalk s n v) := by
  grind [rewalk, headInv, headInv_rewalkPages, memoryInv_setVerb]

theorem memoryInv_withWalked (h : memoryInv s) (n : Nat) (v : Verb) (k : Verb → State → State) (hk : ∀ a t,
    memoryInv t → memoryInv (k a t)) :
    memoryInv (withWalked s n v k) :=
  memoryInv_checkedFor (headInv_rewalk h _ _) _ _ _ (fun _ ht => memoryInv_endLease (memoryInv_setVerb ht _ _) _ _ _) (fun _ ht =>
    hk _ _ ht)

theorem memoryInv_moveChunk (h : memoryInv s) (n : Nat) (v : Verb) : memoryInv (moveChunk s n v) := by
  grind [moveChunk, memoryInv_iff, memoryInv_atTarget, memoryInv_verbGate, memoryInv_verbRead, memoryInv_writePhys, memoryInv_countHome,
    memoryInv_setVerb]

theorem memoryInv_atomicVerb (h : memoryInv s) (n : Nat) (v : Verb) : memoryInv (atomicVerb s n v) := by
  grind [atomicVerb, memoryInv_atTarget, memoryInv_verbGate, memoryInv_verbRead, memoryInv_writePhys, memoryInv_setVerb]

theorem memoryInv_rememberSeq (h : memoryInv s) (v : Verb) : memoryInv (rememberSeq s v) := memoryInv_modPkg h _ _

theorem outInv_execVerbAtTarget (h : memoryInv s) (v : Nat) : outInv (execVerbAtTarget v s) := by
  grind [execVerbAtTarget, outInv, memoryInv_withWalked, memoryInv_setVerb, memoryInv_atomicVerb, memoryInv_moveChunk,
    memoryInv_rememberSeq]

theorem outInv_execPutSignalAdd (h : memoryInv s) (v : Nat) : outInv (execPutSignalAdd v s) := by
  unfold execPutSignalAdd
  grind [outInv, endInv, memoryInv_withWalked, endInv_targetPlace, memoryInv_refuseVerb, memoryInv_verbGate, memoryInv_verbRead,
    memoryInv_writePhys, memoryInv_setVerb]

theorem outInv_execVerbAnswer (h : memoryInv s) (v : Nat) : outInv (execVerbAnswer v s) := by
  grind [execVerbAnswer, outInv, memoryInv_dropWritten, memoryInv_setVerb, memoryInv_postRec, memoryInv_endLease, memoryInv_acquire]

theorem outInv_execRouteRedirect (h : memoryInv s) (v : Nat) : outInv (execRouteRedirect v s) := by
  grind [execRouteRedirect, outInv, memoryInv_failVerb, memoryInv_setVerb]

theorem outInv_execVerbTimeout (h : memoryInv s) (v : Nat) : outInv (execVerbTimeout v s) := by
  grind [execVerbTimeout, outInv, memoryInv_failVerb]

theorem outInv_execSynct (h : memoryInv s) (g : Guard) (d a : BitVec 5) (sys : BitVec 1) : outInv (execSynct g d a sys s) := by
  grind [execSynct, slotInv, memoryInv_iff, memoryInv_foldl, outInv_slotE, memoryInv_modDie, memoryInv_modMe, memoryInv_lease]

theorem outInv_execSynctAlign (h : memoryInv s) (x : Nat) : outInv (execSynctAlign x s) := by
  grind [execSynctAlign, outInv, memoryInv_foldl, memoryInv_modCtx, memoryInv_modDie, memoryInv_endLease]

/-! ### The functions of Packages -/

theorem endInv_blame {α : Type} {r : LoadRes α} (h : endInv r) (off : Nat) : endInv (blame off r) := by
  unfold blame
  grind [endInv]

theorem endInv_kindPages (h : memoryInv s) (d va : Nat) (u : List (Nat × Nat × Nat)) : endInv (kindPages s d va u) := by
  induction u generalizing s with
  | nil => exact h
  | cons p ps ih => grind [kindPages, endInv, endInv_accBind, endInv_blame, endInv_translateDie]

theorem endInv_deviceRead (h : memoryInv s) (d va n : Nat) : endInv (deviceRead s d va n) :=
  endInv_accBind (endInv_placesOf h _ _ _ _) _ (fun _ _ ht => endInv_ite ht (endInv_readPieces ht _ _ _))

theorem endInv_checkHdr (h : memoryInv s) (d va : Nat) (h : Hdr) : endInv (checkHdr s d va h) := by
  grind [checkHdr, endInv, endInv_kindPages, endInv_accBind]

theorem endInv_readPackage (h : memoryInv s) (d va : Nat) : endInv (readPackage s d va) := by
  unfold readPackage
  grind [endInv, endInv_deviceRead, endInv_accBind, endInv_blame, endInv_checkHdr]

theorem endInv_conflict (h : memoryInv s) (p ph : Nat) (l : Loaded) : endInv (conflict s p ph l) := by
  grind [conflict, endInv]

theorem endInv_scanSections (h : memoryInv s) (d : Nat) (u : List Place) : endInv (scanSections s d u) := by
  induction u generalizing s with
  | nil => exact h
  | cons q qs ih => grind [scanSections, endInv, headInv, memoryInv_machineCheckDie, headInv_serveReads]

theorem endInv_microWords (h : memoryInv s) (d va : Nat) (h : Hdr) : endInv (microWords s d va h) := by
  grind [microWords, endInv, endInv_accBind, endInv_blame, endInv_readAs]

theorem endInv_checkRanges (h : memoryInv s) (ws : List Word) (l : Loaded) : endInv (checkRanges s ws l) := by
  grind [checkRanges, endInv]

theorem endInv_checkEntries {s : State} (h : memoryInv s) (d : Nat) (hdr : Hdr) (l : Loaded) (u : List Nat) :
    endInv (checkEntries s d hdr l u) := by
  induction u generalizing s with
  | nil => exact h
  | cons n ns ih => grind [checkEntries, endInv, endInv_accBind, endInv_blame, endInv_readAs]

theorem endInv_checkLoad (h : memoryInv s) (p ph va : Nat) : endInv (checkLoad s p ph va) := by
  grind [checkLoad, endInv, endInv_accBind, endInv_readPackage, endInv_conflict, endInv_scanSections, endInv_microWords,
    endInv_checkRanges, endInv_checkEntries]

theorem memoryInv_installPackage (h : memoryInv s) (p ph : Nat) (l : Loaded) (ws : List Word) : memoryInv (installPackage s p ph l ws) := by
  grind [installPackage, yardInv, memoryInv_foldl, memoryInv_modCore, memoryInv_modPkg]

theorem memoryInv_writeDone (h : memoryInv s) (p caddr st code ph tag tasks iters : Nat) (r : Option Rec) :
    memoryInv (writeDone s p caddr st code ph tag tasks iters r) := by
  grind [writeDone, endInv, memoryInv_logRec, endInv_translateDie, memoryInv_countHome, memoryInv_writePhys, memoryInv_raiseVector]

theorem memoryInv_tailWrite (h : memoryInv s) (p : Nat) (v : BitVec 32) : memoryInv (tailWrite s p v) := by
  unfold tailWrite
  dsimp only
  split
  · exact h
  · split
    · exact memoryInv_modPkg h _ _
    · exact memoryInv_modPkg h _ _

theorem outInv_execLqpTailWrite (h : memoryInv s) (p : Nat) (v : BitVec 32) : outInv (execLqpTailWrite p v s) :=
  memoryInv_hostWrite h _ _ (fun _ ht => memoryInv_tailWrite ht _ _)

theorem memoryInv_takeRecord (h : memoryInv s) (p : Nat) : memoryInv (takeRecord s p) := memoryInv_modPkg h _ _

theorem memoryInv_withRecord (h : memoryInv s) (p : Nat) (r : List Word) (k : State → State) (hk : ∀ t, memoryInv t → memoryInv (k t)) :
    memoryInv (withRecord s p r k) :=
  memoryInv_ite h (memoryInv_readDie (memoryInv_countHome h _ _) _ _ _ (fun _ ht => memoryInv_takeRecord ht _) (fun _ ht => hk _ ht))

theorem memoryInv_refuseRecord (h : memoryInv s) (p : Nat) (r : List Word) (code detail : Nat) :
    memoryInv (refuseRecord s p r code detail) :=
  memoryInv_writeDone (memoryInv_logRec (memoryInv_takeRecord h _) _ _) _ _ _ _ _ _ _ _ _

theorem outInv_execLoadRecord (h : memoryInv s) (p : Nat) : outInv (execLoadRecord p s) := by
  grind [execLoadRecord, outInv, endInv, memoryInv_withRecord, memoryInv_refuseRecord, endInv_checkLoad, memoryInv_writeDone,
    memoryInv_installPackage, memoryInv_takeRecord]

theorem memoryInv_finishUnload (h : memoryInv s) (p : Nat) (r : List Word) : memoryInv (finishUnload s p r) :=
  memoryInv_writeDone (memoryInv_takeRecord (memoryInv_modPkg h _ _) _) _ _ _ _ _ _ _ _ _

theorem memoryInv_failAccess (h : memoryInv s) (p run d node va : Nat) : memoryInv (failAccess s p run d node va) :=
  memoryInv_modPkg (memoryInv_logRec h _ _) _ _

theorem memoryInv_examine (h : memoryInv s) (p : Nat) : memoryInv (examine s p) := by
  refine memoryInv_foldl (fun u t hu => ?_) _ h
  have hr := endInv_readRange hu (dieOf t.core) (t.frame + 8) 8
  split
  · rename_i heq
    rw [heq] at hr
    exact memoryInv_failAccess hr _ _ _ _ _
  · rename_i heq
    rw [heq] at hr
    exact hr

theorem memoryInv_orphan (h : memoryInv s) (p : Nat) (t : Saved) : memoryInv (orphan s p t) := by
  have hw := endInv_accBind (endInv_readRange h (dieOf t.core) t.frame 1)
    (fun bs s => writeRange s (dieOf t.core) t.frame (leBytes 1 (ofLe bs ||| 2))) fun bs u hu => endInv_writeRange hu _ _ _
  rw [orphan]
  split
  · rename_i heq
    rw [heq] at hw
    exact memoryInv_failAccess hw _ _ _ _ _
  · rename_i heq
    rw [heq] at hw
    exact hw

theorem memoryInv_forceUnload (h : memoryInv s) (p : Nat) (r : List Word) (l : Loaded) : memoryInv (forceUnload s p r l) := by
  grind [forceUnload, memoryInv_foldl, memoryInv_modPkg, memoryInv_finishUnload, memoryInv_orphan, memoryInv_examine, memoryInv_modCtx]

theorem outInv_execUnloadRecord (h : memoryInv s) (p : Nat) : outInv (execUnloadRecord p s) := by
  grind [execUnloadRecord, outInv, memoryInv_withRecord, memoryInv_refuseRecord, memoryInv_forceUnload, memoryInv_examine,
    memoryInv_finishUnload]

/-! ### The functions of Wants -/

theorem memoryInv_setRun (h : memoryInv s) (p run : Nat) (r : Option Run) : memoryInv (setRun s p run r) := memoryInv_modPkg h _ _

theorem memoryInv_modRun (h : memoryInv s) (p run : Nat) (f : Run → Run) : memoryInv (modRun s p run f) := memoryInv_setRun h _ _ _

theorem memoryInv_failRun (h : memoryInv s) (p run : Nat) (f : Rec) : memoryInv (failRun s p run f) := memoryInv_modRun h _ _ _

/-! ### The functions of Graphs -/

theorem endInv_checkRun (h : memoryInv s) (p : Nat) (r : List Word) (l : Loaded) : endInv (checkRun s p r l) := by
  grind [checkRun, endInv, endInv_translateDie]

theorem outInv_execRunRecord (h : memoryInv s) (p : Nat) : outInv (execRunRecord p s) := by
  unfold execRunRecord
  grind [outInv, endInv, memoryInv_withRecord, memoryInv_refuseRecord, endInv_checkRun, memoryInv_modPkg, memoryInv_takeRecord]

theorem memoryInv_finishNode (h : memoryInv s) (p run n : Nat) : memoryInv (finishNode s p run n) := memoryInv_modRun h _ _ _

theorem endInv_argWord (h : memoryInv s) (p : Nat) (r : Run) (n i : Nat) : endInv (argWord s p r n i) :=
  endInv_accBind (endInv_readRange h _ _ _) _ (fun _ _ ht => ht)

theorem outInv_nodeStep {α : Type} {r : Acc α × State} (h : endInv r) (p run n : Nat) (k : α → State → State) (hk : ∀ a t,
    memoryInv t → memoryInv (k a t)) :
    outInv (nodeStep p run n r k) := by
  unfold nodeStep
  grind [outInv, endInv, memoryInv_failAccess]

theorem endInv_copyNode (h : memoryInv s) (p : Nat) (r : Run) (node : Nat) : endInv (copyNode s p r node) := by
  grind [copyNode, endInv, endInv_accBind, endInv_argWord, endInv_readRange, endInv_writeRange, memoryInv_spendFree]

theorem outInv_execCopyNode (h : memoryInv s) (p run node : Nat) : outInv (execCopyNode p run node s) := by
  grind [execCopyNode, outInv, outInv_nodeStep, endInv_copyNode, memoryInv_finishNode]

theorem endInv_eventNode (h : memoryInv s) (p : Nat) (r : Run) (node : Nat) : endInv (eventNode s p r node) :=
  endInv_accBind (endInv_argWord h _ _ _ _) _ (fun _ _ ht => endInv_accBind (endInv_argWord ht _ _ _ _) _ (fun _ _ ht1 => endInv_ite ht1
    (endInv_writeRange ht1 _ _ _)))

theorem outInv_execEventNode (h : memoryInv s) (p run node : Nat) : outInv (execEventNode p run node s) := by
  grind [execEventNode, outInv, outInv_nodeStep, endInv_eventNode, memoryInv_finishNode]

theorem outInv_execConditionalNode (h : memoryInv s) (p run node : Nat) : outInv (execConditionalNode p run node s) := by
  grind [execConditionalNode, outInv, outInv_nodeStep, endInv_argWord, memoryInv_finishNode, memoryInv_modRun]

theorem memoryInv_countBody (h : memoryInv s) (p run node : Nat) : memoryInv (countBody s p run node) := memoryInv_modRun h _ _ _

theorem memoryInv_closeLoop (h : memoryInv s) (p run node v : Nat) : memoryInv (closeLoop s p run node v) :=
  memoryInv_ite (memoryInv_modRun h _ _ _) (memoryInv_finishNode (memoryInv_modRun h _ _ _) _ _ _)

theorem outInv_execLoopNode (h : memoryInv s) (p run node : Nat) : outInv (execLoopNode p run node s) := by
  obtain ⟨word, hword⟩ : ∃ word : Run → LoadRes Nat, ∀ r, argWord s p r node 0 = word r := ⟨_, fun _ => rfl⟩
  have hinv (r : Run) : endInv (word r) := hword r ▸ endInv_argWord h p r node 0
  simp only [execLoopNode, hword]
  grind [endInv, outInv, outInv_nodeStep, memoryInv_countBody, memoryInv_closeLoop]

theorem outInv_execGraphComplete (h : memoryInv s) (p run : Nat) : outInv (execGraphComplete p run s) := by
  grind [execGraphComplete, outInv, memoryInv_writeDone, memoryInv_setRun]

/-! ### The functions of GroupCmd -/

theorem slotInv_withSrc (h : memoryInv s) (g : Nat) (flt : Nat → Flt) (k : State → SlotRes) (hk : ∀ t, memoryInv t → slotInv (k t)) :
    slotInv (withSrc g flt k s) := by
  grind [withSrc, slotInv]

theorem memoryInv_enlistMe (h : memoryInv s) (g : Nat) : memoryInv (enlistMe s g) := memoryInv_enlistSrc h _ _ _

theorem memoryInv_answerHere (h : memoryInv s) (g xd : Nat) (v : Word) : memoryInv (answerHere s g xd v) := memoryInv_sendPkt h _ _ _ _

theorem memoryInv_openGroup (h : memoryInv s) (com opn : Word) (xd : Nat) : memoryInv (openGroup com opn xd s) := by
  grind [openGroup, memoryInv_answerHere, memoryInv_setSlot]

theorem outInv_execGopen (h : memoryInv s) (g : Guard) (d : BitVec 5) (a : BitVec 4) : outInv (execGopen g d a s) :=
  outInv_slotE h _ _ _ (fun _ ht => slotInv_ite (memoryInv_nextFree ht) (memoryInv_openGroup (memoryInv_lease ht _) _ _ _))

theorem slotInv_sendCommand (h : memoryInv s) (g fn xd : Nat) (arg : Word) (dest : Option Nat) (va pa : Nat) :
    slotInv (sendCommand g fn xd arg dest va pa s) :=
  memoryInv_lease (memoryInv_sendPkt h _ _ _ _) _

theorem outInv_plainCommand (h : memoryInv s) (g : Guard) (d k : BitVec 5) (fn : Nat) : outInv (plainCommand g d k fn s) :=
  outInv_slotE h _ _ _ (fun _ ht => slotInv_ite ht (slotInv_sendCommand ht _ _ _ _ _ _ _))

theorem outInv_execGcommit (h : memoryInv s) (g : Guard) (d k : BitVec 5) : outInv (execGcommit g d k s) := outInv_plainCommand h _ _ _ _

theorem outInv_execGabort (h : memoryInv s) (g : Guard) (d k : BitVec 5) : outInv (execGabort g d k s) := outInv_plainCommand h _ _ _ _

theorem outInv_execGstat (h : memoryInv s) (g : Guard) (d k : BitVec 5) : outInv (execGstat g d k s) := outInv_plainCommand h _ _ _ _

theorem outInv_execGdeleg (h : memoryInv s) (g : Guard) (d : BitVec 5) (a : BitVec 4) : outInv (execGdeleg g d a s) :=
  outInv_slotE h _ _ _ (fun _ ht => slotInv_ite ht (slotInv_sendCommand ht _ _ _ _ _ _ _))

theorem outInv_execGpeek (h : memoryInv s) (g : Guard) (d : BitVec 5) (a : BitVec 4) : outInv (execGpeek g d a s) :=
  outInv_slotE h _ _ _ (fun _ ht => slotInv_ite ht (slotInv_ite ht (slotInv_ite (slotInv_sendCommand ht _ _ _ _ _ _ _)
    (slotInv_withPlace ht _ _ _ (fun _ _ ht1 => slotInv_sendCommand ht1 _ _ _ _ _ _ _)))))

theorem outInv_execGwait (h : memoryInv s) (g : Guard) (d k : BitVec 5) : outInv (execGwait g d k s) := by
  grind [execGwait, outInv, slotInv, outInv_slotE, memoryInv_modIssue, memoryInv_lease]

theorem outInv_execGwaitReturn (h : memoryInv s) (x : Nat) : outInv (execGwaitReturn x s) := by
  grind [execGwaitReturn, outInv, memoryInv_endLease, memoryInv_modIssue, memoryInv_acquire, memoryInv_closeBundle, memoryInv_performSlot]

theorem slotInv_gstoreBody (h : memoryInv s) (xs xa xg : BitVec 5) (n : Nat) : slotInv (gstoreBody xs xa xg n s) :=
  slotInv_ite h (slotInv_ite h (slotInv_withSrc h _ _ _ (fun _ ht => slotInv_ite (memoryInv_sendTagged
    (memoryInv_enlistMe ht _) _ _ _ _ _ _ _) (slotInv_withPlace (memoryInv_enlistMe ht _) _ _ _ (fun _ _ ht1 =>
    memoryInv_sendTagged ht1 _ _ _ _ _ _ _)))))

theorem outInv_execGstore (h : memoryInv s) (g : Guard) (x a k : BitVec 5) (z : BitVec 1) : outInv (execGstore g x a k z s) :=
  outInv_slotE h _ _ _ (fun _ ht => slotInv_gstoreBody ht _ _ _ _)

theorem slotInv_streamGroup (h : memoryInv s) (xa : Nat) (k : State → SlotRes) (hk : ∀ t, memoryInv t → slotInv (k t)) :
    slotInv (streamGroup xa k s) :=
  slotInv_ite (memoryInv_nextFree h) (slotInv_withSrc (memoryInv_nextFree h) _ _ _ (fun _ ht => hk _ (memoryInv_enlistMe ht _)))

theorem outInv_execSstoreg (h : memoryInv s) (g : Guard) (h : BitVec 5) (a : BitVec 3) : outInv (execSstoreg g h a s) := by
  grind [execSstoreg, slotInv, outInv_slotE, slotInv_needHandles, slotInv_checked, slotInv_streamGroup, memoryInv_accept]

theorem outInv_execSscaddg (h : memoryInv s) (g : Guard) (v i : BitVec 5) (a : BitVec 3) : outInv (execSscaddg g v i a s) :=
  outInv_slotE h _ _ _ (fun _ ht => slotInv_needHandles ht _ _ (fun _ ht1 => slotInv_checked ht1 _ _ (fun _ ht2 =>
    slotInv_baseAligned ht2 _ _ _ (fun _ ht3 => slotInv_streamGroup ht3 _ _ (fun _ ht4 => memoryInv_accept ht4 _ _)))))

theorem outInv_execGseal (h : memoryInv s) (g : Guard) (d : BitVec 5) (a : BitVec 4) : outInv (execGseal g d a s) :=
  outInv_slotE h _ _ _ (fun _ ht => slotInv_ite ht (slotInv_withSrc ht _ _ _ (fun _ ht1 => memoryInv_lease (memoryInv_sendPkt
    (memoryInv_enlistMe ht1 _) _ _ _ _) _)))

theorem placesInv_rangePlaces (h : memoryInv s) (c i va n kind : Nat) : placesInv (rangePlaces s c i va n kind) := by
  grind [rangePlaces, placesInv, placesInv_entryPlace]

theorem memoryInv_sendRecord (h : memoryInv s) (c i : Nat) (e : Entry) (kind va : Nat) (bs : List Byte) :
    memoryInv (sendRecord s c i e kind va bs) := by
  grind [sendRecord, placesInv, memoryInv_finishRec, memoryInv_sendTagged, placesInv_rangePlaces, memoryInv_failEntry]

theorem memoryInv_sendNext (h : memoryInv s) (c i : Nat) (e : Entry) : memoryInv (sendNext s c i e) := by
  grind [sendNext, memoryInv_readYard, memoryInv_sendRecord, memoryInv_finishRec, memoryInv_noteIndex]

theorem memoryInv_groupAccess (h : memoryInv s) (c i r : Nat) : memoryInv (groupAccess s c i r) := by
  grind [groupAccess, memoryInv_firstRead, memoryInv_sendNext]

theorem outInv_execHomePlainAccess (h : memoryInv s) (q : HomeReq) : outInv (execHomePlainAccess q s) := by
  unfold execHomePlainAccess
  grind [outInv, memoryInv_cpPlainAccess, memoryInv_groupAccess, memoryInv_streamAccess]

/-! ### The functions of GroupEvents -/

theorem memoryInv_reply (h : memoryInv s) (p : Pkt) (x xd : Nat) (v : Word) (flt : Option (Nat × Nat × Nat × Word)) :
    memoryInv (reply s p x xd v flt) :=
  memoryInv_sendPkt h _ _ _ _

theorem memoryInv_forwardPeek (h : memoryInv s) (k : Nat) (p : Pkt) (g x xd : Nat) (arg : Word) (dest : Option Nat) (va pa : Nat)
    (word : Word32) :
    memoryInv (forwardPeek s k p g x xd arg dest va pa word) :=
  memoryInv_setPkt h _ _

theorem memoryInv_delegate (h : memoryInv s) (g : Nat) (com : Word) : memoryInv (delegate s g com) :=
  memoryInv_ite (memoryInv_setSlot h _ _) h

theorem memoryInv_performCommand (h : memoryInv s) (k : Nat) (p : Pkt) (fn x xd : Nat) (arg : Word) (dest : Option Nat) (va pa : Nat)
    (word : Word32) :
    memoryInv (performCommand s k p fn x xd arg dest va pa word) := by
  unfold performCommand
  grind [memoryInv_reply, memoryInv_forwardPeek, memoryInv_commitGroup, memoryInv_abortGroup, memoryInv_delegate]

theorem headInv_peekReads (h : memoryInv s) (src d g : Nat) (q : Place) : headInv (peekReads s src d g q) := by
  have hq := headInv_serveRead h src q 8
  unfold peekReads
  split
  · grind [headInv]
  · rename_i u heq
    rw [heq] at hq
    split
    · exact hq
    · exact List.foldlRecOn (motive := headInv) _ _ hq fun a ha e _ => by grind [headInv, headInv_checkHeld]

theorem memoryInv_peekAt (h : memoryInv s) (k : Nat) (p : Pkt) (x xd : Nat) (q : Place) : memoryInv (peekAt s k p x xd q) :=
  memoryInv_checkedFor (headInv_peekReads (memoryInv_touchShed (memoryInv_setPkt h _ _) _ _) _ _ _ _) _ _ _ (fun _ ht =>
    memoryInv_endLease ht _ _ _) (fun _ ht => memoryInv_reply ht _ _ _ _ _)

theorem memoryInv_redirectPeek (h : memoryInv s) (k : Nat) (p : Pkt) (x xd va : Nat) (word : Word32) :
    memoryInv (redirectPeek s k p x xd va word) := by
  grind [redirectPeek, trInv, trInv_translateFor, memoryInv_dropTlb, memoryInv_setPkt, memoryInv_TrRes_state]

theorem memoryInv_performPeek (h : memoryInv s) (k : Nat) (p : Pkt) (x xd : Nat) (dest : Option Nat) (va pa : Nat) (word : Word32) :
    memoryInv (performPeek s k p x xd dest va pa word) := by
  unfold performPeek
  grind [endInv, memoryInv_redirectPeek, memoryInv_peekAt, endInv_translateDie, memoryInv_reply, memoryInv_setPkt]

theorem memoryInv_groupLeaseEnd (h : memoryInv s) (k : Nat) : memoryInv (groupLeaseEnd s k) := by
  grind [groupLeaseEnd, memoryInv_performCommand, memoryInv_setPkt, memoryInv_performPeek, memoryInv_endLease, memoryInv_postRec]

theorem outInv_execLeaseEnd (h : memoryInv s) (r : Nat) : outInv (execLeaseEnd r s) :=
  memoryInv_ite (memoryInv_groupLeaseEnd h _) (memoryInv_ite h (memoryInv_reqLeaseEnd h _))

theorem outInv_execEnlistRequest (h : memoryInv s) (k : Nat) : outInv (execEnlistRequest k s) := by
  grind [execEnlistRequest, outInv, memoryInv_setPkt, memoryInv_setSlot, memoryInv_abortGroup, memoryInv_sendPkt]

theorem memoryInv_refuseCtx (h : memoryInv s) (c g x : Nat) (ent : Option Nat) : memoryInv (refuseCtx s c g x ent) := by
  grind [refuseCtx, memoryInv_postRec, memoryInv_nextFree]

theorem memoryInv_refuseSrc (h : memoryInv s) (c n g : Nat) (v : Src) : memoryInv (refuseSrc s c n g v) :=
  memoryInv_foldl (fun _ _ ht => memoryInv_refuseCtx ht _ _ _ _) _ (memoryInv_foldl (fun _ _ ht => memoryInv_completeOf
    (memoryInv_setPkt ht _ _) _ _ _) _ (memoryInv_freeSrcAt h _ _ _))

theorem outInv_execEnlistAnswer (h : memoryInv s) (k : Nat) : outInv (execEnlistAnswer k s) := by
  grind [execEnlistAnswer, outInv, memoryInv_setPkt, memoryInv_setSrc, memoryInv_refuseSrc]

theorem memoryInv_refuseStore (h : memoryInv s) (k : Nat) (p : Pkt) (h : Held) (frame : Nat) (ent : Option Nat) (die why : Nat) :
    memoryInv (refuseStore s k p h frame ent die why) := by
  grind [refuseStore, memoryInv_sendPkt, memoryInv_setPkt]

theorem memoryInv_admitStore (h : memoryInv s) (k : Nat) (p : Pkt) (h : Held) (frame : Nat) (ent : Option Nat) (d : Nat) :
    memoryInv (admitStore s k p h frame ent d) := by
  grind [admitStore, memoryInv_touchShed, memoryInv_sendPkt, memoryInv_setPkt, memoryInv_holdEntry, memoryInv_refuseStore]

theorem memoryInv_redirectStore (h : memoryInv s) (k : Nat) (p : Pkt) (h : Held) (frame : Nat) (ent : Option Nat) (va kind : Nat) :
    memoryInv (redirectStore s k p h frame ent va kind) := by
  grind [redirectStore, trInv, trInv_translateFor, memoryInv_dropTlb, memoryInv_setPkt, memoryInv_TrRes_state]

theorem outInv_execShedAdmit (h : memoryInv s) (k : Nat) : outInv (execShedAdmit k s) := by
  unfold execShedAdmit
  grind [outInv, endInv, memoryInv_redirectStore, memoryInv_admitStore, memoryInv_hotTouch, endInv_translateDie, memoryInv_refuseStore,
    memoryInv_countHome]

theorem outInv_execStoreAck (h : memoryInv s) (k : Nat) : outInv (execStoreAck k s) := by
  grind [execStoreAck, outInv, memoryInv_completeOf, memoryInv_setPkt, memoryInv_setSrc]

theorem outInv_execStoreRefusal (h : memoryInv s) (k : Nat) : outInv (execStoreRefusal k s) := by
  grind [execStoreRefusal, outInv, memoryInv_sendPkt, memoryInv_completeOf, memoryInv_setPkt]

theorem outInv_execSourceAbortReport (h : memoryInv s) (k : Nat) : outInv (execSourceAbortReport k s) := by
  grind [execSourceAbortReport, outInv, memoryInv_abortGroup, memoryInv_setPkt]

theorem memoryInv_sendSeal (h : memoryInv s) (k : Nat) (p : Pkt) (c exp x xd : Nat) : memoryInv (sendSeal s k p c exp x xd) := by
  grind [sendSeal, memoryInv_setPkt, memoryInv_sendPkt, memoryInv_setSrc]

theorem memoryInv_takeSeal (h : memoryInv s) (g src exp count : Nat) (ds : List Nat) : memoryInv (takeSeal s g src exp count ds) :=
  memoryInv_ite h (memoryInv_ite (memoryInv_abortGroup (memoryInv_setSlot h _ _) _ _) (memoryInv_ite (memoryInv_abortGroup
    (memoryInv_setSlot h _ _) _ _) (memoryInv_setSlot h _ _)))

theorem outInv_execSealReport (h : memoryInv s) (k : Nat) : outInv (execSealReport k s) := by
  grind [execSealReport, outInv, memoryInv_sendSeal, memoryInv_takeSeal, memoryInv_setPkt, memoryInv_reply]

theorem outInv_execGroupApply (h : memoryInv s) (k : Nat) : outInv (execGroupApply k s) := by
  grind [execGroupApply, outInv, memoryInv_applyAt, memoryInv_setPkt]

theorem outInv_execApplyAck (h : memoryInv s) (k : Nat) : outInv (execApplyAck k s) := by
  grind [execApplyAck, outInv, memoryInv_ackSlot, memoryInv_setPkt]

theorem outInv_execGroupDiscard (h : memoryInv s) (k : Nat) : outInv (execGroupDiscard k s) := by
  grind [execGroupDiscard, outInv, memoryInv_discardAt, memoryInv_setPkt]

theorem outInv_execDiscardAck (h : memoryInv s) (k : Nat) : outInv (execDiscardAck k s) := by
  grind [execDiscardAck, outInv, memoryInv_ackSlot, memoryInv_setPkt]

theorem outInv_execDecisionAtSource (h : memoryInv s) (k : Nat) : outInv (execDecisionAtSource k s) := by
  grind [execDecisionAtSource, outInv, memoryInv_dropSrc, memoryInv_setPkt]

theorem outInv_execLeaseQuery (h : memoryInv s) (h : Nat) (grp : BitVec 32) : outInv (execLeaseQuery h grp s) := by
  grind [execLeaseQuery, outInv, memoryInv_modShed, memoryInv_sendPkt]

theorem memoryInv_actOnAnswer (h : memoryInv s) (d g ans why : Nat) : memoryInv (actOnAnswer s d g ans why) := by
  unfold actOnAnswer
  grind [memoryInv_applyAt, memoryInv_discardAt, memoryInv_modShed]

theorem outInv_execQueryAnswer (h : memoryInv s) (k : Nat) : outInv (execQueryAnswer k s) := by
  grind [execQueryAnswer, outInv, memoryInv_sendPkt, memoryInv_setPkt, memoryInv_actOnAnswer, memoryInv_modShed]

theorem outInv_execDeadlineExpiry (h : memoryInv s) (c slot : Nat) : outInv (execDeadlineExpiry c slot s) :=
  memoryInv_ite (memoryInv_abortGroup h _ _) h

theorem memoryInv_noticeSlot (h : memoryInv s) (c slot ev : Nat) (v : GSlot) : memoryInv (noticeSlot s c slot ev v) := by
  unfold noticeSlot
  grind [memoryInv_setSlot, memoryInv_abortGroup]

theorem outInv_execPlacementNotice (h : memoryInv s) (k : Nat) : outInv (execPlacementNotice k s) := by
  grind [execPlacementNotice, outInv, memoryInv_foldl, memoryInv_noticeSlot, memoryInv_setPkt]

theorem memoryInv_orphanAll (h : memoryInv s) (p q : Nat) : memoryInv (orphanAll s p q) := h

theorem memoryInv_sendResetNotices (h : memoryInv s) (q : Nat) : memoryInv (sendResetNotices s q) :=
  memoryInv_foldl (fun _ _ ht => memoryInv_modPkg ht _ _) _ h

theorem outInv_execResetNotice (h : memoryInv s) (p q : Nat) : outInv (execResetNotice p q s) :=
  memoryInv_ite (memoryInv_orphanAll (memoryInv_modPkg h _ _) _ _) h

theorem memoryInv_forceApply (h : memoryInv s) (d g : Nat) : memoryInv (forceApply s d g) :=
  memoryInv_foldl (fun _ _ ht => memoryInv_applyAt ht _ _) _ h

theorem memoryInv_forceDiscard (h : memoryInv s) (d g : Nat) : memoryInv (forceDiscard s d g) :=
  memoryInv_foldl (fun _ _ ht => memoryInv_discardAt ht _ _ _) _ h

theorem outInv_execShforceApply (h : memoryInv s) (d : Nat) (grp : BitVec 32) : outInv (execShforceApply d grp s) :=
  memoryInv_hostWrite h _ _ (fun _ ht => memoryInv_forceApply ht _ _)

theorem outInv_execShforceDiscard (h : memoryInv s) (d : Nat) (grp : BitVec 32) : outInv (execShforceDiscard d grp s) :=
  memoryInv_hostWrite h _ _ (fun _ ht => memoryInv_forceDiscard ht _ _)

theorem outInv_execHeldPacketReroute (h : memoryInv s) (k : Nat) : outInv (execHeldPacketReroute k s) := by
  grind [execHeldPacketReroute, outInv, memoryInv_setPkt]

theorem memoryInv_writeCompletion (h : memoryInv s) (p g st why n : Nat) : memoryInv (writeCompletion s p g st why n) :=
  memoryInv_ite h (memoryInv_raiseVector (memoryInv_modPkg (memoryInv_writePhys h _ _ _ _) _ _) _ _)

theorem outInv_execPaddockApply (h : memoryInv s) (p : Nat) : outInv (execPaddockApply p s) := by
  grind [execPaddockApply, outInv, memoryInv_modPkg, memoryInv_performGroup, memoryInv_writeCompletion, memoryInv_dropGroup,
    memoryInv_sendPkt]

theorem memoryInv_padcqpSet (h : memoryInv s) (p head : Nat) : memoryInv (padcqpSet s p head) := memoryInv_modPkg h _ _

theorem outInv_execPadcqpHeadWrite (h : memoryInv s) (p : Nat) (v : BitVec 32) : outInv (execPadcqpHeadWrite p v s) :=
  memoryInv_hostWrite h _ _ (fun _ ht => memoryInv_padcqpSet ht _ _)

/-! ### The functions of LinkEvents -/

theorem memoryInv_itSwap (h : memoryInv s) (p : Nat) : memoryInv (itSwap s p) :=
  memoryInv_ite (memoryInv_modPkg h _ _) (memoryInv_modPkg h _ _)

theorem outInv_execItctlSwap (h : memoryInv s) (p : Nat) : outInv (execItctlSwap p s) :=
  memoryInv_hostWrite h _ _ (fun _ ht => memoryInv_itSwap ht _)

theorem outInv_execPortTrainingAttempt (h : memoryInv s) (p port why : Nat) : outInv (execPortTrainingAttempt p port why s) :=
  outInv_ite h (outInv_ite (memoryInv_setLpcfg h _ _ _) (outInv_ite (memoryInv_setLpcfg h _ _ _) (memoryInv_setLpcfg h _ _ _)))

theorem memoryInv_lpcfgSet (h : memoryInv s) (d q : Nat) (v : Word) : memoryInv (lpcfgSet s d q v) :=
  memoryInv_ite (memoryInv_portDown (memoryInv_setLpcfg h _ _ _) _ _ _) (memoryInv_setLpcfg h _ _ _)

theorem outInv_execLpcfgWrite (h : memoryInv s) (d q : Nat) (v : BitVec 64) : outInv (execLpcfgWrite d q v s) :=
  memoryInv_hostWrite h _ _ (fun _ ht => memoryInv_lpcfgSet ht _ _ _)

theorem outInv_execGroupTagFailure (h : memoryInv s) (p : Nat) (port : FlitGroup) : outInv (execGroupTagFailure p port s) :=
  outInv_ite h (memoryInv_ite (memoryInv_portDown h _ _ _) (memoryInv_modDie h _ _))

theorem outInv_execPortPeerLost (h : memoryInv s) (p port : Nat) : outInv (execPortPeerLost p port s) :=
  memoryInv_ite (memoryInv_portDown h _ _ _) h

theorem memoryInv_shiftYields (h : memoryInv s) (d n : Nat) : memoryInv (shiftYields s d n) := h

theorem memoryInv_setHalt (h : memoryInv s) (d : Nat) (b : Bool) : memoryInv (setHalt s d b) :=
  memoryInv_ite (memoryInv_shiftYields (memoryInv_modDie h _ _) _ _) (memoryInv_modDie h _ _)

theorem memoryInv_haltSet (h : memoryInv s) (d : Nat) (v : Word) : memoryInv (haltSet s d v) :=
  memoryInv_updateHold (memoryInv_setHalt h _ _) _

theorem outInv_execDbgctlHalt (h : memoryInv s) (d : Nat) (v : BitVec 64) : outInv (execDbgctlHalt d v s) :=
  memoryInv_hostWrite h _ _ (fun _ ht => memoryInv_haltSet ht _ _)

theorem outInv_execLinkedHoldReport (h : memoryInv s) (p q : Nat) (held : Bool) : outInv (execLinkedHoldReport p q held s) :=
  memoryInv_updateHold (memoryInv_modPkg h _ _) _

/-! ### The functions of Migration -/

theorem memoryInv_modMig (h : memoryInv s) (p : Nat) (f : Mig → Mig) : memoryInv (modMig s p f) := memoryInv_modPkg h _ _

theorem memoryInv_migErr (h : memoryInv s) (p : Nat) : memoryInv (migErr s p) := memoryInv_modMig h _ _

theorem memoryInv_migStart (h : memoryInv s) (p old new : Nat) : memoryInv (migStart s p old new) :=
  memoryInv_ite (memoryInv_modMig h _ _) (memoryInv_migErr h _)

theorem memoryInv_migFin (h : memoryInv s) (p : Nat) : memoryInv (migFin s p) :=
  memoryInv_ite (memoryInv_modMig h _ _) (memoryInv_migErr h _)

theorem memoryInv_migEnd (h : memoryInv s) (p : Nat) : memoryInv (migEnd s p) := memoryInv_runJobs (memoryInv_modMig h _ _) _

theorem memoryInv_migRel (h : memoryInv s) (p : Nat) : memoryInv (migRel s p) := memoryInv_ite (memoryInv_migEnd h _) (memoryInv_migErr h _)

theorem memoryInv_migCan (h : memoryInv s) (p : Nat) : memoryInv (migCan s p) := memoryInv_ite (memoryInv_migEnd h _) (memoryInv_migErr h _)

theorem memoryInv_migCommand (h : memoryInv s) (p : Nat) (v : Word) : memoryInv (migCommand s p v) := by
  grind [migCommand, memoryInv_migStart, memoryInv_migFin, memoryInv_migRel, memoryInv_migCan]

theorem outInv_execMigCopy (h : memoryInv s) (p : Nat) (old new : BitVec 28) : outInv (execMigCopy p old new s) :=
  memoryInv_hostWrite h _ _ (fun _ ht => memoryInv_migStart ht _ _ _)

theorem outInv_execMigFinalise (h : memoryInv s) (p : Nat) : outInv (execMigFinalise p s) :=
  memoryInv_hostWrite h _ _ (fun _ ht => memoryInv_migFin ht _)

theorem outInv_execMigRelease (h : memoryInv s) (p : Nat) : outInv (execMigRelease p s) :=
  memoryInv_hostWrite h _ _ (fun _ ht => memoryInv_migRel ht _)

theorem outInv_execMigCancel (h : memoryInv s) (p : Nat) : outInv (execMigCancel p s) :=
  memoryInv_hostWrite h _ _ (fun _ ht => memoryInv_migCan ht _)

theorem memoryInv_copyLine (h : memoryInv s) (p n : Nat) (k : State → State) (hk : ∀ t, memoryInv t → memoryInv (k t)) :
    memoryInv (copyLine s p n k) := by
  grind [copyLine, memoryInv_readDie, memoryInv_countHome, memoryInv_writePhys]

theorem outInv_execMigrationLineCopy (h : memoryInv s) (p : Nat) : outInv (execMigrationLineCopy p s) := by
  grind [execMigrationLineCopy, outInv, memoryInv_copyLine, memoryInv_modMig]

theorem outInv_execMigrationMoved (h : memoryInv s) (p : Nat) : outInv (execMigrationMoved p s) :=
  memoryInv_ite (memoryInv_runJobs (memoryInv_modMig h _ _) _) h

/-! ### The functions of Tasks -/

theorem endInv_clearFrame (h : memoryInv s) (d frame : Nat) : endInv (clearFrame s d frame) :=
  endInv_accBind (endInv_writeRange h _ _ _) _ (fun _ _ ht => endInv_accBind (endInv_writeRange ht _ _ _) _ (fun _ _ ht1 =>
    endInv_writeRange ht1 _ _ _))

theorem outInv_execTaskPlacement (h : memoryInv s) (p run node : Nat) (wid : BitVec 64) (x blk : Nat) :
    outInv (execTaskPlacement p run node wid x blk s) := by
  obtain ⟨clear, hclear⟩ : ∃ clear, clearFrame = clear := ⟨_, rfl⟩
  have hinv (d frame : Nat) : endInv (clear s d frame) := hclear ▸ endInv_clearFrame h d frame
  simp only [execTaskPlacement, hclear]
  grind [outInv, endInv, memoryInv_failAccess, memoryInv_modPkg, memoryInv_setCtx, memoryInv_modRun, memoryInv_acquire]

theorem memoryInv_fillArea (h : memoryInv s) (x : Nat) (t : Task) : memoryInv (fillArea s x t) := by
  grind [fillArea, endInv, memoryInv_foldl, endInv_writeRange, memoryInv_failAccess]

theorem memoryInv_finishFill (h : memoryInv s) (x : Nat) (t : Task) : memoryInv (finishFill s x t) :=
  memoryInv_ite h (memoryInv_modCtx (memoryInv_fillArea h _ _) _ _)

theorem outInv_execSaveAreaFillDone (h : memoryInv s) (x : Nat) : outInv (execSaveAreaFillDone x s) := by
  obtain ⟨waits, hwaits⟩ : ∃ waits, areaWaits = waits := ⟨_, rfl⟩
  simp only [execSaveAreaFillDone, hwaits]
  grind [outInv, memoryInv_finishFill]

theorem memoryInv_dropEntries (h : memoryInv s) (x : Nat) (f : Entry → Bool) : memoryInv (dropEntries s x f) :=
  memoryInv_wakeEntries (memoryInv_foldl (fun _ _ ht => memoryInv_setEntry ht _ _ _) _ h) _

theorem memoryInv_freeStalls (h : memoryInv s) (x : Nat) : memoryInv (freeStalls s x) := memoryInv_modCore h _ _ (fun _ ht => ht)

theorem memoryInv_endInstance (h : memoryInv s) (p : Nat) (t : Task) (f : Option Rec) : memoryInv (endInstance s p t f) :=
  memoryInv_modRun h _ _ _

theorem memoryInv_leaveCtx (h : memoryInv s) (x : Nat) (t : Task) (f : Option Rec) : memoryInv (leaveCtx s x t f) :=
  memoryInv_setCtx (memoryInv_dropMiss (memoryInv_endInstance (memoryInv_forgetFrame (memoryInv_dropTiles
    (memoryInv_freeStalls h _) _ _ _) _ _) _ _ _) _ _) _ _

theorem memoryInv_endKilled (h : memoryInv s) (x : Nat) (t : Task) (f : Rec) : memoryInv (endKilled s x t f) :=
  memoryInv_leaveCtx (memoryInv_sendNotice (memoryInv_abortSources h _) _ _) _ _ _

theorem memoryInv_endNormal (h : memoryInv s) (x : Nat) (t : Task) (is : Issue) : memoryInv (endNormal s x t is) := by
  grind [endNormal, memoryInv_deliver, memoryInv_modCtx, memoryInv_leaveCtx]

theorem outInv_execTaskEnd (h : memoryInv s) (x : Nat) : outInv (execTaskEnd x s) := by
  grind [execTaskEnd, outInv, memoryInv_dropEntries, memoryInv_endKilled, memoryInv_endNormal]

theorem headInv_makeUpcall (h : memoryInv s) (x va kind : Nat) (node : Bool) (region level : Nat) :
    headInv (makeUpcall s x va kind node region level) :=
  memoryInv_pushUpcall (memoryInv_modDie h _ _) _ _

theorem memoryInv_writeSave (h : memoryInv s) (x : Nat) (t : Task) (ws : List (Nat × List Byte)) : memoryInv (writeSave s x t ws) := by
  grind [writeSave, endInv, memoryInv_foldl, endInv_writeRange, memoryInv_failAccess]

theorem memoryInv_saveTask (h : memoryInv s) (x : Nat) (t : Task) (why : SaveWhy) (rb : Option Issue) :
    memoryInv (saveTask s x t why rb) := by
  unfold saveTask
  grind [headInv, memoryInv_foldl, memoryInv_liftSeals, memoryInv_writeSave, memoryInv_finishFill, memoryInv_setEntry,
    memoryInv_sendNotice, memoryInv_dropMiss, headInv_makeUpcall, memoryInv_setCtx, memoryInv_modPkg]

theorem memoryInv_dropSave (h : memoryInv s) (x : Nat) : memoryInv (dropSave s x) :=
  memoryInv_foldl (fun _ _ ht => memoryInv_ite (memoryInv_setEntry ht _ _ _) ht) _ (memoryInv_modCtx h _ _)

theorem outInv_execTaskSave (h : memoryInv s) (x : Nat) : outInv (execTaskSave x s) := by
  grind [execTaskSave, outInv, memoryInv_dropSave, memoryInv_dropGwait, memoryInv_saveTask]

theorem endInv_readFrame (h : memoryInv s) (d frame : Nat) : endInv (readFrame s d frame) :=
  endInv_accBind (endInv_readRange h _ _ _) _ (fun _ _ ht => endInv_accBind (endInv_readRange ht _ _ _) _ (fun _ _ ht1 => endInv_ite ht1
    (endInv_accBind (endInv_readRange ht1 _ _ _) _ (fun _ _ ht2 => ht2))))

theorem memoryInv_leaveTiles (h : memoryInv s) (v : Saved) (c : Nat) : memoryInv (leaveTiles s v c) :=
  memoryInv_ite h (memoryInv_dropTiles h _ _ _)

theorem memoryInv_takeSaved (h : memoryInv s) (p t : Nat) : memoryInv (takeSaved s p t) := memoryInv_modPkg h _ _

theorem memoryInv_restoreKilled (h : memoryInv s) (x : Nat) (c : Ctx) (f : Flt) : memoryInv (restoreKilled s x c f) := by
  grind [restoreKilled, memoryInv_setCtx, memoryInv_killTask, memoryInv_writeFrameRec, memoryInv_failRun]

theorem memoryInv_restoreOn (h : memoryInv s) (x : Nat) (c : Ctx) (rd : Nat → Nat → Nat) (v : Saved) :
    memoryInv (restoreOn s x c rd v) := by
  obtain ⟨write, hwrite⟩ : ∃ write, writeRange = write := ⟨_, rfl⟩
  have hinv {t : State} (ht : memoryInv t) (d va : Nat) (bs : List Byte) : endInv (write t d va bs) := hwrite ▸ endInv_writeRange ht d va bs
  simp only [restoreOn, hwrite]
  refine memoryInv_acquire (memoryInv_sendNotice (memoryInv_resumeSeals ?_ x v.seals) x 1) _ _
  generalize hr : write _ _ _ _ = r
  have hr : endInv r := by
    rw [← hr]
    exact hinv (memoryInv_foldl (fun t j ht => by grind [memoryInv_enterEntry]) _ (memoryInv_setCtx h x _)) _ _ _
  obtain ⟨a, u⟩ := r
  cases a with
  | ok => exact hr
  | wait => exact hr
  | bad code a => exact memoryInv_failAccess hr _ _ _ _ a

theorem memoryInv_loseSaved (h : memoryInv s) (p d : Nat) (v : Saved) (va : Nat) : memoryInv (loseSaved s p d v va) :=
  memoryInv_endInstance (memoryInv_failAccess (memoryInv_tellDies (memoryInv_forgetFrame (memoryInv_abortFrame
    (memoryInv_dropTiles h _ _ _) _ _) _ _) _ _ _) _ _ _ _ _) _ _ _

theorem memoryInv_restoreTask (h : memoryInv s) (p t x : Nat) (v : Saved) (ps : Pieces) : memoryInv (restoreTask s p t x v ps) := by
  grind [restoreTask, memoryInv_modPkg, memoryInv_takeSaved, memoryInv_restoreKilled, memoryInv_restoreOn]

theorem outInv_execTaskRestore (h : memoryInv s) (p t x : Nat) : outInv (execTaskRestore p t x s) := by
  obtain ⟨read, hread⟩ : ∃ read, readFrame = read := ⟨_, rfl⟩
  have hinv {t : State} (ht : memoryInv t) (d frame : Nat) : endInv (read t d frame) := hread ▸ endInv_readFrame ht d frame
  simp only [execTaskRestore, hread]
  grind [outInv, endInv, memoryInv_leaveTiles, memoryInv_loseSaved, memoryInv_takeSaved, memoryInv_restoreTask]

theorem memoryInv_requestSave (h : memoryInv s) (x : Nat) : memoryInv (requestSave s x) := memoryInv_modCtx h _ _

theorem outInv_execQuantumExpiry (h : memoryInv s) (x : Nat) : outInv (execQuantumExpiry x s) := by
  grind [execQuantumExpiry, outInv, memoryInv_requestSave]

theorem outInv_execPriorityPreemption (h : memoryInv s) (x : Nat) : outInv (execPriorityPreemption x s) := by
  grind [execPriorityPreemption, outInv, memoryInv_requestSave]

/-! ### The functions of Alu -/

theorem outInv_aluRR (h : memoryInv s) (g : Guard) (d a b : BitVec 5) (v : Word → Word → Word) : outInv (aluRR g d a b v s) :=
  outInv_slotABM h _ _ _ (fun _ ht => slotInv_setX ht _ _)

theorem outInv_aluR (h : memoryInv s) (g : Guard) (d a : BitVec 5) (v : Word → Word) : outInv (aluR g d a v s) :=
  outInv_slotABM h _ _ _ (fun _ ht => slotInv_setX ht _ _)

theorem outInv_execNop (h : memoryInv s) : outInv (execNop s) := memoryInv_perform h

theorem outInv_execAdd (h : memoryInv s) (g : Guard) (d a b : BitVec 5) : outInv (execAdd g d a b s) := outInv_aluRR h _ _ _ _ _

theorem outInv_execSub (h : memoryInv s) (g : Guard) (d a b : BitVec 5) : outInv (execSub g d a b s) := outInv_aluRR h _ _ _ _ _

theorem outInv_execAnd (h : memoryInv s) (g : Guard) (d a b : BitVec 5) : outInv (execAnd g d a b s) := outInv_aluRR h _ _ _ _ _

theorem outInv_execOr (h : memoryInv s) (g : Guard) (d a b : BitVec 5) : outInv (execOr g d a b s) := outInv_aluRR h _ _ _ _ _

theorem outInv_execXor (h : memoryInv s) (g : Guard) (d a b : BitVec 5) : outInv (execXor g d a b s) := outInv_aluRR h _ _ _ _ _

theorem outInv_execAndn (h : memoryInv s) (g : Guard) (d a b : BitVec 5) : outInv (execAndn g d a b s) := outInv_aluRR h _ _ _ _ _

theorem outInv_execShl (h : memoryInv s) (g : Guard) (d a b : BitVec 5) : outInv (execShl g d a b s) := outInv_aluRR h _ _ _ _ _

theorem outInv_execShr (h : memoryInv s) (g : Guard) (d a b : BitVec 5) : outInv (execShr g d a b s) := outInv_aluRR h _ _ _ _ _

theorem outInv_execSar (h : memoryInv s) (g : Guard) (d a b : BitVec 5) : outInv (execSar g d a b s) := outInv_aluRR h _ _ _ _ _

theorem outInv_execRor (h : memoryInv s) (g : Guard) (d a b : BitVec 5) : outInv (execRor g d a b s) := outInv_aluRR h _ _ _ _ _

theorem outInv_execMul (h : memoryInv s) (g : Guard) (d a b : BitVec 5) : outInv (execMul g d a b s) := outInv_aluRR h _ _ _ _ _

theorem outInv_execMulhu (h : memoryInv s) (g : Guard) (d a b : BitVec 5) : outInv (execMulhu g d a b s) := outInv_aluRR h _ _ _ _ _

theorem outInv_execMulhs (h : memoryInv s) (g : Guard) (d a b : BitVec 5) : outInv (execMulhs g d a b s) := outInv_aluRR h _ _ _ _ _

theorem outInv_execMin (h : memoryInv s) (g : Guard) (d a b : BitVec 5) : outInv (execMin g d a b s) := outInv_aluRR h _ _ _ _ _

theorem outInv_execMax (h : memoryInv s) (g : Guard) (d a b : BitVec 5) : outInv (execMax g d a b s) := outInv_aluRR h _ _ _ _ _

theorem outInv_execMinu (h : memoryInv s) (g : Guard) (d a b : BitVec 5) : outInv (execMinu g d a b s) := outInv_aluRR h _ _ _ _ _

theorem outInv_execMaxu (h : memoryInv s) (g : Guard) (d a b : BitVec 5) : outInv (execMaxu g d a b s) := outInv_aluRR h _ _ _ _ _

theorem outInv_execClz (h : memoryInv s) (g : Guard) (d a : BitVec 5) : outInv (execClz g d a s) := outInv_aluR h _ _ _ _

theorem outInv_execCtz (h : memoryInv s) (g : Guard) (d a : BitVec 5) : outInv (execCtz g d a s) := outInv_aluR h _ _ _ _

theorem outInv_execPopc (h : memoryInv s) (g : Guard) (d a : BitVec 5) : outInv (execPopc g d a s) := outInv_aluR h _ _ _ _

theorem outInv_execAddi (h : memoryInv s) (g : Guard) (d a : BitVec 5) (i : BitVec 12) : outInv (execAddi g d a i s) :=
  outInv_aluR h _ _ _ _

theorem outInv_execAndi (h : memoryInv s) (g : Guard) (d a : BitVec 5) (i : BitVec 12) : outInv (execAndi g d a i s) :=
  outInv_aluR h _ _ _ _

theorem outInv_execOri (h : memoryInv s) (g : Guard) (d a : BitVec 5) (i : BitVec 12) : outInv (execOri g d a i s) := outInv_aluR h _ _ _ _

theorem outInv_execXori (h : memoryInv s) (g : Guard) (d a : BitVec 5) (i : BitVec 12) : outInv (execXori g d a i s) :=
  outInv_aluR h _ _ _ _

theorem outInv_execShli (h : memoryInv s) (g : Guard) (d a : BitVec 5) (k : BitVec 6) : outInv (execShli g d a k s) := outInv_aluR h _ _ _ _

theorem outInv_execShri (h : memoryInv s) (g : Guard) (d a : BitVec 5) (k : BitVec 6) : outInv (execShri g d a k s) := outInv_aluR h _ _ _ _

theorem outInv_execSari (h : memoryInv s) (g : Guard) (d a : BitVec 5) (k : BitVec 6) : outInv (execSari g d a k s) := outInv_aluR h _ _ _ _

theorem outInv_execRori (h : memoryInv s) (g : Guard) (d a : BitVec 5) (k : BitVec 6) : outInv (execRori g d a k s) := outInv_aluR h _ _ _ _

theorem outInv_execMovi (h : memoryInv s) (g : Guard) (d : BitVec 5) (i : BitVec 17) : outInv (execMovi g d i s) :=
  outInv_slotABM h _ _ _ (fun _ ht => slotInv_setX ht _ _)

theorem outInv_execSel (h : memoryInv s) (g : Guard) (d a b : BitVec 5) (p : BitVec 4) : outInv (execSel g d a b p s) :=
  outInv_slotABM h _ _ _ (fun _ ht => slotInv_setX ht _ _)

theorem outInv_execBfx (h : memoryInv s) (g : Guard) (d a : BitVec 5) (p l : BitVec 6) : outInv (execBfx g d a p l s) :=
  outInv_aluR h _ _ _ _

theorem outInv_execBfxs (h : memoryInv s) (g : Guard) (d a : BitVec 5) (p l : BitVec 6) : outInv (execBfxs g d a p l s) :=
  outInv_aluR h _ _ _ _

theorem outInv_execBfi (h : memoryInv s) (g : Guard) (d a : BitVec 5) (p l : BitVec 6) : outInv (execBfi g d a p l s) :=
  outInv_slotABM h _ _ _ (fun _ ht => slotInv_setX ht _ _)

/-! ### The functions of HostRegs -/

theorem memoryInv_noteSresn (before : State) (h : memoryInv s) (p : Nat) : memoryInv (noteSresn before s p) :=
  memoryInv_ite h (memoryInv_raiseVector h _ _)

theorem memoryInv_clrFail (h : memoryInv s) (p : Nat) : memoryInv (clrFail s p) := memoryInv_noteSresn _ (memoryInv_modPkg h _ _) _

theorem memoryInv_orderStart (h : memoryInv s) (p : Nat) : memoryInv (orderStart s p) := memoryInv_modPkg h _ _

theorem memoryInv_restart (h : memoryInv s) (p : Nat) : memoryInv (restart s p) := memoryInv_ite h (memoryInv_orderStart h _)

theorem memoryInv_sctlSet (h : memoryInv s) (p : Nat) (v : Word) : memoryInv (sctlSet s p v) :=
  memoryInv_ite (memoryInv_restart (memoryInv_ite (memoryInv_clrFail h _) h) _) (memoryInv_ite (memoryInv_clrFail h _) h)

theorem outInv_execSctlClrfail (h : memoryInv s) (p : SvcCmd) : outInv (execSctlClrfail p s) := memoryInv_ite (memoryInv_clrFail h _) h

theorem outInv_execSctlRestart (h : memoryInv s) (p : SvcCmd) : outInv (execSctlRestart p s) :=
  memoryInv_ite h (memoryInv_ite (memoryInv_orderStart h _) (memoryInv_restart h _))

theorem memoryInv_tinvWrite (h : memoryInv s) (d : Nat) (v : Word) : memoryInv (tinvWrite s d v) :=
  memoryInv_ite (memoryInv_tinvStart h _ _ _) (memoryInv_ite h (memoryInv_modDie h _ _))

theorem memoryInv_hotctlWrite (h : memoryInv s) (d : Nat) (v : Word) : memoryInv (hotctlWrite s d v) :=
  memoryInv_ite (memoryInv_hotClear (memoryInv_ite (memoryInv_hotFlush h _) h) _) (memoryInv_ite (memoryInv_hotFlush h _) h)

theorem memoryInv_itctlWrite (h : memoryInv s) (p : Nat) (v : Word) : memoryInv (itctlWrite s p v) :=
  memoryInv_ite (memoryInv_itSwap (memoryInv_ite (memoryInv_modPkg h _ _) h) _) (memoryInv_ite (memoryInv_modPkg h _ _) h)

theorem memoryInv_shforceWrite (h : memoryInv s) (d : Nat) (v : Word) : memoryInv (shforceWrite s d v) := by
  grind [shforceWrite, memoryInv_forceApply, memoryInv_forceDiscard]

theorem memoryInv_ilvWrite (h : memoryInv s) (d b i : Nat) (v : Word) : memoryInv (ilvWrite s d b i v) :=
  memoryInv_ite h (memoryInv_modDie h _ _)

theorem memoryInv_dieWrite (h : memoryInv s) (d off : Nat) (v : Word) : memoryInv (dieWrite s d off v) := by
  unfold dieWrite
  grind [memoryInv_modDie, memoryInv_tinvWrite, memoryInv_hotctlWrite, memoryInv_haltSet, memoryInv_shforceWrite, memoryInv_lpcfgSet,
    memoryInv_ilvWrite]

theorem memoryInv_pkgWrite (h : memoryInv s) (p off : Nat) (v : Word) : memoryInv (pkgWrite s p off v) := by
  unfold pkgWrite
  grind [memoryInv_sctlSet, memoryInv_migCommand, memoryInv_modMig, memoryInv_itctlWrite, memoryInv_modPkg, memoryInv_padcqpSet,
    memoryInv_tailWrite]

theorem memoryInv_regWrite (h : memoryInv s) (d off n : Nat) (v : Word) : memoryInv (regWrite s d off n v) :=
  memoryInv_ite h (memoryInv_ite (memoryInv_ite (memoryInv_sctlSet h _ _) h) (memoryInv_hostWrite h _ _ (fun _ ht => memoryInv_ite
    (memoryInv_ite (memoryInv_pkgWrite ht _ _ _) ht) (memoryInv_dieWrite ht _ _ _))))

theorem outInv_execRegisterWrite (h : memoryInv s) (d : Nat) (off : BarAt) (v : BitVec 64) : outInv (execRegisterWrite d off v s) :=
  memoryInv_regWrite h _ _ _ _

theorem memoryInv_hostOut (h : memoryInv s) (p : Nat) (bs : List Byte) : memoryInv (hostOut s p bs) := memoryInv_modPkg h _ _

theorem memoryInv_barRead (h : memoryInv s) (d off n : Nat) : memoryInv (barRead s d off n) := memoryInv_hostOut h _ _

theorem memoryInv_bar2Read (h : memoryInv s) (p pa n : Nat) : memoryInv (bar2Read s p pa n) := by
  grind [bar2Read, memoryInv_readDie, memoryInv_hostOut]

theorem outInv_execBar2Access (h : memoryInv s) (p pa : Nat) (wr : Bool) (n : Nat) (data : BitVec 64) :
    outInv (execBar2Access p pa wr n data s) :=
  outInv_ite h (outInv_ite (memoryInv_ite h (memoryInv_hostOut h _ _)) (outInv_ite h (outInv_ite (memoryInv_writePhys h _ _ _ _)
    (memoryInv_bar2Read h _ _ _))))

/-! ### The functions of KernelFloat -/

theorem outInv_kFp2 (h : memoryInv s) (g : Guard) (d a b : BitVec 7) (v : Nat → Nat → Nat) : outInv (kFp2 g d a b v s) :=
  outInv_kslot h _ _ (fun _ _ ht => memoryInv_oweD ht _ _ _ _)

theorem outInv_kFp3 (h : memoryInv s) (g : Guard) (d a b c : BitVec 7) (v : Nat → Nat → Nat → Nat) : outInv (kFp3 g d a b c v s) :=
  outInv_kslot h _ _ (fun _ _ ht => memoryInv_oweD ht _ _ _ _)

theorem outInv_kFp1 (h : memoryInv s) (g : Guard) (d a : BitVec 7) (off : Nat) (v : Nat → Nat) : outInv (kFp1 g d a off v s) :=
  outInv_kslot h _ _ (fun _ _ ht => memoryInv_oweD ht _ _ _ _)

theorem outInv_execFadd (h : memoryInv s) (g : Guard) (d a b : BitVec 7) (rm : BitVec 3) : outInv (execFadd g d a b rm s) :=
  outInv_kFp2 h _ _ _ _ _

theorem outInv_execFsub (h : memoryInv s) (g : Guard) (d a b : BitVec 7) (rm : BitVec 3) : outInv (execFsub g d a b rm s) :=
  outInv_kFp2 h _ _ _ _ _

theorem outInv_execFmul (h : memoryInv s) (g : Guard) (d a b : BitVec 7) (rm : BitVec 3) : outInv (execFmul g d a b rm s) :=
  outInv_kFp2 h _ _ _ _ _

theorem outInv_execFmin (h : memoryInv s) (g : Guard) (d a b : BitVec 7) : outInv (execFmin g d a b s) := outInv_kFp2 h _ _ _ _ _

theorem outInv_execFmax (h : memoryInv s) (g : Guard) (d a b : BitVec 7) : outInv (execFmax g d a b s) := outInv_kFp2 h _ _ _ _ _

theorem outInv_execFabs (h : memoryInv s) (g : Guard) (d a : BitVec 7) : outInv (execFabs g d a s) := outInv_kFp1 h _ _ _ _ _

theorem outInv_execFneg (h : memoryInv s) (g : Guard) (d a : BitVec 7) : outInv (execFneg g d a s) := outInv_kFp1 h _ _ _ _ _

theorem outInv_execFfma (h : memoryInv s) (g : Guard) (d a b c : BitVec 7) (rm : BitVec 3) : outInv (execFfma g d a b c rm s) :=
  outInv_kFp3 h _ _ _ _ _ _

theorem outInv_execFfms (h : memoryInv s) (g : Guard) (d a b c : BitVec 7) (rm : BitVec 3) : outInv (execFfms g d a b c rm s) :=
  outInv_kFp3 h _ _ _ _ _ _

theorem outInv_execFnfma (h : memoryInv s) (g : Guard) (d a b c : BitVec 7) (rm : BitVec 3) : outInv (execFnfma g d a b c rm s) :=
  outInv_kFp3 h _ _ _ _ _ _

theorem outInv_execFnfms (h : memoryInv s) (g : Guard) (d a b c : BitVec 7) (rm : BitVec 3) : outInv (execFnfms g d a b c rm s) :=
  outInv_kFp3 h _ _ _ _ _ _

theorem outInv_execFcmpeq (h : memoryInv s) (g : Guard) (p : BitVec 4) (a b : BitVec 7) : outInv (execFcmpeq g p a b s) :=
  outInv_kslot h _ _ (fun _ _ ht => memoryInv_oweG ht _ _ _ _)

theorem outInv_execFcmplt (h : memoryInv s) (g : Guard) (p : BitVec 4) (a b : BitVec 7) : outInv (execFcmplt g p a b s) :=
  outInv_kslot h _ _ (fun _ _ ht => memoryInv_oweG ht _ _ _ _)

theorem outInv_execFcmple (h : memoryInv s) (g : Guard) (p : BitVec 4) (a b : BitVec 7) : outInv (execFcmple g p a b s) :=
  outInv_kslot h _ _ (fun _ _ ht => memoryInv_oweG ht _ _ _ _)

theorem outInv_execFcmpun (h : memoryInv s) (g : Guard) (p : BitVec 4) (a b : BitVec 7) : outInv (execFcmpun g p a b s) :=
  outInv_kslot h _ _ (fun _ _ ht => memoryInv_oweG ht _ _ _ _)

theorem outInv_execHadd (h : memoryInv s) (g : Guard) (d a b : BitVec 7) (rm : BitVec 3) : outInv (execHadd g d a b rm s) :=
  outInv_kFp2 h _ _ _ _ _

theorem outInv_execHsub (h : memoryInv s) (g : Guard) (d a b : BitVec 7) (rm : BitVec 3) : outInv (execHsub g d a b rm s) :=
  outInv_kFp2 h _ _ _ _ _

theorem outInv_execHmul (h : memoryInv s) (g : Guard) (d a b : BitVec 7) (rm : BitVec 3) : outInv (execHmul g d a b rm s) :=
  outInv_kFp2 h _ _ _ _ _

theorem outInv_execHmin (h : memoryInv s) (g : Guard) (d a b : BitVec 7) : outInv (execHmin g d a b s) := outInv_kFp2 h _ _ _ _ _

theorem outInv_execHmax (h : memoryInv s) (g : Guard) (d a b : BitVec 7) : outInv (execHmax g d a b s) := outInv_kFp2 h _ _ _ _ _

theorem outInv_execHfma (h : memoryInv s) (g : Guard) (d a b c : BitVec 7) (rm : BitVec 3) : outInv (execHfma g d a b c rm s) :=
  outInv_kFp3 h _ _ _ _ _ _

theorem outInv_execHfms (h : memoryInv s) (g : Guard) (d a b c : BitVec 7) (rm : BitVec 3) : outInv (execHfms g d a b c rm s) :=
  outInv_kFp3 h _ _ _ _ _ _

theorem outInv_execFrsqs (h : memoryInv s) (g : Guard) (d a : BitVec 7) : outInv (execFrsqs g d a s) := outInv_kFp1 h _ _ _ _ _

theorem outInv_execFrcps (h : memoryInv s) (g : Guard) (d a : BitVec 7) : outInv (execFrcps g d a s) := outInv_kFp1 h _ _ _ _ _

theorem outInv_execFdivs (h : memoryInv s) (g : Guard) (d a : BitVec 7) : outInv (execFdivs g d a s) := outInv_kFp1 h _ _ _ _ _

theorem outInv_execCvtto (h : memoryInv s) (g : Guard) (d a : BitVec 7) (fd : BitVec 16) (rm : BitVec 3) :
    outInv (execCvtto g d a fd rm s) :=
  outInv_kFp1 h _ _ _ _ _

theorem outInv_execCvtfrom (h : memoryInv s) (g : Guard) (d a : BitVec 7) (fd : BitVec 16) (rm : BitVec 3) :
    outInv (execCvtfrom g d a fd rm s) :=
  outInv_kFp1 h _ _ _ _ _

theorem outInv_execCvtpack (h : memoryInv s) (g : Guard) (d a : BitVec 7) (fd : BitVec 16) (rm : BitVec 3) :
    outInv (execCvtpack g d a fd rm s) :=
  outInv_kslot h _ _ (fun _ _ ht => memoryInv_oweD ht _ _ _ _)

theorem outInv_execCvtunpk (h : memoryInv s) (g : Guard) (d a : BitVec 7) (fd : BitVec 16) (rm : BitVec 3) :
    outInv (execCvtunpk g d a fd rm s) :=
  outInv_kslot h _ _ (fun _ _ ht => memoryInv_oweM ht _ _ _ _)

/-! ### The functions of KernelInt -/

theorem outInv_kInt (h : memoryInv s) (g : Guard) (d a b : BitVec 7) (off : Nat) (v : Word32 → Word32 → Word32) :
    outInv (kInt g d a b off v s) :=
  outInv_kslot h _ _ (fun _ _ ht => memoryInv_oweD ht _ _ _ _)

theorem outInv_kInt1 (h : memoryInv s) (g : Guard) (d a : BitVec 7) (off : Nat) (v : Word32 → Word32) : outInv (kInt1 g d a off v s) :=
  outInv_kslot h _ _ (fun _ _ ht => memoryInv_oweD ht _ _ _ _)

theorem outInv_kCmp (h : memoryInv s) (g : Guard) (p : BitVec 4) (cc : Nat) (x y : Nat → Ca → Word32) : outInv (kCmp g p cc x y s) :=
  outInv_kslot h _ _ (fun _ _ ht => memoryInv_oweG ht _ _ _ _)

theorem outInv_kPred (h : memoryInv s) (g : Guard) (p a b : BitVec 4) (fn : Nat) : outInv (kPred g p a b fn s) :=
  outInv_kslot h _ _ (fun _ _ ht => memoryInv_oweG ht _ _ _ _)

theorem outInv_execIadd (h : memoryInv s) (g : Guard) (d a b : BitVec 7) : outInv (execIadd g d a b s) := outInv_kInt h _ _ _ _ _ _

theorem outInv_execIsub (h : memoryInv s) (g : Guard) (d a b : BitVec 7) : outInv (execIsub g d a b s) := outInv_kInt h _ _ _ _ _ _

theorem outInv_execIand (h : memoryInv s) (g : Guard) (d a b : BitVec 7) : outInv (execIand g d a b s) := outInv_kInt h _ _ _ _ _ _

theorem outInv_execIor (h : memoryInv s) (g : Guard) (d a b : BitVec 7) : outInv (execIor g d a b s) := outInv_kInt h _ _ _ _ _ _

theorem outInv_execIxor (h : memoryInv s) (g : Guard) (d a b : BitVec 7) : outInv (execIxor g d a b s) := outInv_kInt h _ _ _ _ _ _

theorem outInv_execIandn (h : memoryInv s) (g : Guard) (d a b : BitVec 7) : outInv (execIandn g d a b s) := outInv_kInt h _ _ _ _ _ _

theorem outInv_execIshl (h : memoryInv s) (g : Guard) (d a b : BitVec 7) : outInv (execIshl g d a b s) := outInv_kInt h _ _ _ _ _ _

theorem outInv_execIshr (h : memoryInv s) (g : Guard) (d a b : BitVec 7) : outInv (execIshr g d a b s) := outInv_kInt h _ _ _ _ _ _

theorem outInv_execIsar (h : memoryInv s) (g : Guard) (d a b : BitVec 7) : outInv (execIsar g d a b s) := outInv_kInt h _ _ _ _ _ _

theorem outInv_execImul (h : memoryInv s) (g : Guard) (d a b : BitVec 7) : outInv (execImul g d a b s) := outInv_kInt h _ _ _ _ _ _

theorem outInv_execImulhu (h : memoryInv s) (g : Guard) (d a b : BitVec 7) : outInv (execImulhu g d a b s) := outInv_kInt h _ _ _ _ _ _

theorem outInv_execImulhs (h : memoryInv s) (g : Guard) (d a b : BitVec 7) : outInv (execImulhs g d a b s) := outInv_kInt h _ _ _ _ _ _

theorem outInv_execImin (h : memoryInv s) (g : Guard) (d a b : BitVec 7) : outInv (execImin g d a b s) := outInv_kInt h _ _ _ _ _ _

theorem outInv_execImax (h : memoryInv s) (g : Guard) (d a b : BitVec 7) : outInv (execImax g d a b s) := outInv_kInt h _ _ _ _ _ _

theorem outInv_execIminu (h : memoryInv s) (g : Guard) (d a b : BitVec 7) : outInv (execIminu g d a b s) := outInv_kInt h _ _ _ _ _ _

theorem outInv_execImaxu (h : memoryInv s) (g : Guard) (d a b : BitVec 7) : outInv (execImaxu g d a b s) := outInv_kInt h _ _ _ _ _ _

theorem outInv_execIclz (h : memoryInv s) (g : Guard) (d a : BitVec 7) : outInv (execIclz g d a s) := outInv_kInt1 h _ _ _ _ _

theorem outInv_execIpopc (h : memoryInv s) (g : Guard) (d a : BitVec 7) : outInv (execIpopc g d a s) := outInv_kInt1 h _ _ _ _ _

theorem outInv_execIaddi (h : memoryInv s) (g : Guard) (d a : BitVec 7) (i : BitVec 32) : outInv (execIaddi g d a i s) :=
  outInv_kInt1 h _ _ _ _ _

theorem outInv_execIandi (h : memoryInv s) (g : Guard) (d a : BitVec 7) (i : BitVec 32) : outInv (execIandi g d a i s) :=
  outInv_kInt1 h _ _ _ _ _

theorem outInv_execIori (h : memoryInv s) (g : Guard) (d a : BitVec 7) (i : BitVec 32) : outInv (execIori g d a i s) :=
  outInv_kInt1 h _ _ _ _ _

theorem outInv_execIxori (h : memoryInv s) (g : Guard) (d a : BitVec 7) (i : BitVec 32) : outInv (execIxori g d a i s) :=
  outInv_kInt1 h _ _ _ _ _

theorem outInv_execIshli (h : memoryInv s) (g : Guard) (d a : BitVec 7) (i : BitVec 32) : outInv (execIshli g d a i s) :=
  outInv_kInt1 h _ _ _ _ _

theorem outInv_execIshri (h : memoryInv s) (g : Guard) (d a : BitVec 7) (i : BitVec 32) : outInv (execIshri g d a i s) :=
  outInv_kInt1 h _ _ _ _ _

theorem outInv_execIsari (h : memoryInv s) (g : Guard) (d a : BitVec 7) (i : BitVec 32) : outInv (execIsari g d a i s) :=
  outInv_kInt1 h _ _ _ _ _

theorem outInv_execImuli (h : memoryInv s) (g : Guard) (d a : BitVec 7) (i : BitVec 32) : outInv (execImuli g d a i s) :=
  outInv_kInt1 h _ _ _ _ _

theorem outInv_execMoviKernel (h : memoryInv s) (g : Guard) (d : BitVec 7) (i : BitVec 32) : outInv (execMoviKernel g d i s) :=
  outInv_kslot h _ _ (fun _ _ ht => memoryInv_oweD ht _ _ _ _)

theorem outInv_execIcmpeq (h : memoryInv s) (g : Guard) (p : BitVec 4) (a b : BitVec 7) : outInv (execIcmpeq g p a b s) :=
  outInv_kCmp h _ _ _ _ _

theorem outInv_execIcmpne (h : memoryInv s) (g : Guard) (p : BitVec 4) (a b : BitVec 7) : outInv (execIcmpne g p a b s) :=
  outInv_kCmp h _ _ _ _ _

theorem outInv_execIcmplt (h : memoryInv s) (g : Guard) (p : BitVec 4) (a b : BitVec 7) : outInv (execIcmplt g p a b s) :=
  outInv_kCmp h _ _ _ _ _

theorem outInv_execIcmpge (h : memoryInv s) (g : Guard) (p : BitVec 4) (a b : BitVec 7) : outInv (execIcmpge g p a b s) :=
  outInv_kCmp h _ _ _ _ _

theorem outInv_execIcmpltu (h : memoryInv s) (g : Guard) (p : BitVec 4) (a b : BitVec 7) : outInv (execIcmpltu g p a b s) :=
  outInv_kCmp h _ _ _ _ _

theorem outInv_execIcmpgeu (h : memoryInv s) (g : Guard) (p : BitVec 4) (a b : BitVec 7) : outInv (execIcmpgeu g p a b s) :=
  outInv_kCmp h _ _ _ _ _

theorem outInv_execIcmptst (h : memoryInv s) (g : Guard) (p : BitVec 4) (a b : BitVec 7) : outInv (execIcmptst g p a b s) :=
  outInv_kCmp h _ _ _ _ _

theorem outInv_execIcmpeqi (h : memoryInv s) (g : Guard) (p : BitVec 4) (a : BitVec 7) (i : BitVec 32) : outInv (execIcmpeqi g p a i s) :=
  outInv_kCmp h _ _ _ _ _

theorem outInv_execIcmpnei (h : memoryInv s) (g : Guard) (p : BitVec 4) (a : BitVec 7) (i : BitVec 32) : outInv (execIcmpnei g p a i s) :=
  outInv_kCmp h _ _ _ _ _

theorem outInv_execIcmplti (h : memoryInv s) (g : Guard) (p : BitVec 4) (a : BitVec 7) (i : BitVec 32) : outInv (execIcmplti g p a i s) :=
  outInv_kCmp h _ _ _ _ _

theorem outInv_execIcmpgei (h : memoryInv s) (g : Guard) (p : BitVec 4) (a : BitVec 7) (i : BitVec 32) : outInv (execIcmpgei g p a i s) :=
  outInv_kCmp h _ _ _ _ _

theorem outInv_execIcmpltui (h : memoryInv s) (g : Guard) (p : BitVec 4) (a : BitVec 7) (i : BitVec 32) : outInv (execIcmpltui g p a i s) :=
  outInv_kCmp h _ _ _ _ _

theorem outInv_execIcmpgeui (h : memoryInv s) (g : Guard) (p : BitVec 4) (a : BitVec 7) (i : BitVec 32) : outInv (execIcmpgeui g p a i s) :=
  outInv_kCmp h _ _ _ _ _

theorem outInv_execIcmptsti (h : memoryInv s) (g : Guard) (p : BitVec 4) (a : BitVec 7) (i : BitVec 32) : outInv (execIcmptsti g p a i s) :=
  outInv_kCmp h _ _ _ _ _

theorem outInv_execSelKernel (h : memoryInv s) (g : Guard) (d a b : BitVec 7) (q : BitVec 4) : outInv (execSelKernel g d a b q s) :=
  outInv_kslot h _ _ (fun _ _ ht => memoryInv_oweD ht _ _ _ _)

theorem outInv_execGand (h : memoryInv s) (g : Guard) (p a b : BitVec 4) : outInv (execGand g p a b s) := outInv_kPred h _ _ _ _ _

theorem outInv_execGor (h : memoryInv s) (g : Guard) (p a b : BitVec 4) : outInv (execGor g p a b s) := outInv_kPred h _ _ _ _ _

theorem outInv_execGxor (h : memoryInv s) (g : Guard) (p a b : BitVec 4) : outInv (execGxor g p a b s) := outInv_kPred h _ _ _ _ _

theorem outInv_execGandn (h : memoryInv s) (g : Guard) (p a b : BitVec 4) : outInv (execGandn g p a b s) := outInv_kPred h _ _ _ _ _

theorem outInv_execGnot (h : memoryInv s) (g : Guard) (p a : BitVec 4) : outInv (execGnot g p a s) := outInv_kPred h _ _ _ _ _

/-! ### The functions of Params -/

theorem slotInv_windowRead (h : memoryInv s) (wn o sz : Nat) (d : BitVec 5) : slotInv (windowRead wn o sz d s) :=
  slotInv_ite (memoryInv_modMe (memoryInv_wx h _ _) _) (slotInv_withPlace h _ _ _ (fun _ _ ht => slotInv_loadFrom ht _ _ _ _ _))

theorem outInv_ldpOp (h : memoryInv s) (g : Guard) (d : BitVec 5) (wn : BitVec 3) (o : BitVec 12) (sz : Nat) :
    outInv (ldpOp g d wn o sz s) :=
  outInv_slotABM h _ _ _ (fun _ ht => slotInv_ite ht (slotInv_windowRead ht _ _ _ _))

theorem outInv_ldprOp (h : memoryInv s) (g : Guard) (d : BitVec 5) (wn : BitVec 3) (b : BitVec 5) (sz : Nat) :
    outInv (ldprOp g d wn b sz s) :=
  outInv_slotABM h _ _ _ (fun _ ht => slotInv_ite ht (slotInv_ite ht (slotInv_windowRead ht _ _ _ _)))

theorem outInv_execLdpb (h : memoryInv s) (g : Guard) (d : BitVec 5) (w : BitVec 3) (o : BitVec 12) : outInv (execLdpb g d w o s) :=
  outInv_ldpOp h _ _ _ _ _

theorem outInv_execLdph (h : memoryInv s) (g : Guard) (d : BitVec 5) (w : BitVec 3) (o : BitVec 12) : outInv (execLdph g d w o s) :=
  outInv_ldpOp h _ _ _ _ _

theorem outInv_execLdpw (h : memoryInv s) (g : Guard) (d : BitVec 5) (w : BitVec 3) (o : BitVec 12) : outInv (execLdpw g d w o s) :=
  outInv_ldpOp h _ _ _ _ _

theorem outInv_execLdpd (h : memoryInv s) (g : Guard) (d : BitVec 5) (w : BitVec 3) (o : BitVec 12) : outInv (execLdpd g d w o s) :=
  outInv_ldpOp h _ _ _ _ _

theorem outInv_execLdprb (h : memoryInv s) (g : Guard) (d : BitVec 5) (w : BitVec 3) (b : BitVec 5) : outInv (execLdprb g d w b s) :=
  outInv_ldprOp h _ _ _ _ _

theorem outInv_execLdprh (h : memoryInv s) (g : Guard) (d : BitVec 5) (w : BitVec 3) (b : BitVec 5) : outInv (execLdprh g d w b s) :=
  outInv_ldprOp h _ _ _ _ _

theorem outInv_execLdprw (h : memoryInv s) (g : Guard) (d : BitVec 5) (w : BitVec 3) (b : BitVec 5) : outInv (execLdprw g d w b s) :=
  outInv_ldprOp h _ _ _ _ _

theorem outInv_execLdprd (h : memoryInv s) (g : Guard) (d : BitVec 5) (w : BitVec 3) (b : BitVec 5) : outInv (execLdprd g d w b s) :=
  outInv_ldprOp h _ _ _ _ _

/-! ### The functions of Pred -/

theorem outInv_cmpRR (h : memoryInv s) (g : Guard) (p : BitVec 4) (a b : BitVec 5) (cc : Nat) : outInv (cmpRR g p a b cc s) :=
  outInv_slotABM h _ _ _ (fun _ ht => memoryInv_wg ht _ _)

theorem outInv_cmpRI (h : memoryInv s) (g : Guard) (p : BitVec 4) (a : BitVec 5) (i : BitVec 9) (cc : Nat) : outInv (cmpRI g p a i cc s) :=
  outInv_slotABM h _ _ _ (fun _ ht => memoryInv_wg ht _ _)

theorem outInv_predOps (h : memoryInv s) (g : Guard) (p a b : BitVec 4) (fn : Nat) : outInv (predOps g p a b fn s) :=
  outInv_slotABM h _ _ _ (fun _ ht => memoryInv_wg ht _ _)

theorem outInv_execCmpeq (h : memoryInv s) (g : Guard) (p : BitVec 4) (a b : BitVec 5) : outInv (execCmpeq g p a b s) :=
  outInv_cmpRR h _ _ _ _ _

theorem outInv_execCmpne (h : memoryInv s) (g : Guard) (p : BitVec 4) (a b : BitVec 5) : outInv (execCmpne g p a b s) :=
  outInv_cmpRR h _ _ _ _ _

theorem outInv_execCmplt (h : memoryInv s) (g : Guard) (p : BitVec 4) (a b : BitVec 5) : outInv (execCmplt g p a b s) :=
  outInv_cmpRR h _ _ _ _ _

theorem outInv_execCmpge (h : memoryInv s) (g : Guard) (p : BitVec 4) (a b : BitVec 5) : outInv (execCmpge g p a b s) :=
  outInv_cmpRR h _ _ _ _ _

theorem outInv_execCmpltu (h : memoryInv s) (g : Guard) (p : BitVec 4) (a b : BitVec 5) : outInv (execCmpltu g p a b s) :=
  outInv_cmpRR h _ _ _ _ _

theorem outInv_execCmpgeu (h : memoryInv s) (g : Guard) (p : BitVec 4) (a b : BitVec 5) : outInv (execCmpgeu g p a b s) :=
  outInv_cmpRR h _ _ _ _ _

theorem outInv_execCmptst (h : memoryInv s) (g : Guard) (p : BitVec 4) (a b : BitVec 5) : outInv (execCmptst g p a b s) :=
  outInv_cmpRR h _ _ _ _ _

theorem outInv_execCmpeqi (h : memoryInv s) (g : Guard) (p : BitVec 4) (a : BitVec 5) (i : BitVec 9) : outInv (execCmpeqi g p a i s) :=
  outInv_cmpRI h _ _ _ _ _

theorem outInv_execCmpnei (h : memoryInv s) (g : Guard) (p : BitVec 4) (a : BitVec 5) (i : BitVec 9) : outInv (execCmpnei g p a i s) :=
  outInv_cmpRI h _ _ _ _ _

theorem outInv_execCmplti (h : memoryInv s) (g : Guard) (p : BitVec 4) (a : BitVec 5) (i : BitVec 9) : outInv (execCmplti g p a i s) :=
  outInv_cmpRI h _ _ _ _ _

theorem outInv_execCmpgei (h : memoryInv s) (g : Guard) (p : BitVec 4) (a : BitVec 5) (i : BitVec 9) : outInv (execCmpgei g p a i s) :=
  outInv_cmpRI h _ _ _ _ _

theorem outInv_execCmpltui (h : memoryInv s) (g : Guard) (p : BitVec 4) (a : BitVec 5) (i : BitVec 9) : outInv (execCmpltui g p a i s) :=
  outInv_cmpRI h _ _ _ _ _

theorem outInv_execCmpgeui (h : memoryInv s) (g : Guard) (p : BitVec 4) (a : BitVec 5) (i : BitVec 9) : outInv (execCmpgeui g p a i s) :=
  outInv_cmpRI h _ _ _ _ _

theorem outInv_execCmptsti (h : memoryInv s) (g : Guard) (p : BitVec 4) (a : BitVec 5) (i : BitVec 9) : outInv (execCmptsti g p a i s) :=
  outInv_cmpRI h _ _ _ _ _

theorem outInv_execPand (h : memoryInv s) (g : Guard) (p a b : BitVec 4) : outInv (execPand g p a b s) := outInv_predOps h _ _ _ _ _

theorem outInv_execPor (h : memoryInv s) (g : Guard) (p a b : BitVec 4) : outInv (execPor g p a b s) := outInv_predOps h _ _ _ _ _

theorem outInv_execPxor (h : memoryInv s) (g : Guard) (p a b : BitVec 4) : outInv (execPxor g p a b s) := outInv_predOps h _ _ _ _ _

theorem outInv_execPandn (h : memoryInv s) (g : Guard) (p a b : BitVec 4) : outInv (execPandn g p a b s) := outInv_predOps h _ _ _ _ _

theorem outInv_execPnot (h : memoryInv s) (g : Guard) (p a : BitVec 4) : outInv (execPnot g p a s) := outInv_predOps h _ _ _ _ _

/-! ### The functions of Service -/

theorem memoryInv_resetUnits (h : memoryInv s) (p : Nat) (sd : Nat → Bool) : memoryInv (resetUnits s p sd) := by
  exact memoryInv_foldl (fun u i hu => memoryInv_setDie hu _ _) _ ⟨h.1, h.2.1, coresInv_filter h.2.2 fun c => c / 512 ≠ p⟩

theorem memoryInv_startPkg (h : memoryInv s) (p cause fail code : Nat) (sd : BitVec 4) : memoryInv (startPkg s p cause fail code sd) :=
  memoryInv_noteSresn _ (memoryInv_setPkg (memoryInv_resetUnits (memoryInv_sendResetNotices h _) _ _) _ _) _

theorem outInv_execStartUp (h : memoryInv s) (p : Nat) (cause : BitVec 3) (fail : Nat) (code : BitVec 8) (sd : BitVec 4) :
    outInv (execStartUp p cause fail code sd s) :=
  outInv_ite h (memoryInv_startPkg h _ _ _ _ _)

theorem outInv_execFirmwareUpdate (h : memoryInv s) (p : Nat) (img key : List (BitVec 8)) (ver : BitVec 16) (sig : List (BitVec 8)) :
    outInv (execFirmwareUpdate p img key ver sig s) :=
  memoryInv_ite (memoryInv_modPkg h _ _) h

theorem outInv_execSpdmMeasurement (h : memoryInv s) (p idx : Nat) : outInv (execSpdmMeasurement p idx s) := by
  grind [execSpdmMeasurement, outInv, memoryInv_hostOut]

theorem outInv_execLinkKeyLoad (h : memoryInv s) (p : SvcCmd) (port : Nat) (dir : Bool) (key : BitVec 128) :
    outInv (execLinkKeyLoad p port dir key s) :=
  outInv_ite h (memoryInv_modDie h _ _)

theorem outInv_execPldmSensorRead (h : memoryInv s) (p sensor_ : Nat) : outInv (execPldmSensorRead p sensor_ s) := by
  grind [execPldmSensorRead, outInv, memoryInv_hostOut, memoryInv_nextFree]

theorem outInv_execClockStep (h : memoryInv s) (p : Nat) : outInv (execClockStep p s) := memoryInv_modPkg h _ _

theorem outInv_execThermalTrip (h : memoryInv s) (p die : Nat) : outInv (execThermalTrip p die s) :=
  outInv_ite h (memoryInv_modPkg (memoryInv_machineCheckDie h _ _) _ _)

theorem outInv_execD2dLinkFailure (h : memoryInv s) (p a b : Nat) : outInv (execD2dLinkFailure p a b s) :=
  outInv_ite h (memoryInv_machineCheckDie h _ _)

/-! ### The functions of Dispatch -/

theorem outInv_exec {s : State} (hs : memoryInv s) (i : Instr) : outInv (exec i s) :=
  match i with
  | .nop => outInv_execNop hs
  | .add g d a b => outInv_execAdd hs g d a b
  | .sub g d a b => outInv_execSub hs g d a b
  | .and g d a b => outInv_execAnd hs g d a b
  | .or g d a b => outInv_execOr hs g d a b
  | .xor g d a b => outInv_execXor hs g d a b
  | .andn g d a b => outInv_execAndn hs g d a b
  | .shl g d a b => outInv_execShl hs g d a b
  | .shr g d a b => outInv_execShr hs g d a b
  | .sar g d a b => outInv_execSar hs g d a b
  | .ror g d a b => outInv_execRor hs g d a b
  | .mul g d a b => outInv_execMul hs g d a b
  | .mulhu g d a b => outInv_execMulhu hs g d a b
  | .mulhs g d a b => outInv_execMulhs hs g d a b
  | .min g d a b => outInv_execMin hs g d a b
  | .max g d a b => outInv_execMax hs g d a b
  | .minu g d a b => outInv_execMinu hs g d a b
  | .maxu g d a b => outInv_execMaxu hs g d a b
  | .clz g d a => outInv_execClz hs g d a
  | .ctz g d a => outInv_execCtz hs g d a
  | .popc g d a => outInv_execPopc hs g d a
  | .addi g d a ix => outInv_execAddi hs g d a ix
  | .andi g d a ix => outInv_execAndi hs g d a ix
  | .ori g d a ix => outInv_execOri hs g d a ix
  | .xori g d a ix => outInv_execXori hs g d a ix
  | .shli g d a s_ => outInv_execShli hs g d a s_
  | .shri g d a s_ => outInv_execShri hs g d a s_
  | .sari g d a s_ => outInv_execSari hs g d a s_
  | .rori g d a s_ => outInv_execRori hs g d a s_
  | .movi g d ix => outInv_execMovi hs g d ix
  | .cmpeq g p a b => outInv_execCmpeq hs g p a b
  | .cmpne g p a b => outInv_execCmpne hs g p a b
  | .cmplt g p a b => outInv_execCmplt hs g p a b
  | .cmpge g p a b => outInv_execCmpge hs g p a b
  | .cmpltu g p a b => outInv_execCmpltu hs g p a b
  | .cmpgeu g p a b => outInv_execCmpgeu hs g p a b
  | .cmptst g p a b => outInv_execCmptst hs g p a b
  | .cmpeqi g p a ix => outInv_execCmpeqi hs g p a ix
  | .cmpnei g p a ix => outInv_execCmpnei hs g p a ix
  | .cmplti g p a ix => outInv_execCmplti hs g p a ix
  | .cmpgei g p a ix => outInv_execCmpgei hs g p a ix
  | .cmpltui g p a ix => outInv_execCmpltui hs g p a ix
  | .cmpgeui g p a ix => outInv_execCmpgeui hs g p a ix
  | .cmptsti g p a ix => outInv_execCmptsti hs g p a ix
  | .sel g d a b s_ => outInv_execSel hs g d a b s_
  | .bfx g d a p l => outInv_execBfx hs g d a p l
  | .bfxs g d a p l => outInv_execBfxs hs g d a p l
  | .bfi g d a p l => outInv_execBfi hs g d a p l
  | .pand g p a b => outInv_execPand hs g p a b
  | .por g p a b => outInv_execPor hs g p a b
  | .pxor g p a b => outInv_execPxor hs g p a b
  | .pandn g p a b => outInv_execPandn hs g p a b
  | .pnot g p a => outInv_execPnot hs g p a
  | .br g o => outInv_execBr hs g o
  | .call g o => outInv_execCall hs g o
  | .brr g a => outInv_execBrr hs g a
  | .callr g a => outInv_execCallr hs g a
  | .trap g ix => outInv_execTrap hs g ix
  | .eret g => outInv_execEret hs g
  | .yield g => outInv_execYield hs g
  | .mfs g d s_ => outInv_execMfs hs g d s_
  | .mts g d s_ => outInv_execMts hs g d s_
  | .rdtick g d => outInv_execRdtick hs g d
  | .ldub g d a o => outInv_execLdub hs g d a o
  | .lduh g d a o => outInv_execLduh hs g d a o
  | .lduw g d a o => outInv_execLduw hs g d a o
  | .ldd g d a o => outInv_execLdd hs g d a o
  | .ldsb g d a o => outInv_execLdsb hs g d a o
  | .ldsh g d a o => outInv_execLdsh hs g d a o
  | .ldsw g d a o => outInv_execLdsw hs g d a o
  | .stb g d a o => outInv_execStb hs g d a o
  | .sth g d a o => outInv_execSth hs g d a o
  | .stw g d a o => outInv_execStw hs g d a o
  | .std g d a o => outInv_execStd hs g d a o
  | .ldpb g d w o => outInv_execLdpb hs g d w o
  | .ldph g d w o => outInv_execLdph hs g d w o
  | .ldpw g d w o => outInv_execLdpw hs g d w o
  | .ldpd g d w o => outInv_execLdpd hs g d w o
  | .ldprb g d w b => outInv_execLdprb hs g d w b
  | .ldprh g d w b => outInv_execLdprh hs g d w b
  | .ldprw g d w b => outInv_execLdprw hs g d w b
  | .ldprd g d w b => outInv_execLdprd hs g d w b
  | .fence g s_ => outInv_execFence hs g s_
  | .bar g s_ o a => outInv_execBar hs g s_ o a
  | .lds4 g d h b => outInv_execLds4 hs g d h b
  | .lds8 g d h b => outInv_execLds8 hs g d h b
  | .sts4 g d h b => outInv_execSts4 hs g d h b
  | .sts8 g d h b => outInv_execSts8 hs g d h b
  | .saadd g d h b => outInv_execSaadd hs g d h b
  | .safadd g d h b => outInv_execSafadd hs g d h b
  | .samin g d h b => outInv_execSamin hs g d h b
  | .samax g d h b => outInv_execSamax hs g d h b
  | .saxchg g d h b => outInv_execSaxchg hs g d h b
  | .sacas g d h b => outInv_execSacas hs g d h b
  | .salloc g d h a => outInv_execSalloc hs g d h a
  | .sfree g h => outInv_execSfree hs g h
  | .sload g h a b => outInv_execSload hs g h a b
  | .sloadx g h a b => outInv_execSloadx hs g h a b
  | .sstore g h a b => outInv_execSstore hs g h a b
  | .sgather g h ix a => outInv_execSgather hs g h ix a
  | .sbag g h ix a => outInv_execSbag hs g h ix a
  | .sbagm g h ix a => outInv_execSbagm hs g h ix a
  | .scopy g h a b => outInv_execScopy hs g h a b
  | .scopyp g h a b => outInv_execScopyp hs g h a b
  | .srecv g h => outInv_execSrecv hs g h
  | .swait g h => outInv_execSwait hs g h
  | .swaitAll g => outInv_execSwaitAll hs g
  | .krun g a b c => outInv_execKrun hs g a b c
  | .lwait g x => outInv_execLwait hs g x
  | .iadd g d a b => outInv_execIadd hs g d a b
  | .isub g d a b => outInv_execIsub hs g d a b
  | .iand g d a b => outInv_execIand hs g d a b
  | .ior g d a b => outInv_execIor hs g d a b
  | .ixor g d a b => outInv_execIxor hs g d a b
  | .iandn g d a b => outInv_execIandn hs g d a b
  | .ishl g d a b => outInv_execIshl hs g d a b
  | .ishr g d a b => outInv_execIshr hs g d a b
  | .isar g d a b => outInv_execIsar hs g d a b
  | .imul g d a b => outInv_execImul hs g d a b
  | .imulhu g d a b => outInv_execImulhu hs g d a b
  | .imulhs g d a b => outInv_execImulhs hs g d a b
  | .imin g d a b => outInv_execImin hs g d a b
  | .imax g d a b => outInv_execImax hs g d a b
  | .iminu g d a b => outInv_execIminu hs g d a b
  | .imaxu g d a b => outInv_execImaxu hs g d a b
  | .iclz g d a => outInv_execIclz hs g d a
  | .ipopc g d a => outInv_execIpopc hs g d a
  | .iaddi g d a imm => outInv_execIaddi hs g d a imm
  | .iandi g d a imm => outInv_execIandi hs g d a imm
  | .iori g d a imm => outInv_execIori hs g d a imm
  | .ixori g d a imm => outInv_execIxori hs g d a imm
  | .ishli g d a imm => outInv_execIshli hs g d a imm
  | .ishri g d a imm => outInv_execIshri hs g d a imm
  | .isari g d a imm => outInv_execIsari hs g d a imm
  | .imuli g d a imm => outInv_execImuli hs g d a imm
  | .moviKernel g d imm => outInv_execMoviKernel hs g d imm
  | .icmpeq g p a b => outInv_execIcmpeq hs g p a b
  | .icmpne g p a b => outInv_execIcmpne hs g p a b
  | .icmplt g p a b => outInv_execIcmplt hs g p a b
  | .icmpge g p a b => outInv_execIcmpge hs g p a b
  | .icmpltu g p a b => outInv_execIcmpltu hs g p a b
  | .icmpgeu g p a b => outInv_execIcmpgeu hs g p a b
  | .icmptst g p a b => outInv_execIcmptst hs g p a b
  | .icmpeqi g p a imm => outInv_execIcmpeqi hs g p a imm
  | .icmpnei g p a imm => outInv_execIcmpnei hs g p a imm
  | .icmplti g p a imm => outInv_execIcmplti hs g p a imm
  | .icmpgei g p a imm => outInv_execIcmpgei hs g p a imm
  | .icmpltui g p a imm => outInv_execIcmpltui hs g p a imm
  | .icmpgeui g p a imm => outInv_execIcmpgeui hs g p a imm
  | .icmptsti g p a imm => outInv_execIcmptsti hs g p a imm
  | .selKernel g d a b q => outInv_execSelKernel hs g d a b q
  | .gand g p a b => outInv_execGand hs g p a b
  | .gor g p a b => outInv_execGor hs g p a b
  | .gxor g p a b => outInv_execGxor hs g p a b
  | .gandn g p a b => outInv_execGandn hs g p a b
  | .gnot g p a => outInv_execGnot hs g p a
  | .fadd g d a b rm => outInv_execFadd hs g d a b rm
  | .fsub g d a b rm => outInv_execFsub hs g d a b rm
  | .fmul g d a b rm => outInv_execFmul hs g d a b rm
  | .fmin g d a b => outInv_execFmin hs g d a b
  | .fmax g d a b => outInv_execFmax hs g d a b
  | .fabs g d a => outInv_execFabs hs g d a
  | .fneg g d a => outInv_execFneg hs g d a
  | .ffma g d a b c rm => outInv_execFfma hs g d a b c rm
  | .ffms g d a b c rm => outInv_execFfms hs g d a b c rm
  | .fnfma g d a b c rm => outInv_execFnfma hs g d a b c rm
  | .fnfms g d a b c rm => outInv_execFnfms hs g d a b c rm
  | .fcmpeq g p a b => outInv_execFcmpeq hs g p a b
  | .fcmplt g p a b => outInv_execFcmplt hs g p a b
  | .fcmple g p a b => outInv_execFcmple hs g p a b
  | .fcmpun g p a b => outInv_execFcmpun hs g p a b
  | .hadd g d a b rm => outInv_execHadd hs g d a b rm
  | .hsub g d a b rm => outInv_execHsub hs g d a b rm
  | .hmul g d a b rm => outInv_execHmul hs g d a b rm
  | .hmin g d a b => outInv_execHmin hs g d a b
  | .hmax g d a b => outInv_execHmax hs g d a b
  | .hfma g d a b c rm => outInv_execHfma hs g d a b c rm
  | .hfms g d a b c rm => outInv_execHfms hs g d a b c rm
  | .mvmw g d a w => outInv_execMvmw hs g d a w
  | .mvwm g d a w => outInv_execMvwm hs g d a w
  | .frsqs g d a => outInv_execFrsqs hs g d a
  | .frcps g d a => outInv_execFrcps hs g d a
  | .fdivs g d a => outInv_execFdivs hs g d a
  | .cvtto g d a fd rm => outInv_execCvtto hs g d a fd rm
  | .cvtfrom g d a fd rm => outInv_execCvtfrom hs g d a fd rm
  | .cvtpack g d a fd rm => outInv_execCvtpack hs g d a fd rm
  | .cvtunpk g d a fd rm => outInv_execCvtunpk hs g d a fd rm
  | .srd g r port quad => outInv_execSrd hs g r port quad
  | .swr g r port quad => outInv_execSwr hs g r port quad
  | .xsend g d a cl => outInv_execXsend hs g d a cl
  | .xbcast g d a cl => outInv_execXbcast hs g d a cl
  | .xperm g d a b => outInv_execXperm hs g d a b
  | .xsum g d a => outInv_execXsum hs g d a
  | .xsumf g d a => outInv_execXsumf hs g d a
  | .xmaxf g d a => outInv_execXmaxf hs g d a
  | .xminf g d a => outInv_execXminf hs g d a
  | .trow g d tile idx => outInv_execTrow hs g d tile idx
  | .trowr g d tile idx => outInv_execTrowr hs g d tile idx
  | .tcol g d tile idx => outInv_execTcol hs g d tile idx
  | .tcolr g d tile idx => outInv_execTcolr hs g d tile idx
  | .tzero g tile => outInv_execTzero hs g tile
  | .tcfg tile rmask cmask => outInv_execTcfg hs tile rmask cmask
  | .loop => outInv_execLoop hs
  | .wait n => outInv_execWait hs n
  | .cfmt g opd fd => outInv_execCfmt hs g opd fd
  | .cbind g bind => outInv_execCbind hs g bind
  | .clatch g pl port kc ofg psg => outInv_execClatch hs g pl port kc ofg psg
  | .clatchr g pl dr kc ofg psg => outInv_execClatchr hs g pl dr kc ofg psg
  | .cube g aport sc dm ds st zb => outInv_execCube hs g aport sc dm ds st zb
  | .czero g dz zo n => outInv_execCzero hs g dz zo n
  | .cmovzToM g m dz zo q => outInv_execCmovzToM hs g m dz zo q
  | .cmovzToZ g m dz zo q => outInv_execCmovzToZ hs g m dz zo q
  | .cstat g d sel clr => outInv_execCstat hs g d sel clr
  | .cstop g => outInv_execCstop hs g
  | .sscadd g v ix a => outInv_execSscadd hs g v ix a
  | .srowupd g v ix a => outInv_execSrowupd hs g v ix a
  | .aadd g d p s_ o z => outInv_execAadd hs g d p s_ o z
  | .afadd g d p s_ o => outInv_execAfadd hs g d p s_ o
  | .amin g d p s_ o z => outInv_execAmin hs g d p s_ o z
  | .amax g d p s_ o z => outInv_execAmax hs g d p s_ o z
  | .aand g d p s_ o z => outInv_execAand hs g d p s_ o z
  | .aor g d p s_ o z => outInv_execAor hs g d p s_ o z
  | .axor g d p s_ o z => outInv_execAxor hs g d p s_ o z
  | .axchg g d p s_ o z => outInv_execAxchg hs g d p s_ o z
  | .acas g d p s_ o z => outInv_execAcas hs g d p s_ o z
  | .qpush g d a r s_ => outInv_execQpush hs g d a r s_
  | .qpop g d a r s_ => outInv_execQpop hs g d a r s_
  | .put g d q o => outInv_execPut hs g d q o
  | .get g d q o => outInv_execGet hs g d q o
  | .signal g d q => outInv_execSignal hs g d q
  | .lamo g d q f o z => outInv_execLamo hs g d q f o z
  | .synct g d a s_ => outInv_execSynct hs g d a s_
  | .gopen g d a => outInv_execGopen hs g d a
  | .gstore g x a k z => outInv_execGstore hs g x a k z
  | .sstoreg g h a => outInv_execSstoreg hs g h a
  | .sscaddg g v ix a => outInv_execSscaddg hs g v ix a
  | .gseal g d a => outInv_execGseal hs g d a
  | .gcommit g d k => outInv_execGcommit hs g d k
  | .gabort g d k => outInv_execGabort hs g d k
  | .gwait g d k => outInv_execGwait hs g d k
  | .gpeek g d a => outInv_execGpeek hs g d a
  | .gdeleg g d a => outInv_execGdeleg hs g d a
  | .gstat g d k => outInv_execGstat hs g d k
  | .barDeparture x => outInv_execBarDeparture hs x
  | .windowAnswer x => outInv_execWindowAnswer hs x
  | .sallocAnswer x => outInv_execSallocAnswer hs x
  | .remoteStallCopy c e => outInv_execRemoteStallCopy hs c e
  | .entryStart c e => outInv_execEntryStart hs c e
  | .entryRetire c e => outInv_execEntryRetire hs c e
  | .invocationFirstBundle c => outInv_execInvocationFirstBundle hs c
  | .kernelBundleIssue c => outInv_execKernelBundleIssue hs c
  | .writeLanding c => outInv_execWriteLanding hs c
  | .iterationBoundaryStop c => outInv_execIterationBoundaryStop hs c
  | .kernelReload c => outInv_execKernelReload hs c
  | .cubeStepIssue c => outInv_execCubeStepIssue hs c
  | .cubeStepLanding c => outInv_execCubeStepLanding hs c
  | .planeFetchReady c b => outInv_execPlaneFetchReady hs c b
  | .planeFetchFailure c b => outInv_execPlaneFetchFailure hs c b
  | .remotePlaneRead c b => outInv_execRemotePlaneRead hs c b
  | .homePlainAccess q => outInv_execHomePlainAccess hs q
  | .convertedAccess r => outInv_execConvertedAccess hs r
  | .atomicAtHome r => outInv_execAtomicAtHome hs r
  | .scatterAddAtHome c e => outInv_execScatterAddAtHome hs c e
  | .rowUpdateAtHome c e => outInv_execRowUpdateAtHome hs c e
  | .qpushAtHome r => outInv_execQpushAtHome hs r
  | .qpopAtHome r => outInv_execQpopAtHome hs r
  | .leaseEnd r => outInv_execLeaseEnd hs r
  | .loadAnswer r => outInv_execLoadAnswer hs r
  | .hotctlFlush d => outInv_execHotctlFlush hs d
  | .hotctlClear d => outInv_execHotctlClear hs d
  | .tableWalk c va kind => outInv_execTableWalk hs c va kind
  | .pageScan c va => outInv_execPageScan hs c va
  | .migrationLockReread c n => outInv_execMigrationLockReread hs c n
  | .upcallRetry d n => outInv_execUpcallRetry hs d n
  | .pagerAnswer d => outInv_execPagerAnswer hs d
  | .tinvVpn d vpn => outInv_execTinvVpn hs d vpn
  | .tinvAll d => outInv_execTinvAll hs d
  | .tinvComplete d => outInv_execTinvComplete hs d
  | .migCopy p old new => outInv_execMigCopy hs p old new
  | .migFinalise p => outInv_execMigFinalise hs p
  | .migRelease p => outInv_execMigRelease hs p
  | .migCancel p => outInv_execMigCancel hs p
  | .migrationLineCopy p => outInv_execMigrationLineCopy hs p
  | .migrationMoved p => outInv_execMigrationMoved hs p
  | .migrationRedirect r => outInv_execMigrationRedirect hs r
  | .synctAlign x => outInv_execSynctAlign hs x
  | .verbAtTarget v => outInv_execVerbAtTarget hs v
  | .verbAnswer v => outInv_execVerbAnswer hs v
  | .putSignalAdd v => outInv_execPutSignalAdd hs v
  | .routeRedirect v => outInv_execRouteRedirect hs v
  | .verbTimeout v => outInv_execVerbTimeout hs v
  | .itctlSwap p => outInv_execItctlSwap hs p
  | .portTrainingAttempt p port why => outInv_execPortTrainingAttempt hs p port why
  | .lpcfgWrite d q v => outInv_execLpcfgWrite hs d q v
  | .groupTagFailure p port => outInv_execGroupTagFailure hs p port
  | .dbgctlHalt d v => outInv_execDbgctlHalt hs d v
  | .gwaitReturn x => outInv_execGwaitReturn hs x
  | .enlistRequest k => outInv_execEnlistRequest hs k
  | .enlistAnswer k => outInv_execEnlistAnswer hs k
  | .shedAdmit k => outInv_execShedAdmit hs k
  | .storeAck k => outInv_execStoreAck hs k
  | .storeRefusal k => outInv_execStoreRefusal hs k
  | .sealReport k => outInv_execSealReport hs k
  | .groupApply k => outInv_execGroupApply hs k
  | .applyAck k => outInv_execApplyAck hs k
  | .groupDiscard k => outInv_execGroupDiscard hs k
  | .discardAck k => outInv_execDiscardAck hs k
  | .decisionAtSource k => outInv_execDecisionAtSource hs k
  | .leaseQuery h grp => outInv_execLeaseQuery hs h grp
  | .queryAnswer k => outInv_execQueryAnswer hs k
  | .deadlineExpiry c slot => outInv_execDeadlineExpiry hs c slot
  | .placementNotice k => outInv_execPlacementNotice hs k
  | .resetNotice p q => outInv_execResetNotice hs p q
  | .shforceApply d grp => outInv_execShforceApply hs d grp
  | .shforceDiscard d grp => outInv_execShforceDiscard hs d grp
  | .heldPacketReroute k => outInv_execHeldPacketReroute hs k
  | .paddockApply p => outInv_execPaddockApply hs p
  | .padcqpHeadWrite p v => outInv_execPadcqpHeadWrite hs p v
  | .lqpTailWrite p v => outInv_execLqpTailWrite hs p v
  | .loadRecord p => outInv_execLoadRecord hs p
  | .unloadRecord p => outInv_execUnloadRecord hs p
  | .runRecord p => outInv_execRunRecord hs p
  | .taskPlacement p run node wid x blk => outInv_execTaskPlacement hs p run node wid x blk
  | .saveAreaFillDone x => outInv_execSaveAreaFillDone hs x
  | .copyNode p run node => outInv_execCopyNode hs p run node
  | .eventNode p run node => outInv_execEventNode hs p run node
  | .conditionalNode p run node => outInv_execConditionalNode hs p run node
  | .loopNode p run node => outInv_execLoopNode hs p run node
  | .taskEnd x => outInv_execTaskEnd hs x
  | .taskSave x => outInv_execTaskSave hs x
  | .taskRestore p t x => outInv_execTaskRestore hs p t x
  | .quantumExpiry x => outInv_execQuantumExpiry hs x
  | .priorityPreemption x => outInv_execPriorityPreemption hs x
  | .graphComplete p run => outInv_execGraphComplete hs p run
  | .bar2Access p pa wr n data => outInv_execBar2Access hs p pa wr n data
  | .sctlClrfail p => outInv_execSctlClrfail hs p
  | .sctlRestart p => outInv_execSctlRestart hs p
  | .startUp p cause fail code sd => outInv_execStartUp hs p cause fail code sd
  | .firmwareUpdate p img key ver sig => outInv_execFirmwareUpdate hs p img key ver sig
  | .spdmMeasurement p idx => outInv_execSpdmMeasurement hs p idx
  | .linkKeyLoad p port dir key => outInv_execLinkKeyLoad hs p port dir key
  | .pldmSensorRead p sensor => outInv_execPldmSensorRead hs p sensor
  | .clockStep p => outInv_execClockStep hs p
  | .thermalTrip p die => outInv_execThermalTrip hs p die
  | .registerWrite d off v => outInv_execRegisterWrite hs d off v
  | .portPeerLost p port => outInv_execPortPeerLost hs p port
  | .d2dLinkFailure p a b => outInv_execD2dLinkFailure hs p a b
  | .linkedHoldReport p q held => outInv_execLinkedHoldReport hs p q held
  | .sourceAbortReport k => outInv_execSourceAbortReport hs k
  | .windowStoreWrite x => outInv_execWindowStoreWrite hs x

/-! ### The functions of Turns -/

theorem outInv_andThen {o : Out} (h : outInv o) (f : State → State) (hf : ∀ t, memoryInv t → memoryInv (f t)) : outInv (andThen o f) := by
  unfold andThen
  grind [outInv]

theorem memoryInv_atSlot (h : memoryInv s) (x i : Nat) : memoryInv (atSlot s x i) := h

theorem outInv_runSlot (h : memoryInv s) (x i : Nat) : outInv (runSlot s x i) := by
  grind [runSlot, outInv, outInv_andThen, outInv_exec, memoryInv_atSlot, memoryInv_closeBundle]

theorem outInv_cpTurn (h : memoryInv s) (x : Nat) : outInv (cpTurn x s) := by
  grind [cpTurn, outInv, endInv, endInv_issueCycle, memoryInv_closeBundle, outInv_runSlot]

theorem outInv_kernelTurn (h : memoryInv s) (c : Nat) : outInv (kernelTurn c s) := by
  unfold kernelTurn
  split
  · exact h
  · split
    · exact h
    · split
      · exact memoryInv_closeKernel h c
      · split
        · exact True.intro
        · refine outInv_exec ?_ _
          exact h

theorem outInv_eventTurn (h : memoryInv s) (i : Instr) : outInv (eventTurn i s) := outInv_ite h (outInv_exec h _)

theorem outInv_runTurn (h : memoryInv s) (t : Turn) : outInv (runTurn t s) := by
  unfold runTurn
  grind [outInv, outInv_cpTurn, memoryInv_mergeCycle, outInv_kernelTurn, outInv_eventTurn, memoryInv_barRead, memoryInv_addCycles]

/-! ### The functions of Schedule -/

theorem movesInv_ctxMoves (s : State) (x : Nat) : movesInv (ctxMoves s x) := by
  simp only [ctxMoves, movesInv_append]
  refine ⟨⟨⟨⟨⟨⟨⟨?_, ?_⟩, ?_⟩, ?_⟩, ?_⟩, ?_⟩, ?_⟩, ?_⟩
  all_goals
    grind [movesInv_cons, movesInv_nil, movesInv_append, outInv_cpTurn, outInv_execTaskEnd, outInv_execTaskSave, outInv_execWindowAnswer,
      outInv_execWindowStoreWrite, outInv_execSallocAnswer, outInv_execSynctAlign, outInv_execBarDeparture, outInv_execGwaitReturn,
      outInv_execSaveAreaFillDone, outInv_execQuantumExpiry]

theorem movesInv_entryMoves (c : Nat) (p : Nat × Entry) : movesInv (entryMoves c p) := by
  grind [entryMoves, movesInv_cons, movesInv_nil, outInv_execEntryStart, outInv_execHomePlainAccess, outInv_execRemoteStallCopy,
    outInv_execScatterAddAtHome, outInv_execRowUpdateAtHome, outInv_execEntryRetire]

theorem movesInv_arrayMoves (v : Core) (c : Nat) : movesInv (arrayMoves c v) := by
  grind [arrayMoves, movesInv_append, movesInv_cons, movesInv_nil, movesInv_flatMap, outInv_execInvocationFirstBundle,
    outInv_execKernelReload, outInv_execIterationBoundaryStop, outInv_execWriteLanding, outInv_kernelTurn, outInv_execKernelBundleIssue,
    outInv_execCubeStepIssue, outInv_execCubeStepLanding, outInv_execRemotePlaneRead, outInv_execPlaneFetchReady,
    outInv_execPlaneFetchFailure]

theorem movesInv_coreMoves (s : State) (c : Nat) : movesInv (coreMoves s c) := by
  simp only [coreMoves, movesInv_append]
  refine ⟨⟨⟨⟨⟨?_, ?_⟩, ?_⟩, ?_⟩, ?_⟩, ?_⟩
  · split
    · exact (movesInv_cons _ _).mpr ⟨fun t ht => memoryInv_mergeCycle ht c, movesInv_nil⟩
    · exact movesInv_nil
  · exact movesInv_flatMap (fun x => movesInv_ctxMoves s x) _
  · exact movesInv_flatMap (fun p => movesInv_entryMoves c p) _
  · exact movesInv_arrayMoves (s.core c) c
  · exact movesInv_map (fun g t ht => outInv_execDeadlineExpiry ht c g.1) _
  · exact movesInv_map (fun n t ht => outInv_execMigrationLockReread ht c n) _

theorem movesInv_reqMoves (r : Nat) : movesInv (reqMoves r) := by
  grind [reqMoves, movesInv_cons, movesInv_nil, outInv_execHomePlainAccess, outInv_execConvertedAccess, outInv_execAtomicAtHome,
    outInv_execQpushAtHome, outInv_execQpopAtHome, outInv_execMigrationRedirect, outInv_execLoadAnswer, outInv_execLeaseEnd]

theorem movesInv_verbMoves (v : Nat) : movesInv (verbMoves v) := by
  grind [verbMoves, movesInv_cons, movesInv_nil, outInv_execVerbAtTarget, outInv_execPutSignalAdd, outInv_execVerbAnswer,
    outInv_execRouteRedirect, outInv_execVerbTimeout]

theorem movesInv_pktMoves (k : Nat) : movesInv (pktMoves k) := by
  simp only [pktMoves, movesInv_cons, movesInv_nil, and_true]
  exact ⟨fun _ hs => outInv_execEnlistRequest hs k, fun _ hs => outInv_execEnlistAnswer hs k, fun _ hs => outInv_execShedAdmit hs k,
    fun _ hs => outInv_execStoreAck hs k, fun _ hs => outInv_execStoreRefusal hs k, fun _ hs => outInv_execSourceAbortReport hs k,
    fun _ hs => outInv_execSealReport hs k, fun _ hs => outInv_execGroupApply hs k, fun _ hs => outInv_execApplyAck hs k,
    fun _ hs => outInv_execGroupDiscard hs k, fun _ hs => outInv_execDiscardAck hs k, fun _ hs => outInv_execDecisionAtSource hs k,
    fun _ hs => outInv_execQueryAnswer hs k, fun _ hs => outInv_execPlacementNotice hs k, fun _ hs => outInv_execHeldPacketReroute hs k,
    fun _ hs => outInv_execLeaseEnd hs k⟩

theorem movesInv_dieMoves (d : Nat) (v : Die) : movesInv (dieMoves d v) := by
  grind [dieMoves, movesInv_append, movesInv_cons, movesInv_nil, movesInv_map, outInv_execUpcallRetry, outInv_execPagerAnswer,
    outInv_execTinvComplete]

theorem movesInv_nodeMoves (p run : Nat) (r : Run) : movesInv (nodeMoves p run r) := by
  grind [nodeMoves, movesInv_cons, movesInv_nil, movesInv_flatMap, outInv_execCopyNode, outInv_execEventNode, outInv_execConditionalNode,
    outInv_execLoopNode]

theorem movesInv_placeMoves (s : State) (p x : Nat) : movesInv (placeMoves s p x) := by
  grind [placeMoves, movesInv_append, movesInv_nil, movesInv_map, movesInv_flatMap, outInv_execTaskPlacement, outInv_execTaskRestore]

theorem movesInv_pkgMoves (s : State) (p : Nat) (k : Pkg) : movesInv (pkgMoves s p k) := by
  grind [pkgMoves, outInv, movesInv_append, movesInv_cons, movesInv_nil, movesInv_map, movesInv_flatMap, outInv_execLoadRecord,
    outInv_execUnloadRecord, outInv_execRunRecord, outInv_execMigrationLineCopy, outInv_execMigrationMoved, outInv_execPaddockApply,
    outInv_execResetNotice, movesInv_nodeMoves, outInv_execGraphComplete, movesInv_placeMoves, outInv_execPriorityPreemption]

theorem movesInv_shedMoves (h : Nat) (gs : List ShedGroup) : movesInv (shedMoves h gs) := by
  grind [shedMoves, movesInv_map, outInv_execLeaseQuery]

theorem movesInv_moves (s : State) : movesInv (moves s) := by
  simp only [moves, movesInv_append]
  refine ⟨⟨⟨⟨⟨⟨⟨?_, ?_⟩, ?_⟩, ?_⟩, ?_⟩, ?_⟩, ?_⟩, ?_⟩
  · exact movesInv_flatMap (movesInv_coreMoves s) _
  · apply movesInv_flatMap
    exact fun p => movesInv_reqMoves p.1
  · apply movesInv_flatMap
    exact fun p => movesInv_verbMoves p.1
  · apply movesInv_flatMap
    exact fun p => movesInv_pktMoves p.1
  · apply movesInv_flatMap
    exact fun p => movesInv_dieMoves p.1 p.2
  · apply movesInv_flatMap
    exact fun p => movesInv_shedMoves p.1 p.2
  · apply movesInv_flatMap
    exact fun p => movesInv_pkgMoves s p.1 p.2
  · rw [movesInv_cons]
    exact ⟨fun t ht => memoryInv_addCycles ht 1, movesInv_nil⟩

theorem outInv_nextMove (h : memoryInv s) : outInv (nextMove s) := by
  unfold nextMove
  dsimp only
  split
  · rename_i m heq
    exact movesInv_moves s m (List.mem_of_getElem? heq) _ h
  · exact h

/-! ### The functions of Step -/

theorem outInv_step (h : memoryInv s) : outInv (step s) := by
  grind [step, memoryInv_iff, outInv_runTurn, outInv_nextMove]

/-- Settles O8: whatever turn or move a step takes, the functions that it calls keep every memory canonical. -/
theorem stepKeepsMemoryCanonical : Obligations.StepKeepsMemoryCanonical := by
  unfold Obligations.StepKeepsMemoryCanonical
  intro s t h hstep
  have hout := outInv_step h
  rw [hstep] at hout
  exact hout

end Sys2Proof.Machine

/-! PROOFS. What a started entry moves (R132 to R138, R144, R145, R254): reads of its lines, its indices and its records. -/

namespace Sys2Proof.Machine

/-! ## Entries and records of a state -/

@[simp] theorem entry_setEntry_same (s : State) (c i : Nat) (q : Option Entry) : (s.setEntry c i q).entry c i = q := by
  simp [State.setEntry, State.modCore, State.entry]

@[simp] theorem entry_modEntry_same (s : State) (c i : Nat) (f : Entry → Entry) : (modEntry s c i f).entry c i = (s.entry c i).map f :=
  entry_setEntry_same s c i _

@[simp] theorem yard_setEntry (s : State) (c i y : Nat) (q : Option Entry) : ((s.setEntry c i q).core y).yard = (s.core y).yard := by
  by_cases hy : y = c
  · simp [State.setEntry, State.modCore, hy]
  · simp [State.setEntry, State.modCore, State.core_setCore_other _ _ hy]

@[simp] theorem yard_modEntry (s : State) (c i y : Nat) (f : Entry → Entry) : ((modEntry s c i f).core y).yard = (s.core y).yard :=
  yard_setEntry s c i y _

@[simp] theorem readRec_modEntry (s : State) (c i y base rsz r b n : Nat) (f : Entry → Entry) :
    readRec (modEntry s c i f) y base rsz r b n = readRec s y base rsz r b n := by
  simp [readRec]

@[simp] theorem entry_writeRec (s : State) (c base rsz r b y i : Nat) (bs : List Byte) :
    (writeRec s c base rsz r b bs).entry y i = s.entry y i := by
  by_cases hy : y = c
  · simp [writeRec, State.modCore, State.entry, hy]
  · simp [writeRec, State.modCore, State.entry, State.core_setCore_other _ _ hy]

/-- The bytes written of a record read back (R120). -/
theorem readRec_writeRec (s : State) (c base rsz r b : Nat) (bs : List Byte) :
    readRec (writeRec s c base rsz r b bs) c base rsz r b bs.length = bs := by
  simp [readRec, writeRec, State.modCore, Memory.read_write_same]

theorem Memory.length_read (m : Memory) (a n : Nat) : (Memory.read m a n).length = n := by
  induction n generalizing a with
  | zero => rfl
  | succ n ih => simp [Memory.read, ih]

@[simp] theorem length_readRec (s : State) (c base rsz r b n : Nat) : (readRec s c base rsz r b n).length = n := Memory.length_read _ _ _

@[simp] theorem length_readBytes (s : State) (p : Nat) (host : Bool) (pa n : Nat) : (s.readBytes p host pa n).length = n := by
  unfold State.readBytes
  split
  · split <;> exact Memory.length_read _ _ _
  · simp [absentBytes]

/-! ## What a translation leaves of cores -/

/-- The entries and the yard of every core are as before. -/
def sameStalls (s t : State) : Prop := ∀ y, (t.core y).yard = (s.core y).yard ∧ (t.core y).sb = (s.core y).sb

theorem sameStalls.refl (s : State) : sameStalls s s := fun _ => ⟨rfl, rfl⟩

theorem sameStalls.of_cores {s t u : State} (h : sameStalls s t) (hu : u.cores = t.cores) : sameStalls s u := fun y => by
  have hcore : u.core y = t.core y := congrArg (Tab.get Core.reset · y) hu
  rw [hcore]
  exact h y

theorem sameStalls.modCore {s t : State} (h : sameStalls s t) (c : Nat) {f : Core → Core}
    (hf : ∀ k, (f k).yard = k.yard ∧ (f k).sb = k.sb) : sameStalls s (t.modCore c f) := fun y => by
  by_cases hy : y = c
  · subst hy
    simpa [State.modCore, hf] using h y
  · simpa [State.modCore, State.core_setCore_other _ _ hy] using h y

theorem sameStalls.entry {s t : State} (h : sameStalls s t) (c i : Nat) : t.entry c i = s.entry c i :=
  congrArg (Tab.get none · i) (h c).2

/-- A translation that gives a place leaves entries and yards as they were. -/
def okSameStalls (s : State) : TrRes → Prop
  | .ok _ t => sameStalls s t
  | _ => True

theorem okSameStalls_pageFault (s t : State) (d : Nat) (pops : List Nat) (node : Bool) (kind region level : Nat) :
    okSameStalls s (pageFault t d pops node kind region level) := by
  grind [pageFault, okSameStalls]

section
variable {s t : State} (h : sameStalls s t)
include h

theorem sameStalls_tlbFill (c : Nat) (e : TlbE) : sameStalls s (tlbFill t c e) := by
  unfold tlbFill
  split
  · exact h
  · exact h.modCore c fun k => ⟨rfl, rfl⟩

theorem sameStalls_missServed (c : Nat) (me : List (Nat × Nat)) : sameStalls s (missServed t c me) := by
  unfold missServed dropMisses
  split
  · exact h
  · exact h.modCore c fun k => ⟨rfl, rfl⟩

theorem sameStalls_serveReads (src : Nat) (rs : List (Place × Nat)) : sameStalls s (serveReads t src rs).1 :=
  h.of_cores (served_serveReads t src rs).cores

theorem okSameStalls_useExec (c va : Nat) (e : TlbE) : okSameStalls s (useExec t c va e) := by
  have hreads := sameStalls_serveReads h (dieOf c) (scanReads (leafPlace (pkgOf c) e va))
  grind [useExec, okSameStalls, sameStalls_tlbFill]

theorem okSameStalls_useLeaf (c va kind : Nat) (e : TlbE) (fresh : Bool) : okSameStalls s (useLeaf t c va kind e fresh) := by
  grind [useLeaf, okSameStalls, okSameStalls_useExec, sameStalls_tlbFill]

theorem okSameStalls_walkEnd (c : Nat) (who : Option Nat) (pops : List Nat) (page va kind : Nat) (r : WalkRes) :
    okSameStalls s (walkEnd t c who pops page va kind r) := by
  cases r with
  | leaf level e => exact okSameStalls_useLeaf h c va kind _ true
  | noPage level region far => exact okSameStalls_pageFault s t _ pops false _ region level
  | noNode level region far => exact okSameStalls_pageFault s t _ pops true _ region level
  | _ => trivial

theorem okSameStalls_miss (c : Nat) (who : Option Nat) (pops : List Nat) (va kind : Nat) : okSameStalls s (miss t c who pops va kind) := by
  have hreads := sameStalls_serveReads h (dieOf c) (walk t (dieOf c) (va / 2 ^ 16) (t.core c).nodes).reads
  unfold miss
  dsimp only
  split
  · trivial
  · split
    · trivial
    · split
      · trivial
      · rename_i u heq
        rw [heq] at hreads
        refine okSameStalls_walkEnd (sameStalls.modCore ?_ c ?_) c who pops _ va kind _
        · exact hreads
        · exact fun k => ⟨rfl, rfl⟩

theorem okSameStalls_translateFor (c : Nat) (who : Option Nat) (pops : List Nat) (va : Word) (kind : Nat) :
    okSameStalls s (translateFor t c who pops va kind) := by
  have hown (me : List (Nat × Nat)) : sameStalls s (if (doneWalk t c me).isSome then missServed t c me else t) := by
    split
    · exact sameStalls_missServed h c me
    · exact h
  unfold translateFor
  dsimp only
  split
  · trivial
  · split
    · exact okSameStalls_walkEnd (hown _) c who pops _ _ kind _
    · split
      · exact okSameStalls_useLeaf (sameStalls_missServed (hown _) c _) c _ kind _ false
      · exact okSameStalls_miss (hown _) c who pops _ kind

end

theorem sameStalls_of_entryPlace {s u : State} {c i va kind : Nat} {p : Place} (h : entryPlace s c i va kind = .ok (p, u)) : sameStalls s u := by
  have htr (pops : List Nat) := okSameStalls_translateFor (.refl s) c (some (4 + i)) pops (BitVec.ofNat 64 va) kind
  unfold entryPlace at h
  split at h
  · cases h
  · dsimp only at h
    split at h
    · rename_i heq
      cases h
      exact (congrArg (okSameStalls s) heq).mp (htr _)
    all_goals cases h

/-! ## One access of a stream entry -/

theorem entry_of_running {s : State} {c i : Nat} {e : Entry} (h : running s c i = some e) : s.entry c i = some e := by
  unfold running at h
  split at h
  · cases h
  · split at h
    · rename_i heq _
      rw [heq, h]
    · cases h

/-- The access of an entry that is no group form is the stream engine's alone (R254). -/
theorem exec_stream {s t : State} {c i r : Nat} (h : streamAccess s c i r = t) (hop : ∀ f, t.entry c i = some f → opOf f.word = 0x1D) :
    exec (.homePlainAccess (.stream c i r)) s = .next t := by
  have hgroup : groupAccess t c i r = t := by
    unfold groupAccess
    split
    · rfl
    · rename_i f hf
      have hengine : engineOf f.word = 0 := if_pos (hop f (entry_of_running hf))
      simp [hengine]
  exact congrArg Host.Outcome.next ((congrArg (groupAccess · c i r) h).trans hgroup)

theorem firstRead_of_tagOk {e : Entry} (h : e.tagOk = true) (s : State) (c i : Nat) (k : State → State) : firstRead s c i e k = k s :=
  if_pos h

theorem Entry.with_tagOk {e : Entry} (h : e.tagOk = true) : { e with tagOk := true } = e := by
  cases e
  cases h
  rfl

section
variable {s : State} {c i r : Nat} {e : Entry} (hrun : running s c i = some e) (hop : opOf e.word = 0x1D) (hr : r < e.count)
  (hdone : e.isDone r = false)
include hrun hop hr hdone

theorem streamAccess_eq : streamAccess s c i r = firstRead s c i e (fun s =>
    match subOf e.word with
    | 2 => moveLoad s c i r e
    | 3 => moveStore s c i r { e with tagOk := true }
    | 4 => moveGather s c i r { e with tagOk := true }
    | 5 => moveBag s c i r { e with tagOk := true }
    | _ => s) := by
  have hgo : ¬ (opOf e.word ≠ 0x1D ∨ e.count ≤ r ∨ e.isDone r = true) := by simp [hop, hr, hdone]
  unfold streamAccess
  rw [hrun]
  exact if_neg hgo

variable (htag : e.tagOk = true)
include htag

theorem streamAccess_load (hsub : subOf e.word = 2) : streamAccess s c i r = moveLoad s c i r e := by
  simp [streamAccess_eq hrun hop hr hdone, firstRead_of_tagOk htag, hsub]

theorem streamAccess_store (hsub : subOf e.word = 3) : streamAccess s c i r = moveStore s c i r e := by
  simp [streamAccess_eq hrun hop hr hdone, firstRead_of_tagOk htag, hsub, Entry.with_tagOk htag]

theorem streamAccess_gather (hsub : subOf e.word = 4) : streamAccess s c i r = moveGather s c i r e := by
  simp [streamAccess_eq hrun hop hr hdone, firstRead_of_tagOk htag, hsub, Entry.with_tagOk htag]

theorem streamAccess_bag (hsub : subOf e.word = 5) : streamAccess s c i r = moveBag s c i r e := by
  simp [streamAccess_eq hrun hop hr hdone, firstRead_of_tagOk htag, hsub, Entry.with_tagOk htag]

end

/-- The state in which a line at a place has been served for a die's stream engine: counted twice (R271, R312). -/
def lineServed (u : State) (d : Nat) (p : Place) : State := countHome (countLine u d p) d p

theorem lineServed_cores (u : State) (d : Nat) (p : Place) : (lineServed u d p).cores = u.cores := by
  refine (served_countHome _ d p).cores.trans ?_
  unfold countLine
  split <;> rfl

/-- A home changes no cycle counter (R26, R271). -/
theorem HomeOnly.tickOf {s t : State} (h : HomeOnly s t) (d : Nat) : t.tickOf d = s.tickOf d := by
  have hpkg := h.pkg (pkgOfDie d)
  have hnow : t.now = s.now := (congrArg State.now h.frame :)
  have hlag : (t.pkg (pkgOfDie d)).lag = (s.pkg (pkgOfDie d)).lag := (congrArg Pkg.lag hpkg :)
  have hat : (t.pkg (pkgOfDie d)).clockAt = (s.pkg (pkgOfDie d)).clockAt := (congrArg Pkg.clockAt hpkg :)
  have hclock : (t.pkg (pkgOfDie d)).clock = (s.pkg (pkgOfDie d)).clock := (congrArg Pkg.clock hpkg :)
  have htick : (t.die d).tick = (s.die d).tick := (congrArg Die.tick (h.die d) :)
  simp [State.tickOf, State.ticks, State.cycles, State.lagOf, hnow, hlag, hat, hclock, htick]

theorem countLine_tickOf (u : State) (d : Nat) (p : Place) : (countLine u d p).tickOf d = u.tickOf d := by
  unfold countLine
  split
  · rfl
  · simp [State.tickOf, State.ticks, State.cycles, State.lagOf, State.modDie]

theorem lineServed_tickOf (u : State) (d : Nat) (p : Place) : (lineServed u d p).tickOf d = u.tickOf d :=
  ((served_countHome _ d p).toHomeOnly.tickOf d).trans (countLine_tickOf u d p)

theorem lineServed_sameStalls {s u : State} (h : sameStalls s u) (d : Nat) (p : Place) : sameStalls s (lineServed u d p) :=
  h.of_cores (lineServed_cores u d p)

theorem entryLine_go {s u : State} {c i va kind : Nat} {p : Place} {k : Place → State → State}
    (hplace : entryPlace s c i va kind = .ok (p, u)) (hgate : gate u p = .go) :
    entryLine s c i va kind k = k p (lineServed u (dieOf c) p) := by
  unfold entryLine
  rw [hplace]
  dsimp only
  rw [hgate]
  rfl

/-- The line that completes a record: what has been read of it goes on whole (R254). -/
theorem readLine_completes {s u : State} {c i r va n : Nat} {e : Entry} {p : Place} {done : List Byte → State → State}
    (hplace : entryPlace s c i (nextChunk va n (Tab.get [] e.part r).length).1 5 = .ok (p, u)) (hgate : gate u p = .go)
    (hfull : (Tab.get [] e.part r).length + (nextChunk va n (Tab.get [] e.part r).length).2 = n)
    (herrs : (lineServed u (dieOf c) p).errs = []) :
    readLine s c i r va n e done = done (Tab.get [] e.part r ++ (lineServed u (dieOf c) p).readBytes p.pkg (p.pl = 2) p.pa
      (nextChunk va n (Tab.get [] e.part r).length).2) (lineServed u (dieOf c) p) := by
  unfold readLine
  dsimp only
  rw [entryLine_go hplace hgate, readHome, checkHome_of_no_errs herrs]
  dsimp only [checkedFor]
  rw [if_neg]
  simp [hfull]

/-- A record is written whole and complete (R120, R133). -/
theorem finishRec_writeRec (w : State) (c i r base rsz : Nat) (bs : List Byte) (hlen : bs.length = rsz) :
    readRec (finishRec (writeRec w c base rsz r 0 bs) c i r) c base rsz r 0 rsz = bs ∧
      sameMemory w (finishRec (writeRec w c base rsz r 0 bs) c i r) ∧
      (finishRec (writeRec w c base rsz r 0 bs) c i r).entry c i = (w.entry c i).map (·.finish r) := by
  refine ⟨?_, sameMemory_of_eq rfl rfl, ?_⟩
  · rw [finishRec, readRec_modEntry]
    exact hlen ▸ readRec_writeRec w c base bs.length r 0 bs
  · rw [finishRec, entry_modEntry_same, entry_writeRec]

theorem opOf_of_entry {t : State} {c i : Nat} {e f : Entry} (ht : t.entry c i = some e) (hop : opOf e.word = 0x1D) (hf : t.entry c i = some f) :
    opOf f.word = 0x1D := by
  rw [ht] at hf
  cases hf
  exact hop

/-- An access that writes its record whole: the record reads back, and memory is as it was (R133, R136). -/
theorem exec_record {s w : State} {c i r base rsz : Nat} {e : Entry} {bs : List Byte}
    (h : streamAccess s c i r = finishRec (writeRec w c base rsz r 0 bs) c i r) (hw : w.entry c i = some e) (hop : opOf e.word = 0x1D)
    (hlen : bs.length = rsz) :
    exec (.homePlainAccess (.stream c i r)) s = .next (finishRec (writeRec w c base rsz r 0 bs) c i r) ∧
      readRec (finishRec (writeRec w c base rsz r 0 bs) c i r) c base rsz r 0 rsz = bs ∧
      sameMemory w (finishRec (writeRec w c base rsz r 0 bs) c i r) := by
  obtain ⟨hread, hmem, hentry⟩ := finishRec_writeRec w c i r base rsz bs hlen
  rw [hw] at hentry
  exact ⟨exec_stream h fun f hf => opOf_of_entry hentry hop hf, hread, hmem⟩

theorem lineServed_entry {s u : State} {c i va kind : Nat} {e : Entry} {p : Place} (hrun : running s c i = some e)
    (hplace : entryPlace s c i va kind = .ok (p, u)) (d : Nat) : (lineServed u d p).entry c i = some e :=
  ((lineServed_sameStalls (sameStalls_of_entryPlace hplace) d p).entry c i).trans (entry_of_running hrun)

/-! ## Loads, expanding loads and gathers -/

theorem moveLoad_dense {s : State} {c i r : Nat} {e : Entry} (h : bit e.word 0 = false) :
    moveLoad s c i r e = readLine s c i r (recordVa e r) (hRsz e.wr) e
      (fun bs s => finishRec (writeRec s c (hBase e.wr) (hRsz e.wr) r 0 bs) c i r) := by
  simp [moveLoad, h]

/-- What the last line of an expanding record leaves: the record, and the lowest record whose metadata is illegal (R134). -/
def expanded (w : State) (c i r rsz base : Nat) (x : List Byte × Bool) : State :=
  let t := finishRec (writeRec w c base rsz r 0 x.1) c i r
  if x.2 then modEntry t c i (fun e => { e with badMeta := e.lowMeta r (t.tickOf (dieOf c)) }) else t

theorem moveLoad_expanding {s : State} {c i r : Nat} {e : Entry} (h : bit e.word 0 = true) :
    moveLoad s c i r e = readLine s c i r (recordVa e r) (hRsz e.wr / 2 + hRsz e.wr / 2 ^ shEsz e.ctl / 8) e
      (fun bs s => expanded s c i r (hRsz e.wr) (hBase e.wr) (expand (2 ^ shEsz e.ctl) (hRsz e.wr / 2 ^ shEsz e.ctl) bs)) := by
  simp [moveLoad, h, expanded]

theorem expanded_moves (w : State) (c i r rsz base : Nat) (x : List Byte × Bool) {e : Entry} (hw : w.entry c i = some e)
    (hlen : x.1.length = rsz) :
    readRec (expanded w c i r rsz base x) c base rsz r 0 rsz = x.1 ∧ sameMemory w (expanded w c i r rsz base x) ∧
      (expanded w c i r rsz base x).entry c i =
        some (if x.2 then { e.finish r with badMeta := e.lowMeta r (w.tickOf (dieOf c)) } else e.finish r) := by
  obtain ⟨hread, hmem, hentry⟩ := finishRec_writeRec w c i r base rsz x.1 hlen
  rw [hw] at hentry
  unfold expanded
  dsimp only
  split
  · refine ⟨?_, hmem, ?_⟩
    · rw [readRec_modEntry]
      exact hread
    · rw [entry_modEntry_same, hentry]
      rfl
  · exact ⟨hread, hmem, hentry⟩

/-! ## The dense record of 2:4 metadata -/

theorem length_flatMap_range {α : Type} {f : Nat → List α} {n m : Nat} (hf : ∀ k < m, (f k).length = n) :
    ((List.range m).flatMap f).length = m * n := by
  rw [List.length_flatMap, List.map_congr_left (g := fun _ => n) fun k hk => hf k (List.mem_range.mp hk)]
  simp

/-- Elements of one length, joined, are found at multiples of it. -/
theorem take_drop_flatMap {α : Type} {f : Nat → List α} {n m k : Nat} (hf : ∀ k < m, (f k).length = n) (hk : k < m) :
    ((((List.range m).flatMap f).drop (k * n)).take n) = f k := by
  induction m with
  | zero => omega
  | succ m ih =>
    have hlen : ((List.range m).flatMap f).length = m * n := length_flatMap_range fun k hk => hf k (by omega)
    rw [List.range_succ, List.flatMap_append, List.flatMap_singleton]
    rcases Nat.lt_succ_iff_lt_or_eq.mp hk with hlt | rfl
    · have hle : (k + 1) * n ≤ m * n := Nat.mul_le_mul_right n hlt
      rw [Nat.succ_mul] at hle
      rw [List.drop_append_of_le_length (by omega), List.take_append_of_le_length (by rw [List.length_drop]; omega)]
      exact ih (fun k hk => hf k (by omega)) hlt
    · rw [List.drop_append_of_le_length hlen.ge, List.drop_of_length_le hlen.le, List.nil_append, ← hf k hk, List.take_length]

end Sys2Proof.Machine

/-! PROOFS. What the last line of a record of SLOAD and SLOADX writes (R133, R134). -/

namespace Sys2Proof.Machine

section
variable {s u : State} {c i r : Nat} {e : Entry} {p : Place} (hrun : running s c i = some e) (hop : opOf e.word = 0x1D)
  (htag : e.tagOk = true) (hr : r < e.count) (hdone : e.isDone r = false)
include hrun hop htag hr hdone

/-- The line that completes a record of an SLOAD writes the record (R133). -/
theorem exec_dense (hsub : subOf e.word = 2) (hdense : bit e.word 0 = false)
    (hplace : entryPlace s c i (nextChunk (recordVa e r) (hRsz e.wr) (Tab.get [] e.part r).length).1 5 = .ok (p, u))
    (hgate : gate u p = .go)
    (hfull : (Tab.get [] e.part r).length + (nextChunk (recordVa e r) (hRsz e.wr) (Tab.get [] e.part r).length).2 = hRsz e.wr)
    (herrs : (lineServed u (dieOf c) p).errs = []) :
    ∃ t, exec (.homePlainAccess (.stream c i r)) s = .next t ∧
      readRec t c (hBase e.wr) (hRsz e.wr) r 0 (hRsz e.wr) = Tab.get [] e.part r ++
        (lineServed u (dieOf c) p).readBytes p.pkg (p.pl = 2) p.pa (nextChunk (recordVa e r) (hRsz e.wr) (Tab.get [] e.part r).length).2 ∧
      sameMemory (lineServed u (dieOf c) p) t := by
  have h := streamAccess_load hrun hop hr hdone htag hsub
  rw [moveLoad_dense hdense, readLine_completes hplace hgate hfull herrs] at h
  exact ⟨_, exec_record h (lineServed_entry hrun hplace _) hop (by simp [hfull])⟩

/-- The line that completes a record of an expanding SLOADX writes the dense record, and its illegal metadata is noted (R134). -/
theorem exec_expanding {rsz n m : Nat} (hsub : subOf e.word = 2) (hexp : bit e.word 0 = true) (hrsz : rsz = hRsz e.wr)
    (hn : n = rsz / 2 ^ shEsz e.ctl) (hm : m = rsz / 2 + n / 8)
    (hplace : entryPlace s c i (nextChunk (recordVa e r) m (Tab.get [] e.part r).length).1 5 = .ok (p, u)) (hgate : gate u p = .go)
    (hfull : (Tab.get [] e.part r).length + (nextChunk (recordVa e r) m (Tab.get [] e.part r).length).2 = m)
    (herrs : (lineServed u (dieOf c) p).errs = []) {x : List Byte × Bool}
    (hx : x = expand (2 ^ shEsz e.ctl) n (Tab.get [] e.part r ++ (lineServed u (dieOf c) p).readBytes p.pkg (p.pl = 2) p.pa
      (nextChunk (recordVa e r) m (Tab.get [] e.part r).length).2)) (hlen : x.1.length = rsz) :
    ∃ t, exec (.homePlainAccess (.stream c i r)) s = .next t ∧ readRec t c (hBase e.wr) rsz r 0 rsz = x.1 ∧
      sameMemory (lineServed u (dieOf c) p) t ∧
      t.entry c i = some (if x.2 then { e.finish r with badMeta := e.lowMeta r (u.tickOf (dieOf c)) } else e.finish r) := by
  subst hrsz hn hm
  have h := streamAccess_load hrun hop hr hdone htag hsub
  rw [moveLoad_expanding hexp, readLine_completes hplace hgate hfull herrs, ← hx] at h
  obtain ⟨hread, hmem, hentry⟩ := expanded_moves _ c i r _ (hBase e.wr) x (lineServed_entry hrun hplace (dieOf c)) hlen
  rw [lineServed_tickOf] at hentry
  exact ⟨_, exec_stream h fun f hf => opOf_of_entry hentry (by split <;> exact hop) hf, hread, hmem, hentry⟩

end

/-! ## Expansion -/

/-- Group g of the dense record that expand makes, by its two positions (R134). -/
def denseGroup (esz p0 p1 : Nat) (lo hi : List Byte) : List Byte :=
  if p0 < p1 then (List.range 4).flatMap (fun q => if q = p0 then lo else if q = p1 then hi else List.replicate esz 0)
  else List.replicate (4 * esz) 0

theorem length_quarter {esz : Nat} (p0 p1 q : Nat) {lo hi : List Byte} (hlo : lo.length = esz) (hhi : hi.length = esz) :
    (if q = p0 then lo else if q = p1 then hi else List.replicate esz 0).length = esz := by
  split
  · exact hlo
  · split
    · exact hhi
    · exact List.length_replicate

theorem length_denseGroup {esz : Nat} (p0 p1 : Nat) {lo hi : List Byte} (hlo : lo.length = esz) (hhi : hi.length = esz) :
    (denseGroup esz p0 p1 lo hi).length = 4 * esz := by
  unfold denseGroup
  split
  · exact length_flatMap_range fun q _ => length_quarter p0 p1 q hlo hhi
  · exact List.length_replicate

/-- Each quarter of a group is an element or zeros. -/
theorem denseGroup_quarter {esz q : Nat} (p0 p1 : Nat) {lo hi : List Byte} (hlo : lo.length = esz) (hhi : hi.length = esz) (hq : q < 4) :
    ((denseGroup esz p0 p1 lo hi).drop (q * esz)).take esz =
      if p0 < p1 then if q = p0 then lo else if q = p1 then hi else List.replicate esz 0 else List.replicate esz 0 := by
  unfold denseGroup
  split
  · exact take_drop_flatMap (fun q _ => length_quarter p0 p1 q hlo hhi) hq
  · have hle : (q + 1) * esz ≤ 4 * esz := Nat.mul_le_mul_right esz hq
    rw [Nat.succ_mul] at hle
    rw [List.drop_replicate, List.take_replicate, Nat.min_eq_left (by omega)]

/-- Elements of a record as SLOADX expands it: the k-th element and the g-th nibble of its metadata. -/
def elemOf (esz : Nat) (bs : List Byte) (k : Nat) : List Byte := (bs.drop (k * esz)).take esz
def nibbleOf (esz n : Nat) (bs : List Byte) (g : Nat) : Nat := packedElem (bs.drop (n / 2 * esz)) 4 g

theorem expand_fst (esz n : Nat) (bs : List Byte) : (expand esz n bs).1 = (List.range (n / 4)).flatMap (fun g =>
    denseGroup esz (nibbleOf esz n bs g % 4) (nibbleOf esz n bs g / 4) (elemOf esz bs (2 * g)) (elemOf esz bs (2 * g + 1))) := by
  unfold expand
  dsimp only
  rw [List.flatMap_map]
  refine congrArg (List.flatMap · _) (funext fun g => ?_)
  unfold denseGroup nibbleOf
  split <;> rfl

theorem expand_snd {esz n g : Nat} {bs : List Byte} (hg : g < n / 4) (h : nibbleOf esz n bs g / 4 ≤ nibbleOf esz n bs g % 4) :
    (expand esz n bs).2 = true := by
  unfold expand
  dsimp only
  rw [List.any_map, List.any_eq_true]
  refine ⟨g, List.mem_range.mpr hg, ?_⟩
  simp only [Function.comp]
  rw [if_neg]
  exact Nat.not_lt.mpr h

section
variable {esz n : Nat} {bs : List Byte} (hlen : bs.length = n / 2 * esz + n / 8)
include hlen

theorem length_elemOf {k : Nat} (hk : k < n / 2) : (elemOf esz bs k).length = esz := by
  have hle : (k + 1) * esz ≤ n / 2 * esz := Nat.mul_le_mul_right esz hk
  rw [Nat.succ_mul] at hle
  simp only [elemOf, List.length_take, List.length_drop]
  omega

theorem length_group {g : Nat} (hg : g < n / 4) (p0 p1 : Nat) :
    (denseGroup esz p0 p1 (elemOf esz bs (2 * g)) (elemOf esz bs (2 * g + 1))).length = 4 * esz :=
  length_denseGroup p0 p1 (length_elemOf hlen (by omega)) (length_elemOf hlen (by omega))

theorem length_expand : (expand esz n bs).1.length = n / 4 * (4 * esz) := by
  rw [expand_fst]
  exact length_flatMap_range fun g hg => length_group hlen hg _ _

/-- Element q of group g of the dense record (R134). -/
theorem expand_elem {g q : Nat} (hg : g < n / 4) (hq : q < 4) :
    (((expand esz n bs).1.drop ((4 * g + q) * esz)).take esz) =
      if nibbleOf esz n bs g % 4 < nibbleOf esz n bs g / 4 then
        if q = nibbleOf esz n bs g % 4 then elemOf esz bs (2 * g)
        else if q = nibbleOf esz n bs g / 4 then elemOf esz bs (2 * g + 1) else List.replicate esz 0
      else List.replicate esz 0 := by
  have hgroup := take_drop_flatMap (fun k hk => length_group hlen hk (nibbleOf esz n bs k % 4) (nibbleOf esz n bs k / 4)) hg
  rw [← expand_fst] at hgroup
  have hle : (q + 1) * esz ≤ 4 * esz := Nat.mul_le_mul_right esz hq
  rw [Nat.succ_mul] at hle
  have hquarter := denseGroup_quarter (nibbleOf esz n bs g % 4) (nibbleOf esz n bs g / 4) (length_elemOf hlen (k := 2 * g) (by omega))
    (length_elemOf hlen (k := 2 * g + 1) (by omega)) hq
  rw [← hgroup, List.drop_take, List.take_take, List.drop_drop, Nat.min_eq_left (by omega)] at hquarter
  rw [← hquarter]
  congr 2
  ring

end

end Sys2Proof.Machine

/-! PROOFS. What a line of SSTORE stores (R135, R144, R254). -/

namespace Sys2Proof.Machine

/-! ## Stores -/

theorem readYard_of_no_errs {s : State} (h : s.errs = []) (c i b key n : Nat) (e : Entry) (k : State → State) :
    readYard s c i b key n e k = k s := by
  rw [readYard, readSrf, checkRead_of_no_errs h]
  rfl

/-- What memory reads as depends on the two memories alone. -/
theorem readBytes_congr {s t : State} (hm : t.mem = s.mem) (hh : t.host = s.host) (p : Nat) (host : Bool) (pa n : Nat) :
    t.readBytes p host pa n = s.readBytes p host pa n := by
  simp only [State.readBytes, hm, hh]

/-- A line stored by a core: the bytes at the place, and the core's copy of the line dropped (R135, R258). -/
def stored (s : State) (c : Nat) (p : Place) (bs : List Byte) : State := dcDrop (s.writePhys p.pkg (p.pl = 2) p.pa bs) c p.pa

theorem sameStalls_stored (s : State) (c : Nat) (p : Place) (bs : List Byte) : sameStalls s (stored s c p bs) :=
  have hwrite : sameStalls s (s.writePhys p.pkg (p.pl = 2) p.pa bs) :=
    (sameStalls.refl s).of_cores (homeOnly_writePhys s p.pkg (p.pl = 2) p.pa bs).cores
  (hwrite.modCore c (f := fun k => { k with dc := Tab.erase k.dc (p.pa / 64) }) fun _ => ⟨rfl, rfl⟩).of_cores rfl

/-- The record that an SSTORE stores: as it was read at the record's first line (R135, R144). -/
def storeBytes (s : State) (c r : Nat) (e : Entry) : List Byte :=
  if Tab.get [] e.snap r = [] then readRec s c (hBase (e.rd 0)) (hRsz (e.rd 0)) r 0 (hRsz (e.rd 0)) else Tab.get [] e.snap r

/-- The entry holds the record that it stores. -/
def snapped (s : State) (c i r : Nat) (e : Entry) : State :=
  if Tab.get [] e.snap r = [] then
    modEntry s c i (fun f => { f with snap := Tab.set [] f.snap r (storeBytes s c r e) })
  else s

theorem storeData_eq {s : State} (h : s.errs = []) (c i r : Nat) (e : Entry) (k : List Byte → State → State) :
    storeData s c i r e k = k (storeBytes s c r e) (snapped s c i r e) := by
  unfold storeData
  dsimp only
  split
  · rename_i hnil
    rw [readYard_of_no_errs h]
    simp [storeBytes, snapped, hnil]
  · rename_i hne
    rw [storeBytes, snapped, if_neg hne, if_neg hne]

theorem snapped_frame (s : State) (c i r : Nat) (e : Entry) : (snapped s c i r e).mem = s.mem ∧ (snapped s c i r e).host = s.host ∧
    ∀ y, ((snapped s c i r e).core y).yard = (s.core y).yard := by
  unfold snapped
  split
  · exact ⟨rfl, rfl, fun y => yard_modEntry s c i y _⟩
  · exact ⟨rfl, rfl, fun _ => rfl⟩

theorem snapped_entry {s : State} {c i : Nat} {e : Entry} (h : s.entry c i = some e) (r : Nat) :
    ∃ f, (snapped s c i r e).entry c i = some f ∧ f.word = e.word ∧ Tab.get [] f.snap r = storeBytes s c r e := by
  unfold snapped
  split
  · rw [entry_modEntry_same, h]
    exact ⟨_, rfl, rfl, Tab.get_set_same _ _ _ _⟩
  · rename_i hne
    exact ⟨e, h, rfl, (if_neg hne).symm⟩

/-- What a line of an SSTORE of k bytes, bs, leaves when got had been moved: the record is complete or goes on (R135). -/
def storedLine (s : State) (c i r n : Nat) (p : Place) (got bs : List Byte) (len : Nat) : State :=
  if got.length + len < n then modEntry (stored s c p bs) c i (fun e => { e with part := Tab.set [] e.part r (got ++ bs) })
  else finishRec (stored s c p bs) c i r

theorem storedLine_memory (s : State) (c i r n : Nat) (p : Place) (got bs : List Byte) (len : Nat) :
    (storedLine s c i r n p got bs len).mem = (s.writePhys p.pkg (p.pl = 2) p.pa bs).mem ∧
      (storedLine s c i r n p got bs len).host = (s.writePhys p.pkg (p.pl = 2) p.pa bs).host ∧
      ∀ y, ((storedLine s c i r n p got bs len).core y).yard = (s.core y).yard := by
  have hyard (y : Nat) : ((stored s c p bs).core y).yard = (s.core y).yard := (sameStalls_stored s c p bs y).1
  unfold storedLine
  split
  · exact ⟨rfl, rfl, fun y => (yard_modEntry _ c i y _).trans (hyard y)⟩
  · exact ⟨rfl, rfl, fun y => (yard_modEntry _ c i y _).trans (hyard y)⟩

theorem storedLine_entry {s : State} {c i r n : Nat} {p : Place} {got bs : List Byte} {len : Nat} {e : Entry} (h : s.entry c i = some e) :
    ∃ f, (storedLine s c i r n p got bs len).entry c i = some f ∧ f.word = e.word ∧ (got.length + len < n → f.snap = e.snap) := by
  have hentry : (stored s c p bs).entry c i = some e := ((sameStalls_stored s c p bs).entry c i).trans h
  unfold storedLine
  split
  · rw [entry_modEntry_same, hentry]
    exact ⟨_, rfl, rfl, fun _ => rfl⟩
  · rw [finishRec, entry_modEntry_same, hentry]
    exact ⟨_, rfl, rfl, fun hlt => absurd hlt ‹_›⟩

section
variable {s u : State} {c i r : Nat} {e : Entry} {p : Place} (hrun : running s c i = some e) (hop : opOf e.word = 0x1D)
  (htag : e.tagOk = true) (hr : r < e.count) (hdone : e.isDone r = false)
include hrun hop htag hr hdone

/-- A line of an SSTORE stores its bytes of the record, which the entry holds until the record is complete (R135, R144). -/
theorem exec_store {n a len : Nat} (hsub : subOf e.word = 3) (hn : n = hRsz (e.rd 0))
    (hch : nextChunk (recordVa e r) n (Tab.get [] e.part r).length = (a, len)) (horder : (shStride e.ctl).natAbs < n → r = e.resume)
    (hplace : entryPlace s c i a 6 = .ok (p, u)) (hgate : gate u p = .go) (herrs : (lineServed u (dieOf c) p).errs = []) :
    ∃ t, exec (.homePlainAccess (.stream c i r)) s = .next t ∧
      readsBack (lineServed u (dieOf c) p) t p.pkg (p.pl = 2) p.pa (((storeBytes s c r e).drop (Tab.get [] e.part r).length).take len) ∧
      ((Tab.get [] e.part r).length + len < n → (t.entry c i).map (fun f => Tab.get [] f.snap r) = some (storeBytes s c r e)) ∧
      (∀ q o a, (o ≠ decide (p.pl = 2) ∨ placeKey o q a < placeKey o p.pkg p.pa ∨ placeKey o p.pkg p.pa + len ≤ placeKey o q a) →
        readByte t q o a = readByte (lineServed u (dieOf c) p) q o a) ∧
      (t.core c).yard = (s.core c).yard := by
  subst hn
  generalize hw : lineServed u (dieOf c) p = w at herrs
  have hstalls : sameStalls s w := hw ▸ lineServed_sameStalls (sameStalls_of_entryPlace hplace) _ p
  have hbytes : storeBytes w c r e = storeBytes s c r e := by simp only [storeBytes, readRec, (hstalls c).1]
  have hwe : w.entry c i = some e := (hstalls.entry c i).trans (entry_of_running hrun)
  generalize hbs : ((storeBytes s c r e).drop (Tab.get [] e.part r).length).take len = bs
  have h := streamAccess_store hrun hop hr hdone htag hsub
  have horder' : ¬ ((shStride e.ctl).natAbs < hRsz (e.rd 0) ∧ r ≠ e.resume) := fun hbad => hbad.2 (horder hbad.1)
  have hmove : moveStore s c i r e = storedLine (snapped w c i r e) c i r (hRsz (e.rd 0)) p (Tab.get [] e.part r) bs len := by
    unfold moveStore
    dsimp only
    rw [if_neg horder', hch]
    dsimp only
    rw [entryLine_go hplace hgate, hw, storeData_eq herrs, hbytes, hbs]
    rfl
  rw [hmove] at h
  obtain ⟨hm, hh, hy⟩ := storedLine_memory (snapped w c i r e) c i r (hRsz (e.rd 0)) p (Tab.get [] e.part r) bs len
  obtain ⟨hm', hh', hy'⟩ := snapped_frame w c i r e
  obtain ⟨f, hf, hfw, hfs⟩ := snapped_entry hwe r
  obtain ⟨g, hg, hgw, hgs⟩ := storedLine_entry (r := r) (n := hRsz (e.rd 0)) (p := p) (got := Tab.get [] e.part r) (bs := bs) (len := len) hf
  have hback := readsBack_writePhys (snapped w c i r e) p.pkg (p.pl = 2) p.pa bs
  refine ⟨_, exec_stream h fun _ => opOf_of_entry hg (by rwa [hgw, hfw]), ?_, fun hlt => ?_, fun q o a hout => ?_, ?_⟩
  · unfold readsBack at hback ⊢
    rw [readBytes_congr hm hh, hback, readBytes_congr hm' hh']
  · rw [hg, Option.map_some, hgs hlt, hfs, hbytes]
  · have hlen : bs.length ≤ len := hbs ▸ List.length_take_le _ _
    have hframe := readByte_writePhys_outside (s := snapped w c i r e) (p := p.pkg) (host := decide (p.pl = 2)) (pa := p.pa) (bs := bs)
      (q := q) (a := a) (h := o) ?_
    · exact (congrArg ofLe (readBytes_congr hm hh q o a 1)).trans (hframe.trans (congrArg ofLe (readBytes_congr hm' hh' q o a 1)))
    · by_cases ho : o = decide (p.pl = 2)
      · rw [← ho]
        rcases hout with h | h | h
        · exact absurd ho h
        · exact .inr (.inl h)
        · exact .inr (.inr (by omega))
      · exact .inl ho
  · rw [hy, hy', (hstalls c).1]

end

end Sys2Proof.Machine

/-! PROOFS. Indices that are read once for their rows, and the records of SGATHER (R57, R136). -/

namespace Sys2Proof.Machine

/-! ## Indices, read once -/

/-- The entry in which index record j is known. -/
def Entry.withIdx (e : Entry) (j w : Nat) : Entry := { e with idx := Tab.set none e.idx j (some w) }

theorem readIndex_known {s : State} {c i j w : Nat} {e : Entry} (h : Tab.get none e.idx j = some w) (a : Word) (k : Nat → State → State) :
    readIndex s c i j a e k = k w s := by
  unfold readIndex
  rw [h]

theorem withIdx_known (e : Entry) (j w : Nat) : Tab.get none (e.withIdx j w).idx j = some w :=
  Tab.get_set_same none e.idx j (some w)

/-- The first read of an index record is kept in the entry (R136, R137, R261, R265). -/
theorem readIndex_unknown {s : State} {c i j : Nat} {e : Entry} (herrs : s.errs = []) (h : Tab.get none e.idx j = none)
    (hentry : s.entry c i = some e) (a : Word) (k : Nat → State → State) : readIndex s c i j a e k =
      k (recWord s c (hBase a) 4 j 0) (s.setEntry c i (some (e.withIdx j (recWord s c (hBase a) 4 j 0)))) := by
  unfold readIndex modEntry
  rw [h]
  dsimp only
  rw [readYard_of_no_errs herrs, hentry]
  rfl

/-- A row goes on alike whether its index is read now or was read before. -/
theorem readIndex_once {s : State} {c i j : Nat} {e : Entry} (herrs : s.errs = []) (h : Tab.get none e.idx j = none)
    (hentry : s.entry c i = some e) (a : Word) (k : Nat → State → State) : readIndex s c i j a e k =
      readIndex (s.setEntry c i (some (e.withIdx j (recWord s c (hBase a) 4 j 0)))) c i j a (e.withIdx j (recWord s c (hBase a) 4 j 0)) k :=
  (readIndex_unknown herrs h hentry a k).trans (readIndex_known (withIdx_known e j _) a k).symm

theorem running_setEntry {s : State} {c i : Nat} {e f : Entry} (h : running s c i = some e) (hst : f.st = e.st) (hstop : f.stop = e.stop) :
    running (s.setEntry c i (some f)) c i = some f := by
  have hentry := entry_of_running h
  have hgo : (e.st = .started && !e.stop && !s.stopped (dieOf c)) = true := by
    by_contra hno
    unfold running at h
    rw [hentry] at h
    dsimp only at h
    rw [if_neg hno] at h
    cases h
  unfold running
  rw [entry_setEntry_same]
  dsimp only
  rw [hst, hstop]
  exact if_pos hgo

section
variable {s : State} {c i j : Nat} {e : Entry} (herrs : s.errs = []) (hidx : Tab.get none e.idx j = none) (hentry : s.entry c i = some e)
include herrs hidx hentry

theorem moveGather_known : moveGather s c i j e = moveGather (s.setEntry c i (some (e.withIdx j (recWord s c (hBase (e.rd 0)) 4 j 0)))) c i j
    (e.withIdx j (recWord s c (hBase (e.rd 0)) 4 j 0)) := by
  unfold moveGather
  exact readIndex_once herrs hidx hentry (e.rd 0) _

theorem moveBag_known (hj : j = e.resume + e.k) : moveBag s c i j e =
    moveBag (s.setEntry c i (some (e.withIdx j (recWord s c (hBase (e.rd 0)) 4 j 0)))) c i j
      (e.withIdx j (recWord s c (hBase (e.rd 0)) 4 j 0)) := by
  generalize hw : recWord s c (hBase (e.rd 0)) 4 j 0 = w
  have hj' : ¬ j ≠ (e.withIdx j w).resume + (e.withIdx j w).k := not_not.mpr hj
  unfold moveBag
  rw [if_neg (not_not.mpr hj), if_neg hj', ← hw]
  exact readIndex_once herrs hidx hentry (e.rd 0) _

theorem addElement_known (hj : j = e.resume) : addElement s c i e =
    addElement (s.setEntry c i (some (e.withIdx j (recWord s c (hBase (e.rd 1)) 4 j 0)))) c i
      (e.withIdx j (recWord s c (hBase (e.rd 1)) 4 j 0)) := by
  subst hj
  unfold addElement
  exact readIndex_once herrs hidx hentry (e.rd 1) _

theorem updateRow_known (hj : j = e.resume) : updateRow s c i e =
    updateRow (s.setEntry c i (some (e.withIdx j (recWord s c (hBase (e.rd 1)) 4 j 0)))) c i
      (e.withIdx j (recWord s c (hBase (e.rd 1)) 4 j 0)) := by
  subst hj
  unfold updateRow
  exact readIndex_once herrs hidx hentry (e.rd 1) _

end

/-! ## Records of gathers -/

theorem gixstk_noteIndex (s : State) (x idx : Nat) : ((noteIndex s x idx).ctx x).gixstk =
    if bit (s.ctx x).gixstk 63 = true then (s.ctx x).gixstk else BitVec.ofNat 64 (2 ^ 63 + idx) := by
  simp only [noteIndex, State.modCtx, State.ctx_setCtx_same]
  split <;> rfl

theorem exec_of_streamAccess {s s' : State} {c i r : Nat} (h : streamAccess s c i r = streamAccess s' c i r) :
    exec (.homePlainAccess (.stream c i r)) s = exec (.homePlainAccess (.stream c i r)) s' :=
  congrArg Host.Outcome.next (congrArg (groupAccess · c i r) h)

section
variable {s u : State} {c i r : Nat} {e : Entry} {p : Place} (hrun : running s c i = some e) (hop : opOf e.word = 0x1D)
  (htag : e.tagOk = true) (hr : r < e.count) (hdone : e.isDone r = false)
include hrun hop htag hr hdone

/-- The line that completes the row of an index writes the record of an SGATHER (R136). -/
theorem exec_gather_row {idx va : Nat} (hsub : subOf e.word = 4) (hidx : Tab.get none e.idx r = some idx) (hin : idx < fldN e.ctl 32 32)
    (hva : va = ((e.rx e.xa).toNat + idx * hRsz e.wr) % 2 ^ 64)
    (hplace : entryPlace s c i (nextChunk va (hRsz e.wr) (Tab.get [] e.part r).length).1 5 = .ok (p, u)) (hgate : gate u p = .go)
    (hfull : (Tab.get [] e.part r).length + (nextChunk va (hRsz e.wr) (Tab.get [] e.part r).length).2 = hRsz e.wr)
    (herrs : (lineServed u (dieOf c) p).errs = []) :
    ∃ t, exec (.homePlainAccess (.stream c i r)) s = .next t ∧
      readRec t c (hBase e.wr) (hRsz e.wr) r 0 (hRsz e.wr) = Tab.get [] e.part r ++
        (lineServed u (dieOf c) p).readBytes p.pkg (p.pl = 2) p.pa (nextChunk va (hRsz e.wr) (Tab.get [] e.part r).length).2 ∧
      sameMemory (lineServed u (dieOf c) p) t := by
  have h := streamAccess_gather hrun hop hr hdone htag hsub
  rw [moveGather, readIndex_known hidx] at h
  dsimp only at h
  rw [if_neg (Nat.not_le.mpr hin), ← hva, readLine_completes hplace hgate hfull herrs] at h
  exact ⟨_, exec_record h (lineServed_entry hrun hplace _) hop (by simp [hfull])⟩

/-- A row whose index is out of range is zeros, and GIXSTK keeps the first such index (R57, R136). -/
theorem exec_gather_out {idx : Nat} (hsub : subOf e.word = 4) (hidx : Tab.get none e.idx r = some idx) (hout : fldN e.ctl 32 32 ≤ idx)
    (hres : r = e.resume) : ∃ t, exec (.homePlainAccess (.stream c i r)) s = .next t ∧ sameMemory s t ∧
      readRec t c (hBase e.wr) (hRsz e.wr) r 0 (hRsz e.wr) = List.replicate (hRsz e.wr) 0 ∧
      (t.ctx (c * 4 + e.ctx)).gixstk = (if bit (s.ctx (c * 4 + e.ctx)).gixstk 63 = true then (s.ctx (c * 4 + e.ctx)).gixstk
        else BitVec.ofNat 64 (2 ^ 63 + idx)) := by
  have h := streamAccess_gather hrun hop hr hdone htag hsub
  rw [moveGather, readIndex_known hidx] at h
  dsimp only at h
  rw [if_pos hout, if_neg (not_not.mpr hres)] at h
  obtain ⟨hexec, hread, hmem⟩ := exec_record h (entry_of_running hrun) hop List.length_replicate
  exact ⟨_, hexec, hmem, hread, gixstk_noteIndex s _ idx⟩

end

section
variable {s : State} {c i j : Nat} {e : Entry} (hrun : running s c i = some e) (htag : e.tagOk = true)
  (hidx : Tab.get none e.idx j = none) (hj : j < e.count) (herrs : s.errs = [])
include hrun htag hidx hj herrs

/-- An index is read once for its row: a step with the index read and one that reads it agree (R136, R137). -/
theorem exec_index_once (hop : opOf e.word = 0x1D) (hsub : subOf e.word = 4 ∨ subOf e.word = 5 ∧ j = e.resume + e.k)
    (hdone : e.isDone j = false) : exec (.homePlainAccess (.stream c i j)) s = exec (.homePlainAccess (.stream c i j))
      (s.setEntry c i (some (e.withIdx j (recWord s c (hBase (e.rd 0)) 4 j 0)))) := by
  have hentry := entry_of_running hrun
  have hrun' (w : Nat) : running (s.setEntry c i (some (e.withIdx j w))) c i = some (e.withIdx j w) := running_setEntry hrun rfl rfl
  refine exec_of_streamAccess ?_
  rcases hsub with hsub | ⟨hsub, hres⟩
  · rw [streamAccess_gather hrun hop hj hdone htag hsub, streamAccess_gather (hrun' _) hop hj hdone htag hsub]
    exact moveGather_known herrs hidx hentry
  · rw [streamAccess_bag hrun hop hj hdone htag hsub, streamAccess_bag (hrun' _) hop hj hdone htag hsub]
    exact moveBag_known herrs hidx hentry hres

end

end Sys2Proof.Machine

/-! PROOFS. Indices of scatter-adds and row updates, and the bags of SBAG and SBAGM (R137, R261, R265). -/

namespace Sys2Proof.Machine

section
variable {s : State} {c i : Nat} {e : Entry} (hrun : running s c i = some e) (htag : e.tagOk = true) (hop : opOf e.word = 0x1F)
  (hres : e.resume < e.count)
include hrun htag hop hres

theorem exec_scatter (hsub : subOf e.word = 0) : exec (.scatterAddAtHome c i) s = .next (addElement s c i e) := by
  refine (?_ : execScatterAddAtHome c i s = _)
  unfold execScatterAddAtHome
  rw [hrun]
  refine (if_pos ⟨hop, hsub, hres⟩).trans ?_
  rw [firstRead_of_tagOk htag, Entry.with_tagOk htag]

theorem exec_rowUpdate (hsub : subOf e.word = 1) : exec (.rowUpdateAtHome c i) s = .next (updateRow s c i e) := by
  refine (?_ : execRowUpdateAtHome c i s = _)
  unfold execRowUpdateAtHome
  rw [hrun]
  refine (if_pos ⟨hop, hsub, hres⟩).trans ?_
  rw [firstRead_of_tagOk htag, Entry.with_tagOk htag]

variable (hidx : Tab.get none e.idx e.resume = none) (herrs : s.errs = [])
include hidx herrs

theorem exec_scatter_index_once (hsub : subOf e.word = 0) : exec (.scatterAddAtHome c i) s = exec (.scatterAddAtHome c i)
    (s.setEntry c i (some (e.withIdx e.resume (recWord s c (hBase (e.rd 1)) 4 e.resume 0)))) := by
  have hrun' (w : Nat) : running (s.setEntry c i (some (e.withIdx e.resume w))) c i = some (e.withIdx e.resume w) :=
    running_setEntry hrun rfl rfl
  rw [exec_scatter hrun htag hop hres hsub, exec_scatter (hrun' _) htag hop hres hsub]
  exact congrArg _ (addElement_known herrs hidx (entry_of_running hrun) rfl)

theorem exec_row_index_once (hsub : subOf e.word = 1) : exec (.rowUpdateAtHome c i) s = exec (.rowUpdateAtHome c i)
    (s.setEntry c i (some (e.withIdx e.resume (recWord s c (hBase (e.rd 1)) 4 e.resume 0)))) := by
  have hrun' (w : Nat) : running (s.setEntry c i (some (e.withIdx e.resume w))) c i = some (e.withIdx e.resume w) :=
    running_setEntry hrun rfl rfl
  rw [exec_rowUpdate hrun htag hop hres hsub, exec_rowUpdate (hrun' _) htag hop hres hsub]
  exact congrArg _ (updateRow_known herrs hidx (entry_of_running hrun) rfl)

end

/-! ## Bags -/

/-- The sums of a bag once it takes the values of one more index (R137). -/
def bagAcc (e : Entry) (vs : List Nat) : List Nat :=
  if e.k = 0 then vs else (List.range vs.length).map (fun m => fadd Fmt.fp32 0 (e.acc.getD m 0) (vs.getD m 0))

/-- The values that a bag of one more index writes: the sums, or their means (R137). -/
def bagOut (e : Entry) (vs : List Nat) : List Nat :=
  if bit e.word 0 = true ∧ 0 < e.k then (bagAcc e vs).map (fun a => divCount a (e.k + 1)) else bagAcc e vs

@[simp] theorem length_bagAcc (e : Entry) (vs : List Nat) : (bagAcc e vs).length = vs.length := by
  unfold bagAcc
  split <;> simp

@[simp] theorem length_bagOut (e : Entry) (vs : List Nat) : (bagOut e vs).length = vs.length := by
  unfold bagOut
  split <;> simp

theorem length_flatMap_leBytes (n : Nat) (vs : List Nat) : (vs.flatMap (leBytes n)).length = vs.length * n := by
  simp [List.length_flatMap]

section
variable {s : State} {c i j w : Nat} {e : Entry} {vs : List Nat}

theorem bagTake_open (hv : ¬ (w.testBit 31 = true ∨ j + 1 = e.count)) : bagTake s c i j e w vs =
    modEntry s c i (fun f => { f with k := e.k + 1, acc := bagAcc e vs, part := [], idx := [] }) := by
  unfold bagTake
  exact if_neg hv

theorem bagTake_full (hv : w.testBit 31 = true ∨ j + 1 = e.count) (hfull : hCapr e.wr ≤ e.bag) :
    bagTake s c i j e w vs = entryFault s c i 0x2C e.bag := by
  unfold bagTake
  exact (if_pos hv).trans (if_pos hfull)

theorem bagTake_closes (hv : w.testBit 31 = true ∨ j + 1 = e.count) (hroom : e.bag < hCapr e.wr) : bagTake s c i j e w vs =
    modEntry (writeRec s c (hBase e.wr) (hRsz e.wr) e.bag 0 ((bagOut e vs).flatMap (leBytes 4))) c i
      (fun f => { f with bag := f.bag + 1, k := 0, acc := [], resume := j + 1, part := [], idx := [] }) := by
  have hmean : (bit e.word 0 = true ∧ 1 < e.k + 1) ↔ (bit e.word 0 = true ∧ 0 < e.k) := and_congr_right fun _ => by omega
  unfold bagTake
  refine (if_pos hv).trans ((if_neg (Nat.not_le.mpr hroom)).trans ?_)
  rw [bagOut]
  simp only [hmean]
  rfl

/-- What a bag leaves in the entry and in the stall that it writes once it has taken the values of one more index (R137). -/
def bagTook (s t : State) (c j w : Nat) (e f : Entry) (vs : List Nat) : Prop :=
  (w.testBit 31 = true ∨ j + 1 = e.count → e.bag < hCapr e.wr →
    readRec t c (hBase e.wr) (hRsz e.wr) e.bag 0 (4 * vs.length) = (bagOut e vs).flatMap (leBytes 4) ∧ f.bag = e.bag + 1 ∧ f.k = 0 ∧
      f.resume = j + 1) ∧
  (w.testBit 31 = false → j + 1 ≠ e.count → f.k = e.k + 1 ∧ f.acc = bagAcc e vs ∧ f.bag = e.bag ∧ f.resume = e.resume ∧
    (t.core c).yard = (s.core c).yard)

theorem entryFault_entry (hentry : s.entry c i = some e) (code v : Nat) : (entryFault s c i code v).entry c i = some { e with
    stop := true, flt := some (e.flt.getD (mkRec s (c * 4 + e.ctx) false (Flt.mk0 code (cmdDetail e.word i v)))) } ∧
    sameMemory s (entryFault s c i code v) ∧ ∀ x, (entryFault s c i code v).ctx x = s.ctx x := by
  have heq : entryFault s c i code v = s.setEntry c i (some { e with
      stop := true, flt := some (e.flt.getD (mkRec s (c * 4 + e.ctx) false (Flt.mk0 code (cmdDetail e.word i v)))) }) := by
    simp [entryFault, failEntry, hentry]
  rw [heq]
  exact ⟨entry_setEntry_same s c i _, sameMemory_of_eq rfl rfl, fun _ => rfl⟩

theorem bagTake_took (hentry : s.entry c i = some e) : ∃ f, (bagTake s c i j e w vs).entry c i = some f ∧ f.word = e.word ∧
    (∀ x, (bagTake s c i j e w vs).ctx x = s.ctx x) ∧ bagTook s (bagTake s c i j e w vs) c j w e f vs := by
  by_cases hv : w.testBit 31 = true ∨ j + 1 = e.count
  · have hnot : ¬ (w.testBit 31 = false ∧ j + 1 ≠ e.count) := fun h => hv.elim (by simp [h.1]) h.2
    by_cases hroom : e.bag < hCapr e.wr
    · rw [bagTake_closes hv hroom, entry_modEntry_same, entry_writeRec, hentry]
      refine ⟨_, rfl, rfl, fun _ => rfl, fun _ _ => ⟨?_, rfl, rfl, rfl⟩, fun h h' => absurd ⟨h, h'⟩ hnot⟩
      have hlen : 4 * vs.length = ((bagOut e vs).flatMap (leBytes 4)).length := by
        rw [length_flatMap_leBytes, length_bagOut, Nat.mul_comm]
      rw [readRec_modEntry, hlen, readRec_writeRec]
    · obtain ⟨hf, -, hctx⟩ := entryFault_entry hentry 0x2C e.bag
      rw [bagTake_full hv (Nat.not_lt.mp hroom)]
      exact ⟨_, hf, rfl, hctx, fun _ h => absurd h hroom, fun h h' => absurd ⟨h, h'⟩ hnot⟩
  · rw [bagTake_open hv, entry_modEntry_same, hentry]
    exact ⟨_, rfl, rfl, fun _ => rfl, fun h => absurd h hv, fun _ _ => ⟨rfl, rfl, rfl, rfl, yard_modEntry s c i c _⟩⟩

end

section
variable {s u : State} {c i : Nat} {e : Entry} {p : Place} (hrun : running s c i = some e) (hop : opOf e.word = 0x1D)
  (htag : e.tagOk = true) (hr : e.resume + e.k < e.count) (hdone : e.isDone (e.resume + e.k) = false) (hsub : subOf e.word = 5)
  {v : Nat} (hidx : Tab.get none e.idx (e.resume + e.k) = some v)
include hrun hop htag hr hdone hsub hidx

/-- The line that completes the row of an index adds the row's values to the open bag (R137). -/
theorem exec_bag_row {n esz va : Nat} (hn : n = hRsz e.wr / 4) (hesz : esz = eszOf (fldN e.ctl 62 2)) (hin : v % 2 ^ 31 < fldN e.ctl 32 30)
    (hva : va = ((e.rx e.xa).toNat + v % 2 ^ 31 * n * esz) % 2 ^ 64)
    (hplace : entryPlace s c i (nextChunk va (n * esz) (Tab.get [] e.part (e.resume + e.k)).length).1 5 = .ok (p, u)) (hgate : gate u p = .go)
    (hfull : (Tab.get [] e.part (e.resume + e.k)).length + (nextChunk va (n * esz) (Tab.get [] e.part (e.resume + e.k)).length).2 = n * esz)
    (herrs : (lineServed u (dieOf c) p).errs = []) {vs : List Nat}
    (hvs : vs = (List.range n).map (fun m => convert (tableFmt (fldN e.ctl 62 2)) Fmt.fp32 0 (packedElem
      (Tab.get [] e.part (e.resume + e.k) ++ (lineServed u (dieOf c) p).readBytes p.pkg (p.pl = 2) p.pa
        (nextChunk va (n * esz) (Tab.get [] e.part (e.resume + e.k)).length).2) (8 * esz) m))) :
    ∃ t f, exec (.homePlainAccess (.stream c i (e.resume + e.k))) s = .next t ∧ t.entry c i = some f ∧
      bagTook s t c (e.resume + e.k) v e f vs := by
  have h := streamAccess_bag hrun hop hr hdone htag hsub
  rw [moveBag, if_neg (not_not.mpr rfl), readIndex_known hidx] at h
  dsimp only at h
  rw [if_neg (Nat.not_le.mpr hin), ← hn, ← hesz, ← hva, readLine_completes hplace hgate hfull herrs, ← hvs] at h
  obtain ⟨f, hf, hfw, -, htook⟩ := bagTake_took (vs := vs) (j := e.resume + e.k) (w := v) (lineServed_entry hrun hplace (dieOf c))
  have hyard := (lineServed_sameStalls (sameStalls_of_entryPlace hplace) (dieOf c) p c).1
  refine ⟨_, f, exec_stream h fun _ => opOf_of_entry hf (by rwa [hfw]), hf, htook.1, fun hb hj => ?_⟩
  obtain ⟨hk, hacc, hbag, hres, hy⟩ := htook.2 hb hj
  exact ⟨hk, hacc, hbag, hres, hy.trans hyard⟩

/-- A bag takes zeros for an index out of range, and GIXSTK keeps the first such index (R57, R137). -/
theorem exec_bag_out {n : Nat} (hn : n = hRsz e.wr / 4) (hout : fldN e.ctl 32 30 ≤ v % 2 ^ 31) :
    ∃ t f, exec (.homePlainAccess (.stream c i (e.resume + e.k))) s = .next t ∧ t.entry c i = some f ∧
      (t.ctx (c * 4 + e.ctx)).gixstk = (if bit (s.ctx (c * 4 + e.ctx)).gixstk 63 = true then (s.ctx (c * 4 + e.ctx)).gixstk
        else BitVec.ofNat 64 (2 ^ 63 + v % 2 ^ 31)) ∧
      bagTook s t c (e.resume + e.k) v e f (List.replicate n 0) := by
  have h := streamAccess_bag hrun hop hr hdone htag hsub
  rw [moveBag, if_neg (not_not.mpr rfl), readIndex_known hidx] at h
  dsimp only at h
  rw [if_pos hout, ← hn] at h
  have hentry : (noteIndex s (c * 4 + e.ctx) (v % 2 ^ 31)).entry c i = some e := entry_of_running hrun
  obtain ⟨f, hf, hfw, hctx, htook⟩ := bagTake_took (vs := List.replicate n 0) (j := e.resume + e.k) (w := v) hentry
  refine ⟨_, f, exec_stream h fun _ => opOf_of_entry hf (by rwa [hfw]), hf, ?_, htook⟩
  rw [hctx]
  exact gixstk_noteIndex s _ _

end

end Sys2Proof.Machine

/-! PROOFS. The comparison of the tags at an entry's first read, and copies within a stable (R15, R138). -/

namespace Sys2Proof.Machine

/-! ## The comparison of the tags -/

theorem tagMismatch_one {s : State} {c : Nat} {e : Entry} {n : Nat} {h : Word} {exp : BitVec 8} {t : Stall} (hreads : e.reads = [(n, h, exp)])
    (hstall : stallAt (s.core c).stalls (hBase h) = some t) :
    tagMismatch s c e = if t.tag = exp then none else some (exp.toNat, t.tag.toNat) := by
  simp only [tagMismatch, hreads, List.findSome?_cons, hstall, List.findSome?_nil]
  split <;> simp_all

theorem tagMismatch_none {s : State} {c : Nat} {e : Entry} (hreads : e.reads = []) : tagMismatch s c e = none := by
  simp [tagMismatch, hreads]

section
variable {s : State} {c i r : Nat} {e : Entry} (hrun : running s c i = some e) (hop : opOf e.word = 0x1D) (htag : e.tagOk = false)
  (hr : r < e.count) (hdone : e.isDone r = false)
include hrun hop htag hr hdone

/-- A first read of a stall whose tag differs ends the entry with fault 0x28 (R15, R135). -/
theorem exec_tag_differs {exp act : Nat} (h : tagMismatch s c e = some (exp, act)) :
    ∃ u, exec (.homePlainAccess (.stream c i r)) s = .next u ∧ u.entry c i = some { e with
      stop := true, flt := some (e.flt.getD (mkRec s (c * 4 + e.ctx) false (Flt.mk0 0x28 (cmdDetail e.word i (exp * 2 ^ 8 + act))))) } ∧
      sameMemory s u := by
  have hgo := streamAccess_eq hrun hop hr hdone
  rw [firstRead, if_neg (by simp [htag]), h] at hgo
  obtain ⟨hentry, hmem, -⟩ := entryFault_entry (entry_of_running hrun) 0x28 (exp * 2 ^ 8 + act)
  exact ⟨_, exec_stream hgo fun _ => opOf_of_entry hentry hop, hentry, hmem⟩

/-- Once the tags agree, the access is that of an entry which has compared them (R15). -/
theorem exec_tag_agrees (h : tagMismatch s c e = none) : exec (.homePlainAccess (.stream c i r)) s =
    exec (.homePlainAccess (.stream c i r)) (s.setEntry c i (some { e with tagOk := true })) := by
  have hrun' : running (s.setEntry c i (some { e with tagOk := true })) c i = some { e with tagOk := true } := running_setEntry hrun rfl rfl
  refine exec_of_streamAccess ?_
  rw [streamAccess_eq hrun hop hr hdone, streamAccess_eq hrun' hop hr hdone, firstRead, if_neg (by simp [htag]), h,
    firstRead_of_tagOk (e := { e with tagOk := true }) rfl]
  rfl

end

/-! ## Copies within a stable -/

theorem Memory.take_read (m : Memory) (a n k : Nat) : (Memory.read m a (n + k)).take n = Memory.read m a n := by
  induction n generalizing a with
  | zero => rfl
  | succ n ih =>
    rw [Nat.add_right_comm, Memory.read, Memory.read, List.take_succ_cons, ih]

/-- The first bytes written of a record read back. -/
theorem readRec_writeRec_append (s : State) (c base rsz r : Nat) (as bs : List Byte) :
    readRec (writeRec s c base rsz r 0 (as ++ bs)) c base rsz r 0 as.length = as := by
  have hall := readRec_writeRec s c base rsz r 0 (as ++ bs)
  rw [readRec, List.length_append] at hall
  rw [readRec, ← Memory.take_read _ _ _ bs.length, hall, List.take_left]

/-- A record copied from one stall to another reads as it read; what follows it is free (R138, log 46). -/
theorem copied_record (s : State) (c i y base rsz z base' rsz' k n m q : Nat) :
    readRec (finishRec ((writeRec s z base' rsz' k 0 (readRec s y base rsz k 0 n ++ freeBytes s m)).spendFree q) c i k) z base' rsz' k 0 n =
      readRec s y base rsz k 0 n := by
  rw [finishRec, readRec_modEntry]
  have hback := readRec_writeRec_append s z base' rsz' k (readRec s y base rsz k 0 n) (freeBytes s m)
  rw [length_readRec] at hback
  exact hback

section
variable {s : State} {c i : Nat} {e : Entry} (hrun : running s c i = some e) (herrs : s.errs = []) (hsub : e.sub = 1)
  (hres : e.resume < e.count)
include hrun herrs hsub hres

/-- A pull writes the next record of the remote stall to the local one (R138). -/
theorem exec_pull (hpull : isPull e.word = true) {r : Word} {rc n : Nat} (hr : r = e.rx (en2 e.word)) (hrc : rc = refCore c r)
    (hn : n = min (hRsz e.wr) (hRsz r)) :
    ∃ t, exec (.remoteStallCopy c i) s = .next t ∧ sameMemory s t ∧
      readRec t c (hBase e.wr) (hRsz e.wr) e.resume 0 n = readRec s rc (hBase r) (hRsz r) e.resume 0 n := by
  subst hr hrc hn
  have hpush : isPush e.word = false := by
    simp only [isPull, Bool.and_eq_true] at hpull
    simp_all [isPush]
  have hexec : exec (.remoteStallCopy c i) s = .next (copyNext s c i e) := by
    refine (?_ : execRemoteStallCopy c i s = _)
    simp [execRemoteStallCopy, hrun, hpull, hsub]
  refine ⟨_, hexec, ?_⟩
  unfold copyNext
  dsimp only
  rw [if_pos hres, if_neg (by simp [hpush]), readYard_of_no_errs herrs]
  exact ⟨sameMemory_of_eq rfl rfl, copied_record s c i _ _ _ _ _ _ e.resume _ _ _⟩

/-- A push writes the next record of the local stall to the remote one (R138). -/
theorem exec_push (hpush : isPush e.word = true) {r : Word} {rc n : Nat} (hr : r = e.rx (en2 e.word)) (hrc : rc = refCore c r)
    (hn : n = min (hRsz (e.rd 0)) (hRsz r)) :
    ∃ t, exec (.remoteStallCopy c i) s = .next t ∧ sameMemory s t ∧
      readRec t rc (hBase r) (hRsz r) e.resume 0 n = readRec s c (hBase (e.rd 0)) (hRsz (e.rd 0)) e.resume 0 n := by
  subst hr hrc hn
  have hexec : exec (.remoteStallCopy c i) s = .next (copyNext s c i e) := by
    refine (?_ : execRemoteStallCopy c i s = _)
    simp [execRemoteStallCopy, hrun, hpush, hsub]
  refine ⟨_, hexec, ?_⟩
  unfold copyNext
  dsimp only
  rw [if_pos hres, if_pos hpush, readYard_of_no_errs herrs]
  exact ⟨sameMemory_of_eq rfl rfl, copied_record s c i _ _ _ _ _ _ e.resume _ _ _⟩

end

end Sys2Proof.Machine

/-! PROOFS. Rows at a table's home: scatter-adds and row updates (R261 to R265). -/

namespace Sys2Proof.Machine

theorem startRow_out {s : State} {c i va n idx tlen : Nat} {e : Entry} (h : tlen ≤ idx) (k : List Place → State → State) :
    startRow s c i va n idx tlen e k = finishRec (noteIndex s (c * 4 + e.ctx) idx) c i e.resume := if_pos h

theorem startRow_placed {s : State} {c i va n idx tlen : Nat} {e : Entry} (h : idx < tlen) (hp : e.places ≠ [])
    (k : List Place → State → State) : startRow s c i va n idx tlen e k = k e.places s :=
  (if_neg (Nat.not_le.mpr h)).trans (if_pos hp)

theorem rowGate_go {s : State} {p : Place} (h : gate s p = .go) (c i va : Nat) (k : State → State) : rowGate s c i va p k = k s := by
  unfold rowGate
  rw [h]

theorem readHome_of_no_errs {s : State} (h : s.errs = []) (x : Nat) (p : Place) (n : Nat) (bad k : State → State) :
    readHome s x p n bad k = k s := by
  rw [readHome, checkHome_of_no_errs h]
  rfl

theorem countHome_errs {s : State} (h : s.errs = []) (d : Nat) (p : Place) : (countHome s d p).errs = [] :=
  (served_countHome s d p).errs h

theorem readRec_countHome (s : State) (d : Nat) (p : Place) (c base rsz r b n : Nat) :
    readRec (countHome s d p) c base rsz r b n = readRec s c base rsz r b n := by
  rw [readRec, readRec, (served_countHome s d p).core c]

/-- Once a home has written bytes, they read back, and every other byte of memory reads as before. -/
theorem home_written {w t : State} {p pa : Nat} {bs : List Byte} (hm : t.mem = (w.writePhys p false pa bs).mem)
    (hh : t.host = (w.writePhys p false pa bs).host) : readsBack w t p false pa bs ∧
      ∀ q h a, (h = true ∨ memKey q a < memKey p pa ∨ memKey p pa + bs.length ≤ memKey q a) → readByte t q h a = readByte w q h a := by
  refine ⟨?_, fun q h a hout => ?_⟩
  · rw [readsBack, readBytes_congr hm hh]
    exact writePhys_readsBack w p pa bs
  · exact (congrArg ofLe (readBytes_congr hm hh q h a 1)).trans (readByte_writePhys_other w p pa bs q a h hout)

/-- What a row whose index is out of range leaves: the row is complete, and GIXSTK keeps the first such index (R57, R261, R265). -/
theorem row_out {s t : State} {c i idx : Nat} {e : Entry} (hrun : running s c i = some e)
    (ht : t = finishRec (noteIndex s (c * 4 + e.ctx) idx) c i e.resume) : sameMemory s t ∧
    t.entry c i = some (e.finish e.resume) ∧ (t.ctx (c * 4 + e.ctx)).gixstk = (if bit (s.ctx (c * 4 + e.ctx)).gixstk 63 = true then
      (s.ctx (c * 4 + e.ctx)).gixstk else BitVec.ofNat 64 (2 ^ 63 + idx)) := by
  subst ht
  have hentry : (noteIndex s (c * 4 + e.ctx) idx).entry c i = some e := entry_of_running hrun
  refine ⟨sameMemory_of_eq rfl rfl, ?_, gixstk_noteIndex s _ idx⟩
  rw [finishRec, entry_modEntry_same, hentry]
  rfl

section
variable {s : State} {c i idx : Nat} {e : Entry} (hrun : running s c i = some e) (hop : opOf e.word = 0x1F) (hres : e.resume < e.count)
  (htag : e.tagOk = true) (hidx : Tab.get none e.idx e.resume = some idx)
include hrun hop hres htag hidx

theorem exec_scatter_out (hsub : subOf e.word = 0) (hout : fldN e.ctl 32 30 ≤ idx) :
    exec (.scatterAddAtHome c i) s = .next (finishRec (noteIndex s (c * 4 + e.ctx) idx) c i e.resume) := by
  rw [exec_scatter hrun htag hop hres hsub, addElement]
  dsimp only
  rw [readIndex_known hidx, startRow_out hout]

theorem exec_row_out (hsub : subOf e.word = 1) (hout : fldN e.ctl 32 30 ≤ idx) :
    exec (.rowUpdateAtHome c i) s = .next (finishRec (noteIndex s (c * 4 + e.ctx) idx) c i e.resume) := by
  rw [exec_rowUpdate hrun htag hop hres hsub, updateRow]
  dsimp only
  rw [readIndex_known hidx, startRow_out hout]

variable (hplaces : e.places ≠ []) (herrs : s.errs = []) (hin : idx < fldN e.ctl 32 30)
include hplaces herrs hin

/-- A scatter-add adds its next element at the table's home (R261, R262). -/
theorem exec_scatter_element {esz rsz : Nat} {p : Place} {w : State} {bs : List Byte} (hsub : subOf e.word = 0) (hrsz : rsz = hRsz (e.rd 0))
    (hesz : esz = eszOf (fldN e.ctl 62 2)) (hp : p = placeAt e.places (((e.rx e.xa).toNat + idx * rsz) % 2 ^ 64) (e.sub * esz))
    (hgate : gate s p = .go) (hw : w = countHome s (dieOf c) p)
    (hbs : bs = leBytes esz (if fldN e.ctl 62 2 = 3 then
      (w.readPhys p.pkg false p.pa esz + ofLe (readRec s c (hBase (e.rd 0)) rsz e.resume (e.sub * esz) esz)) % 2 ^ 32
      else fadd (tableFmt (fldN e.ctl 62 2)) 0 (w.readPhys p.pkg false p.pa esz)
        (ofLe (readRec s c (hBase (e.rd 0)) rsz e.resume (e.sub * esz) esz)))) :
    ∃ t, exec (.scatterAddAtHome c i) s = .next t ∧ readsBack w t p.pkg false p.pa bs ∧
      ∀ q h a, (h = true ∨ memKey q a < memKey p.pkg p.pa ∨ memKey p.pkg p.pa + bs.length ≤ memKey q a) →
        readByte t q h a = readByte w q h a := by
  refine ⟨_, exec_scatter hrun htag hop hres hsub, ?_⟩
  unfold addElement
  dsimp only
  rw [readIndex_known hidx, startRow_placed hin hplaces]
  rw [← hrsz, ← hesz, ← hp, rowGate_go hgate, readYard_of_no_errs herrs, readHome_of_no_errs (countHome_errs herrs _ _), readRec_countHome,
    ← hw, ← hbs]
  split <;> exact home_written rfl rfl

/-- A row update steps every weight of its row (R265). -/
theorem exec_row_step {rsz alg n rs mu lr eps : Nat} {p : Place} {w : State} {out : Nat → Nat × Nat} {bs : List Byte}
    (hsub : subOf e.word = 1) (hrsz : rsz = hRsz (e.rd 0)) (halg : alg = fldN e.ctl 62 2) (hn : n = rsz / 4) (hrs : rs = rowStride alg rsz)
    (hp : p = placeAt e.places (((e.rx e.xa).toNat + idx * rs) % 2 ^ 64) 0) (hgate : gate s p = .go) (hw : w = countHome s (dieOf c) p)
    (hmu : mu = fldN (e.rx (e.xa + 2)) 32 32) (hlr : lr = fldN (e.rx (e.xa + 2)) 0 32) (heps : eps = fldN (e.rx (e.xa + 3)) 0 32)
    (hout : out = fun k => optimise alg mu lr eps (w.readPhys p.pkg false (p.pa + 4 * k) 4)
      (if alg = 0 then 0 else w.readPhys p.pkg false (p.pa + 4 * (n + k)) 4) (recWord s c (hBase (e.rd 0)) rsz e.resume k))
    (hbs : bs = (List.range n).flatMap (fun k => leBytes 4 (out k).1) ++
      (if alg = 0 then [] else (List.range n).flatMap (fun k => leBytes 4 (out k).2))) :
    ∃ t, exec (.rowUpdateAtHome c i) s = .next t ∧ readsBack w t p.pkg false p.pa bs ∧
      ∀ q h a, (h = true ∨ memKey q a < memKey p.pkg p.pa ∨ memKey p.pkg p.pa + bs.length ≤ memKey q a) →
        readByte t q h a = readByte w q h a := by
  have hword (k : Nat) : recWord w c (hBase (e.rd 0)) rsz e.resume k = recWord s c (hBase (e.rd 0)) rsz e.resume k := by
    rw [recWord, recWord, hw, readRec_countHome]
  refine ⟨_, exec_rowUpdate hrun htag hop hres hsub, ?_⟩
  unfold updateRow
  dsimp only
  rw [readIndex_known hidx, startRow_placed hin hplaces]
  rw [← hrsz, ← halg, ← hrs, ← hp, rowGate_go hgate, readYard_of_no_errs herrs, readHome_of_no_errs (countHome_errs herrs _ _), ← hw, ← hn,
    ← hmu, ← hlr, ← heps]
  simp only [hword, List.flatMap_map]
  rw [hout] at hbs
  rw [← hbs]
  exact home_written rfl rfl

end

end Sys2Proof.Machine

/-! PROOFS. Exact sums and products, and rounding, which depends on a value alone and not on how it is written (R41, R187). -/

namespace Sys2Proof.Machine

/-! ## Exact values -/

/-- The value of a sign, a magnitude and an exponent. -/
def numVal (neg : Bool) (m : Nat) (e : Int) : ℚ := signed neg (magOf m e)

theorem magOf_nonneg (m : Nat) (e : Int) : 0 ≤ magOf m e := mul_nonneg (Nat.cast_nonneg m) (zpow_nonneg (by norm_num) e)

theorem magOf_eq_zero {m : Nat} {e : Int} : magOf m e = 0 ↔ m = 0 := by
  have h2 : (2 : ℚ) ^ e ≠ 0 := zpow_ne_zero e (by norm_num)
  simp [magOf, h2]

@[simp] theorem magOf_zero (e : Int) : magOf 0 e = 0 := magOf_eq_zero.mpr rfl

theorem magOf_mul (m n : Nat) (e f : Int) : magOf (m * n) (e + f) = magOf m e * magOf n f := by
  simp only [magOf, Nat.cast_mul, zpow_add₀ (two_ne_zero (α := ℚ))]
  ring

/-- A value in units of a lower power of two. -/
theorem scaleInt_val (neg : Bool) (m : Nat) {e u : Int} (h : u ≤ e) : (scaleInt neg m e u : ℚ) * 2 ^ u = numVal neg m e := by
  have hpow : (2 : ℚ) ^ (e - u).toNat * 2 ^ u = 2 ^ e := by
    rw [← zpow_natCast, ← zpow_add₀ (by norm_num)]
    congr 1
    omega
  have hmag : (m : ℚ) * 2 ^ (e - u).toNat * 2 ^ u = magOf m e := by rw [mul_assoc, hpow, magOf]
  unfold scaleInt numVal signed
  cases neg with
  | true =>
    rw [if_pos rfl, if_pos rfl, ← hmag]
    push_cast
    ring
  | false =>
    rw [if_neg (by simp), if_neg (by simp), ← hmag]
    push_cast
    ring

theorem numVal_natAbs (v u : Int) : numVal (decide (v < 0)) v.natAbs u = (v : ℚ) * 2 ^ u := by
  have h := scaleInt_val (decide (v < 0)) v.natAbs (le_refl u)
  rw [← h]
  congr 2
  simp only [scaleInt, sub_self, Int.toNat_zero, pow_zero, mul_one]
  rcases lt_or_ge v 0 with hv | hv
  · rw [if_pos (decide_eq_true hv)]
    omega
  · rw [if_neg (by simpa using hv)]
    omega

theorem numVal_eq_zero {neg : Bool} {m : Nat} {e : Int} : numVal neg m e = 0 ↔ m = 0 := by
  unfold numVal signed
  split <;> simp [magOf_eq_zero]

/-- Num.add is an exact sum (R187). -/
theorem exactSum_add (mode : Nat) (x y : Machine.Num) : exactSum mode x y (Num.add mode x y) := by
  cases x with
  | nan => exact rfl
  | inf s => cases y <;> exact rfl
  | fin s m e =>
    cases y with
    | nan => exact rfl
    | inf t => exact rfl
    | fin t n f =>
      unfold exactSum Num.add
      dsimp only
      by_cases hz : m = 0 ∧ n = 0
      · obtain ⟨rfl, rfl⟩ := hz
        refine ⟨_, 0, 0, if_pos ⟨rfl, rfl⟩, ?_, fun _ => ?_⟩
        · simp [signed]
        · simp
      · rw [if_neg hz]
        have hv : ((scaleInt s m e (min e f) + scaleInt t n f (min e f) : Int) : ℚ) * 2 ^ min e f = numVal s m e + numVal t n f := by
          push_cast
          rw [add_mul, scaleInt_val s m (min_le_left e f), scaleInt_val t n (min_le_right e f)]
        split
        · rename_i h0
          rw [h0] at hv
          refine ⟨_, 0, 0, rfl, ?_, fun _ => ?_⟩
          · simpa [signed, numVal] using hv
          · rw [if_neg fun h => hz ⟨h.1, h.2.1⟩]
        · rename_i h0
          refine ⟨_, _, _, rfl, (numVal_natAbs _ _).trans hv, fun hzero => ?_⟩
          rw [show signed s (magOf m e) + signed t (magOf n f) = _ from hv.symm] at hzero
          have h2 : (2 : ℚ) ^ min e f ≠ 0 := zpow_ne_zero _ (by norm_num)
          exact absurd (by exact_mod_cast (mul_eq_zero.mp hzero).resolve_right h2) h0

/-- Num.mul is an exact product (R187). -/
theorem exactProduct_mul (x y : Machine.Num) : exactProduct x y (Num.mul x y) := by
  cases x with
  | nan => exact rfl
  | inf s => cases y <;> exact rfl
  | fin s m e =>
    cases y with
    | nan => exact rfl
    | inf t => exact rfl
    | fin t n f => exact ⟨_, _, rfl, magOf_mul m n e f⟩

/-- Two results of the same value: equal, or finite of one sign and magnitude. -/
def Num.same : Machine.Num → Machine.Num → Prop
  | .fin s m e, r => ∃ k u, r = .fin s k u ∧ magOf k u = magOf m e
  | x, r => r = x

theorem exactProduct_unique {x y r r' : Machine.Num} (h : exactProduct x y r) (h' : exactProduct x y r') : r.same r' := by
  cases x with
  | nan =>
    cases h
    exact h'
  | inf s =>
    cases y with
    | nan =>
      cases h
      exact h'
    | inf t =>
      cases h
      exact h'
    | fin t n f =>
      have hr : r = if n = 0 then .nan else .inf (s != t) := h
      have hr' : r' = if n = 0 then .nan else .inf (s != t) := h'
      rw [hr, hr']
      split <;> rfl
  | fin s m e =>
    cases y with
    | nan =>
      cases h
      exact h'
    | inf t =>
      have hr : r = if m = 0 then .nan else .inf (s != t) := h
      have hr' : r' = if m = 0 then .nan else .inf (s != t) := h'
      rw [hr, hr']
      split <;> rfl
    | fin t n f =>
      obtain ⟨k, u, rfl, hk⟩ := h
      obtain ⟨k', u', rfl, hk'⟩ := h'
      exact ⟨k', u', rfl, hk'.trans hk.symm⟩

/-! ## Rounding and the ways to write a value -/

theorem log2_mul_two_pow {n : Nat} (hn : n ≠ 0) (t : Nat) : Nat.log2 (n * 2 ^ t) = Nat.log2 n + t := by
  rw [Nat.log2_eq_log_two, Nat.log2_eq_log_two]
  induction t with
  | zero => simp
  | succ t ih => rw [pow_succ, ← mul_assoc, Nat.log_mul_base one_lt_two (mul_ne_zero hn (by positivity)), ih, Nat.add_assoc]

theorem floorLog2_scale {num den : Nat} (hn : num ≠ 0) (hd : den ≠ 0) (t : Nat) : floorLog2 (num * 2 ^ t) (den * 2 ^ t) = floorLog2 num den := by
  have hpos : 0 < 2 ^ t := Nat.two_pow_pos t
  have hl : ((Nat.log2 (num * 2 ^ t) : Nat) : Int) - (Nat.log2 (den * 2 ^ t) : Nat) = (Nat.log2 num : Nat) - (Nat.log2 den : Nat) := by
    rw [log2_mul_two_pow hn, log2_mul_two_pow hd]
    push_cast
    ring
  unfold floorLog2
  simp only [hl, Nat.mul_right_comm _ (2 ^ t), Nat.mul_le_mul_right_iff hpos]

theorem scaleDiv_scale (num den : Nat) (q : Int) (t : Nat) : scaleDiv (num * 2 ^ t) (den * 2 ^ t) q =
    ((scaleDiv num den q).1, (scaleDiv num den q).2.1 * 2 ^ t, (scaleDiv num den q).2.2 * 2 ^ t) := by
  have hpos : 0 < 2 ^ t := Nat.two_pow_pos t
  unfold scaleDiv
  split <;> simp only [Nat.mul_right_comm _ (2 ^ t), Nat.mul_div_mul_right _ _ hpos, Nat.mul_mod_mul_right]

theorem roundsUp_scale (mode : Nat) (neg : Bool) (k rem d t : Nat) : roundsUp mode neg k (rem * 2 ^ t) (d * 2 ^ t) = roundsUp mode neg k rem d := by
  have hpos : 0 < 2 ^ t := Nat.two_pow_pos t
  have hlt : d * 2 ^ t < 2 * (rem * 2 ^ t) ↔ d < 2 * rem := by rw [← Nat.mul_assoc, Nat.mul_lt_mul_right hpos]
  have heq : 2 * (rem * 2 ^ t) = d * 2 ^ t ↔ 2 * rem = d := by rw [← Nat.mul_assoc, Nat.mul_left_inj hpos.ne']
  have hle : d * 2 ^ t ≤ 2 * (rem * 2 ^ t) ↔ d ≤ 2 * rem := by rw [← Nat.mul_assoc, Nat.mul_le_mul_right_iff hpos]
  have h0 : 0 < rem * 2 ^ t ↔ 0 < rem := by simp [hpos]
  unfold roundsUp
  split <;> simp only [hlt, heq, hle, h0]

/-- A quotient rounds alike when both of its terms are scaled. -/
theorem roundRat_scale (f : Fmt) (mode : Nat) (neg : Bool) {num den : Nat} (hn : num ≠ 0) (hd : den ≠ 0) (t : Nat) :
    roundRat f mode neg (num * 2 ^ t) (den * 2 ^ t) = roundRat f mode neg num den := by
  unfold roundRat
  simp only [floorLog2_scale hn hd, scaleDiv_scale, roundsUp_scale]

/-- A finite value rounds alike in units of a lower power of two. -/
theorem roundNum_finer (f : Fmt) (mode : Nat) (neg : Bool) (m : Nat) (e : Int) (t : Nat) :
    roundNum f mode (.fin neg (m * 2 ^ t) (e - t)) = roundNum f mode (.fin neg m e) := by
  have hpos : 0 < 2 ^ t := Nat.two_pow_pos t
  by_cases hm : m = 0
  · simp [roundNum, hm]
  have hm' : m * 2 ^ t ≠ 0 := mul_ne_zero hm hpos.ne'
  simp only [roundNum, hm, hm', if_false]
  rcases lt_or_ge e 0 with he | he
  · have hexp : (-(e - t)).toNat = (-e).toNat + t := by omega
    rw [if_pos he, if_pos (by omega), hexp, pow_add]
    exact roundRat_scale f mode neg hm (by positivity) t
  · rw [if_neg (not_lt.mpr he)]
    split
    · have hexp : t = e.toNat + (-(e - t)).toNat := by omega
      have h := roundRat_scale f mode neg (mul_ne_zero hm (by positivity)) one_ne_zero (-(e - t)).toNat (num := m * 2 ^ e.toNat) (den := 1)
      rw [one_mul, mul_assoc, ← pow_add, ← hexp] at h
      exact h
    · have hexp : e.toNat = t + (e - t).toNat := by omega
      rw [hexp, pow_add, mul_assoc]

/-- Rounding depends on the magnitude alone, not on how it is written. -/
theorem roundNum_congr_mag (f : Fmt) (mode : Nat) (neg : Bool) {m n : Nat} {e u : Int} (h : magOf m e = magOf n u) :
    roundNum f mode (.fin neg m e) = roundNum f mode (.fin neg n u) := by
  wlog hle : e ≤ u generalizing m n e u
  · exact (this h.symm (by omega)).symm
  have hpow : (2 : ℚ) ^ u = 2 ^ (u - e).toNat * 2 ^ e := by
    rw [← zpow_natCast, ← zpow_add₀ (by norm_num)]
    congr 1
    omega
  have hm : m = n * 2 ^ (u - e).toNat := by
    rw [magOf, magOf, hpow, ← mul_assoc] at h
    exact_mod_cast mul_right_cancel₀ (zpow_ne_zero e (two_ne_zero (α := ℚ))) h
  have hfiner := roundNum_finer f mode neg n u (u - e).toNat
  rw [← hm, show u - ((u - e).toNat : Int) = e by omega] at hfiner
  exact hfiner

/-- Two values that are equal, with the same sign where they are zero, have the same sign and magnitude. -/
theorem numVal_inj {s t : Bool} {m n : Nat} {e u : Int} (h : numVal s m e = numVal t n u) (hzero : numVal s m e = 0 → s = t) :
    s = t ∧ magOf m e = magOf n u := by
  by_cases hm : numVal s m e = 0
  · obtain rfl := hzero hm
    rw [numVal_eq_zero.mp hm, numVal_eq_zero.mp (h.symm.trans hm)]
    simp
  · have h1 : 0 < magOf m e := (magOf_nonneg m e).lt_of_ne' fun h0 => hm (numVal_eq_zero.mpr (magOf_eq_zero.mp h0))
    have h2 : 0 ≤ magOf n u := magOf_nonneg n u
    cases s <;> cases t <;> simp [numVal, signed] at h ⊢ <;> linarith

/-- An exact sum rounds as Num.add does (R187). -/
theorem roundNum_exactSum {f : Fmt} {mode : Nat} {x y r : Machine.Num} (h : exactSum mode x y r) :
    roundNum f mode r = roundNum f mode (Num.add mode x y) := by
  cases x with
  | nan => exact congrArg (roundNum f mode) h
  | inf s => cases y <;> exact congrArg (roundNum f mode) h
  | fin s m e =>
    cases y with
    | nan => exact congrArg (roundNum f mode) h
    | inf t => exact congrArg (roundNum f mode) h
    | fin t n u =>
      obtain ⟨neg, k, e', rfl, hv, hz⟩ := h
      obtain ⟨neg', k', u', heq, hv', hz'⟩ := exactSum_add mode (.fin s m e) (.fin t n u)
      obtain ⟨rfl, hmag⟩ := numVal_inj (hv.trans hv'.symm) fun h0 => (hz (hv.symm.trans h0)).trans (hz' (hv.symm.trans h0)).symm
      rw [heq]
      exact roundNum_congr_mag f mode neg hmag

end Sys2Proof.Machine

/-! PROOFS. Rounding to FP32 by exact comparisons with dyadic numbers, and the Adagrad step that it rounds (R41, R265). -/

namespace Sys2Proof.Machine

/-! ## Dyadic numbers -/

/-- The real number that a dyadic number is. -/
noncomputable def Dy.val (a : Dy) : ℝ := a.m * (2 : ℝ) ^ a.e

theorem two_zpow_pos (e : Int) : (0 : ℝ) < 2 ^ e := zpow_pos two_pos e

theorem two_zpow_split {e u : Int} (h : u ≤ e) : (2 : ℝ) ^ e = 2 ^ (e - u).toNat * 2 ^ u := by
  rw [← zpow_natCast, ← zpow_add₀ two_ne_zero]
  congr 1
  omega

theorem Dy.val_neg (a : Dy) : a.neg.val = -a.val := by simp [Dy.val, Dy.neg]

theorem Dy.val_mul (a b : Dy) : (a.mul b).val = a.val * b.val := by
  simp only [Dy.val, Dy.mul, Int.cast_mul, zpow_add₀ (two_ne_zero (α := ℝ))]
  ring

theorem Dy.val_sub (a b : Dy) : (a.sub b).val = a.val - b.val := by
  simp only [Dy.val, Dy.sub]
  rw [two_zpow_split (min_le_left a.e b.e), two_zpow_split (min_le_right a.e b.e)]
  push_cast
  ring

theorem Dy.val_nonneg_iff (a : Dy) : 0 ≤ a.val ↔ 0 ≤ a.m := by
  rw [Dy.val, mul_nonneg_iff_of_pos_right (two_zpow_pos a.e)]
  exact Int.cast_nonneg_iff

theorem Dy.val_nonpos_iff (a : Dy) : a.val ≤ 0 ↔ a.m ≤ 0 := by
  rw [← neg_nonneg, ← Dy.val_neg, Dy.val_nonneg_iff]
  simp [Dy.neg]

theorem Dy.le_iff (a b : Dy) : Dy.le a b = true ↔ a.val ≤ b.val := by
  rw [Dy.le, decide_eq_true_iff, ← Dy.val_nonpos_iff, Dy.val_sub, sub_nonpos]

theorem Dy.val_one (e : Int) : (⟨1, e⟩ : Dy).val = 2 ^ e := by simp [Dy.val]

theorem Dy.val_zero : (⟨0, 0⟩ : Dy).val = 0 := by simp [Dy.val]

/-- a times the root of s against b, without the root. -/
theorem le_mul_sqrt_iff {a b s : ℝ} (hs : 0 ≤ s) :
    b ≤ a * √s ↔ if 0 ≤ a then b ≤ 0 ∨ b * b ≤ a * a * s else b ≤ 0 ∧ a * a * s ≤ b * b := by
  have hr : 0 ≤ √s := Real.sqrt_nonneg s
  have hsq : a * a * s = (a * √s) * (a * √s) := by
    rw [mul_mul_mul_comm, Real.mul_self_sqrt hs]
  rw [hsq]
  split
  · rename_i ha
    have hc : 0 ≤ a * √s := mul_nonneg ha hr
    rcases le_or_gt b 0 with hb | hb
    · exact ⟨fun _ => .inl hb, fun _ => hb.trans hc⟩
    · rw [mul_self_le_mul_self_iff hb.le hc]
      exact ⟨.inr, fun h => h.resolve_left (not_le.mpr hb)⟩
  · rename_i ha
    have hc : a * √s ≤ 0 := mul_nonpos_of_nonpos_of_nonneg (not_le.mp ha).le hr
    rw [← neg_mul_neg (a * √s), ← neg_mul_neg b]
    constructor
    · intro h
      exact ⟨h.trans hc, mul_self_le_mul_self (neg_nonneg.mpr hc) (neg_le_neg h)⟩
    · rintro ⟨hb, h⟩
      exact neg_le_neg_iff.mp ((mul_self_le_mul_self_iff (neg_nonneg.mpr hc) (neg_nonneg.mpr hb)).mpr h)

/-- The comparison of R265, exactly. -/
theorem adaGe_iff {w n s eps : Dy} (hs : 0 ≤ s.m) (heps : 0 < eps.m) (c : Dy) :
    adaGe w n s eps c = true ↔ c.val ≤ w.val - n.val / (√s.val + eps.val) := by
  have hs' : 0 ≤ s.val := (Dy.val_nonneg_iff s).mpr hs
  have heps' : 0 < eps.val := mul_pos (by exact_mod_cast heps) (two_zpow_pos _)
  have hden : 0 < √s.val + eps.val := add_pos_of_nonneg_of_pos (Real.sqrt_nonneg _) heps'
  have hgoal : c.val ≤ w.val - n.val / (√s.val + eps.val) ↔ n.val - (w.val - c.val) * eps.val ≤ (w.val - c.val) * √s.val := by
    rw [le_sub_comm, div_le_iff₀ hden, mul_add, sub_le_iff_le_add]
  rw [hgoal, le_mul_sqrt_iff hs']
  unfold adaGe
  dsimp only
  simp only [← Dy.val_nonneg_iff, ← Dy.val_nonpos_iff, Dy.val_sub, Dy.val_mul]
  split <;> simp [Dy.le_iff, Dy.val_sub, Dy.val_mul]

/-! ## Searches by comparison -/

section
variable {y : ℝ} (hy : 0 < y) {ge : Dy → Bool} (hge : ∀ c, ge c = true ↔ c.val ≤ y)
include hy hge

/-- The search for an exponent finds that of the magnitude, or -126 where it is lower (R41). -/
theorem searchExp_eq (n : Nat) (h : y < (2 : ℝ) ^ (-126 + n + 1 : Int)) : searchExp ge n = max (Int.log 2 y) (-126) := by
  induction n with
  | zero =>
    have hlog := (Int.lt_zpow_iff_log_lt one_lt_two hy).mp h
    rw [searchExp, max_eq_right (by omega)]
  | succ n ih =>
    have hstep : ge ⟨1, -126 + ((n + 1 : Nat) : Int)⟩ = true ↔ (2 : ℝ) ^ (-126 + ((n + 1 : Nat) : Int)) ≤ y := by
      rw [hge, Dy.val_one]
    rw [searchExp]
    split
    · rename_i hyes
      have hlow := (Int.zpow_le_iff_le_log one_lt_two hy).mp (hstep.mp hyes)
      have hhigh := (Int.lt_zpow_iff_log_lt one_lt_two hy).mp h
      rw [max_eq_left (by omega)]
      omega
    · rename_i hno
      have hlt : y < (2 : ℝ) ^ (-126 + ((n + 1 : Nat) : Int)) := not_le.mp fun hle => hno (hstep.mpr hle)
      exact ih (by simpa [add_assoc] using hlt)

end

theorem searchBits_eq {ge : Nat → Bool} {k : Nat} (hge : ∀ m, ge m = true ↔ m ≤ k) (n r : Nat) (hr : r ≤ k) (hk : k < r + 2 ^ n) :
    searchBits ge n r = k := by
  induction n generalizing r with
  | zero =>
    rw [pow_zero] at hk
    exact (Nat.le_antisymm (by omega) hr).symm
  | succ n ih =>
    have hpow : 2 ^ (n + 1) = 2 ^ n + 2 ^ n := by ring
    rw [searchBits]
    split
    · rename_i hyes
      exact ih _ ((hge _).mp hyes) (by omega)
    · rename_i hno
      exact ih _ hr (not_le.mp fun hle => hno ((hge _).mpr hle))

/-! ## FP32 codes of magnitudes -/

theorem maxFin_fp32 : maxFin Fmt.fp32 = ((2 ^ 24 - 1 : Nat) : ℚ) * 2 ^ (104 : Int) := by
  norm_num [maxFin, Fmt.fp32]

theorem decodeNum_fp32_inf (neg : Bool) : decodeNum Fmt.fp32 (withSign Fmt.fp32 neg 0x7F800000) = .inf neg := by
  cases neg <;> decide

/-- A code of FP32 with an exponent field below the highest reads as R33 says. -/
theorem decodeNum_fp32 (neg : Bool) {ex mn : Nat} (hex : ex < 255) (hmn : mn < 2 ^ 23) :
    decodeNum Fmt.fp32 (withSign Fmt.fp32 neg (ex * 2 ^ 23 + mn)) =
      if ex = 0 then .fin neg mn (-149) else .fin neg (2 ^ 23 + mn) (ex - 150) := by
  have hs : (withSign Fmt.fp32 neg (ex * 2 ^ 23 + mn) / 2 ^ 31) % 2 = (if neg = true then 1 else 0) ∧
      withSign Fmt.fp32 neg (ex * 2 ^ 23 + mn) / 2 ^ 23 % 2 ^ 8 = ex ∧ withSign Fmt.fp32 neg (ex * 2 ^ 23 + mn) % 2 ^ 23 = mn := by
    cases neg <;> simp only [withSign, Fmt.fp32] <;> norm_num <;> omega
  obtain ⟨hs, he, hm⟩ := hs
  generalize withSign Fmt.fp32 neg (ex * 2 ^ 23 + mn) = c at hs he hm
  have hneg : (Fmt.fp32.sg && decide (c / 2 ^ (Fmt.fp32.w - 1) % 2 = 1)) = neg :=
    (by cases neg <;> simpa using hs : decide (c / 2 ^ 31 % 2 = 1) = neg)
  have he' : c / 2 ^ Fmt.fp32.mb % 2 ^ Fmt.fp32.eb = ex := he
  have hm' : c % 2 ^ Fmt.fp32.mb = mn := hm
  have htop : ¬ (Fmt.fp32.pol = .ieee ∧ ex = 2 ^ Fmt.fp32.eb - 1) := fun h => by
    have := h.2
    norm_num [Fmt.fp32] at this
    omega
  have hint : Fmt.fp32.pol ≠ .integer := by decide
  have hfin : ¬ (Fmt.fp32.pol = .finite ∧ ex = 2 ^ Fmt.fp32.eb - 1 ∧ mn = 2 ^ Fmt.fp32.mb - 1) := fun h => absurd h.1 (by decide)
  simp only [decodeNum, he', hm', hneg, hint, htop, hfin, if_false]
  split
  · rfl
  · congr 1
    simp only [Fmt.fp32]
    omega

theorem encodeMag_fp32 (k : Nat) (q : Int) :
    encodeMag Fmt.fp32 k q = if k < 2 ^ 23 then k else (q + 150).toNat * 2 ^ 23 + (k - 2 ^ 23) := by
  simp only [encodeMag, Fmt.fp32]
  congr 3
  omega

theorem aboveMax_fp32 (k : Nat) (q : Int) : aboveMax Fmt.fp32 k q = true ↔ 255 * 2 ^ 23 ≤ encodeMag Fmt.fp32 k q := by
  have hmax : maxCode Fmt.fp32 = 255 * 2 ^ 23 - 1 := rfl
  have hall : 2 ^ (Fmt.fp32.eb + Fmt.fp32.mb) = 2 ^ 31 := rfl
  rw [aboveMax, hmax, hall, Bool.or_eq_true, decide_eq_true_iff, decide_eq_true_iff]
  omega

/-- A magnitude that has carried out of its mantissa is that of the next exponent. -/
theorem encodeMag_carry {q : Int} (hq : -150 ≤ q) : encodeMag Fmt.fp32 (2 ^ 24) q = encodeMag Fmt.fp32 (2 ^ 23) (q + 1) := by
  rw [encodeMag_fp32, encodeMag_fp32]
  norm_num
  omega

theorem magOf_carry (q : Int) : magOf (2 ^ 24) q = magOf (2 ^ 23) (q + 1) := by
  simp only [magOf, zpow_add₀ (two_ne_zero (α := ℚ))]
  push_cast
  ring

/-- A magnitude whose exponent is at most that of another, and its integer too, is at most the other. -/
theorem magOf_le_magOf {m n : Nat} {e u : Int} (hm : m ≤ n) (he : e ≤ u) : magOf m e ≤ magOf n u :=
  mul_le_mul (Nat.cast_le.mpr hm) (zpow_le_zpow_right₀ one_le_two he) (zpow_nonneg zero_le_two e) (Nat.cast_nonneg n)

theorem maxFin_eq_magOf : maxFin Fmt.fp32 = magOf (2 ^ 24 - 1) 104 := maxFin_fp32

theorem maxFin_lt_of_above {k : Nat} {q : Int} (hk : 2 ^ 23 ≤ k) (hq : 105 ≤ q) : maxFin Fmt.fp32 < magOf k q := by
  refine lt_of_lt_of_le ?_ (magOf_le_magOf hk hq)
  rw [maxFin_eq_magOf]
  norm_num [magOf]

/-- A rounded magnitude lies above what FP32 holds, or its code reads as it (R33, R41). -/
def fp32Code (neg : Bool) (k : Nat) (q : Int) : Prop :=
  if aboveMax Fmt.fp32 k q = true then maxFin Fmt.fp32 < magOf k q
  else magOf k q ≤ maxFin Fmt.fp32 ∧ readsAs Fmt.fp32 (withSign Fmt.fp32 neg (encodeMag Fmt.fp32 k q)) neg (magOf k q)

theorem fp32Code_normal (neg : Bool) {k : Nat} {q : Int} (hk0 : 2 ^ 23 ≤ k) (hk : k < 2 ^ 24) (hq : -149 ≤ q) : fp32Code neg k q := by
  have henc : encodeMag Fmt.fp32 k q = (q + 150).toNat * 2 ^ 23 + (k - 2 ^ 23) := by rw [encodeMag_fp32, if_neg (not_lt.mpr hk0)]
  have habove : aboveMax Fmt.fp32 k q = true ↔ 105 ≤ q := by
    rw [aboveMax_fp32, henc]
    omega
  unfold fp32Code
  split
  · rename_i h
    exact maxFin_lt_of_above hk0 (habove.mp h)
  · rename_i h
    rw [habove] at h
    have hcode := decodeNum_fp32 neg (ex := (q + 150).toNat) (mn := k - 2 ^ 23) (by omega) (by omega)
    rw [if_neg (by omega)] at hcode
    rw [maxFin_eq_magOf, henc]
    exact ⟨magOf_le_magOf (by omega) (by omega), _, _, hcode, congrArg₂ magOf (by omega) (by omega)⟩

theorem fp32Code_subnormal (neg : Bool) {k : Nat} (hk : k < 2 ^ 23) : fp32Code neg k (-149) := by
  have henc : encodeMag Fmt.fp32 k (-149) = 0 * 2 ^ 23 + k := by rw [encodeMag_fp32, if_pos hk, zero_mul, zero_add]
  unfold fp32Code
  rw [if_neg (by rw [aboveMax_fp32, henc]; omega), maxFin_eq_magOf, henc]
  exact ⟨magOf_le_magOf (by omega) (by omega), _, _, decodeNum_fp32 neg (by omega) hk, rfl⟩

/-- Which rounded magnitudes FP32 holds, and how their codes read (R33, R41). -/
theorem fp32Code_of_rounded (neg : Bool) {k : Nat} {q : Int} (hk : k ≤ 2 ^ 24) (hq : -149 ≤ q) (hlow : k < 2 ^ 23 → q = -149) :
    fp32Code neg k q := by
  rcases lt_or_ge k (2 ^ 23) with hk0 | hk0
  · exact hlow hk0 ▸ fp32Code_subnormal neg hk0
  · rcases hk.lt_or_eq with hk | rfl
    · exact fp32Code_normal neg hk0 hk hq
    · have hcarry : aboveMax Fmt.fp32 (2 ^ 24) q = true ↔ aboveMax Fmt.fp32 (2 ^ 23) (q + 1) = true := by
        rw [aboveMax_fp32, aboveMax_fp32, encodeMag_carry (by omega)]
      have hnormal := fp32Code_normal neg (le_refl (2 ^ 23)) (by norm_num) (q := q + 1) (by omega)
      unfold fp32Code at hnormal ⊢
      rw [encodeMag_carry (by omega), magOf_carry]
      simp only [hcarry]
      exact hnormal

/-! ## Rounding to nearest by comparison -/

/-- A magnitude rounded to the nearest integer, ties to even (R41). -/
noncomputable def nearestNat (q : ℝ) : Nat := if 1 / 2 < q - ⌊q⌋₊ ∨ q - ⌊q⌋₊ = 1 / 2 ∧ ⌊q⌋₊ % 2 = 1 then ⌊q⌋₊ + 1 else ⌊q⌋₊

/-- The exponent of the last mantissa bit of a magnitude in FP32, and the magnitude in its units (R41). -/
noncomputable def lastExp (y : ℝ) : Int := max (Int.log 2 y) (-126) - 23
noncomputable def inUnits (y : ℝ) : ℝ := y / 2 ^ lastExp y

theorem inUnits_bounds {y : ℝ} (hy : 0 < y) : 0 ≤ inUnits y ∧ inUnits y < 2 ^ 24 ∧ (2 ^ 23 ≤ inUnits y ∨ lastExp y = -149) := by
  have hp : (0 : ℝ) < 2 ^ lastExp y := two_zpow_pos _
  have hlow : (2 : ℝ) ^ Int.log 2 y ≤ y := Int.zpow_log_le_self one_lt_two hy
  have hhigh : y < (2 : ℝ) ^ (Int.log 2 y + 1) := Int.lt_zpow_succ_log_self one_lt_two y
  refine ⟨div_nonneg hy.le hp.le, ?_, ?_⟩
  · rw [inUnits, div_lt_iff₀ hp]
    refine hhigh.trans_le ?_
    have h24 : (2 : ℝ) ^ 24 * 2 ^ lastExp y = 2 ^ (24 + lastExp y) := by
      rw [zpow_add₀ two_ne_zero]
      norm_num
    rw [h24]
    exact zpow_le_zpow_right₀ one_le_two (by unfold lastExp; omega)
  · by_cases h : lastExp y = -149
    · exact .inr h
    · left
      rw [inUnits, le_div_iff₀ hp]
      refine le_trans ?_ hlow
      have h23 : (2 : ℝ) ^ 23 * 2 ^ lastExp y = 2 ^ (23 + lastExp y) := by
        rw [zpow_add₀ two_ne_zero]
        norm_num
      rw [h23]
      exact zpow_le_zpow_right₀ one_le_two (by unfold lastExp at h ⊢; omega)

theorem nearestNat_bounds {y : ℝ} (hy : 0 < y) :
    nearestNat (inUnits y) ≤ 2 ^ 24 ∧ (nearestNat (inUnits y) < 2 ^ 23 → lastExp y = -149) ∧ -149 ≤ lastExp y := by
  obtain ⟨h0, hlt, hge⟩ := inUnits_bounds hy
  have hfloor : ⌊inUnits y⌋₊ < 2 ^ 24 := (Nat.floor_lt h0).mpr (by exact_mod_cast hlt)
  have hle : ⌊inUnits y⌋₊ ≤ nearestNat (inUnits y) ∧ nearestNat (inUnits y) ≤ ⌊inUnits y⌋₊ + 1 := by
    unfold nearestNat
    split <;> omega
  refine ⟨by omega, fun h => hge.resolve_left fun h23 => ?_, ?_⟩
  · have : 2 ^ 23 ≤ ⌊inUnits y⌋₊ := Nat.le_floor (by exact_mod_cast h23)
    omega
  · unfold lastExp
    omega

/-- A code that reads as the nearest magnitude, or infinity beyond the largest, is the nearest code (R41, R44). -/
theorem nearestCode_of_code {x : ℝ} {c : Nat} {neg : Bool} (hneg : neg = true ↔ x < 0)
    (hle : magOf (nearestNat (inUnits |x|)) (lastExp |x|) ≤ maxFin Fmt.fp32 →
      readsAs Fmt.fp32 c neg (magOf (nearestNat (inUnits |x|)) (lastExp |x|)))
    (hgt : maxFin Fmt.fp32 < magOf (nearestNat (inUnits |x|)) (lastExp |x|) → decodeNum Fmt.fp32 c = .inf neg) : nearestCode x c :=
  ⟨nearestNat (inUnits |x|), neg, hneg, fun h => if_pos h, fun h => if_neg h, hle, hgt⟩

section
variable {y : ℝ} (hy : 0 < y) {ge gt : Dy → Bool} (hge : ∀ c, ge c = true ↔ c.val ≤ y) (hgt : ∀ c, gt c = true ↔ c.val < y)
include hy hge

theorem searchBits_floor (hlt : y < (2 : ℝ) ^ (128 : Int)) :
    searchExp ge 254 - 23 = lastExp y ∧ searchBits (fun k => ge ⟨k, lastExp y⟩) 24 0 = ⌊inUnits y⌋₊ := by
  obtain ⟨h0, h24, -⟩ := inUnits_bounds hy
  constructor
  · rw [searchExp_eq hy hge 254 (hlt.trans_le (zpow_le_zpow_right₀ one_le_two (by norm_num))), lastExp]
  · refine searchBits_eq (fun m => ?_) 24 0 (Nat.zero_le _) ?_
    · rw [hge, Nat.le_floor_iff h0, inUnits, le_div_iff₀ (two_zpow_pos _)]
      simp [Dy.val]
    · rw [zero_add, Nat.floor_lt h0]
      exact_mod_cast h24

include hgt

omit hy in
theorem roundsHalf (k : Nat) : (gt ⟨2 * (k : Int) + 1, lastExp y - 1⟩ = true ↔ 1 / 2 < inUnits y - k) ∧
    (ge ⟨2 * (k : Int) + 1, lastExp y - 1⟩ = true ↔ 1 / 2 ≤ inUnits y - k) := by
  have hhalf : (⟨2 * (k : Int) + 1, lastExp y - 1⟩ : Dy).val = (1 / 2 + k) * 2 ^ lastExp y := by
    simp only [Dy.val, zpow_sub_one₀ (two_ne_zero (α := ℝ))]
    push_cast
    ring
  rw [hgt, hge, hhalf, lt_sub_iff_add_lt, le_sub_iff_add_le, inUnits, lt_div_iff₀ (two_zpow_pos _), le_div_iff₀ (two_zpow_pos _)]
  exact ⟨Iff.rfl, Iff.rfl⟩

/-- Rounding by comparison finds the nearest magnitude (R41). -/
theorem roundByCmp_eq (neg : Bool) (hlt : y < (2 : ℝ) ^ (128 : Int)) : roundByCmp neg ge gt =
    if aboveMax Fmt.fp32 (nearestNat (inUnits y)) (lastExp y) then withSign Fmt.fp32 neg 0x7F800000
    else withSign Fmt.fp32 neg (encodeMag Fmt.fp32 (nearestNat (inUnits y)) (lastExp y)) := by
  obtain ⟨hexp, hbits⟩ := searchBits_floor hy hge hlt
  obtain ⟨hgt', hge'⟩ := roundsHalf hge hgt ⌊inUnits y⌋₊
  have hno : ge ⟨1, 128⟩ ≠ true := by
    rw [Ne, hge, Dy.val_one]
    exact not_le.mpr hlt
  have hup : (gt ⟨2 * ((⌊inUnits y⌋₊ : Nat) : Int) + 1, lastExp y - 1⟩ || ge ⟨2 * ((⌊inUnits y⌋₊ : Nat) : Int) + 1, lastExp y - 1⟩ &&
      decide (⌊inUnits y⌋₊ % 2 = 1)) = true ↔
      1 / 2 < inUnits y - ⌊inUnits y⌋₊ ∨ inUnits y - ⌊inUnits y⌋₊ = 1 / 2 ∧ ⌊inUnits y⌋₊ % 2 = 1 := by
    rw [Bool.or_eq_true, Bool.and_eq_true, hgt', hge', decide_eq_true_iff]
    constructor
    · rintro (h | ⟨h, hodd⟩)
      · exact .inl h
      · exact h.lt_or_eq.imp id fun h => ⟨h.symm, hodd⟩
    · exact Or.imp id fun h => ⟨h.1.ge, h.2⟩
  unfold roundByCmp
  rw [if_neg hno]
  dsimp only
  rw [hexp, hbits]
  simp only [hup]
  rfl

/-- Rounding by comparison rounds to the nearest code of FP32 (R41, R44). -/
theorem roundByCmp_nearest {x : ℝ} (hx : |x| = y) {neg : Bool} (hneg : neg = true ↔ x < 0) : nearestCode x (roundByCmp neg ge gt) := by
  obtain ⟨hk, hlow, hq⟩ := nearestNat_bounds hy
  subst hx
  rcases lt_or_ge |x| ((2 : ℝ) ^ (128 : Int)) with hlt | hbig
  · have hcode := fp32Code_of_rounded neg hk hq hlow
    unfold fp32Code at hcode
    rw [roundByCmp_eq hy hge hgt neg hlt]
    split at hcode
    · rw [if_pos ‹_›]
      exact nearestCode_of_code hneg (fun h => absurd hcode (not_lt.mpr h)) fun _ => decodeNum_fp32_inf neg
    · rw [if_neg ‹_›]
      exact nearestCode_of_code hneg (fun _ => hcode.2) fun h => absurd hcode.1 (not_le.mpr h)
  · have hover : roundByCmp neg ge gt = withSign Fmt.fp32 neg 0x7F800000 := if_pos ((hge _).mpr (by rwa [Dy.val_one]))
    have hexp : 105 ≤ lastExp |x| := by
      have hlog := (Int.zpow_le_iff_le_log one_lt_two hy).mp hbig
      unfold lastExp
      omega
    have hbelow := maxFin_lt_of_above (Nat.not_lt.mp fun h => by have := hlow h; omega) hexp
    rw [hover]
    exact nearestCode_of_code hneg (fun h => absurd hbelow (not_lt.mpr h)) fun _ => decodeNum_fp32_inf neg

end

end Sys2Proof.Machine

/-! PROOFS. The optimiser steps of a row update (R265). -/

namespace Sys2Proof.Machine

/-- The dyadic number of a sign, a magnitude and an exponent. -/
def dyOf (neg : Bool) (m : Nat) (e : Int) : Dy := ⟨scaleInt neg m e e, e⟩

theorem val_dyOf (neg : Bool) (m : Nat) (e : Int) : (dyOf neg m e).val = ((numVal neg m e : ℚ) : ℝ) := by
  rw [← scaleInt_val neg m (le_refl e)]
  simp [Dy.val, dyOf]

theorem val_magnitude (m : Nat) (e : Int) : (⟨(m : Int), e⟩ : Dy).val = ((magOf m e : ℚ) : ℝ) := by simp [Dy.val, magOf]

/-- W - n / (√S + eps), rounded by exact comparisons (R265). -/
def adaRound (w n s eps : Dy) : Nat :=
  let le := fun c : Dy => adaGe w.neg n.neg s eps c.neg
  if adaGe w n s eps ⟨0, 0⟩ && le ⟨0, 0⟩ then 0
  else if adaGe w n s eps ⟨0, 0⟩ then roundByCmp false (adaGe w n s eps) (fun c => !(le c))
  else roundByCmp true (fun c => le c.neg) (fun c => !(adaGe w n s eps c.neg))

section
variable {w n s eps : Dy} (hs : 0 ≤ s.m) (heps : 0 < eps.m) {x : ℝ} (hx : x = w.val - n.val / (√s.val + eps.val))
include hs heps hx

theorem adaGe_le (c : Dy) : adaGe w n s eps c = true ↔ c.val ≤ x := by rw [adaGe_iff hs heps, hx]

theorem adaGe_neg (c : Dy) : adaGe w.neg n.neg s eps c.neg = true ↔ x ≤ c.val := by
  rw [adaGe_iff hs heps, hx, Dy.val_neg, Dy.val_neg, Dy.val_neg, neg_div, sub_neg_eq_add, neg_le, neg_add, neg_neg, sub_eq_add_neg]

/-- The Adagrad step rounds its exact value to nearest (R41, R265). -/
theorem adaRound_nearest : (x = 0 → adaRound w n s eps = 0) ∧ (x ≠ 0 → nearestCode x (adaRound w n s eps)) := by
  have hge := adaGe_le hs heps hx
  have hle := adaGe_neg hs heps hx
  have hge0 : adaGe w n s eps ⟨0, 0⟩ = true ↔ 0 ≤ x := by rw [hge, Dy.val_zero]
  have hle0 : adaGe w.neg n.neg s eps (Dy.neg ⟨0, 0⟩) = true ↔ x ≤ 0 := by rw [hle, Dy.val_zero]
  have hgt (c : Dy) : (!adaGe w.neg n.neg s eps c.neg) = true ↔ c.val < x := by
    rw [Bool.not_eq_true', ← not_iff_not, Bool.not_eq_false, hle, not_lt]
  have hlt (c : Dy) : (!adaGe w n s eps c.neg) = true ↔ c.val < -x := by
    rw [Bool.not_eq_true', ← not_iff_not, Bool.not_eq_false, hge, not_lt, Dy.val_neg, neg_le]
  have hge' (c : Dy) : adaGe w.neg n.neg s eps c.neg.neg = true ↔ c.val ≤ -x := by rw [hle, Dy.val_neg, le_neg]
  unfold adaRound
  dsimp only
  refine ⟨fun h0 => if_pos ?_, fun h0 => ?_⟩
  · rw [Bool.and_eq_true, hge0, hle0]
    exact ⟨h0.ge, h0.le⟩
  · rw [if_neg (by rw [Bool.and_eq_true, hge0, hle0]; exact fun h => h0 (le_antisymm h.2 h.1))]
    split
    · rename_i hpos
      have hpos' : 0 < x := (hge0.mp hpos).lt_of_ne' h0
      exact roundByCmp_nearest hpos' hge hgt (abs_of_pos hpos') (by simpa using hpos'.le)
    · rename_i hneg
      have hneg' : x < 0 := not_le.mp fun h => hneg (hge0.mpr h)
      exact roundByCmp_nearest (neg_pos.mpr hneg') hge' hlt (abs_of_neg hneg') (by simpa using hneg')

end

/-- The Adagrad step on values: of the weight, of the sum of squares, of eps and of the product of the learning rate and the gradient. -/
def adaStep (w s eps num : Machine.Num) : Nat :=
  match s, eps, num with
  | .fin sneg sm se, .fin _ em ee, .fin nneg nm ne =>
    if sneg ∧ sm ≠ 0 then nanCode Fmt.fp32
    else match w with
      | .nan => nanCode Fmt.fp32
      | .inf t => withSign Fmt.fp32 t 0x7F800000
      | .fin wneg wm we =>
        if nm = 0 then roundNum Fmt.fp32 0 (Num.add 0 w (.fin (!nneg) 0 0))
        else adaRound (dyOf wneg wm we) (dyOf nneg nm ne) ⟨sm, se⟩ ⟨em, ee⟩
  | .inf sneg, .fin .., .fin .. => if sneg then nanCode Fmt.fp32 else roundNum Fmt.fp32 0 (Num.add 0 w (.fin true 0 0))
  | .fin sneg sm _, .fin .., .inf nneg => if sneg ∧ sm ≠ 0 then nanCode Fmt.fp32 else roundNum Fmt.fp32 0 (Num.add 0 w (.inf (!nneg)))
  | _, _, _ => nanCode Fmt.fp32

theorem adagradStep_eq (w lr g s eps : Nat) : adagradStep w lr g s eps = adaStep (decodeNum Fmt.fp32 w) (decodeNum Fmt.fp32 s)
    (decodeNum Fmt.fp32 eps) (Num.mul (decodeNum Fmt.fp32 lr) (decodeNum Fmt.fp32 g)) := rfl

theorem mul_nan_right (x : Machine.Num) : Num.mul x .nan = .nan := by cases x <;> rfl

section
variable (w : Machine.Num) (b : Bool) (me : Nat) (ee : Int)

theorem adaStep_nan {s p : Machine.Num} (h : w = .nan ∨ s = .nan ∨ p = .nan) : adaStep w s (.fin b me ee) p = 0x7FC00000 := by
  rcases h with rfl | rfl | rfl
  · cases s with
    | nan => rfl
    | inf t => cases p <;> cases t <;> rfl
    | fin t m e =>
      cases p with
      | nan => rfl
      | inf u => exact ite_self (nanCode Fmt.fp32)
      | fin u n f => exact ite_self (nanCode Fmt.fp32)
  · rfl
  · cases s <;> rfl

/-- A sum of squares below zero gives the canonical NaN. -/
theorem adaStep_negative {s : Machine.Num} (p : Machine.Num) (h : s = .inf true ∨ ∃ m e, s = .fin true m e ∧ m ≠ 0) :
    adaStep w s (.fin b me ee) p = 0x7FC00000 := by
  rcases h with rfl | ⟨m, e, rfl, hm⟩
  · cases p <;> rfl
  · cases p with
    | nan => rfl
    | inf u => exact if_pos ⟨rfl, hm⟩
    | fin u n f => exact if_pos ⟨rfl, hm⟩

variable {neg : Bool} {ms : Nat} (es : Int) (h : neg = true → ms = 0)
include h

theorem adaStep_infinite (sg : Bool) :
    adaStep w (.fin neg ms es) (.fin b me ee) (.inf sg) = roundNum Fmt.fp32 0 (Num.add 0 w (.inf (!sg))) := if_neg fun hbad => hbad.2 (h hbad.1)

theorem adaStep_zero (sg : Bool) (e : Int) :
    adaStep w (.fin neg ms es) (.fin b me ee) (.fin sg 0 e) = roundNum Fmt.fp32 0 (Num.add 0 w (.fin (!sg) 0 0)) := by
  refine (if_neg fun hbad => hbad.2 (h hbad.1)).trans ?_
  cases w <;> rfl

theorem adaStep_weight_infinite (sg t : Bool) (m : Nat) (e : Int) :
    adaStep (.inf t) (.fin neg ms es) (.fin b me ee) (.fin sg m e) = roundNum Fmt.fp32 0 (.inf t) := if_neg fun hbad => hbad.2 (h hbad.1)

theorem adaStep_finite (sg t : Bool) {m : Nat} (hm : m ≠ 0) (e : Int) (mw : Nat) (ew : Int) :
    adaStep (.fin t mw ew) (.fin neg ms es) (.fin b me ee) (.fin sg m e) =
      adaRound (dyOf t mw ew) (dyOf sg m e) ⟨ms, es⟩ ⟨me, ee⟩ := (if_neg fun hbad => hbad.2 (h hbad.1)).trans (if_neg hm)

end

/-- The Adagrad step of R265. -/
theorem adagradRight_step (w lr g st eps : Nat) : adagradRight w lr g st eps (adagradStep w lr g st eps) := by
  unfold adagradRight
  intro d rounded me ee heps hme
  have hstep : adagradStep w lr g st eps = adaStep (d w) (d st) (.fin false me ee) (Num.mul (d lr) (d g)) := by
    rw [adagradStep_eq, ← heps]
  have hprod {r : Machine.Num} (h : exactProduct (d lr) (d g) r) : r.same (Num.mul (d lr) (d g)) :=
    exactProduct_unique h (exactProduct_mul _ _)
  have hround {y : Machine.Num} (h : adaStep (d w) (d st) (.fin false me ee) (Num.mul (d lr) (d g)) = roundNum Fmt.fp32 0 (Num.add 0 (d w) y)) :
      rounded y := fun r hr => hstep.trans (h.trans (roundNum_exactSum hr).symm)
  rw [hstep]
  refine ⟨fun h => adaStep_nan _ _ _ _ ?_, fun h => adaStep_negative _ _ _ _ _ h, fun hst => ⟨fun neg h => ?_, fun neg m e h => hround ?_⟩,
    fun neg ms es hst hms => ⟨fun sg h => hround ?_, fun sg m e h => ?_⟩⟩
  · rcases h with h | h | h | h | h
    · exact .inl h
    · exact .inr (.inr (by rw [h]; rfl))
    · exact .inr (.inr (by rw [h]; exact mul_nan_right _))
    · exact .inr (.inl h)
    · exact .inr (.inr (hprod h))
  · rw [hst, (hprod h : _ = Num.inf neg)]
    rfl
  · obtain ⟨k, u, hk, -⟩ := hprod h
    rw [hst, hk]
    rfl
  · rw [hst, (hprod h : _ = Num.inf sg)]
    exact adaStep_infinite _ _ _ _ _ hms sg
  · obtain ⟨k, u, hk, hmag⟩ := hprod h
    have hzero : k = 0 ↔ m = 0 := by rw [← magOf_eq_zero, hmag, magOf_eq_zero]
    rw [hk, hst] at hround ⊢
    refine ⟨fun hm => hround ?_, fun hm => ⟨fun t hw => ?_, fun t mw ew hw => ?_⟩⟩
    · rw [hzero.mpr hm]
      exact adaStep_zero _ _ _ _ _ hms sg u
    · rw [hw]
      exact adaStep_weight_infinite _ _ _ _ hms sg t k u
    · rw [hw, adaStep_finite _ _ _ _ hms sg t (hzero.not.mpr hm)]
      refine adaRound_nearest (Int.natCast_nonneg ms) (by simpa using Nat.pos_of_ne_zero hme) ?_
      rw [val_dyOf, val_dyOf, val_magnitude, val_magnitude, numVal, numVal, hmag]

theorem optimise_right : optimisesRight := fun _ lr eps w _ g =>
  ⟨rfl, rfl, rfl, adagradRight_step w lr g _ eps⟩

end Sys2Proof.Machine

/-! PROOFS. What started entries move (O55). -/

namespace Sys2Proof.Machine

/-- A record that becomes complete at the resume point moves it on, where none above it was complete (R145). -/
theorem finish_resume {e : Entry} (h : e.done = []) : (e.finish e.resume).resume = e.resume + 1 ∧ (e.finish e.resume).done = [] := by
  simp [Entry.finish, h, advance]

/-- The length of the bytes that a row update writes: the weights, and the state of each where the algorithm keeps one (R264, R265). -/
theorem length_stepped (alg n : Nat) (f g : Nat → Nat) : ((List.range n).flatMap (fun k => leBytes 4 (f k)) ++
    (if alg = 0 then [] else (List.range n).flatMap (fun k => leBytes 4 (g k)))).length = if alg = 0 then 4 * n else 8 * n := by
  have hlen (f : Nat → Nat) : ((List.range n).flatMap (fun k => leBytes 4 (f k))).length = n * 4 :=
    length_flatMap_range fun _ _ => length_leBytes _ _
  rw [List.length_append, hlen]
  split
  · rw [List.length_nil]
    omega
  · rw [hlen]
    omega

/-- What a bag has taken, with the number of its values written n. -/
theorem bagTook.of_length {s t : State} {c j w n : Nat} {e f : Entry} {vs : List Nat} (h : bagTook s t c j w e f vs) (hlen : vs.length = n) :
    let acc := if e.k = 0 then vs else (List.range n).map (fun m => fadd Fmt.fp32 0 (e.acc.getD m 0) (vs.getD m 0))
    let out := if bit e.word 0 = true ∧ 0 < e.k then acc.map (fun a => divCount a (e.k + 1)) else acc
    (w.testBit 31 = true ∨ j + 1 = e.count → e.bag < hCapr e.wr →
      readRec t c (hBase e.wr) (hRsz e.wr) e.bag 0 (4 * n) = out.flatMap (leBytes 4) ∧ f.bag = e.bag + 1 ∧ f.k = 0 ∧ f.resume = j + 1) ∧
    (w.testBit 31 = false → j + 1 ≠ e.count → f.k = e.k + 1 ∧ f.acc = acc ∧ f.bag = e.bag ∧ f.resume = e.resume ∧
      (t.core c).yard = (s.core c).yard) := by
  subst hlen
  exact h

/-- Settles O55: the accesses of a started entry one form at a time, then the numbers that a row update computes. -/
theorem entriesMoveData : Obligations.EntriesMoveData := by
  unfold Obligations.EntriesMoveData
  refine ⟨?_, ?_, ?_, ?_, ?_, ?_, ?_, ?_, ?_, ?_, ?_, fun e h => finish_resume h, ?_, ?_, optimise_right⟩
  · intro s u c i r e p hrun hop hsub hdense htag hr hdone got rsz ch hplace hgate hfull w herrs
    exact exec_dense hrun hop htag hr hdone hsub hdense hplace hgate hfull herrs
  · intro s u c i r e p hrun hop hsub hexp htag hr hdone got rsz esz n ch hplace hgate hfull hwhole w herrs x
    have hesz : 0 < esz := Nat.two_pow_pos _
    have hlen : (got ++ w.readBytes p.pkg (p.pl = 2) p.pa ch.2).length = n / 2 * esz + n / 8 := by
      have hn : n = n / 4 * 4 := by
        refine Nat.div_eq_of_eq_mul_left hesz ?_
        rw [← hwhole]
        ring
      have hhalf : rsz / 2 = n / 2 * esz := by
        rw [← hwhole, show n / 2 = n / 4 * 2 by omega, show n / 4 * (4 * esz) = n / 4 * 2 * esz * 2 by ring, Nat.mul_div_cancel _ two_pos]
      rw [List.length_append, length_readBytes, hfull, hhalf]
    obtain ⟨t, hexec, hread, hmem, hentry⟩ := exec_expanding hrun hop htag hr hdone hsub hexp rfl rfl rfl hplace hgate hfull herrs (x := x) rfl
      ((length_expand hlen).trans hwhole)
    refine ⟨t, hexec, hread, hmem, fun hbad f hf => ?_⟩
    obtain rfl : e = f := by
      have := (sameStalls_of_entryPlace hplace).entry c i
      rw [hf, entry_of_running hrun] at this
      exact (Option.some.inj this).symm
    rw [hentry, if_pos hbad]
    simp only [Option.map_some, Entry.lowMeta]
    cases e.badMeta with
    | none => rfl
    | some q =>
      obtain ⟨q, a⟩ := q
      dsimp only
      split <;> rfl
  · intro esz n g q bs hesz hlen hg hq nib elem
    exact ⟨expand_elem hlen hg hq, fun h => expand_snd hg h⟩
  · intro s u c i r e p hrun hop hsub htag hr hdone h rsz got ch horder hplace hgate w herrs all
    exact exec_store hrun hop htag hr hdone hsub rfl rfl horder hplace hgate herrs
  · intro s u c i r e p hrun hop hsub htag hr hdone idx hidx rsz got ch w
    exact ⟨fun hin hplace hgate hfull herrs => exec_gather_row hrun hop htag hr hdone hsub hidx hin rfl hplace hgate hfull herrs,
      fun hout hres => exec_gather_out hrun hop htag hr hdone hsub hidx hout hres⟩
  · intro s c i j e hrun htag hidx hj herrs known
    refine ⟨fun hop hsub hdone => exec_index_once hrun htag hidx hj herrs hop hsub hdone, fun hop hres => ?_⟩
    subst hres
    exact ⟨fun hsub => exec_scatter_index_once hrun htag hop hj hidx herrs hsub,
      fun hsub => exec_row_index_once hrun htag hop hj hidx herrs hsub⟩
  · intro s u c i e p hrun hop hsub htag hr hdone v hidx j idx n fmt esz got ch w takes
    refine ⟨fun hin hplace hgate hfull herrs => ?_, fun hout => ?_⟩
    · obtain ⟨t, f, hexec, hf, htook⟩ := exec_bag_row hrun hop htag hr hdone hsub hidx rfl rfl hin rfl hplace hgate hfull herrs rfl
      exact ⟨t, f, hexec, hf, nofun, htook.of_length (by simp [n])⟩
    · obtain ⟨t, f, hexec, hf, hgix, htook⟩ := exec_bag_out hrun hop htag hr hdone hsub hidx rfl hout
      exact ⟨t, f, hexec, hf, fun _ => hgix, htook.of_length List.length_replicate⟩
  · intro s c i r e hrun hop htag hr hdone
    refine ⟨fun n h exp t hreads hstall => ⟨fun hne => ?_, fun heq => ?_⟩,
      fun hreads => exec_tag_agrees hrun hop htag hr hdone (tagMismatch_none hreads)⟩
    · exact exec_tag_differs hrun hop htag hr hdone ((tagMismatch_one hreads hstall).trans (if_neg hne))
    · exact exec_tag_agrees hrun hop htag hr hdone ((tagMismatch_one hreads hstall).trans (if_pos heq))
  · intro s c i e hrun herrs hpull hsub hres r rc n
    exact exec_pull hrun herrs hsub hres hpull rfl rfl rfl
  · intro s c i e hrun herrs hpush hsub hres r rc n
    exact exec_push hrun herrs hsub hres hpush rfl rfl rfl
  · intro s c i idx e hrun hop hres htag hidx hout k hk hsub
    obtain ⟨hmem, hentry, hgix⟩ := row_out (idx := idx) hrun rfl
    refine ⟨_, ?_, hmem, hentry, hgix⟩
    rcases List.mem_cons.mp hk with rfl | hk
    · exact exec_scatter_out hrun hop hres htag hidx hsub hout
    · obtain rfl := List.mem_singleton.mp hk
      exact exec_row_out hrun hop hres htag hidx hsub hout
  · intro s c i e hrun hop hsub hres htag hplaces herrs rsz fmt esz idx hidx p hin hgate v w old
    obtain ⟨t, hexec, hback, hframe⟩ := exec_scatter_element hrun hop hres htag hidx hplaces herrs hin hsub rfl rfl rfl hgate rfl rfl
    refine ⟨t, hexec, hback, fun q h pa hout => hframe q h pa ?_⟩
    rw [length_leBytes]
    exact hout
  · intro s c i e hrun hop hsub hres htag hplaces herrs rsz alg n rs idx hidx p hin hgate w rd g mu lr eps out
    obtain ⟨t, hexec, hback, hframe⟩ := exec_row_step hrun hop hres htag hidx hplaces herrs hin hsub rfl rfl rfl rfl rfl hgate rfl rfl rfl rfl
      rfl rfl
    refine ⟨t, hexec, hback, fun q h pa hout => hframe q h pa ?_⟩
    rw [length_stepped]
    exact hout

end Sys2Proof.Machine

/-! PROOFS. The formats that a descriptor names, and how their codes read (R30 to R34, R38). -/

namespace Sys2Proof.Machine

/-! ## Formats -/

/-- What R31, R32 and R37 ask of a floating format: its fields fill its width, and there is room for what its policy sets aside. -/
structure Fmt.Floating (f : Fmt) : Prop where
  pol : f.pol ≠ .integer
  width : f.w = b2n f.sg + (f.eb + f.mb)
  sign : f.sg = true ↔ f.pol ≠ .unsigned
  exp : 1 ≤ f.eb
  ieee : f.pol = .ieee → 2 ≤ f.eb ∧ 1 ≤ f.mb
  finite : f.pol = .finite → 2 ≤ f.eb + f.mb

theorem floating_fp32 : Fmt.fp32.Floating := ⟨by decide, by decide, by decide, by decide, by decide, by decide⟩

/-- A wide format is an integer or floating. -/
theorem wideFmt_kind {code : Nat} {f : Fmt} (h : wideFmt code = some f) : f.pol = .integer ∧ 0 < f.w ∨ f.Floating := by
  unfold wideFmt at h
  split at h <;> cases h
  case h_1 => exact .inr floating_fp32
  case h_2 => exact .inr ⟨by decide, by decide, by decide, by decide, by decide, by decide⟩
  case h_3 => exact .inr ⟨by decide, by decide, by decide, by decide, by decide, by decide⟩
  all_goals exact .inl ⟨rfl, by decide⟩

theorem policyOf_iff : ∀ sp < 4, policyOf sp ≠ .integer ∧ (policyOf sp = .ieee ↔ sp = 0) ∧ (policyOf sp = .finite ↔ sp = 1) ∧
    (policyOf sp = .unsigned ↔ sp = 3) := by decide

/-- The fields of a floating n-format, of which S are the sign (R31). -/
theorem floating_nformat {w e sp S : Nat} (bias : Int) (hS : S = if sp = 3 then 0 else 1) (hsp : sp < 4) (hw : 4 ≤ w) (hs : ¬ w < S + e)
    (he : e ≠ 0) (hi : ¬ (sp = 0 ∧ (e < 2 ∨ w - S - e < 1))) : Fmt.Floating ⟨w, decide (sp ≠ 3), e, w - S - e, bias, policyOf sp⟩ := by
  obtain ⟨hint, hieee, hfinite, hunsigned⟩ := policyOf_iff sp hsp
  have hsg : b2n (decide (sp ≠ 3)) = S := by
    rw [hS, b2n]
    by_cases h3 : sp = 3 <;> simp [h3]
  constructor
  case pol => exact hint
  case width =>
    dsimp only
    rw [hsg]
    omega
  case sign => simp [hunsigned]
  case exp => exact Nat.one_le_iff_ne_zero.mpr he
  case ieee =>
    rw [hieee]
    dsimp only
    omega
  case finite =>
    rw [hfinite]
    intro h1
    rw [if_neg (by omega)] at hS
    dsimp only
    omega

/-- A format that a descriptor names is an integer or floating (R31, R32). -/
theorem fmtOf_kind {d : BitVec 16} {f : Fmt} (h : fmtOf d = some f) : f.pol = .integer ∧ 0 < f.w ∨ f.Floating := by
  unfold fmtOf at h
  dsimp only at h
  by_cases hwide : fldN d 5 3 = 7
  · rw [if_pos hwide] at h
    exact wideFmt_kind (Option.ite_none_right_eq_some.mp h).2
  · rw [if_neg hwide] at h
    obtain ⟨-, h⟩ := Option.ite_none_left_eq_some.mp h
    obtain ⟨hwidth, h⟩ := Option.ite_none_left_eq_some.mp h
    by_cases hexp : fldN d 2 3 = 0
    · rw [if_pos hexp] at h
      obtain ⟨-, h⟩ := Option.ite_none_right_eq_some.mp h
      cases h
      exact .inl ⟨rfl, Nat.lt_of_lt_of_le (by decide) (Nat.le_add_right 4 _)⟩
    · rw [if_neg hexp] at h
      obtain ⟨hpol, h⟩ := Option.ite_none_left_eq_some.mp h
      cases h
      exact .inr (floating_nformat _ rfl (BitVec.isLt _) (Nat.le_add_right 4 _) hwidth hexp hpol)

/-! ## Codes -/

/-- The exponent and mantissa fields of a magnitude code (R33). -/
theorem code_fields {n mn : Nat} (ex : Nat) (hmn : mn < 2 ^ n) : (ex * 2 ^ n + mn) / 2 ^ n = ex ∧ (ex * 2 ^ n + mn) % 2 ^ n = mn := by
  rw [mul_comm, Nat.mul_add_div (Nat.two_pow_pos _), Nat.div_eq_of_lt hmn, Nat.mul_add_mod, Nat.mod_eq_of_lt hmn]
  exact ⟨rfl, rfl⟩

section
variable {f : Fmt} (hf : f.Floating)
include hf

theorem Fmt.Floating.width_pred : f.sg = true → f.w - 1 = f.eb + f.mb := fun hs => by
  have hw := hf.width
  rw [hs, b2n, if_pos rfl] at hw
  omega

theorem Fmt.Floating.unsigned (h : f.pol = .unsigned) : f.sg = false := by
  simpa [h] using hf.sign.not

/-- The sign bit lies above the magnitude (R33). -/
theorem withSign_eq {neg : Bool} (hneg : neg = true → f.sg = true) (c : Nat) :
    withSign f neg c = (if neg = true then 2 ^ (f.eb + f.mb) else 0) + c := by
  unfold withSign
  cases neg with
  | false => simp
  | true => simp [hneg rfl, hf.width_pred (hneg rfl)]

/-- A code reads by its sign, exponent and mantissa fields (R33). -/
theorem decodeNum_withSign {neg : Bool} (hneg : neg = true → f.sg = true) {c : Nat} (hc : c < 2 ^ (f.eb + f.mb)) :
    decodeNum f (withSign f neg c) =
      if f.pol = .ieee ∧ c / 2 ^ f.mb = 2 ^ f.eb - 1 then (if c % 2 ^ f.mb = 0 then .inf neg else .nan)
      else if f.pol = .finite ∧ c / 2 ^ f.mb = 2 ^ f.eb - 1 ∧ c % 2 ^ f.mb = 2 ^ f.mb - 1 then .nan
      else if c / 2 ^ f.mb = 0 then .fin neg (c % 2 ^ f.mb) (1 - f.bias - f.mb)
      else .fin neg (2 ^ f.mb + c % 2 ^ f.mb) ((c / 2 ^ f.mb : Nat) - f.bias - f.mb) := by
  have hex : c / 2 ^ f.mb < 2 ^ f.eb := by
    rw [Nat.div_lt_iff_lt_mul (Nat.two_pow_pos _), ← pow_add]
    exact hc
  have hsum : withSign f neg c = 2 ^ (f.eb + f.mb) * b2n neg + c := by
    rw [withSign_eq hf hneg, b2n]
    split <;> simp
  have hsign : (f.sg && decide (withSign f neg c / 2 ^ (f.w - 1) % 2 = 1)) = neg := by
    cases hs : f.sg with
    | false =>
      cases neg with
      | false => rfl
      | true => exact absurd (hneg rfl) (by simp [hs])
    | true =>
      rw [hsum, hf.width_pred hs, Nat.mul_add_div (Nat.two_pow_pos _), Nat.div_eq_of_lt hc]
      cases neg <;> rfl
  have hmant : withSign f neg c % 2 ^ f.mb = c % 2 ^ f.mb := by
    rw [hsum, pow_add, mul_comm (2 ^ f.eb), mul_assoc, Nat.mul_add_mod]
  have hexp : withSign f neg c / 2 ^ f.mb % 2 ^ f.eb = c / 2 ^ f.mb := by
    rw [hsum, pow_add, mul_comm (2 ^ f.eb), mul_assoc, Nat.mul_add_div (Nat.two_pow_pos _), Nat.mul_add_mod, Nat.mod_eq_of_lt hex]
  unfold decodeNum
  rw [if_neg hf.pol]
  simp only [hsign, hmant, hexp]

end

/-- The codes of an integer (R38). -/
theorem readsCodes_integer {f : Fmt} (h : f.pol = .integer) : readsCodes f := by
  refine ⟨fun _ c hc => ?_, fun hn => absurd h hn⟩
  have hv : (if f.sg = true then sextN c f.w else ((c % 2 ^ f.w : Nat) : Int)) =
      if f.sg = true ∧ 2 ^ (f.w - 1) ≤ c then (c : Int) - 2 ^ f.w else c := by
    unfold sextN
    rw [Nat.mod_eq_of_lt hc]
    cases f.sg with
    | false => simp
    | true =>
      rcases Nat.lt_or_ge c (2 ^ (f.w - 1)) with hlow | hhigh
      · simp [hlow, not_le.mpr hlow]
      · simp [hhigh, not_lt.mpr hhigh]
  unfold decodeNum
  rw [if_pos h]
  simp only [hv]

/-- The codes of a floating format (R33). -/
theorem readsCodes_floating {f : Fmt} (hf : f.Floating) : readsCodes f := by
  refine ⟨fun h => absurd h hf.pol, ?_⟩
  intro _ neg ex mn hneg hex hmn c
  obtain ⟨hdiv, hmod⟩ := code_fields ex hmn
  have hc : ex * 2 ^ f.mb + mn < 2 ^ (f.eb + f.mb) := by
    rw [pow_add]
    calc ex * 2 ^ f.mb + mn < (ex + 1) * 2 ^ f.mb := by rw [Nat.succ_mul]; omega
      _ ≤ 2 ^ f.eb * 2 ^ f.mb := Nat.mul_le_mul_right _ hex
  have hread := decodeNum_withSign hf hneg hc
  rw [withSign_eq hf hneg, ← add_assoc, hdiv, hmod] at hread
  refine ⟨fun hp htop => ?_, fun hp htop hmax => ?_, fun hi hfin => ?_⟩
  · rw [hread, if_pos ⟨hp, htop⟩]
  · rw [hread, if_neg (by simp [hp]), if_pos ⟨hp, htop, hmax⟩]
  · rw [if_neg hi, if_neg hfin] at hread
    by_cases h0 : ex = 0
    · rw [if_pos h0] at hread
      exact ⟨_, _, hread, by rw [if_pos h0]⟩
    · rw [if_neg h0] at hread
      exact ⟨_, _, hread, by rw [if_neg h0]⟩

end Sys2Proof.Machine

/-! PROOFS. Rounding of exact values: the quotient of integers that the model rounds is the magnitude that R41 rounds. -/

namespace Sys2Proof.Machine

/-! ## Quotients -/

theorem two_zpow_pos_rat (e : Int) : (0 : ℚ) < 2 ^ e := zpow_pos two_pos e

theorem magOf_pos {m : Nat} (hm : m ≠ 0) (e : Int) : 0 < magOf m e := mul_pos (Nat.cast_pos.mpr (Nat.pos_of_ne_zero hm)) (two_zpow_pos_rat e)

/-- The exponent of a magnitude, by its bounds (R41). -/
theorem intLog_eq {x : ℚ} {z : Int} (hlow : (2 : ℚ) ^ z ≤ x) (hhigh : x < (2 : ℚ) ^ (z + 1)) : Int.log 2 x = z := by
  have hx : 0 < x := (two_zpow_pos_rat z).trans_le hlow
  have h1 := (Int.zpow_le_iff_le_log one_lt_two hx).mp hlow
  have h2 := (Int.lt_zpow_iff_log_lt one_lt_two hx).mp hhigh
  omega

theorem intLog_mul_zpow {x : ℚ} (hx : 0 < x) (z : Int) : Int.log 2 (x * 2 ^ z) = Int.log 2 x + z := by
  refine intLog_eq ?_ ?_
  · rw [zpow_add₀ two_ne_zero]
    exact mul_le_mul_of_nonneg_right (Int.zpow_log_le_self one_lt_two hx) (two_zpow_pos_rat z).le
  · rw [add_right_comm, zpow_add₀ two_ne_zero]
    exact mul_lt_mul_of_pos_right (Int.lt_zpow_succ_log_self one_lt_two x) (two_zpow_pos_rat z)

theorem log2_bounds {n : Nat} (hn : n ≠ 0) : (2 : ℚ) ^ (Nat.log2 n : Int) ≤ n ∧ (n : ℚ) < 2 ^ ((Nat.log2 n : Int) + 1) := by
  rw [Nat.log2_eq_log_two]
  constructor
  · exact_mod_cast Nat.pow_log_le_self 2 hn
  · exact_mod_cast Nat.lt_pow_succ_log_self one_lt_two n

theorem intLog_magOf {m : Nat} (hm : m ≠ 0) (e : Int) : Int.log 2 (magOf m e) = Nat.log2 m + e := by
  obtain ⟨hlow, hhigh⟩ := log2_bounds hm
  rw [magOf, intLog_mul_zpow (Nat.cast_pos.mpr (Nat.pos_of_ne_zero hm)), intLog_eq hlow hhigh]

/-- The comparison of a quotient with a power of two, on integers. -/
theorem zpow_le_div_iff {num den : Nat} (hd : den ≠ 0) (l : Int) :
    (2 : ℚ) ^ l ≤ (num : ℚ) / den ↔ if 0 ≤ l then den * 2 ^ l.toNat ≤ num else den ≤ num * 2 ^ (-l).toNat := by
  have hden : (0 : ℚ) < den := Nat.cast_pos.mpr (Nat.pos_of_ne_zero hd)
  rw [le_div_iff₀ hden]
  split
  · rename_i hl
    obtain ⟨n, rfl⟩ := Int.eq_ofNat_of_zero_le hl
    rw [mul_comm, zpow_natCast, Int.toNat_natCast]
    exact_mod_cast Iff.rfl
  · rename_i hl
    obtain ⟨n, hn⟩ := Int.eq_ofNat_of_zero_le (a := -l) (by omega)
    rw [hn, Int.toNat_natCast, show l = -(n : Int) by omega, zpow_neg, zpow_natCast, inv_mul_le_iff₀ (by positivity), mul_comm]
    exact_mod_cast Iff.rfl

/-- floor(log2(num / den)) is the exponent of the quotient (R41). -/
theorem floorLog2_eq {num den : Nat} (hn : num ≠ 0) (hd : den ≠ 0) : floorLog2 num den = Int.log 2 ((num : ℚ) / den) := by
  obtain ⟨hnlow, hnhigh⟩ := log2_bounds hn
  obtain ⟨hdlow, hdhigh⟩ := log2_bounds hd
  have hden : (0 : ℚ) < den := Nat.cast_pos.mpr (Nat.pos_of_ne_zero hd)
  have hlow : (2 : ℚ) ^ ((Nat.log2 num : Int) - Nat.log2 den - 1) ≤ (num : ℚ) / den := by
    rw [le_div_iff₀ hden]
    calc (2 : ℚ) ^ ((Nat.log2 num : Int) - Nat.log2 den - 1) * den
        ≤ 2 ^ ((Nat.log2 num : Int) - Nat.log2 den - 1) * 2 ^ ((Nat.log2 den : Int) + 1) :=
          mul_le_mul_of_nonneg_left hdhigh.le (two_zpow_pos_rat _).le
      _ = 2 ^ (Nat.log2 num : Int) := by
          rw [← zpow_add₀ two_ne_zero]
          congr 1
          omega
      _ ≤ num := hnlow
  have hhigh : (num : ℚ) / den < 2 ^ ((Nat.log2 num : Int) - Nat.log2 den + 1) := by
    rw [div_lt_iff₀ hden]
    calc (num : ℚ) < 2 ^ ((Nat.log2 num : Int) + 1) := hnhigh
      _ = 2 ^ ((Nat.log2 num : Int) - Nat.log2 den + 1) * 2 ^ (Nat.log2 den : Int) := by
          rw [← zpow_add₀ two_ne_zero]
          congr 1
          omega
      _ ≤ 2 ^ ((Nat.log2 num : Int) - Nat.log2 den + 1) * den := mul_le_mul_of_nonneg_left hdlow (two_zpow_pos_rat _).le
  unfold floorLog2
  dsimp only
  generalize (Nat.log2 num : Int) - Nat.log2 den = l at hlow hhigh ⊢
  have hge : (if 0 ≤ l then decide (den * 2 ^ l.toNat ≤ num) else decide (den ≤ num * 2 ^ (-l).toNat)) = true ↔
      (2 : ℚ) ^ l ≤ (num : ℚ) / den := by
    rw [zpow_le_div_iff hd]
    split <;> rw [decide_eq_true_iff]
  by_cases hle : (2 : ℚ) ^ l ≤ (num : ℚ) / den
  · rw [if_pos (hge.mpr hle), intLog_eq hle hhigh]
  · rw [if_neg (hge.not.mpr hle), intLog_eq hlow (by rw [sub_add_cancel]; exact not_le.mp hle)]

/-- The quotient, remainder and divisor of a magnitude in units of 2^q. -/
theorem scaleDiv_val (num : Nat) {den : Nat} (hd : den ≠ 0) (q : Int) {k rem d : Nat} (h : scaleDiv num den q = (k, rem, d)) :
    rem < d ∧ (num : ℚ) / den / 2 ^ q = k + (rem : ℚ) / d := by
  have hquot {n c : Nat} (hc : c ≠ 0) (hval : (num : ℚ) / den / 2 ^ q = (n : ℚ) / c) :
      n % c < c ∧ (num : ℚ) / den / 2 ^ q = (n / c : Nat) + ((n % c : Nat) : ℚ) / c := by
    have hc' : (c : ℚ) ≠ 0 := Nat.cast_ne_zero.mpr hc
    refine ⟨Nat.mod_lt _ (Nat.pos_of_ne_zero hc), ?_⟩
    rw [hval, div_eq_iff hc', add_mul, div_mul_cancel₀ _ hc']
    exact_mod_cast (Nat.div_add_mod' n c).symm
  unfold scaleDiv at h
  dsimp only at h
  split at h
  · rename_i hq
    cases h
    obtain ⟨n, hn⟩ := Int.eq_ofNat_of_zero_le (a := -q) (by omega)
    refine hquot hd ?_
    rw [hn, Int.toNat_natCast, show q = -(n : Int) by omega, zpow_neg, zpow_natCast, div_inv_eq_mul, div_mul_eq_mul_div]
    push_cast
    rfl
  · rename_i hq
    cases h
    obtain ⟨n, rfl⟩ := Int.eq_ofNat_of_zero_le (not_lt.mp hq)
    refine hquot (mul_ne_zero hd (Nat.two_pow_pos _).ne') ?_
    rw [Int.toNat_natCast, zpow_natCast, div_div]
    push_cast
    rfl

/-- When a magnitude rounds up (R40, R41). -/
theorem roundsUp_iff (mode : Nat) (neg : Bool) (k rem d : Nat) : roundsUp mode neg k rem d = true ↔
    (mode = 0 ∧ (d < 2 * rem ∨ 2 * rem = d ∧ k % 2 = 1)) ∨ (mode = 4 ∧ d ≤ 2 * rem) ∨ (mode = 2 ∧ 0 < rem ∧ neg = false) ∨
      (mode = 3 ∧ 0 < rem ∧ neg = true) := by
  unfold roundsUp
  split
  case h_5 h0 h2 h3 h4 => simp [show mode ≠ 0 from h0, show mode ≠ 2 from h2, show mode ≠ 3 from h3, show mode ≠ 4 from h4]
  all_goals simp

/-- A magnitude whose floor is k and whose fraction is rem / d rounds as R41 says. -/
theorem roundMag_eq {mode : Nat} {neg : Bool} {x : ℚ} {k rem d : Nat} (hrem : rem < d) (hx : x = k + (rem : ℚ) / d) :
    roundMag mode neg x = if roundsUp mode neg k rem d then k + 1 else k := by
  have hd : (0 : ℚ) < d := Nat.cast_pos.mpr (by omega)
  have hfr : (rem : ℚ) / d < 1 := (div_lt_one hd).mpr (Nat.cast_lt.mpr hrem)
  have hfloor : ⌊x⌋₊ = k := by
    rw [hx, Nat.floor_eq_iff (by positivity)]
    exact ⟨le_add_of_nonneg_right (by positivity), by linarith⟩
  have hhalf : 1 / 2 < (rem : ℚ) / d ↔ d < 2 * rem := by
    rw [div_lt_div_iff₀ two_pos hd, one_mul, mul_comm]
    exact_mod_cast Iff.rfl
  have htie : (rem : ℚ) / d = 1 / 2 ↔ 2 * rem = d := by
    rw [div_eq_div_iff hd.ne' two_ne_zero, one_mul, mul_comm]
    exact_mod_cast Iff.rfl
  have hleast : 1 / 2 ≤ (rem : ℚ) / d ↔ d ≤ 2 * rem := by
    rw [div_le_div_iff₀ two_pos hd, one_mul, mul_comm]
    exact_mod_cast Iff.rfl
  have hpos : 0 < (rem : ℚ) / d ↔ 0 < rem := by
    rw [div_pos_iff_of_pos_right hd]
    exact Nat.cast_pos
  have hsub : x - k = (rem : ℚ) / d := by rw [hx, add_sub_cancel_left]
  unfold roundMag
  dsimp only
  rw [hfloor, hsub]
  simp only [hhalf, htie, hleast, hpos]
  exact if_congr (roundsUp_iff mode neg k rem d).symm rfl rfl

/-- The model's quotient of a magnitude rounds as R41 says. -/
theorem scaleDiv_round (mode : Nat) (neg : Bool) (num : Nat) {den : Nat} (hd : den ≠ 0) (q : Int) {k rem d : Nat}
    (h : scaleDiv num den q = (k, rem, d)) :
    (if roundsUp mode neg k rem d then k + 1 else k) = roundMag mode neg ((num : ℚ) / den / 2 ^ q) := by
  obtain ⟨hrem, hval⟩ := scaleDiv_val num hd q h
  exact (roundMag_eq hrem hval).symm

theorem roundMag_bounds (mode : Nat) (neg : Bool) (x : ℚ) : ⌊x⌋₊ ≤ roundMag mode neg x ∧ roundMag mode neg x ≤ ⌊x⌋₊ + 1 := by
  unfold roundMag
  dsimp only
  split <;> omega

/-- A whole number of units rounds to itself. -/
theorem roundMag_natCast (mode : Nat) (neg : Bool) (n : Nat) : roundMag mode neg (n : ℚ) = n := by
  unfold roundMag
  simp

/-! ## Rounding to a format -/

/-- The code of a magnitude x with a sign in a floating format (R41, R44). -/
def floatCode (f : Fmt) (mode : Nat) (neg : Bool) (x : ℚ) : Nat :=
  let k := roundMag mode neg (x / 2 ^ lastWeight f x)
  if aboveMax f k (lastWeight f x) then overflowCode f neg mode else withSign f neg (encodeMag f k (lastWeight f x))

/-- A finite value is the quotient of two integers. -/
theorem roundNum_ratio (f : Fmt) (mode : Nat) (neg : Bool) {m : Nat} (hm : m ≠ 0) (e : Int) :
    ∃ num den : Nat, num ≠ 0 ∧ den ≠ 0 ∧ (num : ℚ) / den = magOf m e ∧
      roundNum f mode (.fin neg m e) = roundRat f mode neg num den := by
  unfold roundNum
  dsimp only
  rw [if_neg hm]
  split
  · rename_i he
    refine ⟨m, 2 ^ (-e).toNat, hm, (Nat.two_pow_pos _).ne', ?_, rfl⟩
    obtain ⟨n, hn⟩ := Int.eq_ofNat_of_zero_le (a := -e) (by omega)
    rw [hn, Int.toNat_natCast, show e = -(n : Int) by omega, magOf, zpow_neg, zpow_natCast, ← div_eq_mul_inv]
    push_cast
    rfl
  · rename_i he
    refine ⟨m * 2 ^ e.toNat, 1, mul_ne_zero hm (Nat.two_pow_pos _).ne', one_ne_zero, ?_, rfl⟩
    obtain ⟨n, rfl⟩ := Int.eq_ofNat_of_zero_le (not_lt.mp he)
    simp [magOf]

/-- Rounding of a finite value to a floating format (R41, R44). -/
theorem roundNum_float {f : Fmt} (hf : f.pol ≠ .integer) (mode : Nat) {neg : Bool} (hu : ¬ (f.pol = .unsigned ∧ neg = true)) {m : Nat}
    (hm : m ≠ 0) (e : Int) : roundNum f mode (.fin neg m e) = floatCode f mode neg (magOf m e) := by
  obtain ⟨num, den, hn, hd, hval, hround⟩ := roundNum_ratio f mode neg hm e
  rw [hround, ← hval]
  unfold roundRat
  rw [if_neg hf, if_neg hu]
  dsimp only
  rw [floorLog2_eq hn hd]
  rcases h : scaleDiv num den (max (Int.log 2 ((num : ℚ) / den)) (1 - f.bias) - f.mb) with ⟨k, rem, d⟩
  dsimp only
  rw [scaleDiv_round mode neg num hd _ h]
  rfl

theorem satI_eq (x lo hi : Int) (h : lo ≤ hi) : satI x lo hi = max lo (min hi x) := by
  unfold satI
  split
  · omega
  · split <;> omega

/-- Rounding of a finite value to an integer (R42). -/
theorem roundNum_integer {f : Fmt} (hf : f.pol = .integer) (mode : Nat) (neg : Bool) {m : Nat} (hm : m ≠ 0) (e : Int) :
    (roundNum f mode (.fin neg m e) : Int) = max (intLo f) (min (intHi f)
      (if neg = true then -(roundMag mode neg (magOf m e) : Int) else roundMag mode neg (magOf m e))) % 2 ^ f.w := by
  obtain ⟨num, den, hn, hd, hval, hround⟩ := roundNum_ratio f mode neg hm e
  rw [hround, ← hval]
  unfold roundRat
  rw [if_pos hf]
  rcases h : scaleDiv num den 0 with ⟨k, rem, d⟩
  dsimp only
  rw [scaleDiv_round mode neg num hd _ h, zpow_zero, div_one]
  have hrange : intLo f ≤ intHi f := by
    unfold intLo intHi
    have h1 : (0 : Int) < 2 ^ (f.w - 1) := by positivity
    have h2 : (0 : Int) < 2 ^ f.w := by positivity
    split <;> omega
  have hlo : (if f.sg = true then -((2 ^ (f.w - 1) : Nat) : Int) else 0) = intLo f := by simp [intLo]
  have hhi : (if f.sg = true then ((2 ^ (f.w - 1) : Nat) : Int) - 1 else ((2 ^ f.w : Nat) : Int) - 1) = intHi f := by simp [intHi]
  rw [hlo, hhi, satI_eq _ _ _ hrange, Int.toNat_of_nonneg (Int.emod_nonneg _ (by positivity))]
  push_cast
  rfl

end Sys2Proof.Machine

/-! PROOFS. Rounding to a format: the codes of magnitudes in their order, the largest of them, and what lies above it (R34, R41 to R44). -/

namespace Sys2Proof.Machine

/-! ## Magnitudes of codes -/

/-- The magnitude that the exponent and mantissa fields of a code stand for (R33). -/
def codeMag (f : Fmt) (c : Nat) : ℚ :=
  if c / 2 ^ f.mb = 0 then magOf (c % 2 ^ f.mb) (1 - f.bias - f.mb) else magOf (2 ^ f.mb + c % 2 ^ f.mb) ((c / 2 ^ f.mb : Nat) - f.bias - f.mb)

theorem magOf_double (k : Nat) (q : Int) : magOf (2 * k) q = magOf k (q + 1) := by
  simp only [magOf, zpow_add₀ (two_ne_zero (α := ℚ))]
  push_cast
  ring

theorem magOf_lt_magOf {m n : Nat} (h : m < n) (e : Int) : magOf m e < magOf n e :=
  mul_lt_mul_of_pos_right (Nat.cast_lt.mpr h) (two_zpow_pos_rat e)

theorem codeMag_subnormal (f : Fmt) {c : Nat} (hc : c < 2 ^ f.mb) : codeMag f c = magOf c (1 - f.bias - f.mb) := by
  rw [codeMag, if_pos (Nat.div_eq_of_lt hc), Nat.mod_eq_of_lt hc]

theorem codeMag_normal (f : Fmt) {ex mn : Nat} (hex : ex ≠ 0) (hmn : mn < 2 ^ f.mb) :
    codeMag f (ex * 2 ^ f.mb + mn) = magOf (2 ^ f.mb + mn) (ex - f.bias - f.mb) := by
  obtain ⟨hdiv, hmod⟩ := code_fields ex hmn
  rw [codeMag, hdiv, hmod, if_neg hex]

/-- A mantissa that is full carries into the exponent (R41). -/
theorem codeMag_carry (f : Fmt) (ex : Nat) : codeMag f ((ex + 1) * 2 ^ f.mb) = magOf (2 ^ (f.mb + 1)) (ex - f.bias - f.mb) := by
  have h := codeMag_normal f (Nat.succ_ne_zero ex) (Nat.two_pow_pos f.mb)
  rw [Nat.add_zero, Nat.add_zero] at h
  rw [h, pow_succ, mul_comm, magOf_double]
  congr 1
  push_cast
  ring

/-- A code of a higher number has a higher magnitude. -/
theorem codeMag_strictMono (f : Fmt) : StrictMono (codeMag f) := by
  refine strictMono_nat_of_lt_succ fun c => ?_
  have hpos : 0 < 2 ^ f.mb := Nat.two_pow_pos _
  obtain ⟨ex, mn, hmn, rfl⟩ : ∃ ex mn, mn < 2 ^ f.mb ∧ c = ex * 2 ^ f.mb + mn :=
    ⟨_, _, Nat.mod_lt c hpos, (Nat.div_add_mod' c _).symm⟩
  rcases Nat.eq_zero_or_pos ex with rfl | hex
  · rw [zero_mul, zero_add, codeMag_subnormal f hmn]
    rcases Nat.lt_or_ge (mn + 1) (2 ^ f.mb) with hlt | hge
    · rw [codeMag_subnormal f hlt]
      exact magOf_lt_magOf (Nat.lt_succ_self mn) _
    · have hnext := codeMag_normal f one_ne_zero hpos
      rw [show mn + 1 = 1 * 2 ^ f.mb + 0 by omega, hnext]
      exact magOf_lt_magOf (by omega) _
  · rw [codeMag_normal f hex.ne' hmn]
    rcases Nat.lt_or_ge (mn + 1) (2 ^ f.mb) with hlt | hge
    · rw [add_assoc, codeMag_normal f hex.ne' hlt]
      exact magOf_lt_magOf (by omega) _
    · rw [show ex * 2 ^ f.mb + mn + 1 = (ex + 1) * 2 ^ f.mb by rw [Nat.succ_mul]; omega, codeMag_carry f ex]
      exact magOf_lt_magOf (by rw [pow_succ]; omega) _

/-- The code of k units of 2^q has that magnitude (R41). -/
theorem codeMag_encodeMag (f : Fmt) {k : Nat} {q : Int} (hk : k ≤ 2 ^ (f.mb + 1)) (hq : 1 - f.bias - f.mb ≤ q)
    (hlow : k < 2 ^ f.mb → q = 1 - f.bias - f.mb) : codeMag f (encodeMag f k q) = magOf k q := by
  unfold encodeMag
  split
  · rename_i h
    rw [codeMag_subnormal f h, hlow h]
  · obtain ⟨ex, hex⟩ := Int.eq_ofNat_of_zero_le (a := q + f.mb + f.bias) (by omega)
    have hexp : (ex : Int) - f.bias - f.mb = q := by omega
    rw [hex, Int.toNat_natCast]
    rcases hk.lt_or_eq with hlt | rfl
    · rw [codeMag_normal f (by omega) (by rw [pow_succ] at hlt; omega), hexp]
      congr 1
      omega
    · have hcarry := codeMag_carry f ex
      rw [← hexp, ← hcarry]
      congr 1
      rw [Nat.succ_mul, pow_succ]
      omega

/-! ## The largest code -/

/-- The magnitude j units below the lowest of the next exponent. -/
theorem codeMag_below (f : Fmt) {ex j : Nat} (hex : ex ≠ 0) (hj : 0 < j) (hj' : j ≤ 2 ^ f.mb) :
    codeMag f ((ex + 1) * 2 ^ f.mb - j) = (2 : ℚ) ^ ((ex : Int) - f.bias) * (2 - j * (2 : ℚ) ^ (-(f.mb : Int))) := by
  have h := codeMag_normal f hex (mn := 2 ^ f.mb - j) (by omega)
  rw [show (ex + 1) * 2 ^ f.mb - j = ex * 2 ^ f.mb + (2 ^ f.mb - j) by rw [Nat.succ_mul]; omega, h, magOf,
    sub_eq_add_neg _ (f.mb : Int), zpow_add₀ two_ne_zero, mul_left_comm]
  congr 1
  have hpow : (2 : ℚ) ^ f.mb * 2 ^ (-(f.mb : Int)) = 1 := by
    rw [← zpow_natCast, ← zpow_add₀ two_ne_zero, add_neg_cancel, zpow_zero]
  push_cast [hj']
  linear_combination 2 * hpow

theorem Fmt.Floating.two_le_two_pow {f : Fmt} (hf : f.Floating) : 2 ≤ 2 ^ f.eb := Nat.le_self_pow (Nat.ne_of_gt hf.exp) 2

/-- The code of the largest finite magnitude (R34). -/
theorem codeMag_maxCode {f : Fmt} (hf : f.Floating) : codeMag f (maxCode f) = maxFin f := by
  obtain ⟨n, hn⟩ := Nat.exists_eq_add_of_le' (Nat.one_le_two_pow (n := f.eb))
  have hcast : (2 : Int) ^ f.eb = n + 1 := by exact_mod_cast hn
  have htwo : 2 ≤ 2 ^ f.eb := hf.two_le_two_pow
  have hpos : 0 < 2 ^ f.mb := Nat.two_pow_pos _
  have hall : codeMag f (2 ^ (f.eb + f.mb) - 1) = (2 : ℚ) ^ ((2 : Int) ^ f.eb - 1 - f.bias) * (2 - (2 : ℚ) ^ (-(f.mb : Int))) := by
    have h := codeMag_below f (ex := n) (j := 1) (by omega) one_pos hpos
    rw [← hn, ← pow_add, Nat.cast_one, one_mul] at h
    rw [h, hcast, add_sub_cancel_right]
  unfold maxCode maxFin
  cases hp : f.pol with
  | ieee =>
    have hfour : 4 ≤ 2 ^ f.eb := Nat.pow_le_pow_right two_pos (hf.ieee hp).1
    have h := codeMag_below f (ex := n - 1) (j := 1) (by omega) one_pos hpos
    rw [Nat.sub_add_cancel (by omega), Nat.cast_one, one_mul, Nat.cast_sub (by omega)] at h
    dsimp only
    rw [hn, Nat.add_sub_cancel, h, hcast]
    congr 2
    push_cast
    ring
  | finite =>
    dsimp only
    split
    · rename_i hmb
      have hfour : 2 ^ 2 ≤ 2 ^ (f.eb + f.mb) := Nat.pow_le_pow_right two_pos (hf.finite hp)
      rw [hmb, Nat.add_zero] at hfour
      have h := codeMag_normal f (ex := n - 1) (mn := 0) (by omega) hpos
      rw [hmb, pow_zero, Nat.mul_one, Nat.add_zero, Nat.add_zero, Nat.cast_sub (by omega)] at h
      rw [hmb, Nat.add_zero, hn, show n + 1 - 2 = n - 1 by omega, h, hcast, magOf, Nat.cast_one, one_mul]
      congr 1
      push_cast
      ring
    · rename_i hmb
      have h2 : 2 ≤ 2 ^ f.mb := Nat.le_self_pow hmb 2
      have h := codeMag_below f (ex := n) (j := 2) (by omega) two_pos h2
      rw [← hn, ← pow_add] at h
      rw [h, hcast, add_sub_cancel_right, sub_eq_add_neg 1 (f.mb : Int), zpow_add₀ two_ne_zero, zpow_one]
      rfl
  | satfinite => exact hall
  | unsigned => exact hall
  | integer => exact absurd hp hf.pol

/-! ## Codes that read as magnitudes -/

theorem maxCode_lt {f : Fmt} (hf : f.Floating) : maxCode f < 2 ^ (f.eb + f.mb) := by
  have hpos : 0 < 2 ^ (f.eb + f.mb) := Nat.two_pow_pos _
  have hmul : (2 ^ f.eb - 1) * 2 ^ f.mb ≤ 2 ^ (f.eb + f.mb) := by
    rw [pow_add]
    exact Nat.mul_le_mul_right _ (Nat.sub_le _ _)
  have htop : 0 < (2 ^ f.eb - 1) * 2 ^ f.mb := Nat.mul_pos (Nat.sub_pos_of_lt hf.two_le_two_pow) (Nat.two_pow_pos _)
  unfold maxCode
  split <;> omega

/-- A code up to the largest finite one reads as its magnitude (R33). -/
theorem readsAs_withSign {f : Fmt} (hf : f.Floating) {neg : Bool} (hneg : neg = true → f.sg = true) {c : Nat} (hc : c ≤ maxCode f) :
    readsAs f (withSign f neg c) neg (codeMag f c) := by
  have hread := decodeNum_withSign hf hneg (hc.trans_lt (maxCode_lt hf))
  have hieee : ¬ (f.pol = .ieee ∧ c / 2 ^ f.mb = 2 ^ f.eb - 1) := fun ⟨hp, htop⟩ => by
    rw [maxCode, hp] at hc
    have := Nat.div_mul_le_self c (2 ^ f.mb)
    have hpos : 0 < (2 ^ f.eb - 1) * 2 ^ f.mb := Nat.mul_pos (Nat.sub_pos_of_lt hf.two_le_two_pow) (Nat.two_pow_pos _)
    rw [htop] at this
    dsimp only at hc
    omega
  have hfinite : ¬ (f.pol = .finite ∧ c / 2 ^ f.mb = 2 ^ f.eb - 1 ∧ c % 2 ^ f.mb = 2 ^ f.mb - 1) := fun ⟨hp, htop, hmax⟩ => by
    rw [maxCode, hp] at hc
    have hdiv := Nat.div_add_mod' c (2 ^ f.mb)
    have h4 : 2 ^ 2 ≤ 2 ^ (f.eb + f.mb) := Nat.pow_le_pow_right two_pos (hf.finite hp)
    have hpos : 0 < 2 ^ f.mb := Nat.two_pow_pos _
    have hle : 2 ^ f.mb ≤ 2 ^ f.eb * 2 ^ f.mb := Nat.le_mul_of_pos_left _ (Nat.two_pow_pos _)
    rw [htop, hmax, Nat.sub_one_mul] at hdiv
    rw [pow_add] at hc h4
    dsimp only at hc
    omega
  rw [if_neg hieee, if_neg hfinite] at hread
  unfold codeMag
  by_cases h0 : c / 2 ^ f.mb = 0
  · rw [if_pos h0] at hread ⊢
    exact ⟨_, _, hread, rfl⟩
  · rw [if_neg h0] at hread ⊢
    exact ⟨_, _, hread, rfl⟩

/-! ## Rounding -/

theorem lastWeight_ge (f : Fmt) (x : ℚ) : 1 - f.bias - f.mb ≤ lastWeight f x := by
  unfold lastWeight
  omega

/-- A magnitude in units of its last mantissa bit: it has a full mantissa or the lowest exponent (R41). -/
theorem units_bounds (f : Fmt) {x : ℚ} (hx : 0 < x) : ⌊x / 2 ^ lastWeight f x⌋₊ < 2 ^ (f.mb + 1) ∧
    (⌊x / 2 ^ lastWeight f x⌋₊ < 2 ^ f.mb → lastWeight f x = 1 - f.bias - f.mb) := by
  have hq := two_zpow_pos_rat (lastWeight f x)
  have hpow (n : Nat) : ((2 ^ n : Nat) : ℚ) * 2 ^ lastWeight f x = 2 ^ (n + lastWeight f x) := by
    rw [zpow_add₀ two_ne_zero, zpow_natCast]
    push_cast
    rfl
  constructor
  · rw [Nat.floor_lt (div_pos hx hq).le, div_lt_iff₀ hq, hpow]
    refine (Int.lt_zpow_succ_log_self one_lt_two x).trans_le (zpow_le_zpow_right₀ one_le_two ?_)
    unfold lastWeight
    push_cast
    omega
  · intro hlow
    by_contra hne
    have hlog : lastWeight f x = Int.log 2 x - f.mb := by
      unfold lastWeight at hne ⊢
      omega
    refine absurd (Nat.le_floor ?_) (not_le.mpr hlow)
    rw [le_div_iff₀ hq, hpow, hlog, add_sub_cancel]
    exact Int.zpow_log_le_self one_lt_two hx

/-- A magnitude, rounded in units of its last mantissa bit (R41). -/
def roundedMag (f : Fmt) (mode : Nat) (neg : Bool) (x : ℚ) : ℚ :=
  magOf (roundMag mode neg (x / 2 ^ lastWeight f x)) (lastWeight f x)

/-- What is above the largest magnitude overflows, and what is not has a code that reads as it (R41, R44). -/
theorem floatCode_cases {f : Fmt} (hf : f.Floating) (mode : Nat) {neg : Bool} (hneg : neg = true → f.sg = true) {x : ℚ} (hx : 0 < x) :
    (roundedMag f mode neg x ≤ maxFin f → readsAs f (floatCode f mode neg x) neg (roundedMag f mode neg x)) ∧
    (maxFin f < roundedMag f mode neg x → floatCode f mode neg x = overflowCode f neg mode) := by
  obtain ⟨hhigh, hlow⟩ := units_bounds f hx
  obtain ⟨hk, hk'⟩ := roundMag_bounds mode neg (x / 2 ^ lastWeight f x)
  have hmag := codeMag_encodeMag f (hk'.trans hhigh) (lastWeight_ge f x) fun h => hlow (hk.trans_lt h)
  have habove : aboveMax f (roundMag mode neg (x / 2 ^ lastWeight f x)) (lastWeight f x) = true ↔ maxFin f < roundedMag f mode neg x := by
    rw [roundedMag, ← hmag, ← codeMag_maxCode hf, (codeMag_strictMono f).lt_iff_lt, aboveMax, Bool.or_eq_true, decide_eq_true_iff,
      decide_eq_true_iff]
    have := maxCode_lt hf
    omega
  unfold floatCode
  dsimp only
  refine ⟨fun hle => ?_, fun hlt => if_pos (habove.mpr hlt)⟩
  rw [if_neg (habove.not.mpr (not_lt.mpr hle)), roundedMag, ← hmag]
  refine readsAs_withSign hf hneg ((codeMag_strictMono f).le_iff_le.mp ?_)
  rw [hmag, codeMag_maxCode hf]
  exact hle

/-- The largest finite magnitude's code reads as it (R34). -/
theorem readsAs_maxCode {f : Fmt} (hf : f.Floating) {neg : Bool} (hneg : neg = true → f.sg = true) :
    readsAs f (withSign f neg (maxCode f)) neg (maxFin f) := codeMag_maxCode hf ▸ readsAs_withSign hf hneg le_rfl

/-- An infinity of IEEE policy (R33). -/
theorem decodeNum_infinity {f : Fmt} (hf : f.Floating) (hp : f.pol = .ieee) {neg : Bool} (hneg : neg = true → f.sg = true) :
    decodeNum f (withSign f neg ((2 ^ f.eb - 1) * 2 ^ f.mb)) = .inf neg := by
  have hpos : 0 < 2 ^ f.mb := Nat.two_pow_pos _
  have hlt : (2 ^ f.eb - 1) * 2 ^ f.mb < 2 ^ (f.eb + f.mb) := by
    rw [pow_add]
    exact Nat.mul_lt_mul_of_pos_right (Nat.sub_lt (Nat.two_pow_pos _) one_pos) hpos
  rw [decodeNum_withSign hf hneg hlt, Nat.mul_div_cancel _ hpos, Nat.mul_mod_left, if_pos ⟨hp, rfl⟩, if_pos rfl]

end Sys2Proof.Machine

/-! PROOFS. Rounding to every format: magnitudes, overflow, infinities and NaNs (R41 to R44). -/

namespace Sys2Proof.Machine

/-- Overflow gives the largest finite value (R44). -/
def overflowsToMax (f : Fmt) (mode : Nat) (neg : Bool) : Prop :=
  f.pol = .satfinite ∨ f.pol = .unsigned ∨ mode = 1 ∨ (mode = 2 ∧ neg = true) ∨ (mode = 3 ∧ neg = false)

/-- Rounding to a negative unsigned value (R41). -/
theorem roundNum_unsigned_neg {f : Fmt} (hp : f.pol = .unsigned) (mode : Nat) {m : Nat} (hm : m ≠ 0) (e : Int) :
    roundNum f mode (.fin true m e) = 0 := by
  obtain ⟨num, den, -, -, -, hround⟩ := roundNum_ratio f mode true hm e
  rw [hround, roundRat, if_neg (by simp [hp]), if_pos ⟨hp, rfl⟩]

section
variable {f : Fmt} (hf : f.Floating)
include hf

/-- Where overflow gives the largest finite value, an infinity or a NaN (R44). -/
theorem overflowCode_cases (mode : Nat) (neg : Bool) :
    (overflowsToMax f mode neg → overflowCode f neg mode = withSign f neg (maxCode f)) ∧
    (¬ overflowsToMax f mode neg → f.pol = .ieee → overflowCode f neg mode = withSign f neg ((2 ^ f.eb - 1) * 2 ^ f.mb)) ∧
    (¬ overflowsToMax f mode neg → f.pol = .finite → overflowCode f neg mode = withSign f neg (nanCode f)) := by
  have htoMax : (mode = 1 || (mode = 2 && neg) || (mode = 3 && !neg)) = true ↔
      mode = 1 ∨ (mode = 2 ∧ neg = true) ∨ (mode = 3 ∧ neg = false) := by
    simp [or_assoc]
  unfold overflowCode overflowsToMax
  cases hp : f.pol with
  | ieee =>
    simp only [htoMax, reduceCtorEq, false_or]
    exact ⟨fun h => by rw [if_pos h], fun h _ => by rw [if_neg h], fun _ h => h.elim⟩
  | finite =>
    simp only [htoMax, reduceCtorEq, false_or]
    exact ⟨fun h => by rw [if_pos h], fun _ h => h.elim, fun h _ => by rw [if_neg h]⟩
  | satfinite => simp
  | unsigned => simp
  | integer => exact absurd hp hf.pol

theorem sign_of_not_unsigned {neg : Bool} (hu : ¬ (f.pol = .unsigned ∧ neg = true)) : neg = true → f.sg = true :=
  fun hneg => hf.sign.mpr fun h => hu ⟨h, hneg⟩

/-- The sign bit of a code, and the bits below it (R30). -/
theorem withSign_top {neg : Bool} (hneg : neg = true → f.sg = true) (c : Nat) :
    withSign f neg c = (if neg = true then 2 ^ (f.w - 1) else 0) + c := by
  rw [withSign_eq hf hneg]
  split
  · rw [hf.width_pred (hneg ‹_›)]
  · rfl

/-- The NaN of FINITE policy: all bits below the sign set (R35). -/
theorem nanCode_finite (hp : f.pol = .finite) : nanCode f = 2 ^ (f.w - 1) - 1 := by
  rw [nanCode, hp, hf.width_pred (hf.sign.mpr (by simp [hp]))]

/-- A finite value other than zero (R41, R44). -/
theorem roundNum_float_right (mode : Nat) {neg : Bool} (hu : ¬ (f.pol = .unsigned ∧ neg = true)) {m : Nat} (hm : m ≠ 0) (e : Int) :
    let got := roundNum f mode (.fin neg m e)
    let r := roundedMag f mode neg (magOf m e)
    (r ≤ maxFin f → readsAs f got neg r) ∧ (maxFin f < r → overflowsToMax f mode neg → readsAs f got neg (maxFin f)) ∧
    (maxFin f < r → ¬ overflowsToMax f mode neg → f.pol = .ieee → decodeNum f got = .inf neg) ∧
    (maxFin f < r → ¬ overflowsToMax f mode neg → f.pol = .finite →
      got = (if neg = true then 2 ^ (f.w - 1) else 0) + (2 ^ (f.w - 1) - 1)) := by
  have hneg := sign_of_not_unsigned hf hu
  obtain ⟨hmax, hinf, hnan⟩ := overflowCode_cases hf mode neg
  obtain ⟨hle, hlt⟩ := floatCode_cases hf mode hneg (magOf_pos hm e)
  dsimp only
  rw [roundNum_float hf.pol mode hu hm e]
  refine ⟨hle, fun h hto => ?_, fun h hto hp => ?_, fun h hto hp => ?_⟩
  · rw [hlt h, hmax hto]
    exact readsAs_maxCode hf hneg
  · rw [hlt h, hinf hto hp]
    exact decodeNum_infinity hf hp hneg
  · rw [hlt h, hnan hto hp, withSign_top hf hneg, nanCode_finite hf hp]

/-- Zeros (R43). -/
theorem roundNum_zero_right (mode : Nat) (neg : Bool) (e : Int) :
    roundNum f mode (.fin neg 0 e) = if f.pol = .integer ∨ f.pol = .unsigned then 0 else if neg = true then 2 ^ (f.w - 1) else 0 := by
  have hzero : roundNum f mode (.fin neg 0 e) = withSign f neg 0 := if_neg hf.pol
  rw [hzero]
  by_cases hp : f.pol = .unsigned
  · rw [if_pos (.inr hp), withSign, hf.unsigned hp]
    rfl
  · rw [if_neg (not_or.mpr ⟨hf.pol, hp⟩), withSign_top hf (sign_of_not_unsigned hf fun h => hp h.1), Nat.add_zero]

/-- NaNs (R35, R43). -/
theorem roundNum_nan_right (mode : Nat) : roundNum f mode .nan =
    if f.pol = .ieee then (2 ^ f.eb - 1) * 2 ^ f.mb + 2 ^ (f.mb - 1) else if f.pol = .finite then 2 ^ (f.w - 1) - 1 else 0 := by
  have hcode : roundNum f mode .nan = nanCode f := rfl
  rw [hcode]
  cases hp : f.pol with
  | ieee =>
    rw [nanCode, hp]
    rfl
  | finite => exact nanCode_finite hf hp
  | satfinite =>
    rw [nanCode, hp]
    rfl
  | unsigned =>
    rw [nanCode, hp]
    rfl
  | integer => exact absurd hp hf.pol

/-- Infinities (R43). -/
theorem roundNum_inf_right (mode : Nat) (neg : Bool) :
    let inf := roundNum f mode (.inf neg)
    (f.pol = .ieee → decodeNum f inf = .inf neg) ∧
    (f.pol = .finite → inf = (if neg = true then 2 ^ (f.w - 1) else 0) + (2 ^ (f.w - 1) - 1)) ∧
    (f.pol = .satfinite → readsAs f inf neg (maxFin f)) ∧
    (f.pol = .unsigned → (neg = true → inf = 0) ∧ (neg = false → readsAs f inf false (maxFin f))) ∧
    (f.pol = .integer → (inf : Int) = (if neg = true then intLo f else intHi f) % 2 ^ f.w) := by
  have hneg (hp : f.pol ≠ .unsigned) := sign_of_not_unsigned hf (neg := neg) fun h => hp h.1
  unfold roundNum
  dsimp only
  refine ⟨fun hp => ?_, fun hp => ?_, fun hp => ?_, fun hp => ⟨fun hn => ?_, fun hn => ?_⟩, fun hp => absurd hp hf.pol⟩
  all_goals simp only [hp]
  · exact decodeNum_infinity hf hp (hneg (by simp [hp]))
  · rw [withSign_top hf (hneg (by simp [hp])), nanCode_finite hf hp]
  · exact readsAs_maxCode hf (hneg (by simp [hp]))
  · rw [if_pos hn]
  · have h := readsAs_maxCode hf (neg := false) (by simp)
    rw [hn]
    simpa [withSign] using h

/-- Rounding to a floating format (R41, R43, R44). -/
theorem roundsRight_floating : roundsRight f := by
  intro mode m neg e _
  refine ⟨fun hm => ⟨fun h => absurd h hf.pol, fun hp hneg => ?_, fun _ hu => roundNum_float_right hf mode hu hm e⟩,
    roundNum_zero_right hf mode neg e, roundNum_nan_right hf mode, roundNum_inf_right hf mode neg⟩
  rw [hneg]
  exact roundNum_unsigned_neg hp mode hm e

end

/-- An infinity gives the end of an integer's range (R43). -/
theorem roundNum_inf_integer {f : Fmt} (hp : f.pol = .integer) (hw : 0 < f.w) (mode : Nat) (neg : Bool) :
    (roundNum f mode (.inf neg) : Int) = (if neg = true then intLo f else intHi f) % 2 ^ f.w := by
  have hpow : (2 : Int) ^ f.w = 2 * 2 ^ (f.w - 1) := by rw [← pow_succ', Nat.sub_add_cancel hw]
  have hpos : (0 : Int) < 2 ^ (f.w - 1) := by positivity
  have hinf : roundNum f mode (.inf neg) = if neg = true then (if f.sg = true then 2 ^ (f.w - 1) else 0)
      else (if f.sg = true then 2 ^ (f.w - 1) - 1 else 2 ^ f.w - 1) := by simp only [roundNum, hp]
  rw [hinf]
  unfold intLo intHi
  cases neg <;> cases f.sg
  · push_cast [Nat.one_le_two_pow]
    exact (Int.emod_eq_of_lt (by omega) (by omega)).symm
  · push_cast [Nat.one_le_two_pow]
    exact (Int.emod_eq_of_lt (by omega) (by omega)).symm
  · rfl
  · have hwrap : -(2 : Int) ^ (f.w - 1) = 2 ^ (f.w - 1) + 2 ^ f.w * (-1) := by omega
    push_cast
    show (2 : Int) ^ (f.w - 1) = -2 ^ (f.w - 1) % 2 ^ f.w
    rw [hwrap, Int.add_mul_emod_self_left]
    exact (Int.emod_eq_of_lt hpos.le (by omega)).symm

/-- Rounding to an integer format (R42, R43). -/
theorem roundsRight_integer {f : Fmt} (hp : f.pol = .integer) (hw : 0 < f.w) : roundsRight f := by
  intro mode m neg e _
  have hint : ∀ p : Policy, p ≠ .integer → f.pol ≠ p := fun p h => hp ▸ h.symm
  refine ⟨fun hm => ⟨fun _ => roundNum_integer hp mode neg hm e, fun h => absurd h (hint _ (by decide)), fun h => absurd hp h⟩, ?_, ?_,
    fun h => absurd h (hint _ (by decide)), fun h => absurd h (hint _ (by decide)), fun h => absurd h (hint _ (by decide)),
    fun h => absurd h (hint _ (by decide)), fun _ => ?_⟩
  · rw [if_pos (.inl hp)]
    exact if_pos hp
  · simp [roundNum, nanCode, hp]
  · exact roundNum_inf_integer hp hw mode neg

end Sys2Proof.Machine

/-! PROOFS. Sums, products and their combinations, rounded once, and the order of values (R187 to R191). -/

namespace Sys2Proof.Machine

/-! ## One rounding -/

theorem flipped_eq (x : Machine.Num) : flipped x = x.neg := by cases x <;> rfl

theorem Num.same.neg {x y : Machine.Num} (h : x.same y) : x.neg.same y.neg := by
  cases x with
  | nan => exact congrArg Num.neg h
  | inf s => exact congrArg Num.neg h
  | fin s m e =>
    obtain ⟨k, u, rfl, hmag⟩ := h
    exact ⟨k, u, rfl, hmag⟩

theorem roundNum_same {x y : Machine.Num} (h : x.same y) (f : Fmt) (mode : Nat) : roundNum f mode x = roundNum f mode y := by
  cases x with
  | nan => exact congrArg _ h.symm
  | inf s => exact congrArg _ h.symm
  | fin s m e =>
    obtain ⟨k, u, rfl, hmag⟩ := h
    exact roundNum_congr_mag f mode s hmag.symm

/-- A sum depends on the value of its first term alone (R187). -/
theorem exactSum_same {mode : Nat} {x y z r : Machine.Num} (h : x.same y) (hsum : exactSum mode x z r) : exactSum mode y z r := by
  cases x with
  | nan => exact h ▸ hsum
  | inf s => exact h ▸ hsum
  | fin s m e =>
    obtain ⟨k, u, rfl, hmag⟩ := h
    cases z with
    | nan => exact hsum
    | inf t => exact hsum
    | fin t n v =>
      have hzero : k = 0 ↔ m = 0 := by rw [← magOf_eq_zero, hmag, magOf_eq_zero]
      unfold exactSum at hsum ⊢
      simpa only [hmag, hzero] using hsum

/-- Sums, products and their combinations round the exact result once (R187 to R189, R191). -/
theorem computesRight_all (f : Fmt) : computesRight f := by
  intro mode a b c r
  refine ⟨fun h => (roundNum_exactSum h).symm, fun h => ?_, fun h => ?_, fun np nc p hprod hsum => ?_⟩
  · rw [flipped_eq] at h
    exact (roundNum_exactSum h).symm
  · exact (roundNum_same (exactProduct_unique h (exactProduct_mul _ _)) f mode).symm
  · have hsame : p.same (Num.mul (decodeNum f a) (decodeNum f b)) := exactProduct_unique hprod (exactProduct_mul _ _)
    have hsame' : (if np = true then flipped p else p).same
        (if np = true then (Num.mul (decodeNum f a) (decodeNum f b)).neg else Num.mul (decodeNum f a) (decodeNum f b)) := by
      split
      · rw [flipped_eq]
        exact hsame.neg
      · exact hsame
    rw [flipped_eq (decodeNum f c)] at hsum
    exact (roundNum_exactSum (exactSum_same hsame' hsum)).symm

/-! ## The order of values -/

theorem Num.lt_iff_valueOf {x y : Machine.Num} (hx : x ≠ .nan) (hy : y ≠ .nan) : Num.lt x y = true ↔ valueOf x < valueOf y := by
  cases x with
  | nan => exact absurd rfl hx
  | inf s =>
    cases y with
    | nan => exact absurd rfl hy
    | inf t => cases s <;> cases t <;> simp [Num.lt, valueOf]
    | fin t n f => cases s <;> simp [Num.lt, valueOf]
  | fin s m e =>
    cases y with
    | nan => exact absurd rfl hy
    | inf t =>
      cases t with
      | true => simp [Num.lt, valueOf]
      | false => exact iff_of_true rfl (WithBot.coe_lt_coe.mpr (WithTop.coe_lt_top _))
    | fin t n f =>
      have hpos := two_zpow_pos_rat (min e f)
      have hscale : scaleInt s m e (min e f) < scaleInt t n f (min e f) ↔ numVal s m e < numVal t n f := by
        rw [← scaleInt_val s m (min_le_left e f), ← scaleInt_val t n (min_le_right e f), mul_lt_mul_iff_left₀ hpos]
        exact Int.cast_lt.symm
      simp only [Num.lt, valueOf, decide_eq_true_iff, hscale, WithBot.coe_lt_coe, WithTop.coe_lt_coe]
      rfl

theorem signBit_iff (f : Fmt) (hw : 0 < f.w) {a : Nat} (ha : a < 2 ^ f.w) : signBit f a = true ↔ 2 ^ (f.w - 1) ≤ a := by
  have hpow : 2 ^ f.w = 2 * 2 ^ (f.w - 1) := by rw [← pow_succ', Nat.sub_add_cancel hw]
  have hdiv : a / 2 ^ (f.w - 1) < 2 := Nat.div_lt_of_lt_mul (by omega)
  have hone : 1 ≤ a / 2 ^ (f.w - 1) ↔ 2 ^ (f.w - 1) ≤ a := by rw [Nat.le_div_iff_mul_le (Nat.two_pow_pos _), one_mul]
  rw [signBit, decide_eq_true_iff, ← hone]
  generalize a / 2 ^ (f.w - 1) = n at hdiv
  omega

theorem isNan_eq_false {x : Machine.Num} (h : x ≠ .nan) : x.isNan = false := by
  cases x with
  | nan => exact absurd rfl h
  | inf s => rfl
  | fin s m e => rfl

/-- The lesser and the greater of two codes (R188, R191). -/
theorem picksRight_of {f : Fmt} (hw : 0 < f.w) {nan : Nat} (hnan : nanCode f = nan) : picksRight f nan := by
  intro a b ha hb x y picks
  have hmin : fmin f a b = if x.isNan && y.isNan then nan else if x.isNan then b else if y.isNan then a else if Num.lt x y then a
      else if Num.lt y x then b else if signBit f a then a else b := hnan ▸ rfl
  have hmax : fmax f a b = if x.isNan && y.isNan then nan else if x.isNan then b else if y.isNan then a else if Num.lt x y then b
      else if Num.lt y x then a else if signBit f a then b else a := hnan ▸ rfl
  dsimp only [picks]
  rw [hmin, hmax]
  refine ⟨fun hx hy => ?_, fun hx hy => ?_, fun hx hy => ?_, fun hx hy => ?_⟩
  · simp [hx, hy, Num.isNan]
  · simp [hx, Num.isNan]
  · simp [hy, Num.isNan]
  · simp only [isNan_eq_false hx, isNan_eq_false hy, Num.lt_iff_valueOf hx hy, Num.lt_iff_valueOf hy hx, signBit_iff f hw ha]
    refine ⟨fun h => ?_, fun h => ?_, fun h => ?_⟩
    · simp [h]
    · simp [h, h.not_gt]
    · rw [h]
      split <;> simp [*]

end Sys2Proof.Machine

/-! PROOFS. Signs of FP32 codes, and the power of two of FDIVS (R188, R194, R202). -/

namespace Sys2Proof.Machine

/-- A magnitude that is a whole number of units of its last mantissa bit rounds to itself (R45). -/
theorem roundedMag_exact (f : Fmt) (mode : Nat) (neg : Bool) {m : Nat} {e : Int} (h : lastWeight f (magOf m e) ≤ e) :
    roundedMag f mode neg (magOf m e) = magOf m e := by
  obtain ⟨n, hn⟩ := Int.eq_ofNat_of_zero_le (sub_nonneg.mpr h)
  have hpow : (2 : ℚ) ^ e = 2 ^ n * 2 ^ lastWeight f (magOf m e) := by
    rw [← zpow_natCast, ← zpow_add₀ two_ne_zero]
    congr 1
    omega
  have hunits : magOf m e / 2 ^ lastWeight f (magOf m e) = ((m * 2 ^ n : Nat) : ℚ) := by
    rw [div_eq_iff (two_zpow_pos_rat _).ne']
    nth_rewrite 1 [magOf]
    rw [hpow]
    push_cast
    ring
  rw [roundedMag, hunits, roundMag_natCast, magOf, ← hunits, div_mul_cancel₀ _ (two_zpow_pos_rat _).ne']

/-- The powers of two that FDIVS gives are values of FP32, the least of them a subnormal one (R194). -/
theorem readsAs_power (mode : Nat) {j : Int} (hlow : -127 ≤ j) (hhigh : j ≤ 127) :
    readsAs Fmt.fp32 (roundNum Fmt.fp32 mode (.fin false 1 j)) false (2 ^ j) := by
  have hval : magOf 1 j = 2 ^ j := by simp [magOf]
  have hexact : roundedMag Fmt.fp32 mode false (magOf 1 j) = 2 ^ j := by
    rw [← hval]
    refine roundedMag_exact Fmt.fp32 mode false ?_
    have hlog : Int.log 2 (magOf 1 j) = j := (intLog_magOf one_ne_zero j).trans (zero_add j)
    rw [lastWeight, hlog]
    simp only [Fmt.fp32]
    omega
  have hmax : (2 : ℚ) ^ j ≤ maxFin Fmt.fp32 := by
    refine (zpow_le_zpow_right₀ one_le_two hhigh).trans ?_
    norm_num [maxFin, Fmt.fp32]
  have hread := (roundNum_float_right floating_fp32 mode (neg := false) (by decide) one_ne_zero j).1
  rw [hexact] at hread
  exact hread hmax

theorem divScale_fin {a : Nat} {neg : Bool} {m : Nat} {e : Int} (h : decodeNum Fmt.fp32 a = .fin neg m e) (hm : m ≠ 0) :
    readsAs Fmt.fp32 (divScale a) false ((2 : ℚ) ^ (-(max (-127) (min 127 (Int.log 2 (magOf m e)))))) := by
  have hcode : divScale a = roundNum Fmt.fp32 0 (.fin false 1 (-(max (-127) (min 127 (Int.log 2 (magOf m e)))))) := by
    rw [intLog_magOf hm, ← satI_eq _ _ _ (by decide)]
    unfold divScale
    rw [h]
    exact if_neg hm
  rw [hcode]
  exact readsAs_power 0 (by omega) (by omega)

/-- FABS, FNEG, FDIVS and the fix of a NaN code (R188, R194, R202). -/
theorem signsRight_all : signsRight := by
  intro a ha x
  refine ⟨fun hx => ?_, fun hx => ?_, fun neg hx => ?_, fun neg e hx => ?_, fun neg m e hx hm => divScale_fin hx hm⟩
  · have hnan : (decodeNum Fmt.fp32 a).isNan = true := congrArg Num.isNan hx
    refine ⟨if_pos hnan, if_pos hnan, ?_, if_pos hnan⟩
    unfold divScale
    rw [show decodeNum Fmt.fp32 a = .nan from hx]
  · have hnan : ¬ (decodeNum Fmt.fp32 a).isNan = true := by rw [isNan_eq_false hx]; decide
    refine ⟨if_neg hnan, (if_neg hnan).trans ?_, if_neg hnan⟩
    have hsign : signBit Fmt.fp32 a = true ↔ 2 ^ 31 ≤ a := signBit_iff Fmt.fp32 (by decide) ha
    simp only [hsign]
    split <;> split <;> omega
  · unfold divScale
    rw [show decodeNum Fmt.fp32 a = .inf neg from hx]
  · unfold divScale
    rw [show decodeNum Fmt.fp32 a = .fin neg 0 e from hx]
    rfl

end Sys2Proof.Machine

/-! PROOFS. The seeds of FRSQS and FRCPS and their tables (R46 to R49). -/

namespace Sys2Proof.Machine

/-! ## Tables -/

theorem isqrtGo_bounds (n k r : Nat) (hr : r * r ≤ n) (hn : n < (r + 2 ^ k) * (r + 2 ^ k)) :
    isqrtGo k n r * isqrtGo k n r ≤ n ∧ n < (isqrtGo k n r + 1) * (isqrtGo k n r + 1) := by
  induction k generalizing r with
  | zero => exact ⟨hr, hn⟩
  | succ k ih =>
    rw [isqrtGo]
    split
    · exact ih _ ‹_› (by rwa [add_assoc, ← two_mul, ← pow_succ'])
    · exact ih _ hr (not_le.mp ‹_›)

/-- The square root of the tables is the floor of the root. -/
theorem isqrt_bounds (n : Nat) : isqrt n * isqrt n ≤ n ∧ n < (isqrt n + 1) * (isqrt n + 1) := by
  refine isqrtGo_bounds n _ 0 (Nat.zero_le n) ?_
  rw [zero_add, ← pow_add, Nat.log2_eq_log_two]
  exact (Nat.lt_pow_succ_log_self one_lt_two n).trans_le (Nat.pow_le_pow_right two_pos (by omega))

/-- No midpoint divides a power of two: 257 + 2t is odd. -/
theorem not_dvd_two_pow (t p n : Nat) : ¬ (257 + 2 * t) * 2 ^ p ∣ 2 ^ n := fun h => by
  have hodd : Nat.Coprime (257 + 2 * t) (2 ^ n) := Nat.Coprime.pow_right n (by
    rw [Nat.coprime_two_right, Nat.odd_iff]
    omega)
  have := hodd.eq_one_of_dvd ((Nat.dvd_mul_right _ _).trans h)
  omega

/-- An entry of rsqrt_table lies within half a unit of 2^12 / √mid (R46). -/
theorem rsqrtTable_bounds (i : Nat) : (2 * rsqrtTable i - 1) ^ 2 * ((257 + 2 * (i % 128)) * 2 ^ (i / 128)) < 2 ^ 34 ∧
    2 ^ 34 < (2 * rsqrtTable i + 1) ^ 2 * ((257 + 2 * (i % 128)) * 2 ^ (i / 128)) := by
  have hndvd := not_dvd_two_pow (i % 128) (i / 128) 34
  unfold rsqrtTable
  dsimp only
  have hpos : 0 < (257 + 2 * (i % 128)) * 2 ^ (i / 128) := Nat.mul_pos (by omega) (Nat.two_pow_pos _)
  generalize (257 + 2 * (i % 128)) * 2 ^ (i / 128) = d at hndvd hpos ⊢
  obtain ⟨hlow, hhigh⟩ := isqrt_bounds (2 ^ 34 / d)
  generalize isqrt (2 ^ 34 / d) = r at hlow hhigh ⊢
  constructor
  · calc (2 * ((r + 1) / 2) - 1) ^ 2 * d ≤ r ^ 2 * d := Nat.mul_le_mul_right d (Nat.pow_le_pow_left (by omega) 2)
      _ ≤ 2 ^ 34 / d * d := Nat.mul_le_mul_right d (by rwa [sq])
      _ < 2 ^ 34 := (Nat.div_mul_le_self _ _).lt_of_ne fun h => hndvd (Dvd.intro_left _ h)
  · calc 2 ^ 34 < (2 ^ 34 / d + 1) * d := Nat.lt_mul_of_div_lt (Nat.lt_succ_self _) hpos
      _ ≤ (r + 1) ^ 2 * d := Nat.mul_le_mul_right d (by rw [sq]; omega)
      _ ≤ (2 * ((r + 1) / 2) + 1) ^ 2 * d := Nat.mul_le_mul_right d (Nat.pow_le_pow_left (by omega) 2)

/-- A quotient with an odd divisor rounds to within half a unit: there is no tie. -/
theorem rneDiv_bounds {n c : Nat} (hn : 0 < n) (hc : c % 2 = 1) : (2 * rneDiv n c - 1) * c < 2 * n ∧ 2 * n < (2 * rneDiv n c + 1) * c := by
  have hdiv : n / c * c + n % c = n := Nat.div_add_mod' _ _
  have hrem : n % c < c := Nat.mod_lt _ (by omega)
  have hup : roundsUp 0 false (n / c) (n % c) c = true ↔ c < 2 * (n % c) := by
    rw [roundsUp_iff]
    omega
  unfold rneDiv
  dsimp only
  simp only [hup]
  generalize n / c = k at hdiv ⊢
  split
  · simp only [Nat.sub_mul, Nat.add_mul, Nat.mul_add, Nat.mul_assoc, one_mul]
    omega
  · simp only [Nat.sub_mul, Nat.add_mul, Nat.mul_assoc, one_mul]
    omega

/-- An entry of rcp_table lies within half a unit of 2^12 / mid (R47). -/
theorem rcpTable_bounds (t : Nat) : (2 * rcpTable t - 1) * (257 + 2 * t) < 2 ^ 21 ∧ 2 ^ 21 < (2 * rcpTable t + 1) * (257 + 2 * t) :=
  rneDiv_bounds (by decide) (by omega)

theorem seedTables_all : seedTables := ⟨fun i _ => rsqrtTable_bounds i, fun t _ => rcpTable_bounds t⟩

theorem rsqrtTable_pos (i : Nat) (hi : i < 256) : 0 < rsqrtTable i := by
  refine Nat.pos_of_ne_zero fun h => ?_
  have := (rsqrtTable_bounds i).2
  rw [h] at this
  have hp : 2 ^ (i / 128) ≤ 2 ^ 1 := Nat.pow_le_pow_right two_pos (by omega)
  have hm := Nat.mul_le_mul (show 257 + 2 * (i % 128) ≤ 511 by omega) hp
  omega

theorem rcpTable_pos (t : Nat) (ht : t < 128) : 0 < rcpTable t := by
  refine Nat.pos_of_ne_zero fun h => ?_
  have := (rcpTable_bounds t).2
  rw [h] at this
  omega

/-! ## Rounding twice -/

/-- A magnitude rounded to 16 significant bits and then to FP32 (R48). -/
def roundedTwice (neg : Bool) (v : ℚ) : Nat :=
  roundNum Fmt.fp32 0 (.fin neg (roundMag 0 false (v / (2 : ℚ) ^ (Int.log 2 v - 15))) (Int.log 2 v - 15))

/-- The model's rounding of a quotient to n significant bits. -/
theorem roundSig_eq (n : Nat) {num den : Nat} (hn : num ≠ 0) (hd : den ≠ 0) : roundSig n num den =
    (roundMag 0 false ((num : ℚ) / den / 2 ^ (Int.log 2 ((num : ℚ) / den) - ((n : Int) - 1))),
      Int.log 2 ((num : ℚ) / den) - ((n : Int) - 1)) := by
  unfold roundSig
  rw [floorLog2_eq hn hd]
  dsimp only
  rcases h : scaleDiv num den (Int.log 2 ((num : ℚ) / den) - ((n : Int) - 1)) with ⟨k, rem, d⟩
  dsimp only
  rw [scaleDiv_round 0 false num hd _ h]

/-- A quotient of significant bits, scaled by a power of two afterwards. -/
theorem roundedTwice_quotient (neg : Bool) {num den : Nat} (hn : num ≠ 0) (hd : den ≠ 0) (z : Int) :
    roundNum Fmt.fp32 0 (.fin neg (roundSig 16 num den).1 ((roundSig 16 num den).2 + z)) = roundedTwice neg ((num : ℚ) / den * 2 ^ z) := by
  have hpos : (0 : ℚ) < (num : ℚ) / den := div_pos (Nat.cast_pos.mpr (Nat.pos_of_ne_zero hn)) (Nat.cast_pos.mpr (Nat.pos_of_ne_zero hd))
  have hexp : Int.log 2 ((num : ℚ) / den) + z - 15 = Int.log 2 ((num : ℚ) / den) - 15 + z := by omega
  rw [roundedTwice, intLog_mul_zpow hpos, hexp, zpow_add₀ two_ne_zero, mul_div_mul_right _ _ (two_zpow_pos_rat z).ne', roundSig_eq 16 hn hd]
  rfl

/-! ## Seeds -/

/-- The table index of a mantissa: the seven bits below its highest (R48). -/
def seedIndex (m : Nat) : Nat := m * 128 / 2 ^ Nat.log2 m - 128

section
variable {m : Nat} (hm : m ≠ 0)
include hm

theorem two_pow_log2_le : 2 ^ Nat.log2 m ≤ m ∧ m < 2 * 2 ^ Nat.log2 m := by
  rw [Nat.log2_eq_log_two, ← pow_succ']
  exact ⟨Nat.pow_log_le_self 2 hm, Nat.lt_pow_succ_log_self one_lt_two m⟩

theorem seedIndex_lt : seedIndex m < 128 := by
  have h : m * 128 / 2 ^ Nat.log2 m < 256 := Nat.div_lt_of_lt_mul (by have := two_pow_log2_le hm; omega)
  unfold seedIndex
  omega

/-- The mantissa of a value, between 1 and 2 (R48). -/
theorem mantissa_eq (e : Int) : magOf m e / 2 ^ Int.log 2 (magOf m e) = m / 2 ^ Nat.log2 m := by
  rw [intLog_magOf hm, magOf, zpow_add₀ two_ne_zero, zpow_natCast, mul_div_mul_right _ _ (two_zpow_pos_rat e).ne']

omit hm in
theorem seedIndex_eq : ⌊((m : ℚ) / 2 ^ Nat.log2 m - 1) * 128⌋₊ = seedIndex m := by
  have h : ((m : ℚ) / 2 ^ Nat.log2 m - 1) * 128 = ((m * 128 : Nat) : ℚ) / ((2 ^ Nat.log2 m : Nat) : ℚ) - (128 : Nat) := by
    push_cast
    ring
  rw [h, Nat.floor_sub_natCast, Nat.floor_div_eq_div]
  rfl

/-- seed_rcp of a finite value (R48). -/
theorem seedRcpFin_eq (neg : Bool) (e : Int) : seedRcpFin neg m e =
    roundedTwice neg ((rcpTable (seedIndex m) : ℚ) / 4096 *
      (1 - (m / 2 ^ Nat.log2 m - (1 + (2 * seedIndex m + 1) / 256)) / (1 + (2 * seedIndex m + 1) / 256)) *
      2 ^ (-(Nat.log2 m + e))) := by
  obtain ⟨-, hhigh⟩ := two_pow_log2_le hm
  have hT := rcpTable_pos _ (seedIndex_lt hm)
  have hL : 0 < 2 ^ Nat.log2 m := Nat.two_pow_pos _
  unfold seedRcpFin
  dsimp only
  rw [show m * 128 / 2 ^ Nat.log2 m - 128 = seedIndex m from rfl]
  generalize seedIndex m = t at hT ⊢
  generalize rcpTable t = T at hT ⊢
  have hlt : 256 * m < 2 * (257 + 2 * t) * 2 ^ Nat.log2 m := by
    calc 256 * m < 512 * 2 ^ Nat.log2 m := by omega
      _ ≤ 2 * (257 + 2 * t) * 2 ^ Nat.log2 m := Nat.mul_le_mul_right _ (by omega)
  have hnum : T * (2 * (257 + 2 * t) * 2 ^ Nat.log2 m - 256 * m) ≠ 0 := mul_ne_zero hT.ne' (Nat.sub_pos_of_lt hlt).ne'
  have hden : 4096 * (2 ^ Nat.log2 m * (257 + 2 * t)) ≠ 0 := by positivity
  rw [sub_eq_add_neg _ ((Nat.log2 m : Int) + e), roundedTwice_quotient neg hnum hden]
  congr 2
  have hp : (2 : ℚ) ^ Nat.log2 m ≠ 0 := by positivity
  have hc : (257 : ℚ) + 2 * t ≠ 0 := by positivity
  push_cast [hlt.le]
  field_simp
  ring

/-- seed_rsqrt of a positive finite value (R48). -/
theorem seedRsqrtFin_eq (e : Int) : seedRsqrtFin m e =
    roundedTwice false ((rsqrtTable (((Nat.log2 m + e) % 2).toNat * 128 + seedIndex m) : ℚ) / 4096 *
      (1 - (m / 2 ^ Nat.log2 m * 2 ^ ((Nat.log2 m + e) % 2) - (1 + (2 * seedIndex m + 1) / 256) * 2 ^ ((Nat.log2 m + e) % 2)) /
        (2 * ((1 + (2 * seedIndex m + 1) / 256) * 2 ^ ((Nat.log2 m + e) % 2)))) *
      2 ^ (-((Nat.log2 m + e - (Nat.log2 m + e) % 2) / 2))) := by
  obtain ⟨-, hhigh⟩ := two_pow_log2_le hm
  have ht := seedIndex_lt hm
  have hparity : (((Nat.log2 m + e) % 2).toNat : Int) = (Nat.log2 m + e) % 2 := Int.toNat_of_nonneg (Int.emod_nonneg _ two_ne_zero)
  have hT := rsqrtTable_pos (((Nat.log2 m + e) % 2).toNat * 128 + seedIndex m) (by omega)
  have hP := two_zpow_pos_rat ((Nat.log2 m + e) % 2)
  have hL : 0 < 2 ^ Nat.log2 m := Nat.two_pow_pos _
  unfold seedRsqrtFin
  dsimp only
  rw [show m * 128 / 2 ^ Nat.log2 m - 128 = seedIndex m from rfl, hparity]
  generalize seedIndex m = t at hT ⊢
  generalize rsqrtTable (((Nat.log2 m + e) % 2).toNat * 128 + t) = T at hT ⊢
  generalize (2 : ℚ) ^ ((Nat.log2 m + e) % 2) = P at hP ⊢
  have hlt : 256 * m < 3 * (257 + 2 * t) * 2 ^ Nat.log2 m := by
    calc 256 * m < 771 * 2 ^ Nat.log2 m := by omega
      _ ≤ 3 * (257 + 2 * t) * 2 ^ Nat.log2 m := Nat.mul_le_mul_right _ (by omega)
  have hnum : T * (3 * (257 + 2 * t) * 2 ^ Nat.log2 m - 256 * m) ≠ 0 := mul_ne_zero hT.ne' (Nat.sub_pos_of_lt hlt).ne'
  have hden : 4096 * (2 ^ (Nat.log2 m + 1) * (257 + 2 * t)) ≠ 0 := by positivity
  rw [sub_eq_add_neg _ (((Nat.log2 m : Int) + e - (Nat.log2 m + e) % 2) / 2), roundedTwice_quotient false hnum hden]
  congr 2
  have hp : (2 : ℚ) ^ Nat.log2 m ≠ 0 := by positivity
  have hc : (257 : ℚ) + 2 * t ≠ 0 := by positivity
  push_cast [hlt.le]
  field_simp
  ring

end

/-- The seeds of every code (R48, R49). -/
theorem seedsRight_all : seedsRight := by
  intro a twice
  refine ⟨?_, fun neg e h => ?_, fun neg h => ?_, fun h => ?_⟩
  · intro neg m e h hm x ex fr t p mid one
    have hfr : fr = m / 2 ^ Nat.log2 m - 1 := congrArg (· - 1) (mantissa_eq hm e)
    have hex : ex = Nat.log2 m + e := intLog_magOf hm e
    have ht : t = seedIndex m := (congrArg (fun y : ℚ => ⌊y * 128⌋₊) hfr).trans seedIndex_eq
    refine ⟨fun hneg => ?_, fun hneg => ?_, ?_⟩
    · have hcode : seedRsqrt a = seedRsqrtFin m e := by
        unfold seedRsqrt
        rw [h, hneg]
        exact (if_neg hm).trans (if_neg (by decide))
      rw [hcode, seedRsqrtFin_eq hm e]
      dsimp only [p, mid, one]
      rw [hfr, hex, ht, add_sub_cancel]
      rfl
    · unfold seedRsqrt
      rw [h, hneg]
      exact (if_neg hm).trans (if_pos rfl)
    · have hcode : seedRcp a = seedRcpFin neg m e := by
        unfold seedRcp
        rw [h]
        exact if_neg hm
      rw [hcode, seedRcpFin_eq hm neg e]
      dsimp only [one]
      rw [hfr, hex, ht, add_sub_cancel]
      rfl
  · unfold seedRsqrt seedRcp
    rw [h]
    exact ⟨rfl, rfl⟩
  · unfold seedRsqrt seedRcp
    rw [h]
    exact ⟨rfl, rfl⟩
  · unfold seedRsqrt seedRcp
    rw [h]
    exact ⟨rfl, rfl⟩

end Sys2Proof.Machine

/-! PROOFS. Floating-point operations, seeds, conversions and moves of kernel slots (O48). -/

namespace Sys2Proof.Machine

section
variable {s : State} (hruns : kernelRuns s) (g : Guard) (d a b c : BitVec 7)
include hruns

/-- The common form of a kernel slot, where it issues (R155). -/
theorem kslot_issues (v : List Nat → State → State) : kslot g v s = .next (slotIssued (v (actOf s.ca g) s)) := by
  obtain ⟨i, hinv, hbundle⟩ := hruns
  exact kslot_run g v s i hinv hbundle

theorem kFp1_issues (off : Nat) (v : Nat → Nat) :
    kFp1 g d a off v s = .next (slotIssued (oweD d off (actOf s.ca g) (fun l => v (s.ca.rd l a).toNat) s)) := kslot_issues hruns g _

theorem kFp2_issues (v : Nat → Nat → Nat) : kFp2 g d a b v s =
    .next (slotIssued (oweD d 4 (actOf s.ca g) (fun l => v (s.ca.rd l a).toNat (s.ca.rd l b).toNat) s)) := kslot_issues hruns g _

theorem kFp3_issues (v : Nat → Nat → Nat → Nat) : kFp3 g d a b c v s =
    .next (slotIssued (oweD d 4 (actOf s.ca g) (fun l => v (s.ca.rd l a).toNat (s.ca.rd l b).toNat (s.ca.rd l c).toNat) s)) :=
  kslot_issues hruns g _

end

/-- The codes of a format that a descriptor names, and rounding to it (R33, R41). -/
theorem codesRight_of_fmtOf {fd : BitVec 16} {f : Fmt} (h : fmtOf fd = some f) : readsCodes f ∧ roundsRight f := by
  rcases fmtOf_kind h with ⟨hint, hw⟩ | hfloat
  · exact ⟨readsCodes_integer hint, roundsRight_integer hint hw⟩
  · exact ⟨readsCodes_floating hfloat, roundsRight_floating hfloat⟩

/-- Settles O48: a slot owes the value of its function; codes, rounding, exact sums and products, seeds and the picks of two operands are as
their rules give them. -/
theorem kernelFloatResults : Obligations.KernelFloatResults := by
  intro s g d a b c rm w fd hruns act x half half3 f n
  refine ⟨?_, ?_, ?_, ?_, ?_, ?_, ?_, fun _ _ _ _ => rfl, fun k hk => codesRight_of_fmtOf hk, computesRight_all _, computesRight_all _,
    seedTables_all, seedsRight_all, picksRight_of (by decide) rfl, picksRight_of (by decide) rfl, signsRight_all⟩
  · have hop (v : Nat → Nat → Nat) := kFp2_issues hruns g d a b v
    simp only [List.forall_mem_cons, exec_fadd, exec_fsub, exec_fmul, exec_fmin, exec_fmax, exec_hadd,
      exec_hsub, exec_hmul, exec_hmin, exec_hmax]
    exact ⟨hop _, hop _, hop _, hop _, hop _, hop _, hop _, hop _, hop _, hop _, List.forall_mem_nil _⟩
  · have hop (v : Nat → Nat → Nat → Nat) := kFp3_issues hruns g d a b c v
    simp only [List.forall_mem_cons, exec_ffma, exec_ffms, exec_fnfma, exec_fnfms, exec_hfma, exec_hfms]
    exact ⟨hop _, hop _, hop _, hop _, hop _, hop _, List.forall_mem_nil _⟩
  · have hop (off : Nat) (v : Nat → Nat) := kFp1_issues hruns g d a off v
    simp only [List.forall_mem_cons, exec_fabs, exec_fneg, exec_frsqs, exec_frcps, exec_fdivs, exec_cvtto,
      exec_cvtfrom]
    exact ⟨hop _ _, hop _ _, hop _ _, hop _ _, hop _ _, hop _ _, hop _ _, List.forall_mem_nil _⟩
  · exact (exec_mvmw g d a w s).trans (kslot_issues hruns g _)
  · exact (exec_mvwm g d a w s).trans (kslot_issues hruns g _)
  · exact (exec_cvtpack g d a fd rm s).trans (kslot_issues hruns g _)
  · exact (exec_cvtunpk g d a fd rm s).trans (kslot_issues hruns g _)

end Sys2Proof.Machine

/-! PROOFS. The fields of control-processor words, and the decoder on the words of well-formed instructions (R61 to R67). -/

namespace Sys2Proof.Machine

/-! ## Fields of a word -/

/-- A field within the low part of a word. -/
@[simp] theorem fld_append_low {v w : Nat} (a : BitVec v) (b : BitVec w) {lo n : Nat} (h : lo + n ≤ w) : fld (no_index (a ++ b)) lo n = fld b lo n :=
  BitVec.extractLsb'_append_eq_of_add_le h

/-- A field within the high part of a word. -/
@[simp] theorem fld_append_high {v w : Nat} (a : BitVec v) (b : BitVec w) {lo n : Nat} (h : w ≤ lo) : fld (no_index (a ++ b)) lo n = fld a (lo - w) n :=
  BitVec.extractLsb'_append_eq_of_le h

/-- All of a word is one field of it. -/
theorem fld_all {w : Nat} (v : BitVec w) : fld v 0 w = v := BitVec.extractLsb'_eq_self

/-- A field of a field. -/
theorem fld_fld {w : Nat} (v : BitVec w) {lo n lo' n' : Nat} (h : lo' + n' ≤ n) : fld (fld v lo n) lo' n' = fld v (lo + lo') n' := by
  refine BitVec.eq_of_getLsbD_eq fun i hi => ?_
  have : lo' + i < n := by omega
  simp [hi, this, Nat.add_assoc]

section
variable (op : BitVec 5) (g : Guard) (r : BitVec 22)

/-- OP and the guard of a control-processor word (R61). -/
@[simp] theorem fld_cpWord_op : fld (cpWord op g r) 27 5 = op := by
  rw [cpWord, fld_append_high _ _ (by decide), fld_append_high _ _ (by decide), fld_append_high _ _ (by decide)]
  exact fld_all op

@[simp] theorem fld_cpWord_gp : fld (cpWord op g r) 23 4 = g.gp := by
  rw [cpWord, fld_append_high _ _ (by decide), fld_append_high _ _ (by decide), fld_append_low _ _ (by decide)]
  exact fld_all g.gp

@[simp] theorem bit_cpWord_gn : bit (cpWord op g r) 22 = g.gn := by
  rw [bit, cpWord, BitVec.getLsbD_append, if_neg (by decide), BitVec.getLsbD_append, if_pos (by decide), BitVec.getLsbD_ofBool]
  simp

/-- A field of the bits below the guard. -/
@[simp] theorem fld_cpWord {lo n : Nat} (h : lo + n ≤ 22) : fld (cpWord op g r) lo n = fld r lo n := fld_append_low _ _ h

@[simp] theorem cpWord_ne_zero (hop : op ≠ 0#5) : cpWord op g r ≠ 0#32 := by
  intro h
  apply hop
  rw [← fld_cpWord_op op g r, h]
  decide

end

theorem keep_of_wf {i : Instr} (h : i.wf = true) : Sys2Proof.keep i = .ok i := if_pos h

/-! ## The decoder on encoded words -/

/-- The decoder reads the word of an instruction as that instruction, which it keeps unless a field holds a reserved value. -/
def decoderReads (i : Instr) : Prop := ∀ w, encode i = some (.cp w) → decodeCp w = Sys2Proof.keep i

section
variable (g : Guard)

/-- Register operations (R87). -/
theorem decoderReads_op01 (d a b : BitVec 5) :
    ∀ i ∈ [Instr.add g d a b, .sub g d a b, .and g d a b, .or g d a b, .xor g d a b, .andn g d a b, .shl g d a b, .shr g d a b,
      .sar g d a b, .ror g d a b, .mul g d a b, .mulhu g d a b, .mulhs g d a b, .min g d a b, .max g d a b, .minu g d a b,
      .maxu g d a b, .clz g d a, .ctz g d a, .popc g d a], decoderReads i := by
  simp only [List.forall_mem_cons, List.not_mem_nil, false_implies, implies_true, and_true]
  and_intros
  all_goals
    rintro _ ⟨⟩
    simp [decodeCp, decodeOp01, fld]

/-- Immediates, SEL, bit fields, BR and CALL, each with an opcode of its own (R88, R90, R92, R94, R95, R96). -/
theorem decoderReads_single (d a b : BitVec 5) (n : BitVec 12) (m : BitVec 17) (q : BitVec 4) (p l : BitVec 6) (o : BitVec 22) :
    ∀ i ∈ [Instr.addi g d a n, .andi g d a n, .ori g d a n, .xori g d a n, .movi g d m, .sel g d a b q, .bfx g d a p l,
      .bfxs g d a p l, .bfi g d a p l, .br g o, .call g o], decoderReads i := by
  simp only [List.forall_mem_cons, List.not_mem_nil, false_implies, implies_true, and_true]
  and_intros
  all_goals
    rintro _ ⟨⟩
    simp [decodeCp, fld]

/-- Shifts by an immediate (R89). -/
theorem decoderReads_op06 (d a : BitVec 5) (n : BitVec 6) :
    ∀ i ∈ [Instr.shli g d a n, .shri g d a n, .sari g d a n, .rori g d a n], decoderReads i := by
  simp only [List.forall_mem_cons, List.not_mem_nil, false_implies, implies_true, and_true]
  and_intros
  all_goals
    rintro _ ⟨⟩
    simp [decodeCp, decodeOp06, fld]

/-- Compares of two registers (R91). -/
theorem decoderReads_op08 (p : BitVec 4) (a b : BitVec 5) :
    ∀ i ∈ [Instr.cmpeq g p a b, .cmpne g p a b, .cmplt g p a b, .cmpge g p a b, .cmpltu g p a b, .cmpgeu g p a b,
      .cmptst g p a b], decoderReads i := by
  simp only [List.forall_mem_cons, List.not_mem_nil, false_implies, implies_true, and_true]
  and_intros
  all_goals
    rintro _ ⟨⟩
    simp [decodeCp, decodeOp08, fld]

/-- Compares with an immediate (R91). -/
theorem decoderReads_op09 (p : BitVec 4) (a : BitVec 5) (n : BitVec 9) :
    ∀ i ∈ [Instr.cmpeqi g p a n, .cmpnei g p a n, .cmplti g p a n, .cmpgei g p a n, .cmpltui g p a n, .cmpgeui g p a n,
      .cmptsti g p a n], decoderReads i := by
  simp only [List.forall_mem_cons, List.not_mem_nil, false_implies, implies_true, and_true]
  and_intros
  all_goals
    rintro _ ⟨⟩
    simp [decodeCp, decodeOp09, fld]

/-- Predicate operations (R93). -/
theorem decoderReads_op0E (p a b : BitVec 4) :
    ∀ i ∈ [Instr.pand g p a b, .por g p a b, .pxor g p a b, .pandn g p a b, .pnot g p a], decoderReads i := by
  simp only [List.forall_mem_cons, List.not_mem_nil, false_implies, implies_true, and_true]
  and_intros
  all_goals
    rintro _ ⟨⟩
    simp [decodeCp, decodeOp0E, fld]

/-- Branches to a register (R97). -/
theorem decoderReads_op12 (a : BitVec 5) :
    ∀ i ∈ [Instr.brr g a, .callr g a], decoderReads i := by
  simp only [List.forall_mem_cons, List.not_mem_nil, false_implies, implies_true, and_true]
  and_intros
  all_goals
    rintro _ ⟨⟩
    simp [decodeCp, decodeOp12, fld]

/-- TRAP, ERET and YIELD (R108). -/
theorem decoderReads_op13 (n : BitVec 16) :
    ∀ i ∈ [Instr.trap g n, .eret g, .yield g], decoderReads i := by
  simp only [List.forall_mem_cons, List.not_mem_nil, false_implies, implies_true, and_true]
  and_intros
  all_goals
    rintro _ ⟨⟩
    simp [decodeCp, decodeOp13, fld]

/-- System registers (R109, R110). -/
theorem decoderReads_op14 (d : BitVec 5) (n : BitVec 12) :
    ∀ i ∈ [Instr.mfs g d n, .mts g d n, .rdtick g d], decoderReads i := by
  simp only [List.forall_mem_cons, List.not_mem_nil, false_implies, implies_true, and_true]
  and_intros
  all_goals
    rintro _ ⟨⟩
    simp [decodeCp, decodeOp14, fld]

/-- Zero-extending loads (R99). -/
theorem decoderReads_op16 (d a : BitVec 5) (o : BitVec 10) :
    ∀ i ∈ [Instr.ldub g d a o, .lduh g d a o, .lduw g d a o, .ldd g d a o], decoderReads i := by
  simp only [List.forall_mem_cons, List.not_mem_nil, false_implies, implies_true, and_true]
  and_intros
  all_goals
    rintro _ ⟨⟩
    simp [decodeCp, decodeOp16, fld]

/-- Sign-extending loads (R99). -/
theorem decoderReads_op17 (d a : BitVec 5) (o : BitVec 10) :
    ∀ i ∈ [Instr.ldsb g d a o, .ldsh g d a o, .ldsw g d a o], decoderReads i := by
  simp only [List.forall_mem_cons, List.not_mem_nil, false_implies, implies_true, and_true]
  and_intros
  all_goals
    rintro _ ⟨⟩
    simp [decodeCp, decodeOp17, fld]

/-- Stores (R99). -/
theorem decoderReads_op18 (d a : BitVec 5) (o : BitVec 10) :
    ∀ i ∈ [Instr.stb g d a o, .sth g d a o, .stw g d a o, .std g d a o], decoderReads i := by
  simp only [List.forall_mem_cons, List.not_mem_nil, false_implies, implies_true, and_true]
  and_intros
  all_goals
    rintro _ ⟨⟩
    simp [decodeCp, decodeOp18, fld]

/-- Parameter reads at an immediate (R102). -/
theorem decoderReads_op19 (d : BitVec 5) (v : BitVec 3) (o : BitVec 12) :
    ∀ i ∈ [Instr.ldpb g d v o, .ldph g d v o, .ldpw g d v o, .ldpd g d v o], decoderReads i := by
  simp only [List.forall_mem_cons, List.not_mem_nil, false_implies, implies_true, and_true]
  and_intros
  all_goals
    rintro _ ⟨⟩
    simp [decodeCp, decodeOp19, fld]

/-- Parameter reads at a register (R102). -/
theorem decoderReads_op1A (d b : BitVec 5) (v : BitVec 3) :
    ∀ i ∈ [Instr.ldprb g d v b, .ldprh g d v b, .ldprw g d v b, .ldprd g d v b], decoderReads i := by
  simp only [List.forall_mem_cons, List.not_mem_nil, false_implies, implies_true, and_true]
  and_intros
  all_goals
    rintro _ ⟨⟩
    simp [decodeCp, decodeOp1A, fld]

/-- FENCE and BAR (R103, R104). -/
theorem decoderReads_op1B (s : BitVec 3) (o : BitVec 2) (a : BitVec 5) :
    ∀ i ∈ [Instr.fence g s, .bar g s o a], decoderReads i := by
  simp only [List.forall_mem_cons, List.not_mem_nil, false_implies, implies_true, and_true]
  and_intros
  all_goals
    rintro _ ⟨⟩
    simp [decodeCp, decodeOp1B, fld]

/-- Window accesses (R140, R141). -/
theorem decoderReads_op1C (d h b : BitVec 5) :
    ∀ i ∈ [Instr.lds4 g d h b, .lds8 g d h b, .sts4 g d h b, .sts8 g d h b, .saadd g d h b, .safadd g d h b, .samin g d h b,
      .samax g d h b, .saxchg g d h b, .sacas g d h b], decoderReads i := by
  simp only [List.forall_mem_cons, List.not_mem_nil, false_implies, implies_true, and_true]
  and_intros
  all_goals
    rintro _ ⟨⟩
    simp [decodeCp, decodeOp1C, fld]

/-- KRUN and LWAIT (R111, R164). -/
theorem decoderReads_op1E (a b c : BitVec 5) :
    ∀ i ∈ [Instr.krun g a b c, .lwait g a], decoderReads i := by
  simp only [List.forall_mem_cons, List.not_mem_nil, false_implies, implies_true, and_true]
  and_intros
  all_goals
    rintro _ ⟨⟩
    simp [decodeCp, decodeOp1E, fld]

/-- A field is not zero where a part of it is not. -/
theorem fld_ne_zero_of_part {w lo n : Nat} {v : BitVec w} (lo' n' : Nat) (h : lo' + n' ≤ n) (hne : fld v (lo + lo') n' ≠ 0#n') :
    fld v lo n ≠ 0#n := by
  intro h0
  apply hne
  rw [← fld_fld v h, h0]
  exact BitVec.extractLsb'_zero

/-- Stream instructions whose formats no other instruction of their FN shares (R128). -/
theorem decoderReads_op1D (d h a b : BitVec 5) (c : BitVec 4) :
    ∀ i ∈ [Instr.salloc g d h a, .sfree g h, .sload g h a b, .sloadx g h a b, .sstore g h a b, .sgather g h a c, .sbag g h a c,
      .sbagm g h a c, .srecv g h, .swaitAll g], decoderReads i := by
  simp only [List.forall_mem_cons, List.not_mem_nil, false_implies, implies_true, and_true]
  and_intros
  all_goals
    rintro _ ⟨⟩
    simp [decodeCp, decodeOp1D, fld]

/-- SCOPY names a source, which tells it from SRECV (R128, R138). -/
theorem decoderReads_scopy (h a b : BitVec 5) (ha : a ≠ 0) : decoderReads (.scopy g h a b) := by
  rintro _ ⟨⟩
  have hsrc : fld (w := 22) (6#6 ++ h ++ a ++ b ++ 0#1) 0 11 ≠ 0#11 := fld_ne_zero_of_part 6 5 (by decide) (by simpa using ha)
  simp [decodeCp, decodeOp1D, hsrc]

/-- SCOPYP has bit 0 set, SRECV has not. -/
theorem decoderReads_scopyp (h a b : BitVec 5) : decoderReads (.scopyp g h a b) := by
  rintro _ ⟨⟩
  have hflag : fld (w := 22) (6#6 ++ h ++ a ++ b ++ 1#1) 0 11 ≠ 0#11 := fld_ne_zero_of_part 0 1 (by decide) (by simp)
  simp [decodeCp, decodeOp1D, hflag]

/-- SWAIT of one stall has bit 10 clear, SWAIT.ALL has it set. -/
theorem decoderReads_swait (h : BitVec 5) : decoderReads (.swait g h) := by
  rintro _ ⟨⟩
  have hone : fld (w := 22) (7#6 ++ h ++ 0#11) 0 16 ≠ 1024#16 := by
    intro hall
    have hlow : fld (w := 22) (7#6 ++ h ++ 0#11) 0 11 = fld (1024#16) 0 11 := by
      rw [← hall, fld_fld _ (by decide)]
    simp [fld] at hlow
  simp [decodeCp, decodeOp1D, hone]

/-- Home commands (R257, R260, R268). -/
theorem decoderReads_home (d h a : BitVec 5) (p c : BitVec 4) (q s : BitVec 3) (o : BitVec 2) (z : BitVec 1) :
    ∀ i ∈ [Instr.sscadd g d h c, .srowupd g d h q, .afadd g d p s o, .aadd g d p s o z, .amin g d p s o z, .amax g d p s o z,
      .aand g d p s o z, .aor g d p s o z, .axor g d p s o z, .axchg g d p s o z, .acas g d p s o z, .qpush g d a q s,
      .qpop g d a q s], decoderReads i := by
  simp only [List.forall_mem_cons, List.not_mem_nil, false_implies, implies_true, and_true]
  and_intros
  all_goals
    rintro _ ⟨⟩
    simp [decodeCp, decodeOp1F, decodeHome, fld]

/-- Link commands (R296, R309). -/
theorem decoderReads_link (d a : BitVec 5) (q : BitVec 3) (f : BitVec 4) (o : BitVec 2) (z : BitVec 1) :
    ∀ i ∈ [Instr.put g d q o, .get g d q o, .signal g d q, .lamo g d q f o z, .synct g d a z], decoderReads i := by
  simp only [List.forall_mem_cons, List.not_mem_nil, false_implies, implies_true, and_true]
  and_intros
  all_goals
    rintro _ ⟨⟩
    simp [decodeCp, decodeOp1F, decodeLink, fld]

/-- Commit commands (R336). -/
theorem decoderReads_commit (d x a k : BitVec 5) (p : BitVec 4) (q : BitVec 3) (z : BitVec 1) :
    ∀ i ∈ [Instr.gopen g d p, .gseal g d p, .gpeek g d p, .gdeleg g d p, .gstore g x a k z, .sstoreg g d q, .sscaddg g d a q,
      .gcommit g d k, .gabort g d k, .gwait g d k, .gstat g d k], decoderReads i := by
  simp only [List.forall_mem_cons, List.not_mem_nil, false_implies, implies_true, and_true]
  and_intros
  all_goals
    rintro _ ⟨⟩
    simp [decodeCp, decodeOp1F, decodeCommit, fld]


end

/-- Settles O1: each format's fields stand in its word, and the decoder of its opcode reads them there. -/
theorem decodeCpAfterEncode : Obligations.DecodeCpAfterEncode := by
  unfold Obligations.DecodeCpAfterEncode
  intro i w hwf henc
  suffices hreads : decoderReads i from (hreads w henc).trans (keep_of_wf hwf)
  cases i with
  | nop => rintro _ ⟨⟩; rfl
  | add g d a b | sub g d a b | and g d a b | or g d a b | xor g d a b | andn g d a b | shl g d a b | shr g d a b | sar g d a b
    | ror g d a b | mul g d a b | mulhu g d a b | mulhs g d a b | min g d a b | max g d a b | minu g d a b | maxu g d a b
    => exact decoderReads_op01 g d a b _ (by simp)
  | clz g d a | ctz g d a | popc g d a => exact decoderReads_op01 g d a 0 _ (by simp)
  | addi g d a n | andi g d a n | ori g d a n | xori g d a n => exact decoderReads_single g d a 0 n 0 0 0 0 0 _ (by simp)
  | movi g d m => exact decoderReads_single g d 0 0 0 m 0 0 0 0 _ (by simp)
  | sel g d a b q => exact decoderReads_single g d a b 0 0 q 0 0 0 _ (by simp)
  | bfx g d a p l | bfxs g d a p l | bfi g d a p l => exact decoderReads_single g d a 0 0 0 0 p l 0 _ (by simp)
  | br g o | call g o => exact decoderReads_single g 0 0 0 0 0 0 0 0 o _ (by simp)
  | shli g d a n | shri g d a n | sari g d a n | rori g d a n => exact decoderReads_op06 g d a n _ (by simp)
  | cmpeq g p a b | cmpne g p a b | cmplt g p a b | cmpge g p a b | cmpltu g p a b | cmpgeu g p a b | cmptst g p a b
    => exact decoderReads_op08 g p a b _ (by simp)
  | cmpeqi g p a n | cmpnei g p a n | cmplti g p a n | cmpgei g p a n | cmpltui g p a n | cmpgeui g p a n | cmptsti g p a n
    => exact decoderReads_op09 g p a n _ (by simp)
  | pand g p a b | por g p a b | pxor g p a b | pandn g p a b => exact decoderReads_op0E g p a b _ (by simp)
  | pnot g p a => exact decoderReads_op0E g p a 0 _ (by simp)
  | brr g a | callr g a => exact decoderReads_op12 g a _ (by simp)
  | trap g n => exact decoderReads_op13 g n _ (by simp)
  | eret g | yield g => exact decoderReads_op13 g 0 _ (by simp)
  | mfs g d n | mts g d n => exact decoderReads_op14 g d n _ (by simp)
  | rdtick g d => exact decoderReads_op14 g d 0 _ (by simp)
  | ldub g d a o | lduh g d a o | lduw g d a o | ldd g d a o => exact decoderReads_op16 g d a o _ (by simp)
  | ldsb g d a o | ldsh g d a o | ldsw g d a o => exact decoderReads_op17 g d a o _ (by simp)
  | stb g d a o | sth g d a o | stw g d a o | std g d a o => exact decoderReads_op18 g d a o _ (by simp)
  | ldpb g d v o | ldph g d v o | ldpw g d v o | ldpd g d v o => exact decoderReads_op19 g d v o _ (by simp)
  | ldprb g d v b | ldprh g d v b | ldprw g d v b | ldprd g d v b => exact decoderReads_op1A g d b v _ (by simp)
  | fence g s => exact decoderReads_op1B g s 0 0 _ (by simp)
  | bar g s o a => exact decoderReads_op1B g s o a _ (by simp)
  | lds4 g d h b | lds8 g d h b | sts4 g d h b | sts8 g d h b | saadd g d h b | safadd g d h b | samin g d h b | samax g d h b
    | saxchg g d h b | sacas g d h b => exact decoderReads_op1C g d h b _ (by simp)
  | krun g a b c => exact decoderReads_op1E g a b c _ (by simp)
  | lwait g a => exact decoderReads_op1E g a 0 0 _ (by simp)
  | salloc g d h a => exact decoderReads_op1D g d h a 0 0 _ (by simp)
  | sfree g h | srecv g h => exact decoderReads_op1D g 0 h 0 0 0 _ (by simp)
  | sload g h a b | sloadx g h a b | sstore g h a b => exact decoderReads_op1D g 0 h a b 0 _ (by simp)
  | sgather g h a c | sbag g h a c | sbagm g h a c => exact decoderReads_op1D g 0 h a 0 c _ (by simp)
  | swaitAll g => exact decoderReads_op1D g 0 0 0 0 0 _ (by simp)
  | sscadd g d h c => exact decoderReads_home g d h 0 0 c 0 0 0 0 _ (by simp)
  | srowupd g d h q => exact decoderReads_home g d h 0 0 0 q 0 0 0 _ (by simp)
  | afadd g d p s o => exact decoderReads_home g d 0 0 p 0 0 s o 0 _ (by simp)
  | aadd g d p s o z | amin g d p s o z | amax g d p s o z | aand g d p s o z | aor g d p s o z | axor g d p s o z
    | axchg g d p s o z | acas g d p s o z => exact decoderReads_home g d 0 0 p 0 0 s o z _ (by simp)
  | qpush g d a q s | qpop g d a q s => exact decoderReads_home g d 0 a 0 0 q s 0 0 _ (by simp)
  | put g d q o | get g d q o => exact decoderReads_link g d 0 q 0 o 0 _ (by simp)
  | signal g d q => exact decoderReads_link g d 0 q 0 0 0 _ (by simp)
  | lamo g d q f o z => exact decoderReads_link g d 0 q f o z _ (by simp)
  | synct g d a z => exact decoderReads_link g d a 0 0 0 z _ (by simp)
  | gopen g d p | gseal g d p | gpeek g d p | gdeleg g d p => exact decoderReads_commit g d 0 0 0 p 0 0 _ (by simp)
  | gstore g x a k z => exact decoderReads_commit g 0 x a k 0 0 z _ (by simp)
  | sstoreg g d q => exact decoderReads_commit g d 0 0 0 0 q 0 _ (by simp)
  | sscaddg g d a q => exact decoderReads_commit g d 0 a 0 0 q 0 _ (by simp)
  | gcommit g d k | gabort g d k | gwait g d k | gstat g d k => exact decoderReads_commit g d 0 0 k 0 0 0 _ (by simp)
  | scopy g h a b =>
    have ha : a ≠ 0 := by simpa using (Bool.and_eq_true_iff.1 hwf).2
    exact decoderReads_scopy g h a b ha
  | scopyp g h a b => exact decoderReads_scopyp g h a b
  | swait g h => exact decoderReads_swait g h
  | _ => cases henc

end Sys2Proof.Machine

/-! PROOFS. A word that a decoder accepts is the word of the instruction that it gives (R61 to R67, R155 to R159). -/

namespace Sys2Proof.Machine

/-! ## A word is its fields -/

/-- Two fields side by side are a field where each is the field of its place. -/
theorem append_eq_fld_iff {k m n lo : Nat} (v : BitVec k) (a : BitVec m) (b : BitVec n) :
    @Eq (no_index (BitVec (m + n))) (no_index (a ++ b)) (no_index (fld v lo (m + n))) ↔ a = fld v (lo + n) m ∧ b = fld v lo n := by
  constructor
  · intro h
    constructor
    · rw [← fld_fld v (n := m + n) (by omega), ← h, fld_append_high _ _ le_rfl, Nat.sub_self, fld_all]
    · rw [← Nat.add_zero lo, ← fld_fld v (n := m + n) (by omega), ← h, fld_append_low _ _ (by omega), fld_all]
  · rintro ⟨rfl, rfl⟩
    exact BitVec.extractLsb'_append_extractLsb'_eq_extractLsb' rfl

theorem ofBool_bit {k : Nat} (v : BitVec k) (n : Nat) : BitVec.ofBool (bit v n) = fld v n 1 := by
  refine BitVec.eq_of_getLsbD_eq fun i hi => ?_
  obtain rfl : i = 0 := by omega
  simp [bit, -BitVec.getLsbD_eq_getElem]

theorem cpWord_eq_iff (op : BitVec 5) (g : Guard) (r : BitVec 22) (w : Word32) :
    cpWord op g r = w ↔ op = fld w 27 5 ∧ g = guardOf w ∧ r = fld w 0 22 := by
  have happ : cpWord op g r = fld w 0 32 ↔ ((op = fld w 27 5 ∧ g.gp = fld w 23 4) ∧ BitVec.ofBool g.gn = fld w 22 1) ∧ r = fld w 0 22 := by
    rw [cpWord, append_eq_fld_iff, append_eq_fld_iff, append_eq_fld_iff]
  rw [fld_all] at happ
  rw [happ, ← ofBool_bit, BitVec.ofBool_eq_iff_eq, and_assoc, and_assoc]
  obtain ⟨gp, gn⟩ := g
  simp [guardOf, and_assoc]

/-- The guard fields of a kernel slot word (R155). -/
def kGuardOf (w : Word) : Guard := ⟨fld w 52 4, bit w 51⟩

theorem kWord_eq_iff (op : BitVec 8) (g : Guard) (r : BitVec 51) (w : Word) :
    kWord op g r = w ↔ op = fld w 56 8 ∧ g = kGuardOf w ∧ r = fld w 0 51 := by
  have happ : kWord op g r = fld w 0 64 ↔ ((op = fld w 56 8 ∧ g.gp = fld w 52 4) ∧ BitVec.ofBool g.gn = fld w 51 1) ∧ r = fld w 0 51 := by
    rw [kWord, append_eq_fld_iff, append_eq_fld_iff, append_eq_fld_iff]
  rw [fld_all] at happ
  rw [happ, ← ofBool_bit, BitVec.ofBool_eq_iff_eq, and_assoc, and_assoc]
  obtain ⟨gp, gn⟩ := g
  simp [kGuardOf, and_assoc]

theorem eq_ofNat_of_toNat {n k : Nat} {x : BitVec n} (h : x.toNat = k) : x = BitVec.ofNat n k := by
  rw [← h, BitVec.ofNat_toNat, BitVec.setWidth_eq]

/-- Whatever instruction a decoder's answer gives is well formed and has the word w. -/
def answersFor (e : Enc) (r : Except Reject Instr) : Prop := ∀ i, r = .ok i → i.wf = true ∧ encode i = some e

theorem answersFor_error (e : Enc) (r : Reject) : answersFor e (.error r) := nofun

theorem answersFor_keep {e : Enc} {i : Instr} (h : encode i = some e) : answersFor e (Sys2Proof.keep i) := by
  intro j hj
  unfold Sys2Proof.keep at hj
  split at hj
  case isTrue hwf => cases hj; exact ⟨hwf, h⟩
  case isFalse => cases hj

theorem answersFor_cp {w : Word32} {i : Instr} {op : BitVec 5} {g : Guard} {r : BitVec 22}
    (henc : encode i = some (.cp (cpWord op g r))) (hw : cpWord op g r = w) : answersFor (.cp w) (Sys2Proof.keep i) :=
  answersFor_keep (hw ▸ henc)

theorem answersFor_kernel {w : Word} {i : Instr} {op : BitVec 8} {g : Guard} {r : BitVec 51}
    (henc : encode i = some (.kernel (kWord op g r))) (hw : kWord op g r = w) : answersFor (.kernel w) (Sys2Proof.keep i) :=
  answersFor_keep (hw ▸ henc)

theorem answersFor_ite {e : Enc} {p : Prop} [Decidable p] {r q : Except Reject Instr} (hr : p → answersFor e r)
    (hq : ¬ p → answersFor e q) : answersFor e (if p then r else q) := by
  split
  case isTrue h => exact hr h
  case isFalse h => exact hq h

/-- Two fields side by side are one wider field. -/
theorem fld_join {k m n lo : Nat} {v : BitVec k} {a : BitVec m} {b : BitVec n} (ha : fld v (lo + n) m = a) (hb : fld v lo n = b) :
    fld v lo (m + n) = a ++ b := ((append_eq_fld_iff v a b).2 ⟨ha.symm, hb.symm⟩).symm

/-- The two parts of a field that is zero. -/
theorem fld_zero_parts {k m n lo : Nat} {v : BitVec k} (h : fld v lo (m + n) = 0) : fld v (lo + n) m = 0 ∧ fld v lo n = 0 := by
  obtain ⟨ha, hb⟩ := (append_eq_fld_iff v (0#m) (0#n)).1 (BitVec.zero_append_zero.trans h.symm)
  exact ⟨ha.symm, hb.symm⟩

/-! ## Control-processor words -/

section
variable {w : Word32}

/-- Register operations (R66, R87). -/
theorem answersFor_decodeOp01 (hop : fld w 27 5 = 1#5) : answersFor (.cp w) (decodeOp01 (guardOf w) w) := by
  unfold decodeOp01
  split
  iterate 17
    · rename_i hfn
      refine answersFor_cp rfl ?_
      simp [append_eq_fld_iff, cpWord_eq_iff, hop, eq_ofNat_of_toNat hfn]
  iterate 3
    · rename_i hfn
      refine answersFor_ite (fun hz => answersFor_cp rfl ?_) fun _ => answersFor_error _ _
      have hlit : fld w 0 12 = _ := fld_join (m := 5) (n := 7) hz (eq_ofNat_of_toNat hfn)
      simp [append_eq_fld_iff, cpWord_eq_iff, hop, hlit]
  · exact answersFor_error _ _

/-- Shifts by an immediate (R89). -/
theorem answersFor_decodeOp06 (hop : fld w 27 5 = 6#5) : answersFor (.cp w) (decodeOp06 (guardOf w) w) := by
  unfold decodeOp06
  split
  iterate 4
    · rename_i hfn
      refine answersFor_cp rfl ?_
      simp [append_eq_fld_iff, cpWord_eq_iff, hop, eq_ofNat_of_toNat hfn]
  · exact answersFor_error _ _

/-- Compares of two registers (R91). -/
theorem answersFor_decodeOp08 (hop : fld w 27 5 = 8#5) : answersFor (.cp w) (decodeOp08 (guardOf w) w) := by
  unfold decodeOp08
  split
  iterate 7
    · rename_i hfn
      refine answersFor_ite (fun hz => answersFor_cp rfl ?_) fun _ => answersFor_error _ _
      simp [append_eq_fld_iff, cpWord_eq_iff, hop, eq_ofNat_of_toNat hfn, hz]
  · exact answersFor_error _ _

/-- Compares with an immediate (R91). -/
theorem answersFor_decodeOp09 (hop : fld w 27 5 = 9#5) : answersFor (.cp w) (decodeOp09 (guardOf w) w) := by
  unfold decodeOp09
  split
  iterate 7
    · rename_i hfn
      refine answersFor_cp rfl ?_
      simp [append_eq_fld_iff, cpWord_eq_iff, hop, eq_ofNat_of_toNat hfn]
  · exact answersFor_error _ _

/-- Predicate operations (R93). -/
theorem answersFor_decodeOp0E (hop : fld w 27 5 = 14#5) : answersFor (.cp w) (decodeOp0E (guardOf w) w) := by
  unfold decodeOp0E
  split
  iterate 4
    · rename_i hfn
      refine answersFor_ite (fun hz => answersFor_cp rfl ?_) fun _ => answersFor_error _ _
      have hlit : fld w 0 10 = _ := fld_join (m := 7) (n := 3) hz (eq_ofNat_of_toNat hfn)
      simp [append_eq_fld_iff, cpWord_eq_iff, hop, hlit]
  · rename_i hfn
    refine answersFor_ite (fun hz => answersFor_cp rfl ?_) fun _ => answersFor_error _ _
    have hlit : fld w 0 14 = _ := fld_join (m := 11) (n := 3) hz (eq_ofNat_of_toNat hfn)
    simp [append_eq_fld_iff, cpWord_eq_iff, hop, hlit]
  · exact answersFor_error _ _

/-- Branches to a register (R97). -/
theorem answersFor_decodeOp12 (hop : fld w 27 5 = 18#5) : answersFor (.cp w) (decodeOp12 (guardOf w) w) := by
  unfold decodeOp12
  split
  iterate 2
    · rename_i hfn
      refine answersFor_ite (fun hz => answersFor_cp rfl ?_) fun _ => answersFor_error _ _
      have hlit : fld w 0 12 = _ := fld_join (m := 5) (n := 7) hz.1 (eq_ofNat_of_toNat hfn)
      simp [append_eq_fld_iff, cpWord_eq_iff, hop, hz, hlit]
  · exact answersFor_error _ _

/-- TRAP, ERET and YIELD (R108). -/
theorem answersFor_decodeOp13 (hop : fld w 27 5 = 19#5) : answersFor (.cp w) (decodeOp13 (guardOf w) w) := by
  unfold decodeOp13
  split
  · rename_i hfn
    refine answersFor_cp rfl ?_
    simp [append_eq_fld_iff, cpWord_eq_iff, hop, eq_ofNat_of_toNat hfn]
  iterate 2
    · rename_i hfn
      refine answersFor_ite (fun hz => answersFor_cp rfl ?_) fun _ => answersFor_error _ _
      have hlit : fld w 0 22 = _ := fld_join (m := 16) (n := 6) hz (eq_ofNat_of_toNat hfn)
      simp [cpWord_eq_iff, hop, hlit]
  · exact answersFor_error _ _

/-- System registers (R109, R110). -/
theorem answersFor_decodeOp14 (hop : fld w 27 5 = 20#5) : answersFor (.cp w) (decodeOp14 (guardOf w) w) := by
  unfold decodeOp14
  split
  iterate 2
    · rename_i hfn
      refine answersFor_cp rfl ?_
      simp [append_eq_fld_iff, cpWord_eq_iff, hop, eq_ofNat_of_toNat hfn]
  · rename_i hfn
    refine answersFor_ite (fun hz => answersFor_cp rfl ?_) fun _ => answersFor_error _ _
    have hlit : fld w 0 17 = _ := fld_join (m := 12) (n := 5) hz (eq_ofNat_of_toNat hfn)
    simp [append_eq_fld_iff, cpWord_eq_iff, hop, hlit]
  · exact answersFor_error _ _

/-- Zero-extending loads (R99). -/
theorem answersFor_decodeOp16 (hop : fld w 27 5 = 22#5) : answersFor (.cp w) (decodeOp16 (guardOf w) w) := by
  unfold decodeOp16
  split
  iterate 4
    · rename_i hfn
      refine answersFor_cp rfl ?_
      simp [append_eq_fld_iff, cpWord_eq_iff, hop, eq_ofNat_of_toNat hfn]
  · exact answersFor_error _ _

/-- Sign-extending loads (R99). -/
theorem answersFor_decodeOp17 (hop : fld w 27 5 = 23#5) : answersFor (.cp w) (decodeOp17 (guardOf w) w) := by
  unfold decodeOp17
  split
  iterate 3
    · rename_i hfn
      refine answersFor_cp rfl ?_
      simp [append_eq_fld_iff, cpWord_eq_iff, hop, eq_ofNat_of_toNat hfn]
  · exact answersFor_error _ _

/-- Stores (R99). -/
theorem answersFor_decodeOp18 (hop : fld w 27 5 = 24#5) : answersFor (.cp w) (decodeOp18 (guardOf w) w) := by
  unfold decodeOp18
  split
  iterate 4
    · rename_i hfn
      refine answersFor_cp rfl ?_
      simp [append_eq_fld_iff, cpWord_eq_iff, hop, eq_ofNat_of_toNat hfn]
  · exact answersFor_error _ _

/-- Parameter reads at an immediate (R102). -/
theorem answersFor_decodeOp19 (hop : fld w 27 5 = 25#5) : answersFor (.cp w) (decodeOp19 (guardOf w) w) := by
  unfold decodeOp19
  split
  iterate 4
    · rename_i hfn
      refine answersFor_cp rfl ?_
      simp [append_eq_fld_iff, cpWord_eq_iff, hop, eq_ofNat_of_toNat hfn]
  · exact answersFor_error _ _

/-- Parameter reads at a register (R102). -/
theorem answersFor_decodeOp1A (hop : fld w 27 5 = 26#5) : answersFor (.cp w) (decodeOp1A (guardOf w) w) := by
  unfold decodeOp1A
  split
  iterate 4
    · rename_i hfn
      refine answersFor_ite (fun hz => answersFor_cp rfl ?_) fun _ => answersFor_error _ _
      simp [append_eq_fld_iff, cpWord_eq_iff, hop, eq_ofNat_of_toNat hfn, hz]
  · exact answersFor_error _ _

/-- FENCE and BAR (R103, R104). -/
theorem answersFor_decodeOp1B (hop : fld w 27 5 = 27#5) : answersFor (.cp w) (decodeOp1B (guardOf w) w) := by
  unfold decodeOp1B
  split
  · rename_i hfn
    refine answersFor_ite (fun hz => answersFor_cp rfl ?_) fun _ => answersFor_error _ _
    have hlit : fld w 0 19 = _ := fld_join (m := 13) (n := 6) hz (eq_ofNat_of_toNat hfn)
    simp [append_eq_fld_iff, cpWord_eq_iff, hop, hlit]
  · rename_i hfn
    refine answersFor_ite (fun hz => answersFor_cp rfl ?_) fun _ => answersFor_error _ _
    have hlit : fld w 0 12 = _ := fld_join (m := 6) (n := 6) hz (eq_ofNat_of_toNat hfn)
    simp [append_eq_fld_iff, cpWord_eq_iff, hop, hlit]
  · exact answersFor_error _ _

/-- Window accesses (R140, R141). -/
theorem answersFor_decodeOp1C (hop : fld w 27 5 = 28#5) : answersFor (.cp w) (decodeOp1C (guardOf w) w) := by
  unfold decodeOp1C
  split
  iterate 2
    · rename_i hfn
      refine answersFor_ite (fun hz => answersFor_cp rfl ?_) fun _ =>
        answersFor_ite (fun hz => answersFor_cp rfl ?_) fun _ => answersFor_error _ _
      all_goals simp [append_eq_fld_iff, cpWord_eq_iff, hop, eq_ofNat_of_toNat hfn, hz]
  iterate 6
    · rename_i hfn
      refine answersFor_ite (fun hz => answersFor_cp rfl ?_) fun _ => answersFor_error _ _
      simp [append_eq_fld_iff, cpWord_eq_iff, hop, eq_ofNat_of_toNat hfn, hz]
  · exact answersFor_error _ _

/-- Stream instructions (R128). -/
theorem answersFor_decodeOp1D (hop : fld w 27 5 = 29#5) : answersFor (.cp w) (decodeOp1D (guardOf w) w) := by
  unfold decodeOp1D
  split
  case h_9 => exact answersFor_error _ _
  all_goals rename_i hfn
  case h_1 | h_2 | h_4 | h_5 =>
    refine answersFor_ite (fun hz => answersFor_cp rfl ?_) fun _ => answersFor_error _ _
    simp [append_eq_fld_iff, cpWord_eq_iff, hop, eq_ofNat_of_toNat hfn, hz]
  case h_3 | h_6 =>
    refine answersFor_ite (fun hz => answersFor_cp rfl ?_) fun _ =>
      answersFor_ite (fun hz => answersFor_cp rfl ?_) fun _ => answersFor_error _ _
    all_goals simp [append_eq_fld_iff, cpWord_eq_iff, hop, eq_ofNat_of_toNat hfn, hz]
  case h_7 =>
    refine answersFor_ite (fun hz => answersFor_cp rfl ?_) fun _ => answersFor_ite (fun hz => answersFor_cp rfl ?_) fun _ =>
      answersFor_ite (fun hz => answersFor_cp rfl ?_) fun _ => answersFor_error _ _
    all_goals simp [append_eq_fld_iff, cpWord_eq_iff, hop, eq_ofNat_of_toNat hfn, hz]
  case h_8 =>
    refine answersFor_ite (fun hz => answersFor_cp rfl ?_) fun _ =>
      answersFor_ite (fun hz => answersFor_cp rfl ?_) fun _ => answersFor_error _ _
    · have hlit : fld w 0 22 = 459776#22 := fld_join (m := 6) (n := 16) (eq_ofNat_of_toNat hfn) hz
      simp [cpWord_eq_iff, hop, hlit]
    · simp [append_eq_fld_iff, cpWord_eq_iff, hop, eq_ofNat_of_toNat hfn, hz]

/-- KRUN and LWAIT (R111, R164). -/
theorem answersFor_decodeOp1E (hop : fld w 27 5 = 30#5) : answersFor (.cp w) (decodeOp1E (guardOf w) w) := by
  unfold decodeOp1E
  split
  iterate 2
    · rename_i hfn
      refine answersFor_ite (fun hz => answersFor_cp rfl ?_) fun _ => answersFor_error _ _
      simp [append_eq_fld_iff, cpWord_eq_iff, hop, eq_ofNat_of_toNat hfn, hz]
  · exact answersFor_error _ _

/-- Home commands (R257, R260, R268). -/
theorem answersFor_decodeHome (hop : fld w 27 5 = 31#5) : answersFor (.cp w) (decodeHome (guardOf w) w) := by
  unfold decodeHome
  split
  iterate 11
    · rename_i hfn
      refine answersFor_ite (fun hz => answersFor_cp rfl ?_) fun _ => answersFor_error _ _
      simp [append_eq_fld_iff, cpWord_eq_iff, hop, eq_ofNat_of_toNat hfn, hz]
  iterate 2
    · rename_i hfn
      refine answersFor_cp rfl ?_
      simp [append_eq_fld_iff, cpWord_eq_iff, hop, eq_ofNat_of_toNat hfn]
  · exact answersFor_error _ _

/-- Link commands (R296, R309). -/
theorem answersFor_decodeLink (hop : fld w 27 5 = 31#5) : answersFor (.cp w) (decodeLink (guardOf w) w) := by
  unfold decodeLink
  split
  iterate 5
    · rename_i hfn
      refine answersFor_ite (fun hz => answersFor_cp rfl ?_) fun _ => answersFor_error _ _
      simp [append_eq_fld_iff, cpWord_eq_iff, hop, eq_ofNat_of_toNat hfn, hz]
  · exact answersFor_error _ _

/-- Commit commands (R336). -/
theorem answersFor_decodeCommit (hop : fld w 27 5 = 31#5) : answersFor (.cp w) (decodeCommit (guardOf w) w) := by
  unfold decodeCommit
  split
  · rename_i hfn
    refine answersFor_ite (fun hz => answersFor_cp rfl ?_) fun _ => answersFor_error _ _
    simp [append_eq_fld_iff, cpWord_eq_iff, hop, eq_ofNat_of_toNat hfn, hz]
  · rename_i hfn
    refine answersFor_cp rfl ?_
    simp [append_eq_fld_iff, cpWord_eq_iff, hop, eq_ofNat_of_toNat hfn]
  iterate 9
    · rename_i hfn
      refine answersFor_ite (fun hz => answersFor_cp rfl ?_) fun _ => answersFor_error _ _
      simp [append_eq_fld_iff, cpWord_eq_iff, hop, eq_ofNat_of_toNat hfn, hz]
  · exact answersFor_error _ _

/-- The commands of opcode 0x1F (R67). -/
theorem answersFor_decodeOp1F (hop : fld w 27 5 = 31#5) : answersFor (.cp w) (decodeOp1F (guardOf w) w) :=
  answersFor_ite (fun _ => answersFor_decodeHome hop) fun _ =>
    answersFor_ite (fun _ => answersFor_decodeLink hop) fun _ => answersFor_decodeCommit hop

/-- A control-processor word that the decoder accepts (R61 to R67). -/
theorem answersFor_decodeCp (w : Word32) : answersFor (.cp w) (decodeCp w) := by
  unfold decodeCp
  dsimp only
  split
  case isTrue h0 =>
    subst h0
    rintro _ ⟨⟩
    exact ⟨rfl, rfl⟩
  split
  all_goals rename_i hop
  case h_1 => exact answersFor_decodeOp01 (eq_ofNat_of_toNat hop)
  case h_6 => exact answersFor_decodeOp06 (eq_ofNat_of_toNat hop)
  case h_8 => exact answersFor_decodeOp08 (eq_ofNat_of_toNat hop)
  case h_9 => exact answersFor_decodeOp09 (eq_ofNat_of_toNat hop)
  case h_14 => exact answersFor_decodeOp0E (eq_ofNat_of_toNat hop)
  case h_17 => exact answersFor_decodeOp12 (eq_ofNat_of_toNat hop)
  case h_18 => exact answersFor_decodeOp13 (eq_ofNat_of_toNat hop)
  case h_19 => exact answersFor_decodeOp14 (eq_ofNat_of_toNat hop)
  case h_20 => exact answersFor_decodeOp16 (eq_ofNat_of_toNat hop)
  case h_21 => exact answersFor_decodeOp17 (eq_ofNat_of_toNat hop)
  case h_22 => exact answersFor_decodeOp18 (eq_ofNat_of_toNat hop)
  case h_23 => exact answersFor_decodeOp19 (eq_ofNat_of_toNat hop)
  case h_24 => exact answersFor_decodeOp1A (eq_ofNat_of_toNat hop)
  case h_25 => exact answersFor_decodeOp1B (eq_ofNat_of_toNat hop)
  case h_26 => exact answersFor_decodeOp1C (eq_ofNat_of_toNat hop)
  case h_27 => exact answersFor_decodeOp1D (eq_ofNat_of_toNat hop)
  case h_28 => exact answersFor_decodeOp1E (eq_ofNat_of_toNat hop)
  case h_29 => exact answersFor_decodeOp1F (eq_ofNat_of_toNat hop)
  case h_30 => exact answersFor_error _ _
  case h_10 =>
    refine answersFor_ite (fun hz => answersFor_cp rfl ?_) fun _ => answersFor_error _ _
    simp [append_eq_fld_iff, cpWord_eq_iff, eq_ofNat_of_toNat hop, hz, guardOf]
  all_goals
    refine answersFor_cp rfl ?_
    simp [append_eq_fld_iff, cpWord_eq_iff, eq_ofNat_of_toNat hop, guardOf]

end

/-! ## Kernel slot words -/

section
variable {w : Word}

/-- Words without a guard have zeros in its fields (R155). -/
theorem kGuardOf_of_zero (h : fld w 51 5 = 0) : kGuardOf w = ⟨0, false⟩ := by
  obtain ⟨hgp, hgn⟩ := fld_zero_parts (m := 4) (n := 1) h
  rw [← ofBool_bit] at hgn
  rw [kGuardOf, hgp, BitVec.ofBool_eq_iff_eq.1 (hgn.trans BitVec.ofBool_false.symm)]

/-- Integer operations (R158, R181). -/
theorem answersFor_decodeK01 (hop : fld w 56 8 = 1#8) : answersFor (.kernel w) (decodeK01 (kGuardOf w) w) := by
  unfold decodeK01
  split
  iterate 16
    · rename_i hfn
      refine answersFor_ite (fun hz => answersFor_kernel rfl ?_) fun _ => answersFor_error _ _
      have hparts := fld_zero_parts (m := 7) (n := 3) hz.1
      simp [append_eq_fld_iff, kWord_eq_iff, hop, eq_ofNat_of_toNat hfn, hz, hparts]
  iterate 2
    · rename_i hfn
      refine answersFor_ite (fun hz => answersFor_kernel rfl ?_) fun _ => answersFor_error _ _
      have hparts := fld_zero_parts (m := 7) (n := 10) hz.1
      have hlow := fld_zero_parts (m := 7) (n := 3) hparts.2
      simp [append_eq_fld_iff, kWord_eq_iff, hop, eq_ofNat_of_toNat hfn, hz, hparts, hlow]
  · exact answersFor_error _ _

/-- Integer immediates (R158, R182). -/
theorem answersFor_decodeK02 (hop : fld w 56 8 = 2#8) : answersFor (.kernel w) (decodeK02 (kGuardOf w) w) := by
  unfold decodeK02
  split
  iterate 8
    · rename_i hfn
      refine answersFor_kernel rfl ?_
      simp [append_eq_fld_iff, kWord_eq_iff, hop, eq_ofNat_of_toNat hfn]
  · exact answersFor_error _ _

/-- Integer compares (R158, R184). -/
theorem answersFor_decodeK04 (hop : fld w 56 8 = 4#8) : answersFor (.kernel w) (decodeK04 (kGuardOf w) w) := by
  unfold decodeK04
  split
  iterate 7
    · rename_i hfn
      refine answersFor_ite (fun hz => answersFor_kernel rfl ?_) fun _ => answersFor_error _ _
      simp [append_eq_fld_iff, kWord_eq_iff, hop, eq_ofNat_of_toNat hfn, hz]
  · exact answersFor_error _ _

/-- Integer compares with an immediate (R158, R184). -/
theorem answersFor_decodeK05 (hop : fld w 56 8 = 5#8) : answersFor (.kernel w) (decodeK05 (kGuardOf w) w) := by
  unfold decodeK05
  split
  iterate 7
    · rename_i hfn
      refine answersFor_ite (fun hz => answersFor_kernel rfl ?_) fun _ => answersFor_error _ _
      simp [append_eq_fld_iff, kWord_eq_iff, hop, eq_ofNat_of_toNat hfn, hz]
  · exact answersFor_error _ _

/-- Predicate operations (R158). -/
theorem answersFor_decodeK07 (hop : fld w 56 8 = 7#8) : answersFor (.kernel w) (decodeK07 (kGuardOf w) w) := by
  unfold decodeK07
  split
  iterate 5
    · rename_i hfn
      refine answersFor_ite (fun hz => answersFor_kernel rfl ?_) fun _ => answersFor_error _ _
      simp [append_eq_fld_iff, kWord_eq_iff, hop, eq_ofNat_of_toNat hfn, hz]
  · exact answersFor_error _ _

/-- FP32 operations (R158, R188). -/
theorem answersFor_decodeK08 (hop : fld w 56 8 = 8#8) : answersFor (.kernel w) (decodeK08 (kGuardOf w) w) := by
  unfold decodeK08
  split
  iterate 3
    · rename_i hfn
      refine answersFor_ite (fun hz => answersFor_kernel rfl ?_) fun _ => answersFor_error _ _
      simp [append_eq_fld_iff, kWord_eq_iff, hop, eq_ofNat_of_toNat hfn, hz]
  iterate 2
    · rename_i hfn
      refine answersFor_ite (fun hz => answersFor_kernel rfl ?_) fun _ => answersFor_error _ _
      have hparts := fld_zero_parts (m := 7) (n := 3) hz.1
      simp [append_eq_fld_iff, kWord_eq_iff, hop, eq_ofNat_of_toNat hfn, hz, hparts]
  iterate 2
    · rename_i hfn
      refine answersFor_ite (fun hz => answersFor_kernel rfl ?_) fun _ => answersFor_error _ _
      have hparts := fld_zero_parts (m := 7) (n := 10) hz.1
      have hlow := fld_zero_parts (m := 7) (n := 3) hparts.2
      simp [append_eq_fld_iff, kWord_eq_iff, hop, eq_ofNat_of_toNat hfn, hz, hparts, hlow]
  · exact answersFor_error _ _

/-- FP32 multiply-adds (R158, R189). -/
theorem answersFor_decodeK09 (hop : fld w 56 8 = 9#8) : answersFor (.kernel w) (decodeK09 (kGuardOf w) w) := by
  unfold decodeK09
  split
  iterate 4
    · rename_i hfn
      refine answersFor_ite (fun hz => answersFor_kernel rfl ?_) fun _ => answersFor_error _ _
      simp [append_eq_fld_iff, kWord_eq_iff, hop, eq_ofNat_of_toNat hfn, hz]
  · exact answersFor_error _ _

/-- FP32 compares (R158, R190). -/
theorem answersFor_decodeK0A (hop : fld w 56 8 = 10#8) : answersFor (.kernel w) (decodeK0A (kGuardOf w) w) := by
  unfold decodeK0A
  split
  iterate 4
    · rename_i hfn
      refine answersFor_ite (fun hz => answersFor_kernel rfl ?_) fun _ => answersFor_error _ _
      simp [append_eq_fld_iff, kWord_eq_iff, hop, eq_ofNat_of_toNat hfn, hz]
  · exact answersFor_error _ _

/-- Packed operations (R158, R191). -/
theorem answersFor_decodeK0B (hop : fld w 56 8 = 11#8) : answersFor (.kernel w) (decodeK0B (kGuardOf w) w) := by
  unfold decodeK0B
  split
  iterate 3
    · rename_i hfn
      refine answersFor_ite (fun hz => answersFor_kernel rfl ?_) fun _ => answersFor_error _ _
      simp [append_eq_fld_iff, kWord_eq_iff, hop, eq_ofNat_of_toNat hfn, hz]
  iterate 2
    · rename_i hfn
      refine answersFor_ite (fun hz => answersFor_kernel rfl ?_) fun _ => answersFor_error _ _
      have hparts := fld_zero_parts (m := 7) (n := 3) hz.1
      simp [append_eq_fld_iff, kWord_eq_iff, hop, eq_ofNat_of_toNat hfn, hz, hparts]
  · exact answersFor_error _ _

/-- Packed multiply-adds (R158, R191). -/
theorem answersFor_decodeK0C (hop : fld w 56 8 = 12#8) : answersFor (.kernel w) (decodeK0C (kGuardOf w) w) := by
  unfold decodeK0C
  split
  iterate 2
    · rename_i hfn
      refine answersFor_ite (fun hz => answersFor_kernel rfl ?_) fun _ => answersFor_error _ _
      simp [append_eq_fld_iff, kWord_eq_iff, hop, eq_ofNat_of_toNat hfn, hz]
  · exact answersFor_error _ _

/-- Moves between w and m registers (R158, R192). -/
theorem answersFor_decodeK0D (hop : fld w 56 8 = 13#8) : answersFor (.kernel w) (decodeK0D (kGuardOf w) w) := by
  unfold decodeK0D
  split
  iterate 2
    · rename_i hfn
      refine answersFor_ite (fun hz => answersFor_kernel rfl ?_) fun _ => answersFor_error _ _
      have hparts := fld_zero_parts (m := 7) (n := 5) hz.1
      simp [append_eq_fld_iff, kWord_eq_iff, hop, eq_ofNat_of_toNat hfn, hz, hparts]
  · exact answersFor_error _ _

/-- Seeds (R158, R194). -/
theorem answersFor_decodeK20 (hop : fld w 56 8 = 32#8) : answersFor (.kernel w) (decodeK20 (kGuardOf w) w) := by
  unfold decodeK20
  split
  iterate 3
    · rename_i hfn
      refine answersFor_ite (fun hz => answersFor_kernel rfl ?_) fun _ => answersFor_error _ _
      have hparts := fld_zero_parts (m := 16) (n := 3) hz.1
      simp [append_eq_fld_iff, kWord_eq_iff, hop, eq_ofNat_of_toNat hfn, hz, hparts]
  · exact answersFor_error _ _

/-- Conversions (R158, R195). -/
theorem answersFor_decodeK21 (hop : fld w 56 8 = 33#8) : answersFor (.kernel w) (decodeK21 (kGuardOf w) w) := by
  unfold decodeK21
  split
  iterate 4
    · rename_i hfn
      refine answersFor_ite (fun hz => answersFor_kernel rfl ?_) fun _ => answersFor_error _ _
      simp [append_eq_fld_iff, kWord_eq_iff, hop, eq_ofNat_of_toNat hfn, hz]
  · exact answersFor_error _ _

/-- The switch (R158, R199). -/
theorem answersFor_decodeK38 (hop : fld w 56 8 = 56#8) : answersFor (.kernel w) (decodeK38 (kGuardOf w) w) := by
  unfold decodeK38
  split
  iterate 3
    · rename_i hfn
      refine answersFor_ite (fun hz => answersFor_kernel rfl ?_) fun _ => answersFor_error _ _
      simp [append_eq_fld_iff, kWord_eq_iff, hop, eq_ofNat_of_toNat hfn, hz]
  · exact answersFor_error _ _

/-- Reductions (R158, R202). -/
theorem answersFor_decodeK39 (hop : fld w 56 8 = 57#8) : answersFor (.kernel w) (decodeK39 (kGuardOf w) w) := by
  unfold decodeK39
  split
  iterate 4
    · rename_i hfn
      refine answersFor_ite (fun hz => answersFor_kernel rfl ?_) fun _ => answersFor_error _ _
      have hparts := fld_zero_parts (m := 7) (n := 4) hz.1
      simp [append_eq_fld_iff, kWord_eq_iff, hop, eq_ofNat_of_toNat hfn, hz, hparts]
  · exact answersFor_error _ _

/-- Tile rows and columns (R158, R204). -/
theorem answersFor_decodeK3A (hop : fld w 56 8 = 58#8) : answersFor (.kernel w) (decodeK3A (kGuardOf w) w) := by
  unfold decodeK3A
  split
  iterate 4
    · rename_i hfn
      refine answersFor_ite (fun hz => answersFor_kernel rfl ?_) fun _ => answersFor_error _ _
      simp [append_eq_fld_iff, kWord_eq_iff, hop, eq_ofNat_of_toNat hfn, hz]
  · exact answersFor_error _ _

/-- TZERO, and TCFG, which has no guard (R158). -/
theorem answersFor_decodeK3B (hop : fld w 56 8 = 59#8) : answersFor (.kernel w) (decodeK3B (kGuardOf w) w) := by
  unfold decodeK3B
  split
  · rename_i hfn
    refine answersFor_ite (fun hz => answersFor_kernel rfl ?_) fun _ => answersFor_error _ _
    simp [append_eq_fld_iff, kWord_eq_iff, hop, eq_ofNat_of_toNat hfn, hz]
  · rename_i hfn
    refine answersFor_ite (fun hz => answersFor_kernel rfl ?_) fun _ => answersFor_error _ _
    simp [append_eq_fld_iff, kWord_eq_iff, hop, eq_ofNat_of_toNat hfn, hz, kGuardOf_of_zero hz.1]
  · exact answersFor_error _ _

/-- CLATCH (R158, R237, R238). -/
theorem answersFor_decodeK49 (hop : fld w 56 8 = 73#8) : answersFor (.kernel w) (decodeK49 (kGuardOf w) w) := by
  unfold decodeK49
  split
  iterate 2
    · rename_i hfn
      refine answersFor_ite (fun hz => answersFor_kernel rfl ?_) fun _ => answersFor_error _ _
      simp [append_eq_fld_iff, kWord_eq_iff, hop, eq_ofNat_of_toNat hfn, hz, ofBool_bit]
  · exact answersFor_error _ _

/-- CMOVZ (R158, R241). -/
theorem answersFor_decodeK4D (hop : fld w 56 8 = 77#8) : answersFor (.kernel w) (decodeK4D (kGuardOf w) w) := by
  unfold decodeK4D
  split
  iterate 2
    · rename_i hfn
      refine answersFor_ite (fun hz => answersFor_kernel rfl ?_) fun _ => answersFor_error _ _
      simp [append_eq_fld_iff, kWord_eq_iff, hop, eq_ofNat_of_toNat hfn, hz]
  · exact answersFor_error _ _

/-- A kernel slot word that is not zero and that the decoder accepts (R155 to R159, R234 to R242). -/
theorem answersFor_decodeKernel (h0 : w ≠ 0) : answersFor (.kernel w) (decodeKernel w) := by
  rw [decodeKernel, if_neg h0]
  dsimp only
  split
  all_goals rename_i hop
  case h_1 => exact answersFor_decodeK01 (eq_ofNat_of_toNat hop)
  case h_2 => exact answersFor_decodeK02 (eq_ofNat_of_toNat hop)
  case h_4 => exact answersFor_decodeK04 (eq_ofNat_of_toNat hop)
  case h_5 => exact answersFor_decodeK05 (eq_ofNat_of_toNat hop)
  case h_7 => exact answersFor_decodeK07 (eq_ofNat_of_toNat hop)
  case h_8 => exact answersFor_decodeK08 (eq_ofNat_of_toNat hop)
  case h_9 => exact answersFor_decodeK09 (eq_ofNat_of_toNat hop)
  case h_10 => exact answersFor_decodeK0A (eq_ofNat_of_toNat hop)
  case h_11 => exact answersFor_decodeK0B (eq_ofNat_of_toNat hop)
  case h_12 => exact answersFor_decodeK0C (eq_ofNat_of_toNat hop)
  case h_13 => exact answersFor_decodeK0D (eq_ofNat_of_toNat hop)
  case h_14 => exact answersFor_decodeK20 (eq_ofNat_of_toNat hop)
  case h_15 => exact answersFor_decodeK21 (eq_ofNat_of_toNat hop)
  case h_18 => exact answersFor_decodeK38 (eq_ofNat_of_toNat hop)
  case h_19 => exact answersFor_decodeK39 (eq_ofNat_of_toNat hop)
  case h_20 => exact answersFor_decodeK3A (eq_ofNat_of_toNat hop)
  case h_21 => exact answersFor_decodeK3B (eq_ofNat_of_toNat hop)
  case h_25 => exact answersFor_decodeK49 (eq_ofNat_of_toNat hop)
  case h_29 => exact answersFor_decodeK4D (eq_ofNat_of_toNat hop)
  case h_32 => exact answersFor_error _ _
  all_goals refine answersFor_ite (fun hz => answersFor_kernel rfl ?_) fun _ => answersFor_error _ _
  case h_3 =>
    have hparts := fld_zero_parts (m := 7) (n := 5) hz
    simp [append_eq_fld_iff, kWord_eq_iff, eq_ofNat_of_toNat hop, hparts, kGuardOf]
  case h_22 | h_23 => simp [append_eq_fld_iff, kWord_eq_iff, eq_ofNat_of_toNat hop, hz, kGuardOf_of_zero hz.1]
  all_goals simp [append_eq_fld_iff, kWord_eq_iff, eq_ofNat_of_toNat hop, hz, kGuardOf, ofBool_bit]

end

/-- Settles O3: of each opcode's words, the fields that the decoder reads and the zeros that it asks for make up the word. -/
theorem encodeAfterDecode : Obligations.EncodeAfterDecode :=
  ⟨answersFor_decodeCp, fun _ i h0 hi => answersFor_decodeKernel h0 i hi, rfl⟩

end Sys2Proof.Machine

/-! PROOFS. Registers, NOP, slots whose guard is false, and slots that name a leased register (R51, R54, R64, R72). -/

namespace Sys2Proof.Machine

/-! ## Registers -/

theorem rpred_zero (g : BitVec 12) : rpred g 0 = true := rfl

theorem wpred_of_ne_zero (g : BitVec 12) {n : Nat} (v : Bool) (h : n ≠ 0) : wpred g n v = setBit g n v := if_neg h

theorem rpred_wpred_same (g : BitVec 12) {n : Nat} (v : Bool) (h : n ≠ 0) (hn : n < 12) : rpred (wpred g n v) n = v := by
  rw [wpred_of_ne_zero g v h, rpred, bit_setBit g n v hn, if_pos rfl]
  simp [h]

/-- A write of a predicate leaves the others alone (R51). -/
theorem rpred_wpred_other (g : BitVec 12) {m n : Nat} (v : Bool) (h : m ≠ n) : rpred (wpred g n v) m = rpred g m := by
  by_cases hn : n = 0
  · rw [wpred, if_pos hn]
  · rw [wpred_of_ne_zero g v hn, rpred, rpred]
    by_cases hm : m < 12
    · rw [bit_setBit g n v hm, if_neg h]
    · rw [bit, bit, BitVec.getLsbD_of_ge _ _ (Nat.le_of_not_lt hm), BitVec.getLsbD_of_ge _ _ (Nat.le_of_not_lt hm)]

/-- Settles O16: reads after writes of the two register files. -/
theorem registerFile : Obligations.RegisterFile :=
  ⟨Ctx.rx_zero, Ctx.wx_zero, fun c n v => Ctx.rx_wx_same c n v, fun c _ _ v => Ctx.rx_wx_other c v, rpred_zero,
    fun g _ v => rpred_wpred_same g v, fun g _ _ v => rpred_wpred_other g v⟩

/-! ## Words that the spec writes out -/

/-- Settles O4: each word is decoded. -/
theorem specWordsDecode : Obligations.SpecWordsDecode := by
  unfold Obligations.SpecWordsDecode
  decide

/-- Major opcode 0x00 has the word NOP only (R64). -/
theorem decodeCp_op00 {w : Word32} (h0 : w ≠ 0) (hop : fld w 27 5 = 0) : decodeCp w = .error .op := by
  rw [decodeCp, if_neg h0]
  simp only [hop]
  rfl

/-- Settles O5: NOP marks its slot performed, and no other word of its opcode decodes. -/
theorem nopHasNoEffect : Obligations.NopHasNoEffect :=
  ⟨rfl, exec_nop, perform_eq, rfl, fun _ h0 hop => ⟨_, decodeCp_op00 h0 hop⟩⟩

/-! ## The form of a slot, by the registers that it names -/

/-- An instruction that writes one x register is a slot that sets it to a value of the state (R84). -/
theorem exec_xWriter {i : Instr} {g : Guard} {d : Nat} {rs : List Nat} (h : xWriter i = some (g, d, rs)) :
    ∃ (xd : BitVec 5) (xs : List (BitVec 5)) (v : State → Word), d = xd.toNat ∧ rs = xs.map (·.toNat) ∧
      ∀ s, exec i s = slotABM g xs (fun s => .done (s.wx xd (v s))) s := by
  cases i <;> cases h <;> exact ⟨_, _, _, rfl, rfl, fun s => rfl⟩

/-- An instruction that writes one predicate is a slot that sets it to a value of the state (R91, R93). -/
theorem exec_gWriter {i : Instr} {g : Guard} {p : Nat} {rs : List Nat} (h : gWriter i = some (g, p, rs)) :
    ∃ (gp : BitVec 4) (xs : List (BitVec 5)) (v : State → Bool), p = gp.toNat ∧ rs = xs.map (·.toNat) ∧
      ∀ s, exec i s = slotABM g xs (fun s => .done (s.wg gp (v s))) s := by
  cases i with
  | pand | por | pxor | pandn | pnot => cases h; exact ⟨_, [], _, rfl, rfl, fun s => rfl⟩
  | _ => cases h <;> exact ⟨_, _, _, rfl, rfl, fun s => rfl⟩

/-- Every other slot of class A, B or M that names registers has the common form with those registers (R72). -/
theorem exec_otherRegs {i : Instr} {g : Guard} {rs : List Nat} (h : otherRegs i = some (g, rs)) :
    ∃ xs f, (∀ s, exec i s = slotABM g xs f s) ∧ rs = xs.map (·.toNat) := by
  cases i <;> cases h <;> exact ⟨_, _, fun s => rfl, rfl⟩

/-- A command that names registers has the common form of class E with those registers, but GWAIT, which may already wait (R72). -/
theorem exec_commandRegs {i : Instr} {g : Guard} {rs : List Nat} (h : commandRegs i = some (g, rs)) :
    (∃ d k, i = .gwait g d k ∧ rs = [d.toNat, k.toNat]) ∨ ∃ f, ∀ s, exec i s = slotE g rs f s := by
  cases i with
  | gwait => cases h; exact .inl ⟨_, _, rfl, rfl⟩
  | _ => cases h <;> exact .inr ⟨_, fun s => rfl⟩

/-- Every guarded slot has one of the two common forms, but TRAP and GWAIT, which test the guard themselves (R54). -/
theorem exec_guarded {i : Instr} {g : Guard} (h : cpGuard i = some g) :
    (∃ n, i = .trap g n) ∨ (∃ d k, i = .gwait g d k) ∨ (∃ xs f, ∀ s, exec i s = slotABM g xs f s) ∨
      ∃ rs f, ∀ s, exec i s = slotE g rs f s := by
  cases i with
  | trap => cases h; exact .inl ⟨_, rfl⟩
  | gwait => cases h; exact .inr (.inl ⟨_, _, rfl⟩)
  | salloc | sfree | sload | sloadx | sstore | sgather | sbag | sbagm | scopy | scopyp | srecv | swait | swaitAll | krun | lwait | sscadd
    | srowupd | aadd | afadd | amin | amax | aand | aor | axor | axchg | acas | qpush | qpop | put | get | signal | lamo | synct | gopen
    | gstore | sstoreg | sscaddg | gseal | gcommit | gabort | gpeek | gdeleg | gstat =>
    cases h
    exact .inr (.inr (.inr ⟨_, _, fun s => rfl⟩))
  | pand | por | pxor | pandn | pnot | br | eret | yield | fence =>
    cases h
    exact .inr (.inr (.inl ⟨[], _, fun s => rfl⟩))
  | _ =>
    cases h <;> exact .inr (.inr (.inl ⟨_, _, fun s => rfl⟩))

/-! ## Slots whose guard is false -/

/-- A GWAIT that does not wait yet is a slot of class E. -/
theorem execGwait_eq {g : Guard} {d k : BitVec 5} {s : State} {is : Issue} (hissue : s.me.issue = some is) (hgwait : is.gwait = false) :
    ∃ f, exec (.gwait g d k) s = slotE g [d.toNat, k.toNat] f s := by
  rw [exec_gwait, execGwait, hissue]
  exact ⟨_, if_neg (by simp [hgwait])⟩

/-- Settles O10: a false guard answers before anything else, in both common forms and in the two slots that test it themselves. -/
theorem falseGuardPerformsNothing : Obligations.FalseGuardPerformsNothing := by
  intro i g s is hg hissue hgwait hoff
  obtain ⟨n, rfl⟩ | ⟨d, k, rfl⟩ | ⟨xs, f, hi⟩ | ⟨rs, f, hi⟩ := exec_guarded hg
  · simp [execTrap, hissue, hoff]
  · obtain ⟨f, hf⟩ := execGwait_eq (g := g) (d := d) (k := k) hissue hgwait
    rw [hf, slotE_off g _ f s is hissue hoff]
  · rw [hi, slotABM_off g xs f s is hissue hoff]
  · rw [hi, slotE_off g rs f s is hissue hoff]

/-! ## What a slot that writes one register leaves unchanged -/

/-- A change of the current context alone (R84). -/
theorem onlyMe_setCtx (s : State) (c : Ctx) : onlyMe s (s.setCtx s.cur.x c) :=
  ⟨rfl, fun _ h => State.ctx_setCtx_other s c h, sameMemory_of_eq rfl rfl⟩

theorem onlyMe_perform {s t : State} (h : onlyMe s t) (hcur : t.cur = s.cur) : onlyMe s (perform t) := by
  obtain ⟨hrest, hctx, hmem⟩ := h
  refine ⟨hrest, fun y hy => ?_, hmem⟩
  rw [perform_eq, State.ctx_setCtx_other _ _ (by rwa [hcur]), hctx y hy]

theorem me_perform (s : State) : (perform s).me = { s.me with
    issue := s.me.issue.map (fun is => { is with perf := setBit is.perf s.cur.slot true }) } := State.ctx_setCtx_same s s.cur.x _

theorem me_wx (s : State) (d : BitVec 5) (v : Word) : (s.wx d v).me = s.me.wx d.toNat v := State.ctx_setCtx_same s s.cur.x _

theorem me_wg (s : State) (p : BitVec 4) (v : Bool) : (s.wg p v).me = { s.me with g := wpred s.me.g p.toNat v } :=
  State.ctx_setCtx_same s s.cur.x _

/-- A register write changes nothing of a context but its registers. -/
theorem Ctx.wx_rest (c : Ctx) (n : Nat) (v : Word) : ∃ x, c.wx n v = { c with x := x } := by
  by_cases h : n = 0
  · exact ⟨c.x, if_pos h⟩
  · exact ⟨_, if_neg h⟩

/-- A write of an x register by a slot that is then performed (R51, R84). -/
theorem frameX_wx (s : State) (d : BitVec 5) (v : Word) : frameX s (perform (s.wx d v)) d.toNat := by
  have hme : (perform (s.wx d v)).me = { s.me.wx d.toNat v with
      issue := s.me.issue.map (fun is => { is with perf := setBit is.perf s.cur.slot true }) } := by
    obtain ⟨x, hx⟩ := Ctx.wx_rest s.me d.toNat v
    rw [me_perform, me_wx, hx]
    rfl
  refine ⟨onlyMe_perform (onlyMe_setCtx s _) rfl, ?_, fun n hn => ?_, ?_⟩
  · rw [slotPerformed, hme]
  · rw [hme]
    exact Ctx.rx_wx_other s.me v hn
  · obtain ⟨x, hx⟩ := Ctx.wx_rest s.me d.toNat v
    rw [hme, hx]

/-- A write of a predicate by a slot that is then performed (R51, R91, R93). -/
theorem frameG_wg (s : State) (p : BitVec 4) (v : Bool) : frameG s (perform (s.wg p v)) p.toNat := by
  have hme : (perform (s.wg p v)).me = { s.me with
      g := wpred s.me.g p.toNat v, issue := s.me.issue.map (fun is => { is with perf := setBit is.perf s.cur.slot true }) } := by
    rw [me_perform, me_wg]
    rfl
  refine ⟨onlyMe_perform (onlyMe_setCtx s _) rfl, ?_, fun n hn => ?_, ?_⟩
  · rw [slotPerformed, hme]
  · rw [hme]
    exact rpred_wpred_other s.me.g v hn
  · rw [hme]

/-- Settles O17: such a slot sets its register and is performed. -/
theorem frameOfArithmetic : Obligations.FrameOfArithmetic := by
  constructor
  · intro i g d rs s t hi hrun ht
    obtain ⟨xd, xs, v, rfl, rfl, hexec⟩ := exec_xWriter hi
    obtain ⟨is, hissue, hg, hl⟩ := hrun
    rw [hexec, slotABM_run g xs _ s is hissue hg hl] at ht
    cases ht
    exact frameX_wx s xd (v s)
  · intro i g p rs s t hi hrun ht
    obtain ⟨gp, xs, v, rfl, rfl, hexec⟩ := exec_gWriter hi
    obtain ⟨is, hissue, hg, hl⟩ := hrun
    rw [hexec, slotABM_run g xs _ s is hissue hg hl] at ht
    cases ht
    exact frameG_wg s gp (v s)

/-! ## Slots that name a leased register -/

/-- The word of a command that names registers: its guard, its class, and its registers among those that the word reads or writes
(R62, R65). -/
theorem commandRegs_word {i : Instr} {g : Guard} {rs : List Nat} {w : Word32} (h : commandRegs i = some (g, rs)) (hwf : i.wf = true)
    (henc : encode i = some (.cp w)) : guardOf w = g ∧ classOf w = .e ∧ ∀ n ∈ rs, n ∈ xReads w ++ xWrites w := by
  cases i <;> cases h <;> cases henc <;> refine ⟨by simp [guardOf], by simp [classOf, opOf, fldN], ?_⟩
  case scopy a _ =>
    obtain ⟨-, ha⟩ : _ ∧ a ≠ 0 := by simpa [Instr.wf] using hwf
    have ha' : a.toNat ≠ 0 := fun h => ha (BitVec.eq_of_toNat_eq h)
    simp [xReads, xWrites, opOf, fldN, fld, enReads, subOf, en2, en3, ha']
  all_goals
    simp +contextual [xReads, xWrites, opOf, fldN, fld, enReads, engineReads, subOf, en1, en2, en3, Nat.mul_comm]

/-- A word of class E is not ready while a register that it names is leased (R68). -/
theorem wordReady_leased {s : State} {x n : Nat} {w : Word32} (hcls : classOf w = .e) (hn : n ∈ xReads w ++ xWrites w)
    (hl : bit (s.ctx x).lease n = true) : wordReady s x w = false := by
  have : (xReads w ++ xWrites w).any (fun n => bit (s.ctx x).lease n) = true := List.any_eq_true.2 ⟨n, hn, hl⟩
  simp only [wordReady, hcls, this, decide_true, Bool.and_true, Bool.not_true, Bool.and_false, Bool.false_and]

/-- A bundle with a slot to perform that is not ready is not ready (R68). -/
theorem bundleReady_of_wordReady {s : State} {x i : Nat} {is : Issue} (hi : i ∈ is.todo)
    (hg : is.guardOk (guardOf (is.words.getD i 0)) = true) (hw : wordReady s x (is.words.getD i 0) = false) :
    bundleReady s x is = false :=
  List.all_eq_false.2 ⟨i, hi, by simp only [hg, hw]; decide⟩

/-- Settles O18: the common forms answer for a leased register before the slot's own effect, and readiness tests the word's registers. -/
theorem leasedRegisterFaults : Obligations.LeasedRegisterFaults := by
  refine ⟨?_, ?_, ?_, ?_⟩
  · rintro i g d rs s is n (hi | hi) hissue hg hl
    · obtain ⟨xd, xs, v, -, rfl, hexec⟩ := exec_xWriter hi
      rw [hexec, slotABM_leased g xs _ s is n hissue hg hl]
    · obtain ⟨gp, xs, v, -, rfl, hexec⟩ := exec_gWriter hi
      rw [hexec, slotABM_leased g xs _ s is n hissue hg hl]
  · intro i g rs s is n hi hissue hg hl
    obtain ⟨xs, f, hexec, rfl⟩ := exec_otherRegs hi
    rw [hexec, slotABM_leased g xs _ s is n hissue hg hl]
  · intro i g rs s is hi hissue hg hgwait hl
    obtain ⟨n, hn⟩ := Option.isSome_iff_exists.1 hl
    obtain ⟨d, k, rfl, rfl⟩ | ⟨f, hexec⟩ := exec_commandRegs hi
    · obtain ⟨f, hf⟩ := execGwait_eq (g := g) (d := d) (k := k) hissue hgwait
      cases hi
      rw [hf, slotE_leased _ _ f s is n hissue hg hn]
    · rw [hexec, slotE_leased g rs f s is n hissue hg hn]
  · intro s x n i g rs is hdec hi htodo hg hn hl
    obtain ⟨hwf, henc⟩ := answersFor_decodeCp _ i hdec
    obtain ⟨rfl, hcls, hrs⟩ := commandRegs_word hi hwf henc
    exact bundleReady_of_wordReady htodo hg (wordReady_leased hcls (hrs n hn) hl)

end Sys2Proof.Machine

/-! PROOFS. Branches and calls, ERET, TRAP, and the faults that stop a task (R56, R75 to R79, R96 to R98, R108, R285, R372). -/

namespace Sys2Proof.Machine

/-! ## Accesses of a slot -/

section
variable {s t u : State} {va : Word} {kind code detail : Nat} {p : Place} {k : Place → State → SlotRes}

/-- The translation that an access of a slot asks for is that of the current context (R281). -/
theorem withPlace_of_unfailed (h : unfailed s va kind) : withPlace s va kind k =
    match translation s va kind with
    | .ok p s => k p s
    | .fault code detail s => .fault ⟨code, 1, va.toNat, detail, 0⟩ s
    | .serviced kind node region level s =>
      .serviced ⟨missCode node, 1, va.toNat, trDetail kind level, 0⟩ va.toNat kind node region level s
    | .check f s => .check f s
    | .locked s => .wait s := by
  have h' : pagerHit s.me true va.toNat kind = none := h
  cases ht : s.me.task <;> simp only [withPlace, h', ht, translation, popsOf] <;> rfl

/-- An access goes on at the place that its address translates to. -/
theorem withPlace_translates (h : translates s va kind p t) : withPlace s va kind k = k p t := by
  obtain ⟨hok, htr⟩ := h
  rw [withPlace_of_unfailed hok, htr]

/-- A translation that faults is the slot's fault (R76, R293). -/
theorem withPlace_faults (h : unfailed s va kind) (htr : translation s va kind = .fault code detail t) :
    withPlace s va kind k = .fault ⟨code, 1, va.toNat, detail, 0⟩ t := by
  rw [withPlace_of_unfailed h, htr]

/-- An access that is performed at once goes on at a place that no migration holds (R291). -/
theorem withGate_reaches (h : reaches s va kind p t) : withGate s va kind k = k p t := by
  obtain ⟨htr, hgo⟩ := h
  rw [withGate, withPlace_translates htr]
  simp only [hgo]

theorem withGate_faults (h : unfailed s va kind) (htr : translation s va kind = .fault code detail t) :
    withGate s va kind k = .fault ⟨code, 1, va.toNat, detail, 0⟩ t := withPlace_faults h htr

end

/-! ## Targets -/

section
variable {s t u : State} {target : Word} {p : Place} {ws : List Word32} {k : State → SlotRes}

/-- A target that its line admits (R56, R98). -/
theorem checkTarget_ok (h : reaches s target 3 p t) (hline : fetchLine t (coreOf t.cur.x) p = (.ok ws, u))
    (hok : targetOk ws target.toNat = true) : checkTarget target k s = k u := by
  rw [checkTarget, withGate_reaches h]
  simp only [hline, hok, if_true]

/-- A target that its line does not admit raises fault 0x02 (R56). -/
theorem checkTarget_refused (h : reaches s target 3 p t) (hline : fetchLine t (coreOf t.cur.x) p = (.ok ws, u))
    (hno : targetOk ws target.toNat = false) : checkTarget target k s = .fault ⟨0x02, 1, target.toNat, target.toNat, 0⟩ u := by
  rw [checkTarget, withGate_reaches h]
  simp only [hline, hno, Bool.false_eq_true, if_false]

theorem branchTo_checked (link : Bool) (h : target ≠ exitVa) : branchTo target link s = checkTarget target (fun s =>
    .done ((if link = true then s.wx 31 (BitVec.ofNat 64 s.nextAddr) else s).modIssue s.cur.x (fun is =>
      { is with taken := some target.toNat }))) s := if_neg h

/-- A branch to the exit address (R372). -/
theorem branchTo_exit (link : Bool) : branchTo exitVa link s = waitExit s := if_pos rfl

end

/-! ## Branches -/

/-- What becomes of a branch to a target, with or without a link (R56, R98, R372). -/
def branches (ins : Instr) (target : Word) (link : Bool) (s : State) : Prop := exec ins s = .next (settle (branchTo target link s))

/-- BR, CALL, BRR and CALLR branch once their guard is true and their registers are not leased (R96, R97). -/
theorem branches_of_slotRuns (s : State) (g : Guard) (o : BitVec 22) (a : BitVec 5) :
    (slotRuns s g [] → branches (.br g o) (relTarget s o) false s) ∧
    (slotRuns s g [31] → branches (.call g o) (relTarget s o) true s) ∧
    (slotRuns s g [a.toNat] → branches (.brr g a) (s.rx a) false s) ∧
    (slotRuns s g [a.toNat, 31] → branches (.callr g a) (s.rx a) true s) := by
  refine ⟨?_, ?_, ?_, ?_⟩ <;> rintro ⟨is, hissue, hg, hl⟩
  · exact slotABM_run g [] (fun s => branchTo (relTarget s o) false s) s is hissue hg hl
  · exact slotABM_run g [31] (fun s => branchTo (relTarget s o) true s) s is hissue hg hl
  · exact slotABM_run g [a] (fun s => branchTo (s.rx a) false s) s is hissue hg hl
  · exact slotABM_run g [a, 31] (fun s => branchTo (s.rx a) true s) s is hissue hg hl

/-- The outcomes of a branch: admitted, refused by its line, struck by a translation fault, or waiting for the task's end. -/
theorem branches_outcome {ins : Instr} {target : Word} {link : Bool} {s t u : State} {p : Place} {ws : List Word32}
    (h : branches ins target link s) :
    (target ≠ exitVa → reaches s target 3 p t → fetchLine t (coreOf t.cur.x) p = (.ok ws, u) →
      (targetOk ws target.toNat = true →
        exec ins s = .next (perform ((if link = true then u.wx 31 (BitVec.ofNat 64 u.nextAddr) else u).modIssue u.cur.x
          (fun is => { is with taken := some target.toNat })))) ∧
      (targetOk ws target.toNat = false → exec ins s = .next (takeFault u ⟨0x02, 1, target.toNat, target.toNat, 0⟩))) ∧
    (target ≠ exitVa → unfailed s target 3 → ∀ code detail, translation s target 3 = .fault code detail t →
      exec ins s = .next (takeFault t ⟨code, 1, target.toNat, detail, 0⟩)) ∧
    (target = exitVa → exec ins s = .next (s.modIssue s.cur.x (fun is => { is with exit := true }))) := by
  rw [branches] at h
  refine ⟨fun hne hr hline => ⟨fun hok => ?_, fun hno => ?_⟩, fun hne hun code detail htr => ?_, ?_⟩
  · rw [h, branchTo_checked link hne, checkTarget_ok hr hline hok]
    rfl
  · rw [h, branchTo_checked link hne, checkTarget_refused hr hline hno]
    rfl
  · rw [h, branchTo_checked link hne, checkTarget, withGate_faults hun htr]
    rfl
  · rintro rfl
    rw [h, branchTo_exit]
    rfl

/-- Settles O19: the four instructions differ in their target and their link only. -/
theorem branchesAndCalls : Obligations.BranchesAndCalls := by
  intro s t u g o a p ws target
  obtain ⟨hbr, hcall, hbrr, hcallr⟩ := branches_of_slotRuns s g o a
  simp only [List.forall_mem_cons, List.not_mem_nil, false_implies, implies_true, and_true]
  refine ⟨?_, ?_, ?_, ?_⟩ <;> rintro hrun rfl
  · exact branches_outcome (hbr hrun)
  · exact branches_outcome (hcall hrun)
  · exact branches_outcome (hbrr hrun)
  · exact branches_outcome (hcallr hrun)

/-! ## ERET -/

section
variable {s t u : State} {p : Place} {ws : List Word32}

/-- ERET with slots left in the replay buffer (R77). -/
theorem eretBody_reissue (ht : s.me.t = true) {is : Issue} (hrb : s.me.rb = some is) (htodo : is.todo ≠ []) :
    eretBody s = .wait (eretReissue is s) := by
  have : is.todo.isEmpty = false := by simpa using htodo
  simp [eretBody, ht, hrb, this]

/-- ERET with nothing to reissue goes on at EPC (R77). -/
theorem eretBody_resume (ht : s.me.t = true) (hrb : ∀ is, s.me.rb = some is → is.todo = []) :
    eretBody s = if s.me.epc = exitVa then waitExit s else checkTarget s.me.epc (fun s => .wait (eretResume s)) s := by
  cases h : s.me.rb with
  | none => simp [eretBody, ht, h]
  | some is => simp [eretBody, ht, h, hrb is h]

/-- ERET outside the handler (R77). -/
theorem eretBody_outside (ht : s.me.t = false) : eretBody s = .fault (Flt.mk0 0x08 0) s := by
  simp [eretBody, ht]

end

/-- Settles O23: the slot is the common one, and its effect is one of the three above. -/
theorem eretReturns : Obligations.EretReturns := by
  rintro s t u g p ws ⟨is, hissue, hg, hl⟩
  have hexec : exec (.eret g) s = .next (settle (eretBody s)) := slotABM_run g [] eretBody s is hissue hg hl
  refine ⟨fun ht is hrb htodo => ?_, fun ht hrb => ⟨fun hne hr hline => ⟨fun hok => ?_, fun hno => ?_⟩, fun hex => ?_⟩, fun ht => ?_⟩
  · rw [hexec, eretBody_reissue ht hrb htodo]
    rfl
  · rw [hexec, eretBody_resume ht hrb, if_neg hne, checkTarget_ok hr hline hok]
    rfl
  · rw [hexec, eretBody_resume ht hrb, if_neg hne, checkTarget_refused hr hline hno]
    rfl
  · rw [hexec, eretBody_resume ht hrb, if_pos hex]
    rfl
  · rw [hexec, eretBody_outside ht]
    rfl

end Sys2Proof.Machine

/-! PROOFS. TRAP, and the faults that stop a task (R76, R77, R79, R108, R285). -/

namespace Sys2Proof.Machine

/-! ## The end of a task -/

/-- The end of a task changes units of its core and its own context, whose record an earlier end keeps (R76, R372). -/
theorem killTask_frame (s : State) (x : Nat) (r : Rec) :
    ∃ c : Ctx, c.kill = (s.ctx x).kill ∧ (killTask s x r).ctx x = { c with
        kill := some (c.kill.getD r), issue := none, rb := none, reissue := false, save := none } := by
  refine ⟨(dropMiss (dropGwait s x) (coreOf x) (x % 4)).ctx x, ?_, State.ctx_setCtx_same _ _ _⟩
  change ((dropGwait s x).ctx x).kill = _
  unfold dropGwait
  split
  · split
    · rw [dropLease, State.modCtx_eq, State.ctx_setCtx_same]
      split_ifs <;> rfl
    · rfl
  · rfl

theorem dropGwait_mem (s : State) (x : Nat) : (dropGwait s x).mem = s.mem ∧ (dropGwait s x).host = s.host ∧ (dropGwait s x).cur = s.cur := by
  unfold dropGwait
  split
  · split <;> exact ⟨rfl, rfl, rfl⟩
  · exact ⟨rfl, rfl, rfl⟩

theorem killTask_mem (s : State) (x : Nat) (r : Rec) :
    (killTask s x r).mem = s.mem ∧ (killTask s x r).host = s.host ∧ (killTask s x r).cur = s.cur := dropGwait_mem s x

/-- A context whose task has ended issues nothing (R76). -/
theorem mayIssue_of_kill {s : State} {x : Nat} {r : Rec} (h : (s.ctx x).kill = some r) : mayIssue s x = false := by
  simp [mayIssue, h]

/-- A context whose task is to be saved issues nothing (R76). -/
theorem mayIssue_of_save {s : State} {x : Nat} {w : SaveWhy} (h : (s.ctx x).save = some w) : mayIssue s x = false := by
  simp [mayIssue, h]

/-! ## Delivery -/

section
variable {s : State} {x addr epc : Nat} {r : Rec} {is : Option Issue}

/-- A fault outside the handler where one is set (R76). -/
theorem deliver_enters (ht : (s.ctx x).t = false) (htvec : fldN (s.ctx x).tvec 7 48 ≠ 0) :
    deliver s x r is addr epc = (writeFrameRec s x 0x390 r).modCtx x (fun c => { c with
      rb := is, issue := none, reissue := false, drain := true, epc := BitVec.ofNat 64 (epc % 2 ^ 55), t := true,
      pc := fldN (s.ctx x).tvec 7 48 * 128 + 8 }) := by
  have hctx : (writeFrameRec s x 0x390 r).ctx x = s.ctx x := (homeOnly_writeFrameRec s x _ r).ctx x
  simp [deliver, ht, htvec, hctx]

/-- A fault in the handler (R79). -/
theorem deliver_double (ht : (s.ctx x).t = true) :
    deliver s x r is addr epc = killTask (writeFrameRec s x 0x3D0 (doubleFault s x r.code addr)) x (doubleFault s x r.code addr) := by
  simp [deliver, ht]

/-- A fault of a task without a handler (R76). -/
theorem deliver_ends (ht : (s.ctx x).t = false) (htvec : fldN (s.ctx x).tvec 7 48 = 0) :
    deliver s x r is addr epc = killTask (writeFrameRec s x 0x390 r) x r := by
  simp [deliver, ht, htvec]

end

/-- The code of a record is its fault's, in the 8 bits that it has there (R26). -/
theorem code_mkRec (s : State) (x : Nat) (precise : Bool) (f : Flt) : (mkRec s x precise f).code = f.code % 2 ^ 8 := by
  simp only [Rec.code, fldN_eq, mkRec, BitVec.toNat_ofNat, Nat.pow_zero, Nat.div_one]
  rw [Nat.mod_mod_of_dvd _ (by norm_num)]
  omega

/-- A precise fault is a delivery at its bundle after the withdrawal of a load (R74, R75). -/
theorem takeFault_eq {s : State} {f : Flt} {is : Issue} (hissue : s.me.issue = some is) (hframe : frameWaits s s.cur.x = false) :
    takeFault s f = deliver (withdrawLoad s s.cur.x is).2 s.cur.x (mkRec (withdrawLoad s s.cur.x is).2 s.cur.x true f)
      (some (withdrawLoad s s.cur.x is).1) is.addr is.addr := by
  set u := (withdrawLoad s s.cur.x is).2 with hu
  have hcur : u.cur = s.cur := (withdrawLoad_frame s s.cur.x is).1
  rw [takeFault, hissue]
  simp only [hframe, Bool.false_eq_true, if_false]
  change deliver u u.cur.x (mkRec u u.cur.x true f) _ (withdrawLoad s s.cur.x is).1.addr (withdrawLoad s s.cur.x is).1.addr = _
  rw [hcur, withdrawLoad_addr]

/-- What the end of a task by a fault leaves: the record it ends with, no open bundle, and memory as the record's write left it. -/
theorem killed_after_record {u v : State} {x off : Nat} {r q : Rec} (hkill : (u.ctx x).kill = none) (hcur : u.cur.x = x)
    (hv : v = killTask (writeFrameRec u x off q) x r) :
    v.me.kill = some r ∧ v.me.issue = none ∧ mayIssue v x = false ∧ sameMemory (writeFrameRec u x off q) v := by
  subst hv
  obtain ⟨hmem, hhost, hc⟩ := killTask_mem (writeFrameRec u x off q) x r
  obtain ⟨c, hck, hctx⟩ := killTask_frame (writeFrameRec u x off q) x r
  have hw := homeOnly_writeFrameRec u x off q
  rw [hw.ctx, hkill] at hck
  have hme : (killTask (writeFrameRec u x off q) x r).me = (killTask (writeFrameRec u x off q) x r).ctx x := by
    rw [State.me, hc, hw.cur, hcur]
  have hk : ((killTask (writeFrameRec u x off q) x r).ctx x).kill = some r := by rw [hctx, hck]; rfl
  exact ⟨hme ▸ hk, by rw [hme, hctx], mayIssue_of_kill hk, sameMemory_of_eq hmem hhost⟩

/-- A fault that the hardware scheduler services, outside the handler (R76, R285). -/
theorem takeServiced_eq {s : State} {f : Flt} {va kind region level : Nat} {node : Bool} {is : Issue} (hissue : s.me.issue = some is)
    (ht : s.me.t = false) : takeServiced s f va kind node region level = (withdrawLoad s s.cur.x is).2.modMe (fun c => { c with
      rb := some (withdrawLoad s s.cur.x is).1, issue := none, reissue := true, save := some (.fault va kind node region level none) }) := by
  rw [takeServiced, hissue]
  simp only [ht, Bool.false_eq_true, if_false]

/-- Settles O21: both ends of a task are one end after one record, and a serviced fault changes the context alone. -/
theorem faultsThatStopTheTask : Obligations.FaultsThatStopTheTask := by
  refine ⟨fun s f is hissue hkill hframe => ?_, fun s f va kind region level node is hissue => ⟨fun ht => ?_, fun ht => ?_⟩⟩
  · intro u
    obtain ⟨hcur, ⟨a, hctx⟩, -⟩ := withdrawLoad_frame s s.cur.x is
    have hx : u.cur.x = s.cur.x := congrArg Cur.x hcur
    have hukill : (u.ctx s.cur.x).kill = none := by rw [hctx]; exact hkill
    have htake := takeFault_eq (f := f) hissue hframe
    refine ⟨fun ht => ?_, fun ht htvec => ?_⟩
    · have hut : (u.ctx s.cur.x).t = true := by rw [hctx]; exact ht
      rw [deliver_double hut, doubleFault, code_mkRec] at htake
      exact killed_after_record hukill hx htake
    · have hut : (u.ctx s.cur.x).t = false := by rw [hctx]; exact ht
      have hutvec : fldN (u.ctx s.cur.x).tvec 7 48 = 0 := by rw [hctx]; exact htvec
      rw [deliver_ends hut hutvec] at htake
      obtain ⟨hk, hi, hm, -⟩ := killed_after_record hukill hx htake
      exact ⟨hk, hi, hm⟩
  · have heq := takeServiced_eq (f := f) (va := va) (kind := kind) (region := region) (level := level) (node := node) hissue ht
    obtain ⟨hcur, -, -⟩ := withdrawLoad_frame s s.cur.x is
    have hme : (takeServiced s f va kind node region level).me = _ := (congrArg State.me heq).trans (State.ctx_setCtx_same _ _ _)
    refine ⟨hme, fun hld => ?_, mayIssue_of_save (w := .fault va kind node region level none) ?_⟩
    · rw [heq, withdrawLoad_none hld]
      exact onlyMe_setCtx s _
    · have hx : (takeServiced s f va kind node region level).cur = s.cur := (congrArg State.cur heq).trans hcur
      rw [State.me, hx] at hme
      rw [hme]
  · simp only [takeServiced, hissue, ht, if_true]

/-! ## TRAP -/

/-- TRAP outside the handler is a delivery at the fall-through successor, with no bundle to reissue (R77, R108). -/
theorem trapEntry_eq {s : State} {i : BitVec 16} {is : Issue} (hissue : s.me.issue = some is) (hframe : frameWaits s s.cur.x = false) :
    trapEntry i s = deliver s s.cur.x (mkRec s s.cur.x true (Flt.mk0 0x01 i.toNat)) none is.addr (successor is.addr is.occ) := by
  simp [trapEntry, hframe, State.bundleAddr, State.nextAddr, hissue]

/-- Settles O22: TRAP is that delivery. -/
theorem trapEntersHandler : Obligations.TrapEntersHandler := by
  intro s g i is hissue hg ht htvec hframe
  have hexec : exec (.trap g i) s = .next (trapEntry i s) := by simp [execTrap, hissue, hg]
  have hw := homeOnly_writeFrameRec s s.cur.x 0x390 (mkRec s s.cur.x true (Flt.mk0 0x01 i.toNat))
  have heq := (trapEntry_eq (i := i) hissue hframe).trans (deliver_enters ht htvec)
  refine ⟨_, hexec, ?_, ?_⟩
  · rw [heq, State.me, State.modCtx_eq, State.setCtx_cur, hw.cur, State.ctx_setCtx_same, hw.ctx]
    rfl
  · rw [heq, State.modCtx_eq]
    exact sameMemory_of_eq (State.setCtx_mem _ _ _) (State.setCtx_host _ _ _)

end Sys2Proof.Machine

/-! PROOFS. System registers and YIELD (R57, R108 to R110), and the issue and the end of bundles (R56, R58, R68 to R70, R310). -/

namespace Sys2Proof.Machine

/-! ## Two writes of one context -/

theorem Tab.erase_of_no_key {α : Type} {t : Tab α} {k : Nat} (h : ∀ p ∈ t, p.1 ≠ k) : Tab.erase t k = t := by
  induction t with
  | nil => rfl
  | cons p t ih =>
    obtain ⟨hp, ht⟩ := List.forall_mem_cons.1 h
    rw [Tab.erase, if_neg hp, ih ht]

theorem Tab.erase_insert {α : Type} {t : Tab α} {k : Nat} (v : α) (h : ∀ p ∈ t, p.1 ≠ k) : Tab.erase (Tab.insert t k v) k = t := by
  induction t with
  | nil => simp [Tab.insert, Tab.erase]
  | cons p t ih =>
    obtain ⟨hp, ht⟩ := List.forall_mem_cons.1 h
    rw [Tab.insert]
    split_ifs
    · rw [Tab.erase, if_pos rfl, Tab.erase_of_no_key h]
    · rw [Tab.erase, if_neg hp, ih ht]

/-- The later of two writes at one index alone counts. -/
theorem Tab.set_set {α : Type} [DecidableEq α] (d : α) (t : Tab α) (k : Nat) (v w : α) :
    Tab.set d (Tab.set d t k v) k w = Tab.set d t k w := by
  have h : Tab.erase (Tab.set d t k v) k = Tab.erase t k := by
    rw [Tab.set]
    split_ifs
    · exact Tab.erase_of_no_key (Tab.erase_no_key t k)
    · exact Tab.erase_insert v (Tab.erase_no_key t k)
  rw [Tab.set, h, Tab.set]

theorem State.setCtx_setCtx (s : State) (x : Nat) (c e : Ctx) : (s.setCtx x c).setCtx x e = s.setCtx x e := by
  simp only [State.setCtx, Tab.set_set]

/-- A slot that writes its context as it was is performed, and that is all. -/
theorem perform_modMe_id (s : State) : perform (s.modMe id) = perform s := by
  rw [perform_eq, perform_eq]
  change (s.setCtx s.cur.x s.me).setCtx s.cur.x _ = _
  have hme : (s.setCtx s.cur.x s.me).me = s.me := State.ctx_setCtx_same s s.cur.x s.me
  rw [State.setCtx_setCtx]
  change s.setCtx s.cur.x { (s.setCtx s.cur.x s.me).me with issue := (s.setCtx s.cur.x s.me).me.issue.map _ } = _
  rw [hme]
  rfl

/-! ## YIELD -/

/-- A context of whose wait at YIELD another has issued (R108). -/
def Ctx.noted (c : Ctx) (x : Nat) : Ctx := { c with yield := c.yield.map (fun p => (p.1.filter (· ≠ x), p.2)) }

/-- One context after another has issued. -/
def noteOne (x : Nat) (s : State) (y : Nat) : State :=
  match (s.ctx y).yield with
  | none => s
  | some (l, t) => s.modCtx y (fun c => { c with yield := some (l.filter (· ≠ x), t) })

theorem noteIssue_eq (s : State) (x : Nat) :
    noteIssue s x = ((List.range 4).map (fun k => coreOf x * 4 + k)).foldl (noteOne x) s := rfl

theorem noteOne_rest (x : Nat) (s : State) (y : Nat) : { noteOne x s y with ctxs := s.ctxs } = s := by
  unfold noteOne
  split <;> rfl

theorem noteOne_ctx_same (x : Nat) (s : State) (y : Nat) : (noteOne x s y).ctx y = (s.ctx y).noted x := by
  unfold noteOne Ctx.noted
  split
  case h_1 h =>
    generalize s.ctx y = c at h ⊢
    cases c
    cases h
    rfl
  case h_2 l t h => rw [State.modCtx_eq, State.ctx_setCtx_same, h]; rfl

theorem noteOne_ctx_other (x : Nat) (s : State) {y z : Nat} (h : z ≠ y) : (noteOne x s y).ctx z = s.ctx z := by
  unfold noteOne
  split
  · rfl
  · exact State.ctx_setCtx_other _ _ h

theorem foldl_noteOne_rest (x : Nat) (ys : List Nat) (s : State) : { ys.foldl (noteOne x) s with ctxs := s.ctxs } = s := by
  induction ys generalizing s with
  | nil => rfl
  | cons y ys ih =>
    have h := ih (noteOne x s y)
    exact (congrArg (fun t : State => { t with ctxs := s.ctxs }) h).trans (noteOne_rest x s y)

theorem foldl_noteOne_other (x : Nat) {ys : List Nat} {z : Nat} (s : State) (h : z ∉ ys) : (ys.foldl (noteOne x) s).ctx z = s.ctx z := by
  induction ys generalizing s with
  | nil => rfl
  | cons y ys ih =>
    obtain ⟨hy, hys⟩ := not_or.1 (mt List.mem_cons.2 h)
    rw [List.foldl_cons, ih _ hys, noteOne_ctx_other x s hy]

theorem foldl_noteOne_mem (x : Nat) {ys : List Nat} {z : Nat} (s : State) (hnd : ys.Nodup) (h : z ∈ ys) :
    (ys.foldl (noteOne x) s).ctx z = (s.ctx z).noted x := by
  induction ys generalizing s with
  | nil => cases h
  | cons y ys ih =>
    obtain ⟨hy, hys⟩ := List.nodup_cons.1 hnd
    rw [List.foldl_cons]
    by_cases hz : z = y
    · subst hz
      rw [foldl_noteOne_other x _ hy, noteOne_ctx_same]
    · rw [ih _ hys ((List.mem_cons.1 h).resolve_left hz), noteOne_ctx_other x s hz]

/-- What an issue notes changes nothing but the contexts' waits (R108). -/
theorem noteIssue_rest (s : State) (x : Nat) : { noteIssue s x with ctxs := s.ctxs } = s := foldl_noteOne_rest x _ s

/-- Each context of the core is noted (R108). -/
theorem noteIssue_ctx_core (s : State) {x y : Nat} (h : coreOf y = coreOf x) : (noteIssue s x).ctx y = (s.ctx y).noted x := by
  rw [noteIssue_eq]
  refine foldl_noteOne_mem x s ?_ ?_
  · exact List.nodup_range.map fun a b hab => by simpa using hab
  · simp only [coreOf] at h ⊢
    exact List.mem_map.2 ⟨y % 4, List.mem_range.2 (by omega), by omega⟩

theorem noteIssue_ctx_off (s : State) {x y : Nat} (h : coreOf y ≠ coreOf x) : (noteIssue s x).ctx y = s.ctx y := by
  rw [noteIssue_eq]
  refine foldl_noteOne_other x s fun hy => h ?_
  obtain ⟨k, hk, rfl⟩ := List.mem_map.1 hy
  have := List.mem_range.1 hk
  simp only [coreOf]
  omega

/-- The context whose bundle issues (R68, R108). -/
theorem openWith_ctx_same (s : State) (x : Nat) (is : Issue) : (openWith s x is).ctx x = { s.ctx x with
    issue := some { is with tick := s.tickOf (dieOfCtx x), lease := (s.ctx x).lease }, yield := none, reissue := false, drain := false } := by
  rw [openWith, State.modCtx_eq, State.ctx_setCtx_same, noteIssue_ctx_core s rfl]
  rfl

theorem openWith_ctx_core (s : State) {x y : Nat} (is : Issue) (hne : y ≠ x) (h : coreOf y = coreOf x) :
    (openWith s x is).ctx y = (s.ctx y).noted x := by
  rw [openWith, State.modCtx_eq, State.ctx_setCtx_other _ _ hne, noteIssue_ctx_core s h]

theorem openWith_issue_other (s : State) {x y : Nat} (is : Issue) (hne : y ≠ x) : ((openWith s x is).ctx y).issue = (s.ctx y).issue := by
  by_cases h : coreOf y = coreOf x
  · rw [openWith_ctx_core s is hne h]
    rfl
  · rw [openWith, State.modCtx_eq, State.ctx_setCtx_other _ _ hne, noteIssue_ctx_off s h]

/-- A bundle that issues changes contexts only. -/
theorem openWith_rest (s : State) (x : Nat) (is : Issue) : { openWith s x is with ctxs := s.ctxs } = s := noteIssue_rest s x

/-- YIELD holds its context back while others are awaited and the cycles run (R108). -/
theorem mayIssue_yielded {s : State} {x m : Nat} {l : List Nat} (h : (s.ctx x).yield = some (l, m)) (hl : l ≠ [])
    (hm : s.cycles (pkgOfCtx x) < m) : mayIssue s x = false := by
  simp [mayIssue, h, hl, Nat.not_le.2 hm]

/-- A wait at YIELD that is over counts for nothing (R108). -/
theorem mayIssue_waited {s : State} {x m : Nat} {l : List Nat} (h : (s.ctx x).yield = some (l, m))
    (hover : l = [] ∨ m ≤ s.cycles (pkgOfCtx x)) : mayIssue s x = mayIssue (s.modCtx x (fun c => { c with yield := none })) x := by
  have hc : (l.isEmpty || decide (m ≤ s.cycles (pkgOfCtx x))) = true := by simpa using hover
  simp only [mayIssue, h, hc, State.modCtx_eq, State.ctx_setCtx_same]
  rfl

/-! ## System registers -/

/-- MFS writes the register's value (R109). -/
theorem exec_mfs_run {s : State} {g : Guard} {d : BitVec 5} (n : BitVec 12) (h : slotRuns s g [d.toNat]) :
    exec (.mfs g d n) s = .next (perform (s.wx d (sysRead s.cur.x s.me n.toNat))) := by
  obtain ⟨is, hissue, hg, hl⟩ := h
  exact slotABM_run g [d] (fun s => setX d (sysRead s.cur.x s.me n.toNat) s) s is hissue hg hl

/-- Register numbers past FRAME read 0 (log 10). -/
theorem sysRead_past {x : Nat} {c : Ctx} {n : Nat} (h : 9 < n) : sysRead x c n = 0 := by
  unfold sysRead
  split
  case h_11 => rfl
  all_goals omega

/-- MTS writes the register's writable fields (R109). -/
theorem exec_mts_run {s : State} {g : Guard} {d : BitVec 5} {n : BitVec 12} (h : slotRuns s g [d.toNat])
    (hn : ¬ ((n.toNat = 4 ∨ n.toNat = 5) ∧ s.me.t = false)) :
    exec (.mts g d n) s = .next (perform (s.modMe (fun c => sysWrite c n.toNat (s.rx d)))) := by
  obtain ⟨is, hissue, hg, hl⟩ := h
  rw [exec_mts, execMts, slotABM_run g [d] _ s is hissue hg hl, if_neg hn]
  rfl

/-- MTS to EPC or RBSTAT outside the handler (R109). -/
theorem exec_mts_outside {s : State} {g : Guard} {d : BitVec 5} {n : BitVec 12} (h : slotRuns s g [d.toNat])
    (hn : n.toNat = 4 ∨ n.toNat = 5) (ht : s.me.t = false) : exec (.mts g d n) s = .next (takeFault s (Flt.mk0 0x06 n.toNat)) := by
  obtain ⟨is, hissue, hg, hl⟩ := h
  rw [exec_mts, execMts, slotABM_run g [d] _ s is hissue hg hl, if_pos ⟨hn, ht⟩]
  rfl

/-- Register numbers that MTS does not write (R109, log 10). -/
theorem sysWrite_none {n : Nat} (v : Word) (h : n ∈ [0, 1, 2, 6] ∨ 8 < n) : (fun c => sysWrite c n v) = id := by
  funext c
  have hn : n = 0 ∨ n = 1 ∨ n = 2 ∨ n = 6 ∨ 8 < n := by simpa [or_assoc] using h
  unfold sysWrite
  split
  case h_6 => rfl
  all_goals omega

/-- Settles O24: YIELD is one change of the context, what it holds back is a test of readiness, and MFS and MTS are the registers' read
and write. -/
theorem systemInstructions : Obligations.SystemInstructions := by
  intro s g d n
  refine ⟨?yield, fun x m l hy => ⟨mayIssue_yielded hy, mayIssue_waited hy, ?issued⟩, fun h => ?mfs, fun h => ?mts⟩
  case yield =>
    rintro ⟨is, hissue, hg, hl⟩
    rw [exec_yield, execYield, slotABM_run g [] _ s is hissue hg hl]
    rfl
  case issued =>
    intro y is hcore hne
    rw [openWith_ctx_core s is hne.symm hcore.symm, Ctx.noted, hy]
    rfl
  case mfs =>
    refine ⟨fun is hissue => ?_, exec_mfs_run 0 h, exec_mfs_run 1 h, exec_mfs_run 2 h, exec_mfs_run 3 h, exec_mfs_run 4 h,
      exec_mfs_run 5 h, exec_mfs_run 6 h, exec_mfs_run 7 h, exec_mfs_run 8 h, exec_mfs_run 9 h, fun hn => ?_⟩
    · obtain ⟨is', hissue', hg, hl⟩ := h
      rw [exec_rdtick, execRdtick, slotABM_run g [d] _ s is' hissue' hg hl, State.issueTick, hissue]
      rfl
    · rw [exec_mfs_run n h, sysRead_past hn]
  case mts =>
    refine ⟨exec_mts_run h (by simp), fun ht => ⟨exec_mts_run h (by simp [ht]), exec_mts_run h (by simp [ht])⟩, fun ht k hk => ?_,
      exec_mts_run h (by simp), exec_mts_run h (by simp), fun hn => ?_⟩
    · have hk' : k = 4 ∨ k = 5 := by simpa using hk
      exact exec_mts_outside h (by rcases hk' with rfl | rfl <;> simp) ht
    · have hn' : ¬ ((n.toNat = 4 ∨ n.toNat = 5) ∧ s.me.t = false) := by
        have : n.toNat = 0 ∨ n.toNat = 1 ∨ n.toNat = 2 ∨ n.toNat = 6 ∨ 8 < n.toNat := by simpa [or_assoc] using hn
        omega
      rw [exec_mts_run h hn', sysWrite_none (s.rx d) hn, perform_modMe_id]

/-! ## The bundle at the PC -/

theorem mkIssue_addr {c : Ctx} {addr : Nat} {ws : List Word32} {is : Issue} (h : mkIssue c addr ws = some is) : is.addr = addr := by
  unfold mkIssue at h
  split at h
  · cases h
  · cases h
    rfl

/-- A context that may issue and has nothing to reissue has the bundle at its PC next, once its words are ready (R68). -/
theorem candidate_of_fetch {s t : State} {x : Nat} {ws : List Word32} {is : Issue} (hissue : (s.ctx x).issue = none)
    (hmay : mayIssue s x = true) (hre : (s.ctx x).reissue = false) (hfetch : fetch s x = .ok ws t)
    (hmk : mkIssue (s.ctx x) (s.ctx x).pc ws = some is) (hready : bundleReady t x is = true) : candidate s x = (some is, t) := by
  have hnext : nextBundle s x = (some is, t) := by simp [nextBundle, hissue, hmay, hre, hfetch, hmk]
  simp [candidate, hnext, hready]

/-! ## A cycle of the merge stage -/

/-- The ready contexts stand in the order in which they were asked. -/
theorem candidates_sublist (s : State) (xs : List Nat) : ((candidates s xs).1.map Prod.fst).Sublist xs := by
  induction xs generalizing s with
  | nil => exact .slnil
  | cons x xs ih =>
    rw [candidates]
    split
    · exact (ih _).cons_cons x
    · exact (ih _).cons x

theorem cyclic_nodup (c k : Nat) : (cyclic c k).Nodup := by
  refine List.Nodup.map_on (fun a ha b hb hab => ?_) List.nodup_range
  have ha := List.mem_range.1 ha
  have hb := List.mem_range.1 hb
  omega

/-- The primary of a cycle is not among the others that are ready. -/
theorem candidates_primary {s t : State} {c k p : Nat} {a : Issue} {rest : List (Nat × Issue)}
    (h : candidates s (cyclic c k) = ((p, a) :: rest, t)) : ∀ q ∈ rest, q.1 ≠ p := by
  have hsub := candidates_sublist s (cyclic c k)
  rw [h] at hsub
  have hnd := hsub.nodup (cyclic_nodup c k)
  rintro q hq rfl
  exact (List.nodup_cons.1 hnd).1 (List.mem_map.2 ⟨q, hq, rfl⟩)

/-- What a cycle leaves beside the bundle of its secondary: the primary's open bundle, the primary's name, and the clock (R69). -/
theorem openWith_secondary (s : State) {p x : Nat} (c : Nat) (is : Issue) (hne : x ≠ p) (n : Nat) :
    ((addCycles (openWith s x is) n).ctx p).issue = (s.ctx p).issue ∧ (addCycles (openWith s x is) n).core c = s.core c ∧
      (addCycles (openWith s x is) n).now = s.now + n := by
  have hrest := openWith_rest s x is
  exact ⟨openWith_issue_other s is hne.symm, congrArg (Tab.get Core.reset · c) (congrArg State.cores hrest :),
    congrArg (· + n) (congrArg State.now hrest :)⟩

/-- A cycle of the merge stage that issues (R69). -/
theorem issueCycle_issues {s t : State} {c p : Nat} {a : Issue} {rest : List (Nat × Issue)} (hrun : s.stopped (dieOf c) = false)
    (hc : candidates s (cyclic c ((s.core c).prev.getD 3)) = ((p, a) :: rest, t)) :
    let u := (openWith t p a).modCore c (fun v => { v with prev := some (p % 4) })
    (issueCycle s c).1 = p :: ((rest.find? (fun q => fits a q.2 && bundleReady u q.1 q.2)).map (fun q => q.1)).toList ∧
    ((issueCycle s c).2.ctx p).issue = some { a with tick := t.tickOf (dieOfCtx p), lease := (t.ctx p).lease } ∧
    ((issueCycle s c).2.core c).prev = some (p % 4) ∧ (issueCycle s c).2.now = t.now + cycleOf t c := by
  intro u
  have hrest := openWith_rest t p a
  have hissue : (u.ctx p).issue = some { a with tick := t.tickOf (dieOfCtx p), lease := (t.ctx p).lease } :=
    congrArg Ctx.issue (openWith_ctx_same t p a)
  have hprev : (u.core c).prev = some (p % 4) := congrArg Core.prev (State.core_setCore_same _ _ _)
  have hnow : u.now = t.now := (congrArg State.now hrest :)
  have hcycle : cycleOf u c = cycleOf t c := by
    have hpkg : u.pkg (pkgOf c) = t.pkg (pkgOf c) := congrArg (Tab.get Pkg.reset · (pkgOf c)) (congrArg State.pkgs hrest :)
    rw [cycleOf, hpkg, cycleOf]
  rw [issueCycle, hrun, if_neg Bool.false_ne_true, hc]
  dsimp only
  split
  case h_1 hq =>
    have hq' : rest.find? (fun q => fits a q.2 && bundleReady u q.1 q.2) = none := hq
    rw [hq']
    exact ⟨rfl, hissue, hprev, by rw [← hnow, ← hcycle]; rfl⟩
  case h_2 q hq =>
    have hq' : rest.find? (fun q => fits a q.2 && bundleReady u q.1 q.2) = some q := hq
    have hne : q.1 ≠ p := candidates_primary hc q (List.mem_of_find?_eq_some hq)
    obtain ⟨hi, hco, hn⟩ := openWith_secondary u c q.2 hne (cycleOf u c)
    rw [hq']
    exact ⟨rfl, hi.trans hissue, (congrArg Core.prev hco).trans hprev, by rw [← hnow, ← hcycle]; exact hn⟩

/-! ## The end of a bundle -/

theorem closeBundle_done {s : State} {x : Nat} {is : Issue} (hissue : (s.ctx x).issue = some is) (hdone : is.todo = []) :
    closeBundle s x = s.modCtx x (fun c => { c with
      issue := none, pc := is.taken.getD (successor is.addr is.occ), rb := if is.re then none else c.rb,
      pagerFail := if is.re then c.pagerFail.filter (fun p => !p.slot) else c.pagerFail }) := by
  simp only [closeBundle, hissue, hdone, List.isEmpty_nil, if_true]

theorem popcount_le_four (occ : BitVec 4) : popcount occ ≤ 4 := by
  revert occ
  decide

/-- Settles O7: readiness, the merge cycle, and the end of a bundle. -/
theorem bundlesOpenAndEnd : Obligations.BundlesOpenAndEnd := by
  refine ⟨fun s t x ws is hissue hmay hre hfetch hmk hready => ⟨candidate_of_fetch hissue hmay hre hfetch hmk hready, mkIssue_addr hmk⟩,
    fun s c hstop => if_pos hstop, fun s t c p a rest hrun hc => issueCycle_issues hrun hc, fun s x is hissue hdone => ?_,
    fun a occ ha => ?_⟩
  · rw [closeBundle_done hissue hdone, State.modCtx_eq, State.ctx_setCtx_same]
    exact ⟨rfl, by cases is.taken <;> rfl, fun y hy => State.ctx_setCtx_other _ _ hy⟩
  · have h := popcount_le_four occ
    rw [successor]
    split_ifs <;> exact Nat.mod_eq_of_lt (by omega)

end Sys2Proof.Machine

/-! PROOFS. Reads of parameter windows (R53, R102), and a store whose walk notifies (R100, R271, R273). -/

namespace Sys2Proof.Machine

/-! ## Loads from a place -/

section
variable {t v : State} {va : Word} {p : Place} {n size : Nat} {signed : Bool} {l : List Byte}

/-- A load with no line in the data cache is sent to the home (R71, R100). -/
theorem loadFrom_miss (h : dcHit t t.cur.x va.toNat p = none) :
    loadFrom va n size signed p t = .done (loadSent t va p n size signed) := by
  simp only [loadFrom, h]
  rfl

/-- A load with its line in the data cache takes the bytes (R99, R100). -/
theorem loadFrom_hit (h : dcHit t t.cur.x va.toNat p = some l) (hread : dcRead t p size = (v, none)) :
    loadFrom va n size signed p t =
      .done (v.modMe (fun c => c.wx n (landVal size signed (ofLe ((l.drop (p.pa % 64)).take size))))) := by
  rw [dcRead] at hread
  simp only [loadFrom, h, hread]

end

/-! ## Parameter reads -/

/-- What a parameter read comes to: a window that is not bound, an offset that is not aligned, and the read (R102). -/
def windowSlot (wn off sz : Nat) (al : Bool) (fault : Flt) (d : BitVec 5) (s : State) : SlotRes :=
  if winB (Tab.get 0 s.me.w wn) = false then .fault (Flt.mk0 0x04 wn) s
  else if al = false then .fault fault s
  else windowRead wn off sz d s

/-- LDP runs its read, whose offset is aligned (R102). -/
theorem ldpOp_run {s : State} {g : Guard} {d : BitVec 5} (wn : BitVec 3) (o : BitVec 12) (sz : Nat) (f : Flt) (h : slotRuns s g [d.toNat]) :
    ldpOp g d wn o sz s = .next (settle (windowSlot wn.toNat (o.toNat * 2 ^ sz) sz true f d s)) := by
  obtain ⟨is, hissue, hg, hl⟩ := h
  rw [ldpOp, slotABM_run g [d] _ s is hissue hg hl, windowSlot]
  cases winB (Tab.get 0 s.me.w wn.toNat) <;> rfl

/-- LDPR runs its read (R102). -/
theorem ldprOp_run {s : State} {g : Guard} {d b : BitVec 5} (wn : BitVec 3) (sz : Nat) (h : slotRuns s g [d.toNat, b.toNat]) :
    ldprOp g d wn b sz s = .next (settle (windowSlot wn.toNat (s.rx b).toNat sz (decide ((s.rx b).toNat % 2 ^ sz = 0))
      ⟨0x05, 1, (winBase (Tab.get 0 s.me.w wn.toNat) + s.rx b).toNat, sz, 0⟩ d s)) := by
  obtain ⟨is, hissue, hg, hl⟩ := h
  rw [ldprOp, slotABM_run g [d, b] _ s is hissue hg hl, windowSlot]
  generalize Tab.get 0 s.me.w wn.toNat = w
  by_cases hal : (s.rx b).toNat % 2 ^ sz = 0 <;> cases hw : winB w <;> simp [hal, hw]

/-- The outcomes of a parameter read (R102). -/
theorem windowSlot_outcome {o : Out} {s t : State} {wn off sz : Nat} {al : Bool} {f : Flt} {d : BitVec 5} {p : Place}
    (h : o = .next (settle (windowSlot wn off sz al f d s))) :
    let w : Quad := Tab.get 0 s.me.w wn
    let va := winBase w + BitVec.ofNat 64 off
    (winB w = false → o = .next (takeFault s (Flt.mk0 0x04 wn))) ∧
    (winB w = true → al = true → winSize w < off + 2 ^ sz →
      o = .next (perform ((s.wx d 0).modMe (fun c => if bit c.ldpstk 63 then c
        else { c with ldpstk := BitVec.ofNat 64 (2 ^ 63 + wn * 2 ^ 32 + min off 0xFFFFFFFF) })))) ∧
    (winB w = true → al = true → off + 2 ^ sz ≤ winSize w → translates s va 0 p t →
      (dcHit t t.cur.x va.toNat p = none → o = .next (perform (loadSent t va p d.toNat (2 ^ sz) false))) ∧
      (∀ l v, dcHit t t.cur.x va.toNat p = some l → dcRead t p (2 ^ sz) = (v, none) →
        o = .next (perform (v.modMe (fun c => c.wx d.toNat
          (landVal (2 ^ sz) false (ofLe ((l.drop (p.pa % 64)).take (2 ^ sz))))))))) ∧
    (winB w = true → al = false → o = .next (takeFault s f)) := by
  intro w va
  subst h
  refine ⟨fun hw => ?_, fun hw hal hsz => ?_, fun hw hal hsz htr => ?_, fun hw hal => ?_⟩
  · rw [windowSlot, if_pos hw]
    rfl
  · rw [windowSlot, if_neg (by rw [hw]; decide), if_neg (by rw [hal]; decide), windowRead, if_pos hsz]
    rfl
  · have hread : windowSlot wn off sz al f d s = loadFrom va d.toNat (2 ^ sz) false p t := by
      rw [windowSlot, if_neg (by rw [hw]; decide), if_neg (by rw [hal]; decide), windowRead, if_neg (Nat.not_lt.2 hsz)]
      exact withPlace_translates htr
    refine ⟨fun hmiss => ?_, fun l v hhit hv => ?_⟩
    · rw [hread, loadFrom_miss hmiss]
      rfl
    · rw [hread, loadFrom_hit hhit hv]
      rfl
  · rw [windowSlot, if_neg (by rw [hw]; decide), if_pos hal]
    rfl

/-- Settles O27: each of the eight forms is one parameter read. -/
theorem parameterReads : Obligations.ParameterReads := by
  intro s t g d b wn o p
  refine List.forall_mem_cons.2 ⟨?ldpb, List.forall_mem_cons.2 ⟨?ldph, List.forall_mem_cons.2 ⟨?ldpw, List.forall_mem_cons.2 ⟨?ldpd,
    List.forall_mem_cons.2 ⟨?ldprb, List.forall_mem_cons.2 ⟨?ldprh, List.forall_mem_cons.2 ⟨?ldprw, List.forall_mem_cons.2 ⟨?ldprd,
    List.forall_mem_nil _⟩⟩⟩⟩⟩⟩⟩⟩ <;> intro hrun
  case ldpb =>
    have h := ldpOp_run wn o 0 ⟨0x05, 1, (winBase (Tab.get 0 s.me.w wn.toNat) + s.rx b).toNat, 0, 0⟩ hrun
    rw [Nat.pow_zero, Nat.mul_one] at h
    exact windowSlot_outcome h
  case ldph => exact windowSlot_outcome (ldpOp_run wn o 1 _ hrun)
  case ldpw => exact windowSlot_outcome (ldpOp_run wn o 2 _ hrun)
  case ldpd => exact windowSlot_outcome (ldpOp_run wn o 3 _ hrun)
  case ldprb =>
    have h := ldprOp_run wn 0 hrun
    rw [Nat.pow_zero, Nat.mod_one] at h
    exact windowSlot_outcome h
  case ldprh => exact windowSlot_outcome (ldprOp_run wn 1 hrun)
  case ldprw => exact windowSlot_outcome (ldprOp_run wn 2 hrun)
  case ldprd => exact windowSlot_outcome (ldprOp_run wn 3 hrun)

/-! ## A store whose walk notifies -/

theorem dcStore_mem (s : State) (c va : Nat) (p : Place) (bs : List Byte) :
    (dcStore s c va p bs).mem = s.mem ∧ (dcStore s c va p bs).host = s.host := by
  unfold dcStore
  split
  · exact ⟨rfl, rfl⟩
  · dsimp only
    split <;> exact ⟨rfl, rfl⟩

/-- Slot 2 of context 0 is to be performed. Die 0's table, in pages 16, 17 and 18, maps page 0 to page 6 for reads and writes; the root
node is homed on die 1, whose counter of page 16 notifies at the first request of die 0, to the empty queue at page 1 (R273, R277). -/
def notingStore : State :=
  { State.reset with
    ctxs := [(0, { Ctx.reset with issue := some {
      addr := 8, words := [0, 0, 0, 0], occ := 4, perf := 0, cap := [], g := 0, re := false, taken := none, bar := .none,
      sync := false, gwait := false, exit := false, tick := 0, lease := 0, ld := none } })]
    dies := [(0, { Die.reset with tbase := 0x8000000000105000 }),
      (1, { Die.reset with hotcfg := 0x100000001, hotq := 0x10001, hot := [(16, some 0)] })]
    mem := [(0x10006, 0x80), (0x10007, 0x51), (0x1000A, 64), (0x100002, 0x11), (0x100007, 0x81), (0x110002, 0x12), (0x110007, 0x81),
      (0x120002, 6), (0x120007, 0xB9)]
    cur := ⟨0, 2, 0⟩ }

/-- A translation that succeeds and leaves one record in the queue of page 1. -/
def leavesNote (r : TrRes) : Bool :=
  match r with
  | .ok _ t => readByte t 0 false 0x10008 = 1
  | _ => false

/-- The walk for address 0 pushes a notification, which counts in the queue's header. -/
theorem notingStore_translates : ∃ p t, translates notingStore 0 1 p t ∧ readByte t 0 false 0x10008 = 1 := by
  have h : leavesNote (translation notingStore 0 1) = true := by decide +kernel
  cases htr : translation notingStore 0 1 with
  | ok p t =>
    rw [htr] at h
    exact ⟨p, t, ⟨rfl, htr⟩, of_decide_eq_true h⟩
  | _ =>
    rw [htr] at h
    cases h

/-- Refutes O25: a store changes no byte itself, but the walk of its translation may: a request of the walk that brings a hotness counter
of its home to THR pushes a record to the queue that HOTQ names (R271, R273). -/
theorem not_loadsAndStoresComplete : ¬ Obligations.LoadsAndStoresComplete := by
  rintro ⟨-, hstore⟩
  obtain ⟨p, t, htr, hnote⟩ := notingStore_translates
  have hrun : slotRuns notingStore ⟨0, false⟩ [(0 : BitVec 5).toNat, (0 : BitVec 5).toNat] := ⟨_, rfl, rfl, rfl⟩
  obtain ⟨-, hsame⟩ := hstore notingStore t ⟨0, false⟩ 0 0 0 p (Instr.stb ⟨0, false⟩ 0 0 0, 0) (.head _) hrun rfl htr
  have hbyte := hsame 0 false 0x10008
  obtain ⟨hmem, hhost⟩ := dcStore_mem t (coreOf t.cur.x) 0 p (leBytes 1 (notingStore.rx 0).toNat)
  have hleft : sameMemory t _ := sameMemory_of_eq hmem hhost
  exact absurd (hnote.symm.trans ((hleft 0 false 0x10008).symm.trans hbyte)) (by decide)

end Sys2Proof.Machine

/-! PROOFS. Pre-emption: a quantum that is over and a higher PRIO ask for a save (R375, log 96). -/

namespace Sys2Proof.Machine

/-! ## Tables -/

/-- A listed value of a table of optional values is one of its members. -/
theorem Tab.mem_members {α : Type} {t : Tab (Option α)} {k : Nat} {v : α} (h : Tab.get none t k = some v) : (k, v) ∈ Tab.members t := by
  induction t with
  | nil => cases h
  | cons p t ih =>
    obtain ⟨i, w⟩ := p
    rw [Tab.get] at h
    split_ifs at h with hik
    · subst hik h
      exact List.mem_filterMap.2 ⟨_, .head _, rfl⟩
    · obtain ⟨q, hq, hv⟩ := List.mem_filterMap.1 (ih h)
      exact List.mem_filterMap.2 ⟨q, .tail _ hq, hv⟩

/-! ## What waits -/

/-- A ready task that meets its affinity on a core waits there; where a frame block is free, it waits for nothing else (R368, R371,
R375). -/
theorem mem_readyWants {s : State} {p run c n wid : Nat} {r : Run} (hrun : runOf s p run = some r) (htask : nType r.l n = 0)
    (hready : r.ready n wid = true) (haff : affinity r n wid c = true) :
    (⟨3 - r.prio, r.order, n, wid⟩ : Want) ∈ readyWants s p c ∧
      (r.blocks.length < r.nfpool → (⟨3 - r.prio, r.order, n, wid⟩ : Want) ∈ wants s p c) := by
  have hmem : (run, r) ∈ Tab.members (s.pkg p).runs := Tab.mem_members hrun
  have hparts := hready
  simp only [Run.ready, Bool.and_eq_true, decide_eq_true_eq, List.contains_iff_mem] at hparts
  have hlt : n < r.l.nodes.length := by tauto
  have hinst : wid ∈ instances r.l n := by tauto
  have hr : (⟨3 - r.prio, r.order, n, wid⟩ : Want) ∈ runReady r c := by
    refine List.mem_flatMap.2 ⟨n, List.mem_filter.2 ⟨List.mem_range.2 hlt, by simpa using htask⟩, List.mem_map.2 ⟨wid, ?_, rfl⟩⟩
    exact List.mem_filter.2 ⟨hinst, by rw [hready, haff]; rfl⟩
  refine ⟨List.mem_append_left _ (List.mem_flatMap.2 ⟨_, hmem, hr⟩), fun hblk => List.mem_append_left _ (List.mem_flatMap.2 ⟨_, hmem, ?_⟩)⟩
  rw [runWants, if_pos hblk]
  exact hr

/-- An idle context of the package meets the affinity of a task that waits. -/
theorem idleFor_iff (s : State) (p : Nat) (w : Want) :
    idleFor s p w = true ↔ ∃ y ∈ ctxsOf p, idle s y = true ∧ w ∈ readyWants s p (coreOf y) := by
  simp only [idleFor, List.any_eq_true, Bool.and_eq_true, List.contains_iff_mem]

/-- The tasks that a waiting one of higher PRIO may have saved, each with its context. -/
theorem mem_victims {s : State} {p : Nat} {w : Want} {y : Nat} {j : Task} :
    (y, j) ∈ victims s p w ↔ y ∈ ctxsOf p ∧ (s.ctx y).task = some j ∧ w.low < 3 - j.prio ∧ w ∈ readyWants s p (coreOf y) := by
  simp only [victims, List.mem_filterMap]
  constructor
  · rintro ⟨z, hz, h⟩
    split at h
    · rename_i j' hj
      split_ifs at h with hc
      cases h
      simp only [Bool.and_eq_true, decide_eq_true_eq, List.contains_iff_mem] at hc
      exact ⟨hz, hj, hc⟩
    · cases h
  · rintro ⟨hy, hj, hlow, hw⟩
    refine ⟨y, hy, ?_⟩
    rw [hj]
    simp [hlow, hw]

/-! ## The requests -/

/-- A save is requested of a context that is to be neither killed nor saved. -/
theorem requestSave_eq {s : State} {x : Nat} (hkill : (s.ctx x).kill = none) (hsave : (s.ctx x).save = none) :
    requestSave s x = s.modCtx x (fun c => { c with save := some .preempt }) := by
  simp [requestSave, hkill, hsave]

section
variable {s : State} {x : Nat} {k : Task} (htask : (s.ctx x).task = some k)
include htask

theorem execQuantumExpiry_eq (b : Bool) (hb : (fldN (s.die (dieOfCtx x)).dquant 0 32 ≠ 0 &&
      fldN (s.die (dieOfCtx x)).dquant 0 32 * 1024 ≤ s.cycles (pkgOfCtx x) - k.start &&
      (wants s (pkgOfCtx x) (coreOf x)).any (fun w => w.low = 3 - k.prio && !idleFor s (pkgOfCtx x) w)) = b) :
    exec (.quantumExpiry x) s = .next (if b then requestSave s x else s) := by
  rw [exec_quantumExpiry, execQuantumExpiry, htask]
  simp only [hb]

theorem execPriorityPreemption_eq (b : Bool) (hb : (readyWants s (pkgOfCtx x) (coreOf x)).any (fun w =>
      !idleFor s (pkgOfCtx x) w && (victims s (pkgOfCtx x) w).any (fun v => v.1 = x) &&
        (victims s (pkgOfCtx x) w).all (fun v => v.1 = x || worse k v.2)) = b) :
    exec (.priorityPreemption x) s = .next (if b then requestSave s x else s) := by
  rw [exec_priorityPreemption, execPriorityPreemption, htask]
  simp only [hb]

end

/-- Pre-emption by a quantum and by a higher PRIO (R375, log 96). -/
theorem preemption (s : State) (x : Nat) (k : Task) (htask : (s.ctx x).task = some k) (hkill : (s.ctx x).kill = none)
    (hsave : (s.ctx x).save = none) :
    let q := fldN (s.die (dieOfCtx x)).dquant 0 32
    let p := pkgOfCtx x
    let asks := fun (i : Instr) => exec i s = .next (s.modCtx x (fun c => { c with save := some .preempt }))
    let taken := fun (w : Want) => ∃ y ∈ ctxsOf p, idle s y = true ∧ w ∈ readyWants s p (coreOf y)
    let above := fun (w : Want) (y : Nat) (j : Task) =>
      y ∈ ctxsOf p ∧ (s.ctx y).task = some j ∧ w.low < 3 - j.prio ∧ w ∈ readyWants s p (coreOf y)
    (q ≠ 0 → q * 1024 ≤ s.cycles p - k.start → (∃ w ∈ wants s p (coreOf x), w.low = 3 - k.prio ∧ ¬ taken w) → asks (.quantumExpiry x)) ∧
    ((∀ w ∈ wants s p (coreOf x), w.low = 3 - k.prio → taken w) → exec (.quantumExpiry x) s = .next s) ∧
    (∀ w, ¬ taken w → above w x k → (∀ y j, above w y j → y = x ∨ j.prio > k.prio ∨ (j.prio = k.prio ∧ j.since < k.since)) →
      asks (.priorityPreemption x)) ∧
    ((∀ w, above w x k → taken w) → exec (.priorityPreemption x) s = .next s) := by
  intro q p asks taken above
  refine ⟨fun hq hover ⟨w, hw, hlow, hfree⟩ => ?_, fun hall => ?_, fun w hfree hx hworse => ?_, fun hall => ?_⟩
  · have hb : (decide (q ≠ 0) && decide (q * 1024 ≤ s.cycles p - k.start) &&
        (wants s p (coreOf x)).any (fun w => w.low = 3 - k.prio && !idleFor s p w)) = true := by
      have hno : idleFor s p w = false := Bool.eq_false_iff.2 (mt (idleFor_iff s p w).1 hfree)
      simp only [Bool.and_eq_true, decide_eq_true_eq, List.any_eq_true]
      exact ⟨⟨hq, hover⟩, w, hw, hlow, by rw [hno]; rfl⟩
    exact (execQuantumExpiry_eq htask true hb).trans (congrArg _ (requestSave_eq hkill hsave))
  · have hb : (decide (q ≠ 0) && decide (q * 1024 ≤ s.cycles p - k.start) &&
        (wants s p (coreOf x)).any (fun w => w.low = 3 - k.prio && !idleFor s p w)) = false := by
      have : (wants s p (coreOf x)).any (fun w => w.low = 3 - k.prio && !idleFor s p w) = false := by
        rw [List.any_eq_false]
        rintro w hw h
        simp only [Bool.and_eq_true, decide_eq_true_eq, Bool.not_eq_true'] at h
        exact Bool.eq_false_iff.1 h.2 ((idleFor_iff s p w).2 (hall w hw h.1))
      rw [this, Bool.and_false]
    exact execQuantumExpiry_eq htask false hb
  · have hb : (readyWants s p (coreOf x)).any (fun w => !idleFor s p w && (victims s p w).any (fun v => v.1 = x) &&
        (victims s p w).all (fun v => v.1 = x || worse k v.2)) = true := by
      have hno : idleFor s p w = false := Bool.eq_false_iff.2 (mt (idleFor_iff s p w).1 hfree)
      simp only [List.any_eq_true, Bool.and_eq_true, List.all_eq_true, decide_eq_true_eq]
      refine ⟨w, hx.2.2.2, ⟨by rw [hno]; rfl, (x, k), mem_victims.2 hx, rfl⟩, fun v hv => ?_⟩
      have hv' := hworse v.1 v.2 (mem_victims.1 hv)
      simp only [worse, Bool.or_eq_true, Bool.and_eq_true, decide_eq_true_eq]
      exact hv'.imp_right (Or.imp id (And.imp_left Eq.symm))
    exact (execPriorityPreemption_eq htask true hb).trans (congrArg _ (requestSave_eq hkill hsave))
  · have hb : (readyWants s p (coreOf x)).any (fun w => !idleFor s p w && (victims s p w).any (fun v => v.1 = x) &&
        (victims s p w).all (fun v => v.1 = x || worse k v.2)) = false := by
      rw [List.any_eq_false]
      rintro w - h
      simp only [Bool.and_eq_true, List.any_eq_true, decide_eq_true_eq, Bool.not_eq_true'] at h
      obtain ⟨⟨hno, ⟨y, j⟩, hv, rfl⟩, -⟩ := h
      obtain ⟨hy, hj, hlow, hw⟩ := mem_victims.1 hv
      obtain rfl : k = j := Option.some.inj (htask.symm.trans hj)
      exact Bool.eq_false_iff.1 hno ((idleFor_iff s p w).2 (hall w ⟨hy, hj, hlow, hw⟩))
    exact execPriorityPreemption_eq htask false hb

end Sys2Proof.Machine

/-! PROOFS. Writes of a die's engine within a page, and the tiles that a task leaves on its old core (R175, R254, R376, log 4). -/

namespace Sys2Proof.Machine

/-! ## Writes within a page -/

/-- A write within one page that translates is performed (R82, R366). -/
theorem writeRange_page {s u : State} {d va : Nat} {bs : List Byte} {q : Place} (hbs : 0 < bs.length)
    (hpage : va % 2 ^ 16 + bs.length ≤ 2 ^ 16) (htr : translateDie s d (BitVec.ofNat 64 va) 1 = (.ok q, u)) :
    writeRange s d va bs = (.ok (),
      ((lineCuts q bs.length).foldl (fun s l => countHome s d l.1) u).writePhys q.pkg (q.pl = 2) q.pa bs) := by
  refine Prod.ext ?_ (writeRange_within (Nat.pos_iff_ne_zero.1 hbs) hpage htr)
  have hplaces : placesOf s d va 1 [(0, bs.length)] = (.ok [((0, bs.length), q)], u) := by
    simp only [placesOf, accBind, Nat.add_zero, htr]
  rw [writeRange, pageCuts_within (Nat.pos_iff_ne_zero.1 hbs) hpage, hplaces]
  rfl

/-- What such a write leaves in memory (log 4). -/
theorem writeRange_bytes (s u : State) (d va : Nat) (bs : List Byte) (q : Place) (hbs : 0 < bs.length)
    (hpage : va % 2 ^ 16 + bs.length ≤ 2 ^ 16) (htr : translateDie s d (BitVec.ofNat 64 va) 1 = (.ok q, u)) :
    let y := (lineCuts q bs.length).foldl (fun s r => countHome s d r.1) u
    ∃ t, writeRange s d va bs = (.ok (), t) ∧ readsBack y t q.pkg (q.pl = 2) q.pa bs ∧
      ∀ k o a, (o ≠ decide (q.pl = 2) ∨ placeKey o k a < placeKey o q.pkg q.pa ∨ placeKey o q.pkg q.pa + bs.length ≤ placeKey o k a) →
        readByte t k o a = readByte y k o a := by
  intro y
  refine ⟨_, writeRange_page hbs hpage htr, readsBack_writePhys y q.pkg (q.pl = 2) q.pa bs, fun k o a hout => ?_⟩
  refine readByte_writePhys_outside ?_
  by_cases ho : o = decide (q.pl = 2)
  · subst ho
    exact hout
  · exact .inl ho

/-! ## Tiles -/

section
variable (s : State) (c : Nat)

theorem tile_setTile_same (t : Nat) (v : Tile) : ((setTile s c t v).core c).ca.tile t = v := by
  rw [setTile, State.modCore_eq, State.core_setCore_same]
  exact Tab.get_set_same _ _ _ _

theorem tile_setTile_other {t y : Nat} (v : Tile) (h : y ≠ t) : ((setTile s c t v).core c).ca.tile y = (s.core c).ca.tile y := by
  rw [setTile, State.modCore_eq, State.core_setCore_same]
  exact Tab.get_set_other _ _ _ h

end

/-- A tile that its owner leaves. -/
def Tile.left (v : Tile) : Tile := { v with v := false, d := false, own := 0 }

/-- A tile of the task with a frame is cleared, and written first where it is dirty and to be kept (R175). -/
def dropTile (c f : Nat) (save : Bool) (s : State) (t : Nat) : State :=
  let v := (s.core c).ca.tile t
  if v.own ≠ ownOf f ∨ f = 0 then s else setTile (if save ∧ v.v ∧ v.d then saveTile s c t else s) c t v.left

theorem dropTiles_eq (s : State) (c f : Nat) (save : Bool) : dropTiles s c f save = (List.range 8).foldl (dropTile c f save) s := rfl

section
variable {s : State} {c f : Nat} {save : Bool}

/-- A tile that need not be written is only cleared. -/
theorem dropTile_clean {t : Nat} (hf : f ≠ 0) (hclean : save = false ∨ ¬ (((s.core c).ca.tile t).v = true ∧ ((s.core c).ca.tile t).d = true)) :
    dropTile c f save s t = if ((s.core c).ca.tile t).own = ownOf f then setTile s c t ((s.core c).ca.tile t).left else s := by
  have hno : ¬ (save = true ∧ ((s.core c).ca.tile t).v = true ∧ ((s.core c).ca.tile t).d = true) := by
    rintro ⟨hs, hd⟩
    exact hclean.elim (fun h => by rw [h] at hs; cases hs) (fun h => h hd)
  by_cases hown : ((s.core c).ca.tile t).own = ownOf f
  · simp only [dropTile, hown, hf, hno, ne_eq, not_true_eq_false, or_self, if_false, if_true]
  · simp only [dropTile, hown, ne_eq, not_false_eq_true, true_or, if_true, if_false]

/-- Tiles that need not be written are cleared one by one; no byte of memory changes. -/
theorem foldl_dropTile_clean (hf : f ≠ 0) {ts : List Nat} (hnd : ts.Nodup)
    (hclean : save = false ∨ ∀ t ∈ ts, ¬ (((s.core c).ca.tile t).v = true ∧ ((s.core c).ca.tile t).d = true)) :
    (ts.foldl (dropTile c f save) s).mem = s.mem ∧ (ts.foldl (dropTile c f save) s).host = s.host ∧
      ∀ y, ((ts.foldl (dropTile c f save) s).core c).ca.tile y =
        if y ∈ ts ∧ ((s.core c).ca.tile y).own = ownOf f then ((s.core c).ca.tile y).left else (s.core c).ca.tile y := by
  induction ts generalizing s with
  | nil => exact ⟨rfl, rfl, fun y => by simp⟩
  | cons t ts ih =>
    obtain ⟨ht, hts⟩ := List.nodup_cons.1 hnd
    have hstep : dropTile c f save s t = if ((s.core c).ca.tile t).own = ownOf f then setTile s c t ((s.core c).ca.tile t).left else s :=
      dropTile_clean hf (hclean.imp id (fun h => h t (.head _)))
    have htile : ∀ y, y ≠ t → ((dropTile c f save s t).core c).ca.tile y = (s.core c).ca.tile y := fun y hy => by
      rw [hstep]
      split_ifs
      · exact tile_setTile_other s c _ hy
      · rfl
    have hmem : (dropTile c f save s t).mem = s.mem ∧ (dropTile c f save s t).host = s.host := by
      rw [hstep]
      split_ifs <;> exact ⟨rfl, rfl⟩
    obtain ⟨hm, hh, htiles⟩ := ih hts (s := dropTile c f save s t)
      (hclean.imp id fun h y hy => by rw [htile y (fun e => ht (e ▸ hy))]; exact h y (.tail _ hy))
    refine ⟨hm.trans hmem.1, hh.trans hmem.2, fun y => ?_⟩
    rw [List.foldl_cons, htiles y]
    by_cases hy : y = t
    · subst hy
      rw [if_neg (fun h => ht h.1), hstep]
      by_cases hown : ((s.core c).ca.tile y).own = ownOf f
      · rw [if_pos hown, if_pos ⟨.head _, hown⟩, tile_setTile_same]
      · rw [if_neg hown, if_neg (fun h => hown h.2)]
    · rw [htile y hy]
      simp only [List.mem_cons, hy, false_or]

end

/-- A task that moves leaves its tiles on its old core, which may not be frozen (R175, R310, R376). -/
theorem leavesTiles (s : State) (p n x : Nat) (v : Saved) (hv : (s.pkg p).saved[n]? = some v) :
    (coreOf x = v.core → leaveTiles s v (coreOf x) = s) ∧
    (coreOf x ≠ v.core → s.stopped (dieOf v.core) = true → exec (.taskRestore p n x) s = .next s) ∧
    (coreOf x ≠ v.core → v.frame ≠ 0 → (∀ t < 8, ¬ (((s.core v.core).ca.tile t).v = true ∧ ((s.core v.core).ca.tile t).d = true)) →
      sameMemory s (leaveTiles s v (coreOf x)) ∧
      ∀ t < 8, let a := (s.core v.core).ca.tile t
        let b := ((leaveTiles s v (coreOf x)).core v.core).ca.tile t
        if a.own = ownOf v.frame then b.v = false ∧ b.d = false ∧ b.own = 0 else b = a) := by
  refine ⟨fun hc => if_pos hc, fun hc hstop => ?_, fun hc hf hclean => ?_⟩
  · have hwaits : restoreWaits s (dieOfCtx x) (coreOf x) v = true := by simp [restoreWaits, hc, hstop]
    rw [exec_taskRestore, execTaskRestore, hv]
    simp only [hwaits, Bool.or_true, if_true]
  · obtain ⟨hm, hh, htiles⟩ := foldl_dropTile_clean (s := s) (c := v.core) (save := true) hf List.nodup_range
      (.inr fun t ht => hclean t (List.mem_range.1 ht))
    rw [leaveTiles, if_neg hc, dropTiles_eq]
    refine ⟨sameMemory_of_eq hm hh, fun t ht => ?_⟩
    dsimp only
    rw [htiles t]
    by_cases hown : ((s.core v.core).ca.tile t).own = ownOf v.frame
    · rw [if_pos hown, if_pos ⟨List.mem_range.2 ht, hown⟩]
      exact ⟨rfl, rfl, rfl⟩
    · rw [if_neg hown, if_neg (fun h => hown h.2)]

end Sys2Proof.Machine

/-! PROOFS. The frame and the continuation area of a task that is saved, field by field (R80, R81, R146). -/

namespace Sys2Proof.Machine

/-! ## Fields of bytes -/

/-- The unsigned integer that n bytes from byte k hold (R3). -/
def fieldAt (bs : List Byte) (k n : Nat) : Nat := ofLe ((bs.drop k).take n)

section
variable {as bs : List Byte} {k n : Nat}

theorem fieldAt_append_left (h : k + n ≤ as.length) : fieldAt (as ++ bs) k n = fieldAt as k n := by
  rw [fieldAt, List.drop_append_of_le_length (by omega), List.take_append_of_le_length (by rw [List.length_drop]; omega), fieldAt]

theorem fieldAt_append_right (h : as.length ≤ k) : fieldAt (as ++ bs) k n = fieldAt bs (k - as.length) n := by
  rw [fieldAt, List.drop_append, List.drop_of_length_le h, List.nil_append, fieldAt]

/-- A field in the part that follows a part of a known length. -/
theorem fieldAt_append_add {m : Nat} (h : as.length = m) : fieldAt (as ++ bs) (m + k) n = fieldAt bs k n := by
  rw [fieldAt_append_right (by omega), h, Nat.add_sub_cancel_left]

end

theorem fieldAt_leBytes (n v : Nat) : fieldAt (leBytes n v) 0 n = v % 256 ^ n := by
  have h : (leBytes n v).length ≤ n := (length_leBytes n v).le
  rw [fieldAt, List.drop_zero, List.take_of_length_le h, ofLe_leBytes]

theorem fieldAt_leBytes_lt {n v : Nat} (h : v < 256 ^ n) : fieldAt (leBytes n v) 0 n = v := by
  rw [fieldAt_leBytes, Nat.mod_eq_of_lt h]

theorem fieldAt_word (w : Word) : fieldAt (leBytes 8 w.toNat) 0 8 = w.toNat := fieldAt_leBytes_lt w.isLt

/-- A field of one of several parts of one length, joined. -/
theorem fieldAt_flatMap {α : Type} {f : α → List Byte} {l : List α} {m k o n : Nat} {a : α} (hf : ∀ a ∈ l, (f a).length = m)
    (ha : l[k]? = some a) (ho : o + n ≤ m) : fieldAt (l.flatMap f) (m * k + o) n = fieldAt (f a) o n := by
  induction l generalizing k with
  | nil => cases ha
  | cons b l ih =>
    obtain ⟨hb, hl⟩ := List.forall_mem_cons.1 hf
    rw [List.flatMap_cons]
    cases k with
    | zero =>
      cases ha
      rw [Nat.mul_zero, Nat.zero_add, fieldAt_append_left (by omega)]
    | succ k =>
      rw [Nat.mul_succ, Nat.add_comm (m * k), Nat.add_assoc, fieldAt_append_add hb]
      exact ih hl ha

/-- The i-th of m numbers of n bytes each. -/
theorem fieldAt_range {m n i : Nat} (v : Nat → Nat) (hi : i < m) (hv : v i < 256 ^ n) :
    fieldAt ((List.range m).flatMap (fun i => leBytes n (v i))) (n * i) n = v i :=
  (fieldAt_flatMap (o := 0) (fun _ _ => length_leBytes n _) (List.getElem?_range hi) (by omega)).trans (fieldAt_leBytes_lt hv)

theorem length_range_leBytes (m n : Nat) (v : Nat → Nat) : ((List.range m).flatMap (fun i => leBytes n (v i))).length = m * n :=
  length_flatMap_range fun _ _ => length_leBytes n _

theorem length_valBytes (n : Nat) (vs : List Nat) : (valBytes n vs).length = n * 8 := length_range_leBytes n 8 _

theorem fieldAt_valBytes {n i : Nat} {vs : List Nat} (hi : i < n) (hv : vs.getD i 0 < 256 ^ 8) :
    fieldAt (valBytes n vs) (8 * i) 8 = vs.getD i 0 := fieldAt_range (fun i => vs.getD i 0) hi hv

/-! ## The parts of the frame -/

/-- The parts of the frame from offset 8: PC and predicates, x registers, handles, windows, system registers, and the replay buffer. -/
def frameHead (c : Ctx) : List Byte := leBytes 8 (c.pc % 2 ^ 55) ++ (leBytes 8 (c.g ||| 1).toNat ++ leBytes 8 0)
def frameXs (c : Ctx) : List Byte := (List.range 32).flatMap (fun n => leBytes 8 (c.rx n).toNat)
def frameHs (c : Ctx) : List Byte := (List.range 32).flatMap (fun n => leBytes 8 (c.rh n).toNat)
def frameWs (c : Ctx) : List Byte := (List.range 8).flatMap (fun n => leBytes 16 (Tab.get (0 : Quad) c.w n).toNat)
def frameSys (c : Ctx) (rb : Option Issue) : List Byte :=
  valBytes 8 [c.tvec.toNat, c.epc.toNat, (cstatOf { c with rb := rb }).toNat, c.ldpstk.toNat, c.gixstk.toNat, c.wid.toNat]
def bufferBytes (is : Issue) (held : Bool) : List Byte :=
  leBytes 8 (b2n held * 2 ^ 8 + is.occ.toNat * 16 + is.perf.toNat) ++ ((List.range 4).flatMap (fun i => leBytes 4 (is.words.getD i 0).toNat) ++
    (valBytes 3 (capVals is 0) ++ (valBytes 3 (capVals is 1) ++ (valBytes 3 (capVals is 2) ++ (valBytes 9 (capVals is 3) ++ leBytes 8 0)))))

/-- The bundle of an empty replay buffer. -/
def emptyIssue : Issue :=
  { addr := 0, words := [], occ := 0, perf := 0, cap := [], g := 0, re := false, taken := none, bar := .none, sync := false, gwait := false,
    exit := false, tick := 0, lease := 0, ld := none }

theorem frameBytes_parts (c : Ctx) (rb : Option Issue) : frameBytes c rb =
    frameHead c ++ (frameXs c ++ (frameHs c ++ (frameWs c ++ (frameSys c rb ++ bufferBytes (rb.getD emptyIssue) rb.isSome)))) := by
  simp only [frameBytes, frameHead, frameXs, frameHs, frameWs, frameSys, bufferBytes, List.append_assoc]
  rfl

section
variable (c : Ctx) (rb : Option Issue)

theorem length_frameHead : (frameHead c).length = 24 := by simp [frameHead]
theorem length_frameXs : (frameXs c).length = 256 := length_range_leBytes 32 8 _
theorem length_frameHs : (frameHs c).length = 256 := length_range_leBytes 32 8 _
theorem length_frameWs : (frameWs c).length = 128 := length_range_leBytes 8 16 _
theorem length_frameSys : (frameSys c rb).length = 64 := length_valBytes 8 _
theorem length_bufferBytes (is : Issue) (held : Bool) : (bufferBytes is held).length = 176 := by
  simp only [bufferBytes, List.length_append, length_leBytes, length_valBytes, length_range_leBytes 4 4]

theorem length_frameBytes : (frameBytes c rb).length = 0x388 := by
  simp only [frameBytes_parts, List.length_append, length_frameHead, length_frameXs, length_frameHs, length_frameWs, length_frameSys,
    length_bufferBytes]

variable {k n : Nat}

theorem fieldAt_frameHead (h : k + n ≤ 24) : fieldAt (frameBytes c rb) k n = fieldAt (frameHead c) k n := by
  rw [frameBytes_parts, fieldAt_append_left (by rw [length_frameHead]; omega)]

theorem fieldAt_frameXs (h : k + n ≤ 256) : fieldAt (frameBytes c rb) (24 + k) n = fieldAt (frameXs c) k n := by
  rw [frameBytes_parts, fieldAt_append_add (length_frameHead c), fieldAt_append_left (by rw [length_frameXs]; omega)]

theorem fieldAt_frameHs (h : k + n ≤ 256) : fieldAt (frameBytes c rb) (24 + (256 + k)) n = fieldAt (frameHs c) k n := by
  rw [frameBytes_parts, fieldAt_append_add (length_frameHead c), fieldAt_append_add (length_frameXs c),
    fieldAt_append_left (by rw [length_frameHs]; omega)]

theorem fieldAt_frameWs (h : k + n ≤ 128) : fieldAt (frameBytes c rb) (24 + (256 + (256 + k))) n = fieldAt (frameWs c) k n := by
  rw [frameBytes_parts, fieldAt_append_add (length_frameHead c), fieldAt_append_add (length_frameXs c),
    fieldAt_append_add (length_frameHs c), fieldAt_append_left (by rw [length_frameWs]; omega)]

theorem fieldAt_frameSys (h : k + n ≤ 64) : fieldAt (frameBytes c rb) (24 + (256 + (256 + (128 + k)))) n = fieldAt (frameSys c rb) k n := by
  rw [frameBytes_parts, fieldAt_append_add (length_frameHead c), fieldAt_append_add (length_frameXs c),
    fieldAt_append_add (length_frameHs c), fieldAt_append_add (length_frameWs c), fieldAt_append_left (by rw [length_frameSys]; omega)]

theorem fieldAt_frameBuffer : fieldAt (frameBytes c rb) (24 + (256 + (256 + (128 + (64 + k))))) n =
    fieldAt (bufferBytes (rb.getD emptyIssue) rb.isSome) k n := by
  rw [frameBytes_parts, fieldAt_append_add (length_frameHead c), fieldAt_append_add (length_frameXs c),
    fieldAt_append_add (length_frameHs c), fieldAt_append_add (length_frameWs c), fieldAt_append_add (length_frameSys c rb)]

end

/-! ## Reads of pieces -/

/-- A read within the first piece. -/
theorem Pieces.rd_head {b off n : Nat} {bs : List Byte} {ps : Pieces} (hb : b ≤ off) (he : off + n ≤ b + bs.length) :
    Pieces.rd ((b, bs) :: ps) off n = fieldAt bs (off - b) n := by
  simp [Pieces.rd, hb, he, fieldAt]

/-- A read that ends past a piece is one of the others. -/
theorem Pieces.rd_tail {b off n : Nat} {bs : List Byte} {ps : Pieces} (h : b + bs.length < off + n) :
    Pieces.rd ((b, bs) :: ps) off n = Pieces.rd ps off n := by
  simp [Pieces.rd, Nat.not_le.2 h]

section
variable (c : Ctx) (rb : Option Issue) (es : List Entry)

/-- FHDR of a saved task (R81). -/
theorem rd_fhdr : Pieces.rd (saveBytes c rb es) 0 8 = 2 ^ 56 + 1 := by
  rw [saveBytes, List.cons_append, Pieces.rd_head (Nat.le_refl _) (by rw [length_leBytes])]
  exact fieldAt_leBytes_lt (by norm_num)

/-- A read of the frame past FHDR (R80). -/
theorem rd_frame {k n : Nat} (hn : 0 < n) (h : k + n ≤ 0x388) : Pieces.rd (saveBytes c rb es) (8 + k) n = fieldAt (frameBytes c rb) k n := by
  rw [saveBytes, List.cons_append, Pieces.rd_tail (by rw [length_leBytes]; omega), List.cons_append,
    Pieces.rd_head (by omega) (by rw [length_frameBytes]; omega), Nat.add_sub_cancel_left]

/-- A read of the pending record (R80). -/
theorem rd_pend {k n : Nat} (hn : 0 < n) (h : k + n ≤ 32) :
    Pieces.rd (saveBytes c rb es) (0x3B0 + k) n = fieldAt (c.pend.getD Rec.zero).bytes k n := by
  rw [saveBytes, List.cons_append, Pieces.rd_tail (by rw [length_leBytes]; omega), List.cons_append,
    Pieces.rd_tail (by rw [length_frameBytes]; omega), List.cons_append,
    Pieces.rd_head (by omega) (by simp only [List.length_append, length_recBytes]; omega), Nat.add_sub_cancel_left,
    fieldAt_append_left (by rw [length_recBytes]; omega)]

theorem length_entryBytes (e : Entry) : (entryBytes e).length = 64 := by
  simp only [entryBytes, List.length_append, length_leBytes, length_valBytes, List.length_map, List.length_range]

theorem length_entries : (es.flatMap entryBytes).length = 64 * es.length := by
  induction es with
  | nil => rfl
  | cons e es ih => rw [List.flatMap_cons, List.length_append, length_entryBytes, ih, List.length_cons]; omega

/-- A read of the continuation area (R146). -/
theorem rd_area {k n : Nat} (hn : 0 < n) (h : k + n ≤ 64 + 64 * es.length) : Pieces.rd (saveBytes c rb es) (0x400 + k) n =
    fieldAt (leBytes 8 es.length ++ (List.replicate 56 0 ++ es.flatMap entryBytes)) k n := by
  rw [saveBytes, List.cons_append, Pieces.rd_tail (by rw [length_leBytes]; omega), List.cons_append,
    Pieces.rd_tail (by rw [length_frameBytes]; omega), List.cons_append,
    Pieces.rd_tail (by simp only [List.length_append, length_recBytes, List.length_replicate]; omega), List.cons_append,
    Pieces.rd_head (by omega)
      (by simp only [List.length_append, length_leBytes, List.length_replicate, length_entries]; omega),
    Nat.add_sub_cancel_left, List.append_assoc]

/-- A read of the record of an entry (R146). -/
theorem rd_entry {j k n : Nat} {e : Entry} (he : es[j]? = some e) (hn : 0 < n) (h : k + n ≤ 64) :
    Pieces.rd (saveBytes c rb es) (0x440 + 64 * j + k) n = fieldAt (entryBytes e) k n := by
  have hj : j < es.length := (List.getElem?_eq_some_iff.1 he).1
  rw [show 0x440 + 64 * j + k = 0x400 + (8 + (56 + (64 * j + k))) by omega, rd_area c rb es hn (by omega),
    fieldAt_append_add (length_leBytes 8 _), fieldAt_append_add (List.length_replicate), fieldAt_flatMap (fun e _ => length_entryBytes e) he h]

end

/-! ## The fields -/

section
variable (c : Ctx) (rb : Option Issue) (es : List Entry)

/-- PC and predicates of a saved task (R80). -/
theorem rd_head : Pieces.rd (saveBytes c rb es) 8 8 = c.pc % 2 ^ 55 ∧ Pieces.rd (saveBytes c rb es) 0x10 8 = (c.g ||| 1).toNat := by
  have hpc : c.pc % 2 ^ 55 < 256 ^ 8 := (Nat.mod_lt _ (by norm_num)).trans (by norm_num)
  have hg : (c.g ||| 1).toNat < 256 ^ 8 := (BitVec.isLt _).trans (by norm_num)
  constructor
  · rw [rd_frame c rb es (k := 0) (by decide) (by decide), fieldAt_frameHead c rb (by decide), frameHead,
      fieldAt_append_left (by simp), fieldAt_leBytes_lt hpc]
  · rw [rd_frame c rb es (k := 8 + 0) (by decide) (by decide), fieldAt_frameHead c rb (by decide), frameHead,
      fieldAt_append_add (length_leBytes 8 _), fieldAt_append_left (by simp), fieldAt_leBytes_lt hg]

/-- The x registers and the handles of a saved task (R80). -/
theorem rd_registers {n : Nat} (hn : n < 32) : Pieces.rd (saveBytes c rb es) (0x20 + 8 * n) 8 = (c.rx n).toNat ∧
    Pieces.rd (saveBytes c rb es) (0x120 + 8 * n) 8 = (c.rh n).toNat := by
  constructor
  · rw [show 0x20 + 8 * n = 8 + (24 + 8 * n) by omega, rd_frame c rb es (by decide) (by omega), fieldAt_frameXs c rb (by omega)]
    exact fieldAt_range (fun n => (c.rx n).toNat) hn (BitVec.isLt _)
  · rw [show 0x120 + 8 * n = 8 + (24 + (256 + 8 * n)) by omega, rd_frame c rb es (by decide) (by omega),
      fieldAt_frameHs c rb (by omega)]
    exact fieldAt_range (fun n => (c.rh n).toNat) hn (BitVec.isLt _)

/-- The windows of a saved task (R80). -/
theorem rd_windows {n : Nat} (hn : n < 8) : Pieces.rd (saveBytes c rb es) (0x220 + 16 * n) 16 = (Tab.get (0 : Quad) c.w n).toNat := by
  rw [show 0x220 + 16 * n = 8 + (24 + (256 + (256 + 16 * n))) by omega, rd_frame c rb es (by decide) (by omega),
    fieldAt_frameWs c rb (by omega)]
  exact fieldAt_range (fun n => (Tab.get (0 : Quad) c.w n).toNat) hn (BitVec.isLt _)

/-- The system registers of a saved task (R80). -/
theorem rd_system {i : Nat} {w : Word} (hi : i < 8)
    (hw : [c.tvec.toNat, c.epc.toNat, (cstatOf { c with rb := rb }).toNat, c.ldpstk.toNat, c.gixstk.toNat, c.wid.toNat].getD i 0 = w.toNat) :
    Pieces.rd (saveBytes c rb es) (0x2A0 + 8 * i) 8 = w.toNat := by
  rw [show 0x2A0 + 8 * i = 8 + (24 + (256 + (256 + (128 + 8 * i)))) by omega, rd_frame c rb es (by decide) (by omega),
    fieldAt_frameSys c rb (by omega), frameSys, fieldAt_valBytes hi (by rw [hw]; exact w.isLt), hw]

/-- The replay buffer of a saved task (R80). -/
theorem rd_buffer {k n : Nat} (hn : 0 < n) (h : k + n ≤ 176) : Pieces.rd (saveBytes c rb es) (0x2E0 + k) n =
    fieldAt (bufferBytes (rb.getD emptyIssue) rb.isSome) k n := by
  rw [show 0x2E0 + k = 8 + (24 + (256 + (256 + (128 + (64 + k))))) by omega, rd_frame c rb es hn (by omega), fieldAt_frameBuffer c rb]

theorem fieldAt_buffer_head (is : Issue) (held : Bool) :
    fieldAt (bufferBytes is held) 0 8 = b2n held * 2 ^ 8 + is.occ.toNat * 16 + is.perf.toNat := by
  have hb : b2n held ≤ 1 := by cases held <;> decide
  have ho := is.occ.isLt
  have hp := is.perf.isLt
  rw [bufferBytes, fieldAt_append_left (by simp), fieldAt_leBytes_lt (by omega)]

theorem fieldAt_buffer_word (is : Issue) (held : Bool) {i : Nat} (hi : i < 4) :
    fieldAt (bufferBytes is held) (8 + 4 * i) 4 = (is.words.getD i 0).toNat := by
  rw [bufferBytes, fieldAt_append_add (length_leBytes 8 _), fieldAt_append_left (by rw [length_range_leBytes 4 4]; omega)]
  exact fieldAt_range (fun i => (is.words.getD i 0).toNat) hi (BitVec.isLt _)

/-- The words of the pending record of a saved task (R26, R80). -/
theorem rd_record : Pieces.rd (saveBytes c rb es) 0x3B0 8 = (c.pend.getD Rec.zero).w0.toNat ∧
    Pieces.rd (saveBytes c rb es) 0x3B8 8 = (c.pend.getD Rec.zero).w1.toNat ∧
    Pieces.rd (saveBytes c rb es) 0x3C0 8 = (c.pend.getD Rec.zero).w2.toNat ∧
    Pieces.rd (saveBytes c rb es) 0x3C8 8 = (c.pend.getD Rec.zero).w3.toNat := by
  refine ⟨?_, ?_, ?_, ?_⟩
  · rw [rd_pend c rb es (k := 0) (by decide) (by decide), Rec.bytes, List.append_assoc, List.append_assoc,
      fieldAt_append_left (by simp), fieldAt_word]
  · rw [rd_pend c rb es (k := 8 + 0) (by decide) (by decide), Rec.bytes, List.append_assoc, List.append_assoc,
      fieldAt_append_add (length_leBytes 8 _), fieldAt_append_left (by simp), fieldAt_word]
  · rw [rd_pend c rb es (k := 8 + (8 + 0)) (by decide) (by decide), Rec.bytes, List.append_assoc, List.append_assoc,
      fieldAt_append_add (length_leBytes 8 _), fieldAt_append_add (length_leBytes 8 _), fieldAt_append_left (by simp), fieldAt_word]
  · rw [rd_pend c rb es (k := 8 + (8 + (8 + 0))) (by decide) (by decide), Rec.bytes, List.append_assoc, List.append_assoc,
      fieldAt_append_add (length_leBytes 8 _), fieldAt_append_add (length_leBytes 8 _), fieldAt_append_add (length_leBytes 8 _), fieldAt_word]

/-- The entries' number, and of each its command word, resume state and hold (R146). -/
theorem rd_entries : (es.length ≤ 32 → Pieces.rd (saveBytes c rb es) 0x400 8 = es.length) ∧
    (∀ j e, es[j]? = some e → Pieces.rd (saveBytes c rb es) (0x440 + 64 * j) 8 = e.word.toNat ∧
      Pieces.rd (saveBytes c rb es) (0x440 + 64 * j + 0x28) 8 = e.resume % 2 ^ 64 ∧
      Pieces.rd (saveBytes c rb es) (0x440 + 64 * j + 0x30) 8 = b2n e.isHeld) := by
  refine ⟨fun hlen => ?_, fun j e he => ⟨?_, ?_, ?_⟩⟩
  · rw [rd_area c rb es (k := 0) (by decide) (by omega), fieldAt_append_left (by simp), fieldAt_leBytes_lt (by omega)]
  · have hw : e.word.toNat < 256 ^ 8 := e.word.isLt.trans (by norm_num)
    rw [← Nat.add_zero (0x440 + 64 * j), rd_entry c rb es he (by decide) (by decide), entryBytes]
    simp only [List.append_assoc]
    rw [fieldAt_append_left (by simp), fieldAt_leBytes_lt hw]
  · rw [rd_entry c rb es he (by decide) (by decide), entryBytes]
    simp only [List.append_assoc]
    rw [show 0x28 = 8 + (24 + (8 + 0)) by rfl, fieldAt_append_add (length_leBytes 8 _), fieldAt_append_add (length_valBytes 3 _),
      fieldAt_append_add (by simp), fieldAt_append_left (by simp), fieldAt_leBytes]
    norm_num
  · have hb : b2n e.isHeld ≤ 1 := by cases e.isHeld <;> decide
    rw [rd_entry c rb es he (by decide) (by decide), entryBytes]
    simp only [List.append_assoc]
    rw [show 0x30 = 8 + (24 + (8 + (8 + 0))) by rfl, fieldAt_append_add (length_leBytes 8 _), fieldAt_append_add (length_valBytes 3 _),
      fieldAt_append_add (by simp), fieldAt_append_add (length_leBytes 8 _), fieldAt_append_left (by simp), fieldAt_leBytes_lt (by omega)]

end

/-- What the frame and the continuation area of a saved task hold (R80, R81, R146). -/
theorem savedFields (c : Ctx) (rb : Option Issue) (es : List Entry) :
    let rd := Pieces.rd (saveBytes c rb es)
    rd 0 8 = 2 ^ 56 + 1 ∧ rd 8 8 = c.pc % 2 ^ 55 ∧ rd 0x10 8 = (c.g ||| 1).toNat ∧
    (∀ n < 32, rd (0x20 + 8 * n) 8 = (c.rx n).toNat ∧ rd (0x120 + 8 * n) 8 = (c.rh n).toNat) ∧
    (∀ n < 8, rd (0x220 + 16 * n) 16 = (Tab.get (0 : Quad) c.w n).toNat) ∧
    rd 0x2A0 8 = c.tvec.toNat ∧ rd 0x2A8 8 = c.epc.toNat ∧ rd 0x2B0 8 = (cstatOf { c with rb := rb }).toNat ∧
    rd 0x2B8 8 = c.ldpstk.toNat ∧ rd 0x2C0 8 = c.gixstk.toNat ∧ rd 0x2C8 8 = c.wid.toNat ∧
    (rb = none → rd 0x2E0 8 = 0) ∧
    (∀ is, rb = some is → rd 0x2E0 8 = 2 ^ 8 + is.occ.toNat * 16 + is.perf.toNat ∧
      ∀ i < 4, rd (0x2E8 + 4 * i) 4 = (is.words.getD i 0).toNat) ∧
    rd 0x3B0 8 = (c.pend.getD Rec.zero).w0.toNat ∧ rd 0x3B8 8 = (c.pend.getD Rec.zero).w1.toNat ∧
    rd 0x3C0 8 = (c.pend.getD Rec.zero).w2.toNat ∧ rd 0x3C8 8 = (c.pend.getD Rec.zero).w3.toNat ∧
    (es.length ≤ 32 → rd 0x400 8 = es.length) ∧
    (∀ j e, es[j]? = some e → rd (0x440 + 64 * j) 8 = e.word.toNat ∧ rd (0x440 + 64 * j + 0x28) 8 = e.resume % 2 ^ 64 ∧
      rd (0x440 + 64 * j + 0x30) 8 = b2n e.isHeld) := by
  intro rd
  obtain ⟨hpc, hg⟩ := rd_head c rb es
  obtain ⟨h0, h1, h2, h3⟩ := rd_record c rb es
  obtain ⟨hlen, hents⟩ := rd_entries c rb es
  refine ⟨rd_fhdr c rb es, hpc, hg, fun n hn => rd_registers c rb es hn, fun n hn => rd_windows c rb es hn,
    rd_system c rb es (i := 0) (by decide) rfl, rd_system c rb es (i := 1) (by decide) rfl, rd_system c rb es (i := 2) (by decide) rfl,
    rd_system c rb es (i := 3) (by decide) rfl, rd_system c rb es (i := 4) (by decide) rfl, rd_system c rb es (i := 5) (by decide) rfl,
    ?_, ?_, h0, h1, h2, h3, hlen, hents⟩
  · rintro rfl
    exact (rd_buffer c none es (k := 0) (by decide) (by decide)).trans (fieldAt_buffer_head emptyIssue false)
  · rintro is rfl
    refine ⟨?_, fun i hi => ?_⟩
    · exact (rd_buffer c (some is) es (k := 0) (by decide) (by decide)).trans (fieldAt_buffer_head is true)
    · rw [show 0x2E8 + 4 * i = 0x2E0 + (8 + 4 * i) by omega]
      exact (rd_buffer c (some is) es (by decide) (by omega)).trans (fieldAt_buffer_word is true hi)

end Sys2Proof.Machine

/-! PROOFS. Placement of a task and the zero fill of its save area (R51 to R57, R170, R369 to R371). -/

namespace Sys2Proof.Machine

/-! ## Placement -/

theorem accBind_ok {α β : Type} (a : α) (s : State) (k : α → State → Acc β × State) : accBind (.ok a, s) k = k a s := rfl

theorem acquire_package (s : State) (c : Nat) : acquire s c 4 = dcInvalidate s c := rfl

/-- The frame of a task that is placed is cleared by three writes (R81, R371). -/
theorem clearFrame_eq {s a b u : State} {d f : Nat} (ha : writeRange s d f (leBytes 8 (2 ^ 56)) = (.ok (), a))
    (hb : writeRange a d (f + 0x3D0) (List.replicate 48 0) = (.ok (), b)) (hu : writeRange b d (f + 0x400) (leBytes 8 0) = (.ok (), u)) :
    clearFrame s d f = (.ok (), u) := by
  rw [clearFrame, ha, accBind_ok, hb, accBind_ok, hu]

/-- A ready task that comes first is placed, once its frame is cleared (R371). -/
theorem execTaskPlacement_placed {s u : State} {p run node x blk : Nat} {wid : BitVec 64} {r : Run} (hrun : runOf s p run = some r)
    (htype : nType r.l node = 0) (hready : r.ready node wid.toNat = true) (hpkg : pkgOfCtx x = p) (hidle : idle s x = true)
    (haff : affinity r node wid.toNat (coreOf x) = true) (hblk : blk < r.nfpool) (hfree : blk ∉ r.blocks)
    (hfirst : firstWant s p ⟨3 - r.prio, r.order, node, wid.toNat⟩ = true)
    (hclear : clearFrame s (dieOfCtx x) (r.fpool + 2 ^ 17 * blk) = (.ok (), u)) :
    ∃ t, exec (.taskPlacement p run node wid x blk) s = .next t ∧ sameMemory u t ∧
      t.ctx x = newCtx r run node wid.toNat blk (u.cycles p) (u.pkg p).order ∧ (t.core (coreOf x)).dc = [] := by
  let v := modRun ((u.setCtx x (newCtx r run node wid.toNat blk (u.cycles p) (u.pkg p).order)).modPkg p (fun v =>
    { v with order := (u.pkg p).order + 1 })) p run (fun r => { (r.modNode node (fun v => { v with
      live := wid.toNat :: v.live, homes := v.homes ++ [(wid.toNat, coreOf x)] })) with blocks := blk :: r.blocks })
  refine ⟨dcInvalidate v (coreOf x), ?_, sameMemory_of_eq rfl rfl, ?_, ?_⟩
  · simp only [exec_taskPlacement, execTaskPlacement, hrun, htype, hready, hpkg, hidle, haff, hblk, hfirst, hclear, acquire_package,
      List.contains_eq_mem, hfree, decide_true, decide_false, Bool.and_true, Bool.not_false, Bool.not_true, Bool.false_eq_true, if_false]
    rfl
  · exact State.ctx_setCtx_same u x (newCtx r run node wid.toNat blk (u.cycles p) (u.pkg p).order)
  · exact congrArg Core.dc (State.core_setCore_same v (coreOf x) _)

/-- A new context has its windows, PC, frame, WID and EXITVA in x31, and every other register at reset (R51 to R57, R371). -/
theorem placement (s a b u : State) (p run node : Nat) (wid : BitVec 64) (x blk : Nat) (r : Run) (hrun : runOf s p run = some r)
    (htype : nType r.l node = 0) (hready : r.ready node wid.toNat = true) (hpkg : pkgOfCtx x = p) (hidle : idle s x = true)
    (haff : affinity r node wid.toNat (coreOf x) = true) (hblk : blk < r.nfpool) (hfree : blk ∉ r.blocks)
    (hfirst : firstWant s p ⟨3 - r.prio, r.order, node, wid.toNat⟩ = true) :
    let f := r.fpool + 2 ^ 17 * blk
    writeRange s (dieOfCtx x) f (leBytes 8 (2 ^ 56)) = (.ok (), a) →
    writeRange a (dieOfCtx x) (f + 0x3D0) (List.replicate 48 0) = (.ok (), b) →
    writeRange b (dieOfCtx x) (f + 0x400) (leBytes 8 0) = (.ok (), u) →
    ∃ t k, exec (.taskPlacement p run node wid x blk) s = .next t ∧ sameMemory u t ∧ (t.ctx x).task = some k ∧
      k.run = run ∧ k.node = node ∧ k.wid = wid ∧ k.prio = r.prio ∧ k.blk = blk ∧ k.acc = nAcc r.l node ∧ k.load = r.l.id ∧ k.zeroed = false ∧
      (t.ctx x).pc = (r.l.pkgva + r.l.codeoff + nEntry r.l node) % 2 ^ 55 ∧ (t.ctx x).wid = wid ∧ (t.ctx x).rx 31 = exitVa ∧
      (∀ n, n ≠ 31 → (t.ctx x).rx n = 0) ∧ (∀ n, (t.ctx x).rh n = 0) ∧ (∀ n < 12, rpred (t.ctx x).g n = decide (n = 0)) ∧
      (t.ctx x).frame.toNat = f % 2 ^ 55 ∧ (t.ctx x).w = windowsOf r node wid.toNat ∧ (t.ctx x).t = false ∧ (t.ctx x).tvec = 0 ∧
      (t.ctx x).epc = 0 ∧ (t.ctx x).ldpstk = 0 ∧ (t.ctx x).gixstk = 0 ∧ (t.ctx x).rb = none ∧ (t.ctx x).reissue = false ∧
      (t.ctx x).issue = none ∧ (t.ctx x).pend = none ∧ (t.ctx x).lease = 0 ∧ (t.ctx x).save = none ∧ (t.ctx x).kill = none ∧
      (t.core (coreOf x)).dc = [] := by
  intro f ha hb hu
  obtain ⟨t, hexec, hmem, hctx, hdc⟩ :=
    execTaskPlacement_placed hrun htype hready hpkg hidle haff hblk hfree hfirst (clearFrame_eq ha hb hu)
  have hwid : BitVec.ofNat 64 wid.toNat = wid := by simp
  refine ⟨t, _, hexec, hmem, congrArg Ctx.task hctx, rfl, rfl, hwid, rfl, rfl, rfl, rfl, rfl, ?_⟩
  rw [hctx]
  refine ⟨rfl, hwid, rfl, fun n hn => ?_, fun n => rfl, fun n hn => ?_, ?_, rfl, rfl, rfl, rfl, rfl, rfl, rfl, rfl, rfl,
    rfl, rfl, rfl, rfl, hdc⟩
  · rw [Ctx.rx]
    split_ifs
    · rfl
    · exact Tab.get_set_other 0 [] exitVa hn
  · have hz : bit (0 : BitVec 12) n = false := by simp [bit]
    change (decide (n = 0) || bit (0 : BitVec 12) n) = _
    rw [hz, Bool.or_false]
  · change (BitVec.ofNat 64 (f % 2 ^ 55)).toNat = _
    rw [BitVec.toNat_ofNat]
    omega

/-! ## The zero fill -/

/-- The save area of a frame block takes the rest of the page behind the frame and the first 4 KiB of the next page (R80, R170). -/
theorem pageCuts_saveBase {f : Nat} (hf : f % 2 ^ 16 = 0) : pageCuts (saveBase f) 65536 = [(0, 0xF000), (0xF000, 0x1000)] := by
  have hmod : saveBase f % 2 ^ 16 = 0x1000 := by
    rw [saveBase]
    omega
  rw [pageCuts, hmod]
  rfl

/-- One part of the area is zeroed (R369, R371). -/
def fillCut (x : Nat) (k : Task) (base : Nat) (s : State) (c : Nat × Nat) : State :=
  match writeRange s (dieOfCtx x) (base + c.1) (List.replicate c.2 0) with
  | (.bad _ a, s) => failAccess s (pkgOfCtx x) k.run (dieOfCtx x) k.node a
  | (_, s) => s

theorem fillArea_eq (s : State) (x : Nat) (k : Task) : fillArea s x k =
    (pageCuts (saveBase (s.ctx x).frame.toNat) 65536).foldl (fillCut x k (saveBase (s.ctx x).frame.toNat)) s := rfl

theorem fillCut_ok {s u : State} {x base lo n : Nat} (k : Task)
    (h : writeRange s (dieOfCtx x) (base + lo) (List.replicate n 0) = (.ok (), u)) : fillCut x k base s (lo, n) = u := by
  rw [fillCut]
  simp only [h]

/-- Both parts of the area are zeroed where they can be written (R371). -/
theorem fillArea_ok {s a b : State} {x : Nat} (k : Task) (hf : (s.ctx x).frame.toNat % 2 ^ 16 = 0)
    (ha : writeRange s (dieOfCtx x) (saveBase (s.ctx x).frame.toNat) (List.replicate 0xF000 0) = (.ok (), a))
    (hb : writeRange a (dieOfCtx x) (saveBase (s.ctx x).frame.toNat + 0xF000) (List.replicate 0x1000 0) = (.ok (), b)) :
    fillArea s x k = b := by
  rw [← Nat.add_zero (saveBase _)] at ha
  rw [fillArea_eq, pageCuts_saveBase hf, List.foldl_cons, List.foldl_cons, List.foldl_nil, fillCut_ok k ha, fillCut_ok k hb]

/-- The zero fill writes zeros, and is done (R170, R371). -/
theorem zeroFill (s a b : State) (x : Nat) (k : Task) (htask : (s.ctx x).task = some k) (hzeroed : k.zeroed = false) :
    let f := (s.ctx x).frame.toNat
    f % 2 ^ 16 = 0 → areaWaits s (coreOf x) f = false →
    writeRange s (dieOfCtx x) (f + 0x1000) (List.replicate 0xF000 0) = (.ok (), a) →
    writeRange a (dieOfCtx x) (f + 0x1000 + 0xF000) (List.replicate 0x1000 0) = (.ok (), b) →
    ∃ t, exec (.saveAreaFillDone x) s = .next t ∧ (t.ctx x).task = some { k with zeroed := true } ∧ sameMemory b t := by
  intro f hf hwaits ha hb
  refine ⟨b.modCtx x (fun c => { c with task := some { k with zeroed := true } }), ?_, ?_, sameMemory_of_eq rfl rfl⟩
  · rw [exec_saveAreaFillDone, execSaveAreaFillDone, htask]
    simp only [finishFill, hzeroed, Bool.false_eq_true, if_false, fillArea_ok k hf ha hb]
    rw [if_neg (by rw [hwaits]; exact Bool.false_ne_true)]
  · exact congrArg Ctx.task (State.ctx_setCtx_same b x _)

end Sys2Proof.Machine

/-! PROOFS. What an engine of a die reads, counts and answers does not depend on what the cores hold (R255, R271 to R278). -/

namespace Sys2Proof.Machine

/-- The state with other cores. -/
def State.withCores (s : State) (cs : Tab Core) : State := { s with cores := cs }

section
variable (cs : Tab Core)

theorem withCores_ite (c : Prop) [Decidable c] (s t : State) :
    (if c then s else t).withCores cs = if c then s.withCores cs else t.withCores cs := apply_ite (State.withCores · cs) c s t

theorem modDie_withCores (s : State) (d : Nat) (f : Die → Die) : (s.withCores cs).modDie d f = (s.modDie d f).withCores cs := rfl

/-! ## Logs and errors -/

theorem logRec_withCores (s : State) (d : Nat) (r : Rec) : logRec (s.withCores cs) d r = (logRec s d r).withCores cs := by
  simp only [logRec, withCores_ite]
  rfl

theorem machineCheckDie_withCores (s : State) (d : Nat) (f : Flt) :
    machineCheckDie (s.withCores cs) d f = (machineCheckDie s d f).withCores cs :=
  logRec_withCores cs s.nextFree d _

theorem correct_withCores (s : State) (d : Nat) (p : Storage) (lo n : Nat) :
    correct (s.withCores cs) d p lo n = (correct s d p lo n).withCores cs := by
  simp only [correct, withCores_ite]
  rfl

theorem checkRead_withCores (s : State) (d : Nat) (p : Storage) (key n : Nat) :
    checkRead (s.withCores cs) d p key n = ((checkRead s d p key n).1.withCores cs, (checkRead s d p key n).2) := by
  simp only [checkRead, correct_withCores]
  rfl

theorem checkHome_withCores (s : State) (p : Place) (n : Nat) :
    checkHome (s.withCores cs) p n = ((checkHome s p n).1.withCores cs, (checkHome s p n).2) := by
  unfold checkHome
  split_ifs
  · rfl
  · rw [checkRead_withCores]
    rcases checkRead s (homeDieOf p) .mss (memKey p.pkg p.pa) n with ⟨u, _ | f⟩
    · exact checkRead_withCores cs u _ _ _ _
    · rfl

theorem checkHomes_withCores (s : State) (rs : List (Place × Nat)) :
    checkHomes (s.withCores cs) rs = ((checkHomes s rs).1.withCores cs, (checkHomes s rs).2) := by
  induction rs generalizing s with
  | nil => rfl
  | cons r rs ih =>
    rw [checkHomes, checkHomes, checkHome_withCores]
    rcases checkHome s r.1 r.2 with ⟨u, _ | f⟩
    · exact ih u
    · rfl

/-- A read with no context goes on alike where what follows it does. -/
theorem readDie_withCores {bad k : State → State} (s : State) (rs : List (Place × Nat))
    (hbad : ∀ u, bad (u.withCores cs) = (bad u).withCores cs) (hk : ∀ u, k (u.withCores cs) = (k u).withCores cs) :
    readDie (s.withCores cs) rs bad k = (readDie s rs bad k).withCores cs := by
  rw [readDie, readDie, checkHomes_withCores]
  rcases checkHomes s rs with ⟨u, _ | f⟩
  · exact hk u
  · simp only [machineCheckDie_withCores, hbad]

/-! ## Queue blocks -/

theorem writePhys_withCores (s : State) (p : Nat) (host : Bool) (pa : Nat) (bs : List Byte) :
    (s.withCores cs).writePhys p host pa bs = (s.writePhys p host pa bs).withCores cs := by
  simp only [State.writePhys, withCores_ite]
  rfl

theorem qWrite_withCores (s : State) (p q at_ off : Nat) (ws : List Nat) :
    qWrite (s.withCores cs) p q at_ off ws = (qWrite s p q at_ off ws).withCores cs := by
  induction ws generalizing s off with
  | nil => rfl
  | cons w ws ih =>
    rw [qWrite, qWrite, writePhys_withCores]
    exact ih _ _

theorem qSet_withCores (s : State) (p q head tail free count : Nat) :
    qSet (s.withCores cs) p q head tail free count = (qSet s p q head tail free count).withCores cs := by
  rw [qSet, qSet, writePhys_withCores, writePhys_withCores]

theorem qPush_withCores (s : State) (p q : Nat) (rec : List Nat) :
    qPush (s.withCores cs) p q rec = ((qPush s p q rec).1.withCores cs, (qPush s p q rec).2) := by
  have hcount : qCount (s.withCores cs) p q = qCount s p q := rfl
  have hfree : qFree (s.withCores cs) p q = qFree s p q := rfl
  have hprev : qPrev (s.withCores cs) p q 0x40 = qPrev s p q 0x40 := rfl
  simp only [qPush, hcount, hfree, hprev, qWrite_withCores, writePhys_withCores, qSet_withCores]
  split_ifs <;> rfl

/-! ## Hotness counters -/

section
variable {count : State → Nat → Place → State} (hcount : ∀ s d p, count (s.withCores cs) d p = (count s d p).withCores cs)
include hcount

theorem pushNote_withCores (s : State) (d : Nat) (rec : List Nat) :
    pushNote count (s.withCores cs) d rec = (pushNote count s d rec).withCores cs := by
  have hgate : ∀ b, gate (s.withCores cs) b = gate s b := fun _ => rfl
  have hdie : (s.withCores cs).die d = s.die d := rfl
  have hreads : ∀ b, qReads (s.withCores cs) b false = qReads s b false := fun _ => rfl
  simp only [pushNote, hdie, hgate, hreads, hcount]
  split_ifs
  · rfl
  · refine readDie_withCores cs _ _ (fun _ => rfl) fun u => ?_
    have hok : ∀ p q, qOk (u.withCores cs) p q = qOk u p q := fun _ _ => rfl
    have hrec : ∀ f, mkRecDie (u.withCores cs) d f = mkRecDie u d f := fun _ => rfl
    simp only [hok, hrec, logRec_withCores, qPush_withCores]
    split_ifs
    · rfl
    · rcases qPush u (pkgOfDie d) (fldN (s.die d).hotq 8 36 * 2 ^ 8) rec with ⟨v, _ | _⟩ <;> rfl

theorem hotNotify_withCores (s : State) (d blk cls : Nat) (w : Word) :
    hotNotify count (s.withCores cs) d blk cls w = (hotNotify count s d blk cls w).withCores cs := by
  rw [hotNotify, hotNotify]
  change (if bit (s.die d).hotq 0 then pushNote count (s.withCores cs) d (hotRecord s d blk cls w) else s.withCores cs) = _
  rw [pushNote_withCores cs hcount]
  exact (apply_ite (State.withCores · cs) _ _ _).symm

end

theorem readHot_withCores {k : Word → State → State} (s : State) (d blk : Nat)
    (hk : ∀ w u, k w (u.withCores cs) = (k w u).withCores cs) : readHot (s.withCores cs) d blk k = (readHot s d blk k).withCores cs := by
  have hword : ∀ u : State, hotWord (u.withCores cs) d blk = hotWord u d blk := fun _ => rfl
  have hdie : (s.withCores cs).die d = s.die d := rfl
  have hplace : hotPlace (s.withCores cs) d blk = hotPlace s d blk := rfl
  simp only [readHot, hdie, hplace, checkRead_withCores]
  split_ifs
  · rcases checkRead s d .mss (memKey (hotPlace s d blk).pkg (hotPlace s d blk).pa) 8 with ⟨u, _ | f⟩
    · exact hk _ u
    · exact machineCheckDie_withCores cs u d f
  · exact readDie_withCores cs s _ (fun _ => rfl) fun u => hk _ u

theorem hotTouchN_withCores (n : Nat) (s : State) (src d pa : Nat) :
    hotTouchN n (s.withCores cs) src d pa = (hotTouchN n s src d pa).withCores cs := by
  induction n generalizing s src d pa with
  | zero => rfl
  | succ n ih =>
    have hdie : (s.withCores cs).die d = s.die d := rfl
    have hgate : gate (s.withCores cs) (hotPlace (s.withCores cs) d (pa / 2 ^ 16)) = gate s (hotPlace s d (pa / 2 ^ 16)) := rfl
    rw [hotTouchN, hotTouchN, hdie, hgate]
    rcases hotClass src d with _ | cls
    · rfl
    · dsimp only
      split_ifs
      · rfl
      · rfl
      · refine readHot_withCores cs s d _ fun w u => ?_
        have hnote := hotNotify_withCores cs (count := fun s src b => hotTouchN n s src (homeDieOf b) b.pa) fun s src b => ih s src _ _
        simp only [modDie_withCores, hnote, withCores_ite]
        rfl

theorem countHome_withCores (s : State) (src : Nat) (p : Place) :
    countHome (s.withCores cs) src p = (countHome s src p).withCores cs := by
  unfold countHome
  split_ifs
  · rfl
  · exact hotTouchN_withCores cs 16 s src _ _

theorem serveReads_withCores (s : State) (src : Nat) (rs : List (Place × Nat)) :
    serveReads (s.withCores cs) src rs = ((serveReads s src rs).1.withCores cs, (serveReads s src rs).2) := by
  induction rs generalizing s with
  | nil => rfl
  | cons r rs ih =>
    rw [serveReads, serveReads, serveRead, serveRead, countHome_withCores, checkHome_withCores]
    rcases checkHome (countHome s src r.1) r.1 r.2 with ⟨u, _ | f⟩
    · exact ih u
    · rfl

/-! ## Translation -/

theorem walkFrom_withCores (s : State) (d page : Nat) (ns : List NodeE) (ls : List Nat) (n : Node) (w : Walk) :
    walkFrom (s.withCores cs) d page ns ls n w = walkFrom s d page ns ls n w := by
  induction ls generalizing n w with
  | nil => rfl
  | cons l ls ih =>
    have hgate : ∀ b, gate (s.withCores cs) b = gate s b := fun _ => rfl
    have hread : ∀ k, readEntry (s.withCores cs) d n k = readEntry s d n k := fun _ => rfl
    simp only [walkFrom, hgate, hread, ih]

theorem walk_withCores (s : State) (d page : Nat) (ns : List NodeE) : walk (s.withCores cs) d page ns = walk s d page ns := by
  unfold walk
  rw [walkFrom_withCores]
  rfl

/-- A die's engine translates alike whatever the cores hold (R278, R282). -/
theorem translateDie_withCores (s : State) (d : Nat) (va : Word) (kind : Nat) :
    (translateDie (s.withCores cs) d va kind).1 = (translateDie s d va kind).1 := by
  unfold translateDie
  split_ifs
  · rfl
  · dsimp only
    rw [walk_withCores, serveReads_withCores]
    rcases serveReads s d (walk s d (va.toNat / 2 ^ 16) []).reads with ⟨u, _ | f⟩
    · have hgate : ∀ b, gate (u.withCores cs) b = gate u b := fun _ => rfl
      simp only [hgate]
      cases (walk s d (va.toNat / 2 ^ 16) []).res with
      | leaf level e =>
        dsimp only
        split_ifs <;> rfl
      | _ => rfl
    · rfl

end

/-- Whether a frame can be written does not depend on the cores (R289, R291). -/
theorem frameWaits_setCore (s : State) (c x : Nat) (v : Core) : frameWaits (s.setCore c v) x = frameWaits s x := by
  have h := translateDie_withCores (s.setCore c v).cores s (dieOfCtx x) (s.ctx x).frame 1
  rw [frameWaits, frameWaits, ← h]
  rfl

end Sys2Proof.Machine

/-! PROOFS. The end of a task: its entries, stalls, tiles, packets and frame block (R82, R175, R320, R329, R330, R372, R374). -/

namespace Sys2Proof.Machine

/-! ## Packets -/

/-- Packets alone have been sent: those under way keep their numbers. -/
structure Sent (s t : State) : Prop where
  frame : { t with pkts := s.pkts, nextId := s.nextId } = s
  next : s.nextId ≤ t.nextId
  kept : ∀ m < s.nextId, t.pkt m = s.pkt m

theorem Sent.refl (s : State) : Sent s s := ⟨rfl, le_rfl, fun _ _ => rfl⟩

theorem Sent.trans {s t u : State} (h : Sent s t) (g : Sent t u) : Sent s u where
  frame := (congrArg (fun v : State => { v with pkts := s.pkts, nextId := s.nextId }) g.frame).trans h.frame
  next := h.next.trans g.next
  kept m hm := (g.kept m (hm.trans_le h.next)).trans (h.kept m hm)

theorem sent_foldl {α : Type} (f : State → α → State) (h : ∀ s a, Sent s (f s a)) (l : List α) (s : State) : Sent s (l.foldl f s) := by
  induction l generalizing s with
  | nil => exact .refl s
  | cons a l ih => exact (h s a).trans (ih _)

theorem sent_sendPkt (s : State) (g src dst : Nat) (kind : PktKind) : Sent s (sendPkt s g src dst kind) :=
  ⟨rfl, Nat.le_succ _, fun _ hm => State.pkt_setPkt_other s (some (mkPkt s g src dst kind)) hm.ne⟩

theorem sent_tellDies (s : State) (p frame ev : Nat) : Sent s (tellDies s p frame ev) := sent_foldl _ (fun _ _ => sent_sendPkt _ _ _ _ _) _ s

theorem sent_sendNotice (s : State) (x ev : Nat) : Sent s (sendNotice s x ev) := sent_tellDies s _ _ _

theorem sent_abortSources (s : State) (x : Nat) : Sent s (abortSources s x) := by
  refine sent_foldl _ (fun s p => ?_) _ s
  split_ifs
  · exact sent_sendPkt _ _ _ _ _
  · exact .refl s

section
variable {s t : State} (h : Sent s t)
include h

theorem Sent.ctxs : t.ctxs = s.ctxs := (congrArg State.ctxs h.frame :)
theorem Sent.cores : t.cores = s.cores := (congrArg State.cores h.frame :)
theorem Sent.pkgs : t.pkgs = s.pkgs := (congrArg State.pkgs h.frame :)

end

/-! ## Tiles of a task that ends -/

theorem pkgs_of_withCores {s t : State} {cs : Tab Core} (h : t.withCores cs = s) : t.pkgs = s.pkgs :=
  (congrArg State.pkgs h :)

theorem stalls_modCore {s : State} {c : Nat} {f : Core → Core} (hf : (f (s.core c)).stalls = (s.core c).stalls) (y : Nat) :
    ((s.modCore c f).core y).stalls = (s.core y).stalls := by
  by_cases hy : y = c
  · rw [hy, State.modCore_eq, State.core_setCore_same, hf]
  · rw [State.modCore_eq, State.core_setCore_other _ _ hy]

/-- The tiles that a task owns and does not keep change units of its core alone, and no stall (R175). -/
theorem dropTiles_unsaved (s : State) (c f : Nat) :
    (dropTiles s c f false).withCores s.cores = s ∧ ∀ y, ((dropTiles s c f false).core y).stalls = (s.core y).stalls := by
  rw [dropTiles_eq]
  generalize List.range 8 = ts
  induction ts generalizing s with
  | nil => exact ⟨rfl, fun _ => rfl⟩
  | cons t ts ih =>
    have hstep : (dropTile c f false s t).withCores s.cores = s ∧ ∀ y, ((dropTile c f false s t).core y).stalls = (s.core y).stalls := by
      simp only [dropTile, Bool.false_eq_true, false_and, if_false]
      split_ifs
      · exact ⟨rfl, fun _ => rfl⟩
      · exact ⟨rfl, stalls_modCore rfl⟩
    obtain ⟨hframe, hstalls⟩ := ih (dropTile c f false s t)
    exact ⟨(congrArg (State.withCores · s.cores) hframe).trans hstep.1, fun y => (hstalls y).trans (hstep.2 y)⟩

/-! ## Runs -/

theorem runOf_modRun (s : State) (p run : Nat) (f : Run → Run) : runOf (modRun s p run f) p run = (runOf s p run).map f := by
  simp only [runOf, modRun, setRun, State.modPkg_eq, State.pkg_setPkg_same, Tab.get_set_same]

theorem runOf_of_pkgs {s t : State} {p run : Nat} (h : t.pkgs = s.pkgs) : runOf t p run = runOf s p run := by
  simp only [runOf, State.pkg, h]

theorem runOf_forgetFrame (s : State) (c frame p run : Nat) : runOf (forgetFrame s c frame) p run = runOf s p run := rfl

theorem Run.node_modNode_same (r : Run) (n : Nat) (f : RunNode → RunNode) : (r.modNode n f).node n = f (r.node n) :=
  Tab.get_set_same _ _ _ _

theorem Run.node_modNode_other (r : Run) {n m : Nat} (f : RunNode → RunNode) (h : m ≠ n) : (r.modNode n f).node m = r.node m :=
  Tab.get_set_other _ _ _ h

/-- Marks of skipped nodes alone have changed (R368). -/
structure SkipsOnly (r q : Run) : Prop where
  blocks : q.blocks = r.blocks
  tasks : q.tasks = r.tasks
  failed : q.failed = r.failed
  done : ∀ n, (q.node n).done = (r.node n).done
  live : ∀ n, (q.node n).live = (r.node n).live

theorem SkipsOnly.refl (r : Run) : SkipsOnly r r := ⟨rfl, rfl, rfl, fun _ => rfl, fun _ => rfl⟩

theorem SkipsOnly.trans {r q v : Run} (h : SkipsOnly r q) (g : SkipsOnly q v) : SkipsOnly r v where
  blocks := g.blocks.trans h.blocks
  tasks := g.tasks.trans h.tasks
  failed := g.failed.trans h.failed
  done n := (g.done n).trans (h.done n)
  live n := (g.live n).trans (h.live n)

theorem skipsOnly_foldl {α : Type} (f : Run → α → Run) (h : ∀ r a, SkipsOnly r (f r a)) (l : List α) (r : Run) :
    SkipsOnly r (l.foldl f r) := by
  induction l generalizing r with
  | nil => exact .refl r
  | cons a l ih => exact (h r a).trans (ih _)

theorem skipsOnly_modNode (r : Run) (n : Nat) : SkipsOnly r (r.modNode n (fun v => { v with skip := true })) := by
  refine ⟨rfl, rfl, rfl, fun m => ?_, fun m => ?_⟩ <;>
  · by_cases h : m = n
    · rw [h, Run.node_modNode_same]
    · rw [Run.node_modNode_other r _ h]

theorem skipsOnly_settleSkips (r : Run) : SkipsOnly r r.settleSkips := by
  refine skipsOnly_foldl _ (fun r _ => ?_) _ r
  refine skipsOnly_foldl _ (fun r n => ?_) _ r
  dsimp only
  split_ifs
  · exact skipsOnly_modNode r n
  · exact .refl r

/-- A task is over in its run, before the skips settle (R372, R374). -/
def endRun (t : Task) (f : Option Rec) (r : Run) : Run :=
  { (r.modNode t.node (fun v => { v with done := t.wid.toNat :: v.done, live := v.live.filter (· ≠ t.wid.toNat) })) with
    blocks := r.blocks.filter (· ≠ t.blk), tasks := r.tasks + 1, failed := r.failed.or f }

theorem endInstance_eq (s : State) (p : Nat) (t : Task) (f : Option Rec) :
    endInstance s p t f = modRun s p t.run (fun r => (endRun t f r).settleSkips) := by
  refine congrArg (modRun s p t.run) (funext fun r => congrArg Run.settleSkips ?_)
  obtain ⟨ph, l, prio, tag, args, caddr, fpool, nfpool, order, nodes, blocks, tasks, iters, maxit, _ | a, stopped⟩ := r <;> rfl

/-! ## An idle context -/

theorem stalls_dropMiss (s : State) (c who y : Nat) : ((dropMiss s c who).core y).stalls = (s.core y).stalls := stalls_modCore rfl y

theorem stalls_forgetFrame (s : State) (c frame y : Nat) : ((forgetFrame s c frame).core y).stalls = (s.core y).stalls :=
  stalls_modCore rfl y

section
variable (s : State) (x : Nat) (k : Task) (f : Option Rec)

theorem leaveCtx_ctx : (leaveCtx s x k f).ctx x = Ctx.reset := State.ctx_setCtx_same _ _ _

/-- The stalls whose handles are valid are free (R372). -/
theorem leaveCtx_stalls : ((leaveCtx s x k f).core (coreOf x)).stalls = (s.core (coreOf x)).stalls.filter (fun v =>
    !((((s.ctx x).h.map (fun h => h.2)).filter hV).map hBase).contains v.base) := by
  have hend : ∀ u p, (endInstance u p k f).core = u.core := fun _ _ => rfl
  rw [leaveCtx, State.core_setCtx, stalls_dropMiss, hend, stalls_forgetFrame, (dropTiles_unsaved _ _ _).2, freeStalls, State.modCore_eq,
    State.core_setCore_same]

/-- A task is over in its run (R372, R374). -/
theorem leaveCtx_run {r : Run} (h : runOf s (pkgOfCtx x) k.run = some r) :
    runOf (leaveCtx s x k f) (pkgOfCtx x) k.run = some (endRun k f r).settleSkips := by
  have hpkgs : (dropTiles (freeStalls s x) (coreOf x) (s.ctx x).frame.toNat false).pkgs = s.pkgs :=
    pkgs_of_withCores (s := freeStalls s x) (dropTiles_unsaved (freeStalls s x) (coreOf x) (s.ctx x).frame.toNat).1
  have hidle : ∀ v c w, runOf ((dropMiss v c w).setCtx x Ctx.reset) (pkgOfCtx x) k.run = runOf v (pkgOfCtx x) k.run := fun _ _ _ => rfl
  rw [leaveCtx, hidle, endInstance_eq, runOf_modRun, runOf_forgetFrame, runOf_of_pkgs hpkgs, h]
  rfl

end

/-- What the end of a task leaves: free stalls, an idle context, and in the run a free block, one more task ended, its WID done and
the first fault (R372, R374). -/
def Ended (s t : State) (x : Nat) (k : Task) (f : Option Rec) : Prop :=
  t.ctx x = Ctx.reset ∧
  (t.core (coreOf x)).stalls = (s.core (coreOf x)).stalls.filter (fun v =>
    !((((s.ctx x).h.map (fun h => h.2)).filter hV).map hBase).contains v.base) ∧
  ∀ r, runOf s (pkgOfCtx x) k.run = some r → ∃ q, runOf t (pkgOfCtx x) k.run = some q ∧ q.blocks = r.blocks.filter (· ≠ k.blk) ∧
    q.tasks = r.tasks + 1 ∧ k.wid.toNat ∈ (q.node k.node).done ∧ k.wid.toNat ∉ (q.node k.node).live ∧ q.failed = r.failed.or f

theorem ended_leaveCtx (s : State) (x : Nat) (k : Task) (f : Option Rec) : Ended s (leaveCtx s x k f) x k f := by
  refine ⟨leaveCtx_ctx s x k f, leaveCtx_stalls s x k f, fun r h => ⟨_, leaveCtx_run s x k f h, ?_⟩⟩
  have hskips := skipsOnly_settleSkips (endRun k f r)
  have hnode : (endRun k f r).node k.node = { r.node k.node with
      done := k.wid.toNat :: (r.node k.node).done, live := (r.node k.node).live.filter (· ≠ k.wid.toNat) } :=
    Run.node_modNode_same r k.node (fun v => { v with
      done := k.wid.toNat :: v.done, live := v.live.filter (· ≠ k.wid.toNat) })
  refine ⟨hskips.blocks, hskips.tasks, ?_, ?_, hskips.failed⟩
  · rw [hskips.done, hnode]
    exact .head _
  · rw [hskips.live, hnode]
    simp

/-- A task ends alike from a state with the same contexts, packages and stalls. -/
theorem Ended.of_same {s u t : State} {x : Nat} {k : Task} {f : Option Rec} (h : Ended u t x k f) (hctx : u.ctx x = s.ctx x)
    (hstalls : (u.core (coreOf x)).stalls = (s.core (coreOf x)).stalls) (hpkgs : u.pkgs = s.pkgs) : Ended s t x k f := by
  obtain ⟨hreset, hs, hr⟩ := h
  refine ⟨hreset, ?_, fun r hrun => hr r ?_⟩
  · rw [hs, hctx, hstalls]
  · rw [← hrun]
    exact runOf_of_pkgs hpkgs

end Sys2Proof.Machine

/-! PROOFS. TASK_END (R372, R374), and the leases that a GWAIT or a saved GSEAL gives back (R342, log 78). -/

namespace Sys2Proof.Machine

/-! ## Leases given back -/

/-- A context in which leases alone have ended. -/
def Ctx.sameButLeases (c e : Ctx) : Prop := { e with lease := c.lease, out0 := c.out0 } = c

theorem Ctx.sameButLeases.trans {c e d : Ctx} (h : c.sameButLeases e) (g : e.sameButLeases d) : c.sameButLeases d :=
  Eq.trans (congrArg (fun v : Ctx => { v with lease := c.lease, out0 := c.out0 }) g :) h

/-- Leases of context x and packets alone have ended. -/
structure LeasesOnly (x : Nat) (s t : State) : Prop where
  frame : { t with ctxs := s.ctxs, pkts := s.pkts } = s
  ctx : (s.ctx x).sameButLeases (t.ctx x)

theorem LeasesOnly.refl (x : Nat) (s : State) : LeasesOnly x s s := ⟨rfl, rfl⟩

theorem LeasesOnly.trans {x : Nat} {s t u : State} (h : LeasesOnly x s t) (g : LeasesOnly x t u) : LeasesOnly x s u where
  frame := (congrArg (fun v : State => { v with ctxs := s.ctxs, pkts := s.pkts }) g.frame).trans h.frame
  ctx := h.ctx.trans g.ctx

theorem leasesOnly_dropLease (s : State) (x n : Nat) : LeasesOnly x s (dropLease s x n) := by
  refine ⟨rfl, ?_⟩
  rw [dropLease, State.modCtx_eq, State.ctx_setCtx_same]
  split_ifs <;> rfl

theorem leasesOnly_dropGwait (s : State) (x : Nat) : LeasesOnly x s (dropGwait s x) := by
  unfold dropGwait
  split
  · split_ifs
    · exact leasesOnly_dropLease s x _
    · exact .refl x s
  · exact .refl x s

theorem leasesOnly_liftSeals (s : State) (x : Nat) : LeasesOnly x s (liftSeals s x) := by
  unfold liftSeals
  generalize heldSeals s x = qs
  induction qs generalizing s with
  | nil => exact .refl x s
  | cons q qs ih =>
    have hpkt : LeasesOnly x s (s.setPkt q.1 none) := ⟨rfl, rfl⟩
    exact (hpkt.trans (leasesOnly_dropLease _ x _)).trans (ih _)

section
variable {x : Nat} {s t : State} (h : LeasesOnly x s t)
include h

theorem LeasesOnly.cores : t.cores = s.cores := (congrArg State.cores h.frame :)
theorem LeasesOnly.pkgs : t.pkgs = s.pkgs := (congrArg State.pkgs h.frame :)
theorem LeasesOnly.task : (t.ctx x).task = (s.ctx x).task := (congrArg Ctx.task h.ctx :)
theorem LeasesOnly.pend : (t.ctx x).pend = (s.ctx x).pend := (congrArg Ctx.pend h.ctx :)
theorem LeasesOnly.kill : (t.ctx x).kill = (s.ctx x).kill := (congrArg Ctx.kill h.ctx :)
theorem LeasesOnly.ctxFrame : (t.ctx x).frame = (s.ctx x).frame := (congrArg Ctx.frame h.ctx :)
theorem LeasesOnly.pagerFail : (t.ctx x).pagerFail = (s.ctx x).pagerFail := (congrArg Ctx.pagerFail h.ctx :)

end

/-- The end of a task by a fault keeps the task and its pending record, until TASK_END (R76, R372). -/
theorem killTask_keeps (s : State) (x : Nat) (r : Rec) :
    ((killTask s x r).ctx x).task = (s.ctx x).task ∧ ((killTask s x r).ctx x).pend = (s.ctx x).pend ∧
      ((killTask s x r).ctx x).kill = some ((s.ctx x).kill.getD r) := by
  have hl := leasesOnly_dropGwait s x
  rw [killTask, State.modCtx_eq, State.ctx_setCtx_same]
  exact ⟨hl.task, hl.pend, congrArg (fun k : Option Rec => some (k.getD r)) hl.kill⟩

/-! ## No entries -/

section
variable {s : State} {x : Nat}

/-- Where a context has no entry, none is dropped. -/
theorem dropEntries_of_none (h : entriesOf s x = []) (f : Entry → Bool) : dropEntries s x f = wakeEntries s (coreOf x) := by
  rw [dropEntries, h]
  rfl

theorem wakened_ctx (es : List (Nat × Entry)) (e : Entry) : (wakened es e).ctx = e.ctx := by
  unfold wakened
  split <;> rfl

/-- Entries that become ready stay those of their context. -/
theorem entriesOf_wakeEntries (h : entriesOf s x = []) : entriesOf (wakeEntries s (coreOf x)) x = [] := by
  rw [entriesOf, entries_wakeEntries, List.filter_eq_nil_iff]
  intro q hq
  obtain ⟨e, he, rfl⟩ := List.mem_map.1 hq
  simpa only [wakened_ctx] using List.filter_eq_nil_iff.1 h e he

theorem stalls_wakeEntries (s : State) (c : Nat) : ((wakeEntries s c).core c).stalls = (s.core c).stalls := stalls_modCore rfl c

end

/-! ## TASK_END -/

section
variable {s : State} {x : Nat} {k : Task} (hstop : s.stopped (dieOfCtx x) = false) (htask : (s.ctx x).task = some k)
  (hquiet : quiet s x = true) (hents : entriesOf s x = [])
include hstop htask hquiet hents

/-- A killed task that is quiet ends (R372). -/
theorem execTaskEnd_killed {f : Rec} (hkill : (s.ctx x).kill = some f) :
    exec (.taskEnd x) s = .next (endKilled (wakeEntries s (coreOf x)) x k f) := by
  have hq : quiet (wakeEntries s (coreOf x)) x = true := hquiet
  simp only [exec_taskEnd, execTaskEnd, hstop, htask, hkill, dropEntries_of_none hents, hq, entriesOf_wakeEntries hents, Bool.false_eq_true,
    if_false, List.isEmpty_nil, Bool.and_true, if_true]

/-- A quiet task that waits at EXITVA meets its end (R372). -/
theorem execTaskEnd_exit {is : Issue} (hkill : (s.ctx x).kill = none) (hissue : (s.ctx x).issue = some is) (hexit : is.exit = true) :
    exec (.taskEnd x) s = .next (endNormal (wakeEntries s (coreOf x)) x k is) := by
  have hq : quiet (wakeEntries s (coreOf x)) x = true := hquiet
  simp only [exec_taskEnd, execTaskEnd, hstop, htask, hkill, hissue, hexit, dropEntries_of_none hents, hq, entriesOf_wakeEntries hents,
    Bool.false_eq_true, if_false, Bool.not_true, List.isEmpty_nil, Bool.and_true, if_true]

end

/-- A killed task leaves its stalls, its frame block and its context (R329, R330, R372, R374). -/
theorem ended_endKilled (s : State) (x : Nat) (k : Task) (f : Rec) : Ended s (endKilled s x k f) x k (some f) := by
  have hsent := (sent_abortSources s x).trans (sent_sendNotice (abortSources s x) x 2)
  refine (ended_leaveCtx (sendNotice (abortSources s x) x 2) x k (some f)).of_same ?_ ?_ hsent.pkgs
  · exact congrArg (Tab.get Ctx.reset · x) hsent.ctxs
  · exact congrArg (fun t => (Tab.get Core.reset t (coreOf x)).stalls) hsent.cores

theorem Ended.of_wakeEntries {s t : State} {x : Nat} {k : Task} {f : Option Rec} (h : Ended (wakeEntries s (coreOf x)) t x k f) :
    Ended s t x k f := h.of_same rfl (stalls_wakeEntries s _) rfl

/-- A record that is pending at the end is delivered at the branch bundle (R372). -/
theorem endNormal_pending {s : State} {x : Nat} {k : Task} {is : Issue} {r : Rec} (hpend : (s.ctx x).pend = some r)
    (hframe : frameWaits s x = false) : endNormal s x k is =
      deliver (s.modCtx x (fun c => { c with pend := none })) x r (some { is with exit := false }) is.addr is.addr := by
  simp only [endNormal, hpend, hframe, Bool.false_eq_true, if_false]

/-- A delivery outside the handler keeps the task: it ends with the record, or enters the handler (R76). -/
theorem deliver_keepsTask {s : State} {x addr epc : Nat} {r : Rec} {is : Option Issue} (ht : (s.ctx x).t = false)
    (hkill : (s.ctx x).kill = none) :
    let t := deliver s x r is addr epc
    (t.ctx x).task = (s.ctx x).task ∧ (t.ctx x).pend = (s.ctx x).pend ∧
      (fldN (s.ctx x).tvec 7 48 = 0 → (t.ctx x).kill = some r) ∧
      (fldN (s.ctx x).tvec 7 48 ≠ 0 → (t.ctx x).rb = is ∧ (t.ctx x).t = true ∧ (t.ctx x).pc = fldN (s.ctx x).tvec 7 48 * 128 + 8 ∧
        (t.ctx x).epc = BitVec.ofNat 64 (epc % 2 ^ 55)) := by
  intro t
  have hw : (writeFrameRec s x 0x390 r).ctx x = s.ctx x := (homeOnly_writeFrameRec s x 0x390 r).ctx x
  by_cases hv : fldN (s.ctx x).tvec 7 48 = 0
  · obtain ⟨htask, hpend, hk⟩ := killTask_keeps (writeFrameRec s x 0x390 r) x r
    rw [hw] at htask hpend hk
    simp only [t, deliver_ends ht hv]
    exact ⟨htask, hpend, fun _ => by rw [hk, hkill]; rfl, fun h => absurd hv h⟩
  · simp only [t, deliver_enters ht hv, State.modCtx_eq, State.ctx_setCtx_same, hw]
    exact ⟨trivial, trivial, fun h => absurd h hv, fun _ => ⟨trivial, trivial, trivial, trivial⟩⟩

/-- A task that waits at EXITVA, or was killed, ends once it is quiet; a record that is pending is delivered first (R76, R372, R374). -/
theorem endOfTask (s : State) (x : Nat) (k : Task) (hstop : s.stopped (dieOfCtx x) = false) (htask : (s.ctx x).task = some k)
    (hquiet : quiet s x = true) (hents : entriesOf s x = []) :
    let p := pkgOfCtx x
    let bases := (((s.ctx x).h.map (fun h => h.2)).filter hV).map hBase
    let ends := fun (t : State) (fault : Option Rec) => t.ctx x = Ctx.reset ∧
      (t.core (coreOf x)).stalls = (s.core (coreOf x)).stalls.filter (fun v => !bases.contains v.base) ∧
      ∀ r, runOf s p k.run = some r → ∃ q, runOf t p k.run = some q ∧ q.blocks = r.blocks.filter (· ≠ k.blk) ∧
        q.tasks = r.tasks + 1 ∧ k.wid.toNat ∈ (q.node k.node).done ∧ k.wid.toNat ∉ (q.node k.node).live ∧
        q.failed = r.failed.or fault
    (∀ is, (s.ctx x).kill = none → (s.ctx x).issue = some is → is.exit = true →
      ((s.ctx x).pend = none → ∃ t, exec (.taskEnd x) s = .next t ∧ ends t none) ∧
      (∀ r, (s.ctx x).pend = some r → frameWaits s x = false → (s.ctx x).t = false → ∃ t, exec (.taskEnd x) s = .next t ∧
        (t.ctx x).task = some k ∧ (t.ctx x).pend = none ∧
        (fldN (s.ctx x).tvec 7 48 = 0 → (t.ctx x).kill = some r) ∧
        (fldN (s.ctx x).tvec 7 48 ≠ 0 → (t.ctx x).rb = some { is with exit := false } ∧ (t.ctx x).t = true ∧
          (t.ctx x).pc = fldN (s.ctx x).tvec 7 48 * 128 + 8 ∧ (t.ctx x).epc = BitVec.ofNat 64 (is.addr % 2 ^ 55)))) ∧
    (∀ f, (s.ctx x).kill = some f → ∃ t, exec (.taskEnd x) s = .next t ∧ ends t (some f)) := by
  intro p bases ends
  have hends : ∀ t f, Ended s t x k f → ends t f := fun _ _ h => h
  refine ⟨fun is hkill hissue hexit => ?_, fun f hkill => ?_⟩
  · have hexec := execTaskEnd_exit hstop htask hquiet hents hkill hissue hexit
    refine ⟨fun hpend => ⟨_, hexec, hends _ _ ?_⟩, fun r hpend hframe ht => ⟨_, hexec, ?_⟩⟩
    · have hp : ((wakeEntries s (coreOf x)).ctx x).pend = none := hpend
      rw [endNormal, hp]
      exact (ended_leaveCtx (wakeEntries s (coreOf x)) x k none).of_wakeEntries
    · have hf : frameWaits (wakeEntries s (coreOf x)) x = false := (frameWaits_setCore s _ x _).trans hframe
      rw [endNormal_pending (s := wakeEntries s (coreOf x)) hpend hf]
      have hctx : ((wakeEntries s (coreOf x)).modCtx x (fun c => { c with pend := none })).ctx x = { s.ctx x with pend := none } :=
        State.ctx_setCtx_same _ x _
      have hkeep := deliver_keepsTask (s := (wakeEntries s (coreOf x)).modCtx x (fun c => { c with pend := none })) (x := x)
        (addr := is.addr) (epc := is.addr) (r := r) (is := some { is with exit := false })
        (by rw [hctx]; exact ht) (by rw [hctx]; exact hkill)
      simp only [hctx, htask] at hkeep
      exact hkeep
  · exact ⟨_, execTaskEnd_killed hstop htask hquiet hents hkill, hends _ _ (ended_endKilled _ x k f).of_wakeEntries⟩

end Sys2Proof.Machine

/-! PROOFS. TASK_SAVE: what goes into the frame, and what the dispatch engine keeps (R80 to R82, R145, R285 to R288, R369, logs 12, 78). -/

namespace Sys2Proof.Machine

/-! ## Accesses to a frame block -/

/-- What the dispatch engine's accesses to memory change: neither contexts nor cores nor packets, and no saved task. -/
structure FrameIo (s t : State) : Prop where
  frame : { t with dies := s.dies, pkgs := s.pkgs, mem := s.mem, host := s.host, errs := s.errs, free := s.free } = s
  saved : ∀ p, (t.pkg p).saved = (s.pkg p).saved

theorem FrameIo.refl (s : State) : FrameIo s s := ⟨rfl, fun _ => rfl⟩

theorem FrameIo.trans {s t u : State} (h : FrameIo s t) (g : FrameIo t u) : FrameIo s u where
  frame := (congrArg (fun v : State => { v with
    dies := s.dies, pkgs := s.pkgs, mem := s.mem, host := s.host, errs := s.errs, free := s.free }) g.frame).trans h.frame
  saved p := (g.saved p).trans (h.saved p)

theorem HomeOnly.frameIo {s t : State} (h : HomeOnly s t) : FrameIo s t := ⟨h.frame, fun p => (congrArg Pkg.saved (h.pkg p) :)⟩

section
variable {s t : State} (h : FrameIo s t)
include h

theorem FrameIo.ctxs : t.ctxs = s.ctxs := (congrArg State.ctxs h.frame :)
theorem FrameIo.cores : t.cores = s.cores := (congrArg State.cores h.frame :)
theorem FrameIo.pkts : t.pkts = s.pkts := (congrArg State.pkts h.frame :)
theorem FrameIo.nextId : t.nextId = s.nextId := (congrArg State.nextId h.frame :)
theorem FrameIo.ctx (x : Nat) : t.ctx x = s.ctx x := congrArg (Tab.get Ctx.reset · x) h.ctxs

end

theorem frameIo_foldl {α : Type} (f : State → α → State) (h : ∀ s a, FrameIo s (f s a)) (l : List α) (s : State) :
    FrameIo s (l.foldl f s) := by
  induction l generalizing s with
  | nil => exact .refl s
  | cons a l ih => exact (h s a).trans (ih _)

theorem frameIo_modDie (s : State) (d : Nat) (f : Die → Die) : FrameIo s (s.modDie d f) := ⟨rfl, fun _ => rfl⟩

theorem frameIo_modPkg (s : State) (p : Nat) (f : Pkg → Pkg) (h : ∀ k, (f k).saved = k.saved) : FrameIo s (s.modPkg p f) := by
  refine ⟨rfl, fun q => ?_⟩
  by_cases hq : q = p
  · rw [hq, State.modPkg_eq, State.pkg_setPkg_same, h]
  · rw [State.modPkg_eq, State.pkg_setPkg_other _ _ hq]

theorem frameIo_failAccess (s : State) (p run d node va : Nat) : FrameIo s (failAccess s p run d node va) := by
  rw [failAccess]
  exact (served_logRec s d _).toHomeOnly.frameIo.trans (frameIo_modPkg _ p _ fun _ => rfl)

/-- Bytes of a frame block are written, or the access fails the graph (R369). -/
def writeOrFail (s : State) (d va : Nat) (bs : List Byte) (p run node : Nat) : State :=
  match writeRange s d va bs with
  | (.bad _ a, s) => failAccess s p run d node a
  | (_, s) => s

theorem frameIo_writeOrFail (s : State) (d va : Nat) (bs : List Byte) (p run node : Nat) :
    FrameIo s (writeOrFail s d va bs p run node) := by
  have h := (homeOnly_writeRange s d va bs).frameIo
  unfold writeOrFail
  generalize writeRange s d va bs = r at h ⊢
  obtain ⟨_ | _ | _, u⟩ := r
  · exact h
  · exact h
  · exact h.trans (frameIo_failAccess u _ _ _ _ _)

theorem frameIo_fillArea (s : State) (x : Nat) (t : Task) : FrameIo s (fillArea s x t) :=
  frameIo_foldl (fillCut x t (saveBase (s.ctx x).frame.toNat)) (fun s _ => frameIo_writeOrFail s _ _ _ (pkgOfCtx x) t.run t.node) _ s

/-- One piece of a frame block is written by a save (R369). -/
def saveStep (x : Nat) (t : Task) (f : Nat) (s : State) (w : Nat × List Byte) : State :=
  writeOrFail s (dieOfCtx x) (f + w.1) w.2 (pkgOfCtx x) t.run t.node

theorem frameIo_writeSave (s : State) (x : Nat) (t : Task) (ws : List (Nat × List Byte)) : FrameIo s (writeSave s x t ws) :=
  frameIo_foldl (saveStep x t (s.ctx x).frame.toNat) (fun u _ => frameIo_writeOrFail u _ _ _ _ _ _) ws s

/-! ## Upcalls -/

theorem frameIo_readDie {bad k : State → State} (s : State) (rs : List (Place × Nat)) (hbad : ∀ u, FrameIo u (bad u))
    (hk : ∀ u, FrameIo u (k u)) : FrameIo s (readDie s rs bad k) := by
  have h := (served_checkHomes s rs).toHomeOnly.frameIo
  rw [readDie]
  generalize checkHomes s rs = r at h ⊢
  obtain ⟨u, _ | f⟩ := r
  · exact h.trans (hk u)
  · exact h.trans ((served_machineCheckDie u _ f).toHomeOnly.frameIo.trans (hbad _))

theorem frameIo_countHome (s : State) (src : Nat) (p : Place) : FrameIo s (countHome s src p) := (served_countHome s src p).toHomeOnly.frameIo

theorem frameIo_pushUpcall (s : State) (d : Nat) (u : Upcall) : FrameIo s (pushUpcall s d u) := by
  unfold pushUpcall
  split_ifs
  · exact .refl s
  refine (frameIo_countHome s d _).trans (frameIo_readDie _ _ .refl fun v => ?_)
  rcases regionQueue v d u.region with _ | q
  · exact .refl v
  dsimp only
  split_ifs
  · exact .refl v
  refine (frameIo_countHome v d _).trans (frameIo_readDie _ _ .refl fun w => ?_)
  split_ifs
  · exact .refl w
  have h := (homeOnly_qPush w (pkgOfDie d) q (u.fields.map BitVec.toNat)).frameIo
  generalize qPush w (pkgOfDie d) q (u.fields.map BitVec.toNat) = r at h ⊢
  obtain ⟨y, _ | _⟩ := r
  · exact h
  · exact h.trans (frameIo_modDie y d _)

theorem frameIo_makeUpcall (s : State) (x va kind : Nat) (node : Bool) (region level : Nat) :
    FrameIo s (makeUpcall s x va kind node region level).1 :=
  (frameIo_modDie s (dieOfCtx x) _).trans (frameIo_pushUpcall _ _ _)

/-! ## Entries that leave the scoreboard -/

theorem Tab.mem_members_erase {α : Type} {t : Tab (Option α)} {k : Nat} {q : Nat × α} (h : q ∈ Tab.members (Tab.erase t k)) :
    q ∈ Tab.members t ∧ q.1 ≠ k := by
  obtain ⟨p, hp, hq⟩ := List.mem_filterMap.1 h
  obtain ⟨v, -, rfl⟩ := Option.map_eq_some_iff.1 hq
  exact ⟨List.mem_filterMap.2 ⟨p, Tab.erase_keys t k p hp, hq⟩, Tab.erase_no_key t k p hp⟩

theorem entriesOf_of_sb {s t : State} {x : Nat} (h : (t.core (coreOf x)).sb = (s.core (coreOf x)).sb) : entriesOf t x = entriesOf s x := by
  simp only [entriesOf, entries, h]

theorem mem_entriesOf_removed {s : State} {x k : Nat} {q : Nat × Entry} (h : q ∈ entriesOf (s.setEntry (coreOf x) k none) x) :
    q ∈ entriesOf s x ∧ q.1 ≠ k := by
  have hsb : entries (s.setEntry (coreOf x) k none) (coreOf x) = Tab.members (Tab.erase (s.core (coreOf x)).sb k) := by
    rw [entries, State.setEntry, State.modCore_eq, State.core_setCore_same]
    rfl
  rw [entriesOf, hsb] at h
  obtain ⟨hq, hctx⟩ := List.mem_filter.1 h
  obtain ⟨hmem, hne⟩ := Tab.mem_members_erase hq
  exact ⟨List.mem_filter.2 ⟨hmem, hctx⟩, hne⟩

/-- Once each of its entries has been removed a context has none. -/
theorem entriesOf_removed {s : State} {x : Nat} {es : List (Nat × Entry)} (h : ∀ q ∈ entriesOf s x, ∃ e ∈ es, e.1 = q.1) :
    entriesOf (es.foldl (fun s e => s.setEntry (coreOf x) e.1 none) s) x = [] := by
  induction es generalizing s with
  | nil =>
    refine List.eq_nil_iff_forall_not_mem.2 fun q hq => ?_
    obtain ⟨e, he, -⟩ := h q hq
    cases he
  | cons e es ih =>
    refine ih fun q hq => ?_
    obtain ⟨hq, hne⟩ := mem_entriesOf_removed hq
    obtain ⟨a, ha, hk⟩ := h q hq
    rcases List.mem_cons.1 ha with rfl | ha
    · exact absurd hk.symm hne
    · exact ⟨a, ha, hk⟩

theorem mem_entryOrder {l : List (Nat × Entry)} {e q : Nat × Entry} : q ∈ entryOrder l e ↔ q = e ∨ q ∈ l := by
  induction l with
  | nil => simp [entryOrder]
  | cons a l ih =>
    rw [entryOrder]
    split_ifs
    · simp
    · simp only [List.mem_cons, ih]
      tauto

theorem mem_foldl_entryOrder {es l : List (Nat × Entry)} {q : Nat × Entry} : q ∈ es.foldl entryOrder l ↔ q ∈ l ∨ q ∈ es := by
  induction es generalizing l with
  | nil => simp
  | cons e es ih =>
    simp only [List.foldl_cons, ih, mem_entryOrder, List.mem_cons]
    tauto

/-- Acceptance order leaves no entry out (R82). -/
theorem mem_orderedEntries {s : State} {x : Nat} {q : Nat × Entry} : q ∈ orderedEntries s x ↔ q ∈ entriesOf s x := by
  rw [orderedEntries, mem_foldl_entryOrder]
  simp

/-! ## The parts of a save -/

/-- What a task that is saved has under way on its core ends, and the dies are told (R82, R330). -/
def leaveSaved (s : State) (x : Nat) (es : List (Nat × Entry)) : State :=
  es.foldl (fun s e => s.setEntry (coreOf x) e.1 none) (sendNotice (dropMiss s (coreOf x) (x % 4)) x 0)

/-- The upcall of the fault that a save serves, and its ticket (R285 to R288). -/
def saveUpcall (s : State) (x : Nat) (why : SaveWhy) : State × Option Nat :=
  match why with
  | .fault va kind node region level _ =>
    ((makeUpcall s x va kind node region level).1, some (makeUpcall s x va kind node region level).2)
  | .preempt => (s, none)

/-- A save in its parts, from the state whose GSEALs have been lifted. -/
def saveFrom (s : State) (x : Nat) (k : Task) (why : SaveWhy) (rb : Option Issue) (seals : List (Nat × Nat × Nat)) : State :=
  let es := orderedEntries s x
  let y := saveUpcall (leaveSaved (writeSave (finishFill s x k) x k (saveBytes (s.ctx x) rb (es.map (fun e => e.2)))) x es) x why
  (y.1.modPkg (pkgOfCtx x) (fun l => { l with saved := l.saved ++ [savedOf x (s.ctx x) k why rb es seals y.2] })).setCtx x Ctx.reset

theorem saveTask_eq (s : State) (x : Nat) (k : Task) (why : SaveWhy) (rb : Option Issue) :
    saveTask s x k why rb = saveFrom (liftSeals s x) x k why rb ((heldSeals s x).map (fun q => q.2)) := by
  unfold saveTask saveFrom leaveSaved saveUpcall
  cases why <;> rfl

theorem finishFill_eq (s : State) (x : Nat) (k : Task) : finishFill s x k =
    if k.zeroed then s else (fillArea s x k).modCtx x (fun c => { c with task := some { k with zeroed := true } }) := by
  rw [finishFill]

/-- The cores and the saved tasks of the packages are as before. -/
def CoresAndSaved (s t : State) : Prop := t.cores = s.cores ∧ ∀ p, (t.pkg p).saved = (s.pkg p).saved

theorem FrameIo.coresAndSaved {s t : State} (h : FrameIo s t) : CoresAndSaved s t := ⟨h.cores, h.saved⟩

theorem CoresAndSaved.trans {s t u : State} (h : CoresAndSaved s t) (g : CoresAndSaved t u) : CoresAndSaved s u :=
  ⟨g.1.trans h.1, fun p => (g.2 p).trans (h.2 p)⟩

theorem coresAndSaved_modCtx (s : State) (x : Nat) (f : Ctx → Ctx) : CoresAndSaved s (s.modCtx x f) := ⟨rfl, fun _ => rfl⟩

theorem coresAndSaved_finishFill (s : State) (x : Nat) (k : Task) : CoresAndSaved s (finishFill s x k) := by
  rw [finishFill_eq]
  split_ifs
  · exact (FrameIo.refl s).coresAndSaved
  · exact (frameIo_fillArea s x k).coresAndSaved.trans (coresAndSaved_modCtx _ x _)

/-- What is under way on the core is removed there; memory and packages stay. -/
theorem leaveSaved_keeps (s : State) (x : Nat) (es : List (Nat × Entry)) :
    (leaveSaved s x es).pkgs = s.pkgs ∧ (leaveSaved s x es).mem = s.mem ∧ (leaveSaved s x es).host = s.host := by
  have hsent := sent_sendNotice (dropMiss s (coreOf x) (x % 4)) x 0
  have hfold : ∀ u : State, (es.foldl (fun s e => s.setEntry (coreOf x) e.1 none) u).withCores u.cores = u := by
    intro u
    induction es generalizing u with
    | nil => rfl
    | cons e es ih => exact (congrArg (State.withCores · u.cores) (ih (u.setEntry (coreOf x) e.1 none)) :)
  have hf := hfold (sendNotice (dropMiss s (coreOf x) (x % 4)) x 0)
  refine ⟨(pkgs_of_withCores hf).trans hsent.pkgs, ?_, ?_⟩
  · exact (congrArg State.mem hf :).trans (congrArg State.mem hsent.frame :)
  · exact (congrArg State.host hf :).trans (congrArg State.host hsent.frame :)

theorem entriesOf_leaveSaved {s : State} {x : Nat} {es : List (Nat × Entry)} (h : ∀ q ∈ entriesOf s x, q ∈ es) :
    entriesOf (leaveSaved s x es) x = [] := by
  refine entriesOf_removed fun q hq => ⟨q, h q ?_, rfl⟩
  have hcores := (sent_sendNotice (dropMiss s (coreOf x) (x % 4)) x 0).cores
  rwa [entriesOf_of_sb (s := s)] at hq
  rw [State.core, hcores]
  rw [← State.core, dropMiss, dropMisses, State.modCore_eq, State.core_setCore_same]

theorem frameIo_saveUpcall (s : State) (x : Nat) (why : SaveWhy) : FrameIo s (saveUpcall s x why).1 := by
  cases why with
  | fault va kind node region level ent => exact frameIo_makeUpcall s x va kind node region level
  | preempt => exact .refl s

end Sys2Proof.Machine

/-! PROOFS. A task that is saved leaves its context (R82, R145, R285, R375). -/

namespace Sys2Proof.Machine

theorem entriesOf_of_cores {s t : State} {x : Nat} (h : t.cores = s.cores) : entriesOf t x = entriesOf s x :=
  entriesOf_of_sb (by rw [State.core, State.core, h])

/-- A save takes a ticket where it serves a fault (R285, R287). -/
theorem saveUpcall_ticket (s : State) (x : Nat) (why : SaveWhy) : (saveUpcall s x why).2.isSome = decide (why ≠ .preempt) := by
  cases why <;> rfl

/-- What is written into a frame block by a save (R80 to R82, R371). -/
def savedFrame (s : State) (x : Nat) (k : Task) (rb : Option Issue) : State :=
  writeSave (finishFill s x k) x k (saveBytes (s.ctx x) rb ((orderedEntries s x).map (·.2)))

theorem coresAndSaved_savedFrame (s : State) (x : Nat) (k : Task) (rb : Option Issue) : CoresAndSaved s (savedFrame s x k rb) :=
  (coresAndSaved_finishFill s x k).trans (frameIo_writeSave _ x k _).coresAndSaved

/-- What a save does once the frame is written: the core's entries end, and an upcall is made (R82, R285). -/
theorem saveFrom_eq (s : State) (x : Nat) (k : Task) (why : SaveWhy) (rb : Option Issue) (seals : List (Nat × Nat × Nat)) :
    saveFrom s x k why rb seals =
      ((saveUpcall (leaveSaved (savedFrame s x k rb) x (orderedEntries s x)) x why).1.modPkg (pkgOfCtx x) (fun l => { l with
        saved := l.saved ++ [savedOf x (s.ctx x) k why rb (orderedEntries s x) seals
          (saveUpcall (leaveSaved (savedFrame s x k rb) x (orderedEntries s x)) x why).2] })).setCtx x Ctx.reset := by
  rw [saveFrom]
  simp only [savedFrame]

section
variable (s : State) (x : Nat) (k : Task) (why : SaveWhy) (rb : Option Issue) (seals : List (Nat × Nat × Nat))

theorem saveFrom_ctx : (saveFrom s x k why rb seals).ctx x = Ctx.reset := by
  rw [saveFrom_eq, State.ctx_setCtx_same]

theorem entriesOf_saveFrom : entriesOf (saveFrom s x k why rb seals) x = [] := by
  have hframe := coresAndSaved_savedFrame s x k rb
  have hleft : entriesOf (leaveSaved (savedFrame s x k rb) x (orderedEntries s x)) x = [] :=
    entriesOf_leaveSaved fun q hq => by
      rw [entriesOf_of_cores hframe.1] at hq
      exact mem_orderedEntries.2 hq
  rw [← entriesOf_of_cores (frameIo_saveUpcall _ x why).cores] at hleft
  rw [saveFrom_eq]
  exact hleft

/-- The dispatch engine keeps the task, with a ticket where an upcall was made (R82, R285). -/
theorem saveFrom_saved : ∃ ticket : Option Nat, ticket.isSome = decide (why ≠ .preempt) ∧
    ((saveFrom s x k why rb seals).pkg (pkgOfCtx x)).saved = (s.pkg (pkgOfCtx x)).saved ++
      [savedOf x (s.ctx x) k why rb (orderedEntries s x) seals ticket] := by
  refine ⟨_, saveUpcall_ticket (leaveSaved (savedFrame s x k rb) x (orderedEntries s x)) x why, ?_⟩
  have hframe := coresAndSaved_savedFrame s x k rb
  have hleft := (leaveSaved_keeps (savedFrame s x k rb) x (orderedEntries s x)).1
  have hup := frameIo_saveUpcall (leaveSaved (savedFrame s x k rb) x (orderedEntries s x)) x why
  rw [saveFrom_eq, State.pkg_setCtx, State.modPkg_eq, State.pkg_setPkg_same, hup.saved, ← hframe.2]
  exact congrArg (fun t => (Tab.get Pkg.reset t (pkgOfCtx x)).saved ++ _) hleft

/-- A save that serves no fault changes memory by what it writes into the frame block alone. -/
theorem sameMemory_saveFrom : sameMemory (savedFrame s x k rb) (saveFrom s x k .preempt rb seals) := by
  obtain ⟨-, hmem, hhost⟩ := leaveSaved_keeps (savedFrame s x k rb) x (orderedEntries s x)
  rw [saveFrom_eq]
  exact sameMemory_of_eq hmem hhost

end

/-- What is kept of a saved task whatever the save serves (R82, R285, R376, logs 68, 78). -/
theorem savedOf_keeps (x : Nat) (c : Ctx) (k : Task) (why : SaveWhy) (rb : Option Issue) (es : List (Nat × Entry))
    (seals : List (Nat × Nat × Nat)) (ticket : Option Nat) :
    let v := savedOf x c k why rb es seals ticket
    v.task = { k with zeroed := true } ∧ v.frame = c.frame.toNat ∧ v.core = coreOf x ∧ v.ents = es.map (·.2) ∧
      v.bg = rb.map (·.g) ∧ v.seals = seals ∧ v.unmet = c.pagerFail ∧ v.ticket = ticket ∧ v.ready = ticket.isNone ∧
      ∀ va kind node region level e, why = .fault va kind node region level e → v.failVa = va ∧ v.failKind = kind := by
  cases why with
  | preempt => exact ⟨rfl, rfl, rfl, rfl, rfl, rfl, rfl, rfl, rfl, fun _ _ _ _ _ _ h => by cases h⟩
  | fault va kind node region level e =>
    exact ⟨rfl, rfl, rfl, rfl, rfl, rfl, rfl, rfl, rfl, fun _ _ _ _ _ _ h => by cases h; exact ⟨rfl, rfl⟩⟩

/-- A save that waits for nothing takes place (R82, R375). -/
theorem execTaskSave_saved {s : State} {x : Nat} {k : Task} {why : SaveWhy} {rb : Option Issue} (hstop : s.stopped (dieOfCtx x) = false)
    (htask : (s.ctx x).task = some k) (hsave : (s.ctx x).save = some why) (hkill : (s.ctx x).kill = none)
    (hexit : ¬ (why = .preempt ∧ ∃ is, (s.ctx x).issue = some is ∧ is.exit = true)) (hrb : saveBundle (s.ctx x) = some rb)
    (hready : saveReady (liftSeals (dropGwait s x) x) x = true) (hwaits : saveWaits (dropGwait s x) x k = false) :
    exec (.taskSave x) s = .next (saveTask (dropGwait s x) x k why rb) := by
  have hgo : ¬ ((why = .preempt && (s.ctx x).issue.any (·.exit)) = true) := by
    rw [Bool.and_eq_true, decide_eq_true_eq, Option.any_eq_true]
    exact hexit
  simp only [exec_taskSave, execTaskSave, hstop, htask, hsave, hkill, hrb, hready, hwaits, Bool.false_eq_true, if_false, Bool.not_false,
    Bool.and_true, if_true]
  rw [if_neg hgo]

/-- A placed task that is to be saved goes into its frame, and the dispatch engine keeps it (R82, R145, R285 to R288, R375). -/
theorem saveOfTask (s : State) (x : Nat) (k : Task) (why : SaveWhy) (rb : Option Issue) (hstop : s.stopped (dieOfCtx x) = false)
    (htask : (s.ctx x).task = some k) (hsave : (s.ctx x).save = some why) (hkill : (s.ctx x).kill = none)
    (hexit : ¬ (why = .preempt ∧ ∃ is, (s.ctx x).issue = some is ∧ is.exit = true)) (hrb : saveBundle (s.ctx x) = some rb) :
    let u := dropGwait s x
    let lu := liftSeals u x
    let es := orderedEntries lu x
    saveReady lu x = true → saveWaits u x k = false →
    ∃ t v, exec (.taskSave x) s = .next t ∧ t.ctx x = Ctx.reset ∧ entriesOf t x = [] ∧
      (t.pkg (pkgOfCtx x)).saved = (s.pkg (pkgOfCtx x)).saved ++ [v] ∧ v.task = { k with zeroed := true } ∧
      v.frame = (s.ctx x).frame.toNat ∧ v.core = coreOf x ∧ v.ents = es.map (·.2) ∧
      v.bg = rb.map (·.g) ∧ v.seals = (heldSeals u x).map (·.2) ∧ v.unmet = (s.ctx x).pagerFail ∧
      (why = .preempt → v.ticket = none ∧ v.ready = true ∧
        sameMemory (writeSave (finishFill lu x k) x k (saveBytes (lu.ctx x) rb (es.map (·.2)))) t) ∧
      (∀ va kind node region level e, why = .fault va kind node region level e →
        v.ticket.isSome = true ∧ v.ready = false ∧ v.failVa = va ∧ v.failKind = kind) := by
  intro u lu es hready hwaits
  have hexec := execTaskSave_saved hstop htask hsave hkill hexit hrb hready hwaits
  have hleases := (leasesOnly_dropGwait s x).trans (leasesOnly_liftSeals (dropGwait s x) x)
  have hpkg : lu.pkg (pkgOfCtx x) = s.pkg (pkgOfCtx x) := congrArg (Tab.get Pkg.reset · _) hleases.pkgs
  obtain ⟨ticket, hticket, hsaved⟩ := saveFrom_saved lu x k why rb ((heldSeals u x).map (fun q => q.2))
  obtain ⟨hk, hframe, hcore, hents, hbg, hseals, hunmet, htk, hrd, hfail⟩ :=
    savedOf_keeps x (lu.ctx x) k why rb es ((heldSeals u x).map (fun q => q.2)) ticket
  rw [saveTask_eq] at hexec
  refine ⟨_, savedOf x (lu.ctx x) k why rb es ((heldSeals u x).map (fun q => q.2)) ticket, hexec, saveFrom_ctx lu x k why rb _,
    entriesOf_saveFrom lu x k why rb _, by rw [← hpkg]; exact hsaved, hk, by rw [hframe, hleases.ctxFrame], hcore, hents, hbg, hseals,
    by rw [hunmet, hleases.pagerFail], fun hwhy => ?_, fun va kind node region level e hwhy => ?_⟩
  · subst hwhy
    have hnone : ticket = none := by simpa using hticket
    exact ⟨htk.trans hnone, by rw [hrd, hnone]; rfl, sameMemory_saveFrom lu x k rb _⟩
  · have hsome : ticket.isSome = true := by simpa [hwhy] using hticket
    obtain ⟨n, hn⟩ := Option.isSome_iff_exists.1 hsome
    obtain ⟨hva, hkind⟩ := hfail va kind node region level e hwhy
    exact ⟨by rw [htk]; exact hsome, by rw [hrd, hn]; rfl, hva, hkind⟩

end Sys2Proof.Machine

/-! PROOFS. TASK_RESTORE: a saved task comes back as its frame holds it, or is placed to be killed (R81 to R83, R374, R376). -/

namespace Sys2Proof.Machine

/-! ## A context as its frame describes it -/

/-- Writes at rising indices, one value to each: an index that was written reads its value. -/
theorem Tab.get_foldl_writes {α : Type} {d g : α} {i : Nat} {f : Tab α → Nat → Tab α} (hsame : ∀ t, Tab.get d (f t i) i = g)
    (hother : ∀ t n, n ≠ i → Tab.get d (f t n) i = Tab.get d t i) {ns : List Nat} {t : Tab α} (h : i ∈ ns ∨ Tab.get d t i = g) :
    Tab.get d (ns.foldl f t) i = g := by
  induction ns generalizing t with
  | nil => exact h.resolve_left List.not_mem_nil
  | cons n ns ih =>
    refine ih ?_
    by_cases hn : n = i
    · exact .inr (hn ▸ hsame t)
    · rw [hother t n hn]
      exact h.imp_left fun hi => (List.mem_cons.1 hi).resolve_left (Ne.symm hn)

theorem Tab.get_foldl_set {α : Type} [DecidableEq α] {d : α} (g : Nat → α) {i n : Nat} (h : i < n) :
    Tab.get d ((List.range n).foldl (fun t n => Tab.set d t n (g n)) []) i = g i :=
  Tab.get_foldl_writes (fun t => Tab.get_set_same d t i (g i)) (fun t n hn => Tab.get_set_other d t (g n) hn.symm)
    (.inl (List.mem_range.2 h))

section
variable (rd : Nat → Nat → Nat) (frame : Nat) (k : Task) (own : Bool) (bg : Option (BitVec 12))

theorem frameCtx_rx {i : Nat} (h0 : 0 < i) (h : i < 32) :
    (frameCtx rd frame k own bg).rx i = BitVec.ofNat 64 (rd (0x20 + 8 * i) 8) := by
  rw [Ctx.rx, if_neg h0.ne']
  refine Tab.get_foldl_writes (fun t => ?_) (fun t n hn => ?_) (.inl (List.mem_range.2 h))
  · rw [if_neg h0.ne', Tab.get_set_same]
  · split_ifs
    · rfl
    · exact Tab.get_set_other 0 t _ hn.symm

theorem frameCtx_rh {i : Nat} (h : i < 32) : (frameCtx rd frame k own bg).rh i = BitVec.ofNat 64 (rd (0x120 + 8 * i) 8) :=
  Tab.get_foldl_set (fun n => BitVec.ofNat 64 (rd (0x120 + 8 * n) 8)) h

theorem frameCtx_w {i : Nat} (h : i < 8) : Tab.get 0 (frameCtx rd frame k own bg).w i = BitVec.ofNat 128 (rd (0x220 + 16 * i) 16) :=
  Tab.get_foldl_set (fun n => BitVec.ofNat 128 (rd (0x220 + 16 * n) 16)) h

end

/-- The frame holds a bundle where VALID of its replay buffer is 1, with the predicates that the dispatch engine kept (R75, R80, log 68). -/
theorem frameBundle_eq (rd : Nat → Nat → Nat) (addr : Nat) (g : BitVec 12) :
    (frameBundle rd addr g).isSome = decide (rd 0x2E0 8 / 2 ^ 8 % 2 = 1) ∧
      (frameBundle rd addr g).map (·.g) = (frameBundle rd addr g).map (fun _ => g) := by
  unfold frameBundle
  dsimp only
  by_cases hv : rd 0x2E0 8 / 2 ^ 8 % 2 = 0
  · rw [if_pos hv, hv]
    exact ⟨rfl, rfl⟩
  · rw [if_neg hv, Nat.mod_two_ne_zero.1 hv]
    exact ⟨rfl, rfl⟩

/-! ## A restore that raises a fault -/

theorem pkgs_killTask (s : State) (x : Nat) (r : Rec) : (killTask s x r).pkgs = s.pkgs := (leasesOnly_dropGwait s x).pkgs

theorem frameIo_failRun (s : State) (p run : Nat) (f : Rec) : FrameIo s (failRun s p run f) := by
  rw [failRun, modRun, setRun]
  exact frameIo_modPkg s p _ fun _ => rfl

/-- The task is on the context, killed with the record of the fault (R374, R376). -/
theorem restoreKilled_leaves {s : State} {x : Nat} {c : Ctx} {k : Task} (f : Flt) (htask : c.task = some k) (hkill : c.kill = none) :
    let t := restoreKilled s x c f
    (∀ p, (t.pkg p).saved = (s.pkg p).saved) ∧ (t.ctx x).task = some k ∧
      ∃ r, (t.ctx x).kill = some r ∧ r.code = f.code % 2 ^ 8 ∧ r.w2 = BitVec.ofNat 64 f.detail := by
  intro t
  let u := s.setCtx x { c with rb := none, reissue := false, pend := none }
  let r := mkRec u x true f
  have hu : u.ctx x = { c with rb := none, reissue := false, pend := none } := State.ctx_setCtx_same s x _
  have hw := homeOnly_writeFrameRec u x 0x390 r
  obtain ⟨hk, -, hr⟩ := killTask_keeps (writeFrameRec u x 0x390 r) x r
  have hfail := frameIo_failRun (killTask (writeFrameRec u x 0x390 r) x r) (pkgOfCtx x) k.run r
  have ht : t = failRun (killTask (writeFrameRec u x 0x390 r) x r) (pkgOfCtx x) k.run r := by
    simp only [t, restoreKilled]
    split
    case h_1 j hj => rw [Option.some.inj (hj.symm.trans htask)]
    case h_2 hj => cases hj.symm.trans htask
  rw [hw.ctx, hu] at hk hr
  refine ⟨fun p => ?_, ?_, r, ?_, code_mkRec u x true f, rfl⟩
  · rw [ht, hfail.saved, State.pkg, pkgs_killTask]
    exact hw.frameIo.saved p
  · rw [ht, hfail.ctx, hk, htask]
  · rw [ht, hfail.ctx, hr, hkill]
    rfl

/-! ## A task that goes on -/

theorem enterEntry_withCores (s : State) (x : Nat) (e : Entry) : (enterEntry s x e).withCores s.cores = s := by
  have hmod : ∀ (u : State) (c : Nat) (f : Core → Core), (u.modCore c f).withCores s.cores = u.withCores s.cores := fun _ _ _ => rfl
  rw [enterEntry, wakeEntries, hmod, hmod, State.setEntry, hmod, dropMiss, dropMisses, hmod]
  rfl

/-- GSEALs wait again: packets at new numbers, and leases of the context (log 78). -/
structure Resumed (x : Nat) (qs : List (Nat × Nat × Nat)) (s t : State) : Prop where
  frame : { t with ctxs := s.ctxs, pkts := s.pkts, nextId := s.nextId } = s
  ctx : (s.ctx x).sameButLeases (t.ctx x)
  next : s.nextId ≤ t.nextId
  kept : ∀ m < s.nextId, t.pkt m = s.pkt m
  sent : ∀ q ∈ qs, ∃ m < t.nextId, ∃ k, t.pkt m = some k ∧ k.group = q.1 ∧ k.kind = .seal (coreOf x) q.2.1 x q.2.2 none

theorem sameButLeases_takeLease (s : State) (x d : Nat) : (s.ctx x).sameButLeases ((takeLease s x d).ctx x) := by
  rw [takeLease, State.modCtx_eq, State.ctx_setCtx_same]
  split_ifs <;> rfl

theorem Resumed.trans {x : Nat} {ps qs : List (Nat × Nat × Nat)} {s t u : State} (h : Resumed x ps s t) (g : Resumed x qs t u) :
    Resumed x (ps ++ qs) s u where
  frame := (congrArg (fun v : State => { v with ctxs := s.ctxs, pkts := s.pkts, nextId := s.nextId }) g.frame).trans h.frame
  ctx := h.ctx.trans g.ctx
  next := h.next.trans g.next
  kept m hm := (g.kept m (hm.trans_le h.next)).trans (h.kept m hm)
  sent q hq := by
    rcases List.mem_append.1 hq with hq | hq
    · obtain ⟨m, hm, k, hk, hgroup, hkind⟩ := h.sent q hq
      exact ⟨m, hm.trans_le g.next, k, (g.kept m hm).trans hk, hgroup, hkind⟩
    · exact g.sent q hq

theorem resumed_one (s : State) (x : Nat) (q : Nat × Nat × Nat) : Resumed x [q] s
    (takeLease (sendPkt s q.1 (dieOfCtx x) (grpDie q.1) (.seal (coreOf x) q.2.1 x q.2.2 none)) x q.2.2) := by
  have hsent := sent_sendPkt s q.1 (dieOfCtx x) (grpDie q.1) (.seal (coreOf x) q.2.1 x q.2.2 none)
  refine ⟨rfl, sameButLeases_takeLease _ x _, hsent.next, hsent.kept, fun a ha => ?_⟩
  rw [List.mem_singleton.1 ha]
  exact ⟨s.nextId, Nat.lt_succ_self _, _, State.pkt_setPkt_same s s.nextId
    (some (mkPkt s q.1 (dieOfCtx x) (grpDie q.1) (.seal (coreOf x) q.2.1 x q.2.2 none))), rfl, rfl⟩

theorem resumed_resumeSeals (s : State) (x : Nat) (qs : List (Nat × Nat × Nat)) : Resumed x qs s (resumeSeals s x qs) := by
  unfold resumeSeals
  induction qs generalizing s with
  | nil => exact ⟨rfl, rfl, le_rfl, fun _ _ => rfl, fun _ h => by cases h⟩
  | cons q qs ih => exact (resumed_one s x q).trans (ih _)

/-- The context with the failed answers that the task has not met (R288). -/
def withUnmet (c : Ctx) (v : Saved) : Ctx :=
  { c with pagerFail := v.unmet ++ if v.failEnt.isSome then [] else (v.fail.map (fun w => ⟨w, v.failVa, v.failKind, c.reissue⟩)).toList }

/-- The entries of a saved task are accepted again, in order (R146). -/
def reenter (s : State) (x : Nat) (rd : Nat → Nat → Nat) (v : Saved) : State :=
  (List.range (min (rd 0x400 1) v.ents.length)).foldl (fun s j =>
    match v.ents[j]? with
    | some e => enterEntry s x (frameEntry s x rd v j (freeEntry s (coreOf x)) e)
    | none => s) s

theorem reenter_withCores (s : State) (x : Nat) (rd : Nat → Nat → Nat) (v : Saved) : (reenter s x rd v).withCores s.cores = s := by
  unfold reenter
  generalize List.range _ = js
  induction js generalizing s with
  | nil => rfl
  | cons j js ih =>
    rw [List.foldl_cons]
    refine (congrArg (State.withCores · s.cores) (ih _) :).trans ?_
    rcases v.ents[j]? with _ | e
    · rfl
    · exact enterEntry_withCores s x _

/-- After its entries a task that goes on has its FHDR written; then its GSEALs wait again, and the dies are told (R81, R330, log 78). -/
theorem restoreOn_eq (s : State) (x : Nat) (c : Ctx) (rd : Nat → Nat → Nat) (v : Saved) :
    ∃ b, FrameIo (reenter (s.setCtx x (withUnmet c v)) x rd v) b ∧
      restoreOn s x c rd v = dcInvalidate (sendNotice (resumeSeals b x v.seals) x 1) (coreOf x) := by
  rw [restoreOn, acquire_package]
  refine ⟨_, ?_, rfl⟩
  generalize hF : List.foldl _ _ _ = F
  have hF' : reenter (s.setCtx x (withUnmet c v)) x rd v = F := hF
  have h := (homeOnly_writeRange F (dieOfCtx x) v.frame (leBytes 8 (2 ^ 56))).frameIo
  rw [hF']
  generalize writeRange F (dieOfCtx x) v.frame (leBytes 8 (2 ^ 56)) = r at h ⊢
  obtain ⟨_ | _ | _, u⟩ := r
  · exact h
  · exact h
  · exact h.trans (frameIo_failAccess u _ _ _ _ _)

/-- The task is on its context as the frame describes it, but for the leases of its GSEALs (R83, R376, log 78). -/
theorem restoreOn_leaves (s : State) (x : Nat) (c : Ctx) (rd : Nat → Nat → Nat) (v : Saved) :
    let t := restoreOn s x c rd v
    (∀ p, (t.pkg p).saved = (s.pkg p).saved) ∧ (withUnmet c v).sameButLeases (t.ctx x) ∧
      ∀ q ∈ v.seals, ∃ m k, Tab.get none t.pkts m = some k ∧ k.group = q.1 ∧ k.kind = .seal (coreOf x) q.2.1 x q.2.2 none := by
  intro t
  have ha := reenter_withCores (s.setCtx x (withUnmet c v)) x rd v
  obtain ⟨b, hb, ht⟩ : ∃ b, _ ∧ t = _ := restoreOn_eq s x c rd v
  generalize reenter (s.setCtx x (withUnmet c v)) x rd v = a at ha hb
  obtain ⟨he, hctx, -, -, hseals⟩ := resumed_resumeSeals b x v.seals
  generalize resumeSeals b x v.seals = e at he hctx hseals ht
  have hn := sent_sendNotice e x 1
  generalize sendNotice e x 1 = n at hn ht
  rw [ht]
  have hsaved : ∀ p, (a.pkg p).saved = (s.pkg p).saved := fun p => by
    rw [State.pkg, pkgs_of_withCores ha]
    rfl
  have hactx : a.ctx x = withUnmet c v := by
    have : a.ctxs = (s.setCtx x (withUnmet c v)).ctxs := (congrArg State.ctxs ha :)
    rw [State.ctx, this]
    exact State.ctx_setCtx_same s x _
  refine ⟨fun p => ?_, ?_, fun q hq => ?_⟩
  · have hpkgs : n.pkgs = b.pkgs := hn.pkgs.trans (congrArg State.pkgs he :)
    change (n.pkg p).saved = _
    rw [State.pkg, hpkgs]
    exact (hb.saved p).trans (hsaved p)
  · rw [hb.ctx, hactx] at hctx
    change (withUnmet c v).sameButLeases (n.ctx x)
    rw [State.ctx, hn.ctxs]
    exact hctx
  · obtain ⟨m, hm, k, hk, hgroup, hkind⟩ := hseals q hq
    exact ⟨m, k, (hn.kept m hm).trans hk, hgroup, hkind⟩

/-! ## TASK_RESTORE -/

/-- A saved task that comes first is restored, once its frame has been read (R376). -/
theorem execTaskRestore_read {s u : State} {p n x : Nat} {v : Saved} {ps : Pieces} (hv : (s.pkg p).saved[n]? = some v)
    (hpkg : pkgOfCtx x = p) (hidle : idle s x = true) (hmay : mayRestore s p v (coreOf x) = true)
    (hroom : sbRoomFor s x v.ents.length = true) (hfirst : firstWant s p (savedWant s p v) = true)
    (hwaits : restoreWaits s (dieOfCtx x) (coreOf x) v = false)
    (hread : readFrame (leaveTiles s v (coreOf x)) (dieOfCtx x) v.frame = (.ok ps, u)) :
    exec (.taskRestore p n x) s = .next (restoreTask u p n x v ps) := by
  simp only [exec_taskRestore, execTaskRestore, hv, hpkg, hidle, hmay, hroom, hfirst, hwaits, hread, decide_true, Bool.and_self, Bool.not_true,
    Bool.or_self, Bool.false_eq_true, if_false]

/-- The package once the saved task has left its place (R376). -/
def leftSaved (u : State) (p n : Nat) : State :=
  (takeSaved u p n).modPkg p (fun k => { k with order := k.order + 1 })

/-- The task as it is placed again (R375, R376). -/
def restoredTask (u : State) (p n : Nat) (v : Saved) : Task :=
  { v.task with start := (leftSaved u p n).cycles p, since := (u.pkg p).order }

/-- The context that a restore starts from (R80, R83). -/
def restoredCtx (u : State) (p n : Nat) (v : Saved) (ps : Pieces) : Ctx := frameCtx ps.rd v.frame (restoredTask u p n v) v.own v.bg

theorem leftSaved_saved (u : State) (p n : Nat) : ((leftSaved u p n).pkg p).saved = (u.pkg p).saved.eraseIdx n := by
  simp only [leftSaved, takeSaved, State.modPkg_eq, State.pkg_setPkg_same]

theorem restoreTask_eq (u : State) (p n x : Nat) (v : Saved) (ps : Pieces) : restoreTask u p n x v ps =
    if (ps.rd 0 1).testBit 1 then restoreKilled (leftSaved u p n) x (restoredCtx u p n v ps) (Flt.mk0 0xB4 v.task.ph)
    else match frameBad ps with
      | some off => restoreKilled (leftSaved u p n) x (restoredCtx u p n v ps) (Flt.mk0 0xB3 off)
      | none => restoreOn (leftSaved u p n) x (restoredCtx u p n v ps) ps.rd v := rfl

/-- What a restore without a fault leaves in the context (R80, R83, R376). -/
theorem restoredCtx_fields (u : State) (p n : Nat) (v : Saved) (ps : Pieces) {c : Ctx}
    (h : (withUnmet (restoredCtx u p n v ps) v).sameButLeases c) :
    c.kill = none ∧ c.pagerFail = v.unmet ++ (if v.failEnt.isSome = true then [] else
      (v.fail.map (fun w => (⟨w, v.failVa, v.failKind, c.reissue⟩ : PagerFail))).toList) ∧
    c.frame = BitVec.ofNat 64 v.frame ∧ c.pc = ps.rd 8 8 % 2 ^ 55 ∧ c.g = BitVec.ofNat 12 (ps.rd 0x10 8) ∧
    (∀ i, 0 < i → i < 32 → c.rx i = BitVec.ofNat 64 (ps.rd (0x20 + 8 * i) 8)) ∧
    (∀ i < 32, c.rh i = BitVec.ofNat 64 (ps.rd (0x120 + 8 * i) 8)) ∧
    (∀ i < 8, Tab.get 0 c.w i = BitVec.ofNat 128 (ps.rd (0x220 + 16 * i) 16)) ∧
    c.tvec = BitVec.ofNat 64 (ps.rd 0x2A0 8) ∧ c.epc = BitVec.ofNat 64 (ps.rd 0x2A8 8) ∧ c.t = decide (ps.rd 0x2B0 8 % 2 = 1) ∧
    c.ldpstk = BitVec.ofNat 64 (ps.rd 0x2B8 8) ∧ c.gixstk = BitVec.ofNat 64 (ps.rd 0x2C0 8) ∧
    c.wid = BitVec.ofNat 64 (ps.rd 0x2C8 8) ∧ c.rb.isSome = decide (ps.rd 0x2E0 8 / 2 ^ 8 % 2 = 1) ∧
    c.reissue = (c.rb.isSome && (!c.t || v.own)) ∧ c.rb.map (·.g) = c.rb.map (fun _ => v.bg.getD c.g) := by
  have hc : c = { withUnmet (restoredCtx u p n v ps) v with lease := c.lease, out0 := c.out0 } :=
    (congrArg (fun e : Ctx => { e with lease := c.lease, out0 := c.out0 }) h :)
  have hb := fun addr => frameBundle_eq ps.rd addr (v.bg.getD (BitVec.ofNat 12 (ps.rd 0x10 8)))
  rw [hc]
  exact ⟨rfl, rfl, rfl, rfl, rfl, fun i h0 hi => frameCtx_rx ps.rd v.frame (restoredTask u p n v) v.own v.bg h0 hi,
    fun i hi => frameCtx_rh ps.rd v.frame (restoredTask u p n v) v.own v.bg hi,
    fun i hi => frameCtx_w ps.rd v.frame (restoredTask u p n v) v.own v.bg hi,
    rfl, rfl, rfl, rfl, rfl, rfl, (hb _).1, rfl, (hb _).2⟩

/-- A saved task comes back as its frame holds it, or is placed only to be killed (R81 to R83, R374, R376, logs 29, 76). -/
theorem restoreOfTask (s u : State) (p n x : Nat) (v : Saved) (ps : Pieces) (hv : (s.pkg p).saved[n]? = some v)
    (hpkg : pkgOfCtx x = p) (hidle : idle s x = true) (hmay : mayRestore s p v (coreOf x) = true)
    (hroom : sbRoomFor s x v.ents.length = true) (hfirst : firstWant s p (savedWant s p v) = true)
    (hwaits : restoreWaits s (dieOfCtx x) (coreOf x) v = false)
    (hread : readFrame (leaveTiles s v (coreOf x)) (dieOfCtx x) v.frame = (.ok ps, u)) :
    ∃ t, exec (.taskRestore p n x) s = .next t ∧ (t.pkg p).saved = (u.pkg p).saved.eraseIdx n ∧
      ((t.ctx x).task.map (fun k => (k.run, k.node, k.wid))) = some (v.task.run, v.task.node, v.task.wid) ∧
      ((ps.rd 0 1).testBit 1 = true → ∃ f, (t.ctx x).kill = some f ∧ f.code = 0xB4) ∧
      (∀ off, (ps.rd 0 1).testBit 1 = false → frameBad ps = some off → ∃ f, (t.ctx x).kill = some f ∧ f.code = 0xB3 ∧
        f.w2 = BitVec.ofNat 64 off) ∧
      ((ps.rd 0 1).testBit 1 = false → frameBad ps = none → let c := t.ctx x
        c.kill = none ∧ c.pagerFail = v.unmet ++ (if v.failEnt.isSome = true then [] else
          (v.fail.map (fun w => (⟨w, v.failVa, v.failKind, c.reissue⟩ : PagerFail))).toList) ∧
        c.frame = BitVec.ofNat 64 v.frame ∧ c.pc = ps.rd 8 8 % 2 ^ 55 ∧ c.g = BitVec.ofNat 12 (ps.rd 0x10 8) ∧
        (∀ i, 0 < i → i < 32 → c.rx i = BitVec.ofNat 64 (ps.rd (0x20 + 8 * i) 8)) ∧
        (∀ i < 32, c.rh i = BitVec.ofNat 64 (ps.rd (0x120 + 8 * i) 8)) ∧
        (∀ i < 8, Tab.get 0 c.w i = BitVec.ofNat 128 (ps.rd (0x220 + 16 * i) 16)) ∧
        c.tvec = BitVec.ofNat 64 (ps.rd 0x2A0 8) ∧ c.epc = BitVec.ofNat 64 (ps.rd 0x2A8 8) ∧ c.t = decide (ps.rd 0x2B0 8 % 2 = 1) ∧
        c.ldpstk = BitVec.ofNat 64 (ps.rd 0x2B8 8) ∧ c.gixstk = BitVec.ofNat 64 (ps.rd 0x2C0 8) ∧
        c.wid = BitVec.ofNat 64 (ps.rd 0x2C8 8) ∧ c.rb.isSome = decide (ps.rd 0x2E0 8 / 2 ^ 8 % 2 = 1) ∧
        c.reissue = (c.rb.isSome && (!c.t || v.own)) ∧ c.rb.map (·.g) = c.rb.map (fun _ => v.bg.getD c.g) ∧
        ∀ q ∈ v.seals, ∃ m k, Tab.get none t.pkts m = some k ∧ k.group = q.1 ∧ k.kind = .seal (coreOf x) q.2.1 x q.2.2 none) := by
  refine ⟨_, execTaskRestore_read hv hpkg hidle hmay hroom hfirst hwaits hread, ?_⟩
  have hleft := leftSaved_saved u p n
  have hkilled := fun f => restoreKilled_leaves (s := leftSaved u p n) (x := x) (c := restoredCtx u p n v ps) f rfl rfl
  rw [restoreTask_eq]
  by_cases horph : (ps.rd 0 1).testBit 1 = true
  · obtain ⟨hsaved, htask, r, hr, hcode, -⟩ := hkilled (Flt.mk0 0xB4 v.task.ph)
    rw [if_pos horph]
    exact ⟨(hsaved p).trans hleft, by rw [htask]; rfl, fun _ => ⟨r, hr, hcode⟩, fun _ h => absurd horph (by rw [h]; exact Bool.false_ne_true),
      fun h => absurd horph (by rw [h]; exact Bool.false_ne_true)⟩
  · rw [if_neg horph]
    rcases hbad : frameBad ps with _ | off
    · obtain ⟨hsaved, hctx, hseals⟩ := restoreOn_leaves (leftSaved u p n) x (restoredCtx u p n v ps) ps.rd v
      have htask : ((restoreOn (leftSaved u p n) x (restoredCtx u p n v ps) ps.rd v).ctx x).task = (restoredCtx u p n v ps).task :=
        (congrArg Ctx.task hctx :)
      obtain ⟨h1, h2, h3, h4, h5, h6, h7, h8, h9, h10, h11, h12, h13, h14, h15, h16, h17⟩ := restoredCtx_fields u p n v ps hctx
      exact ⟨(hsaved p).trans hleft, by rw [htask]; rfl, fun h => absurd h horph, fun _ _ h => (by cases h),
        fun _ _ => ⟨h1, h2, h3, h4, h5, h6, h7, h8, h9, h10, h11, h12, h13, h14, h15, h16, h17, hseals⟩⟩
    · obtain ⟨hsaved, htask, r, hr, hcode, hw2⟩ := hkilled (Flt.mk0 0xB3 off)
      exact ⟨(hsaved p).trans hleft, by rw [htask]; rfl, fun h => absurd h horph,
        fun o _ h => ⟨r, hr, hcode, by rw [hw2, Option.some.inj h]; rfl⟩, fun _ h => (by cases h)⟩

end Sys2Proof.Machine

/-! PROOFS. Tasks (R51 to R57, R80 to R83, R145, R369 to R376). -/

namespace Sys2Proof.Machine

/-- Settles O58, clause by clause: placement, the zero fill, writes of a frame, the end, the save and its bytes, the restore, the tiles
that are left, and pre-emption. -/
theorem tasks : Obligations.Tasks := by
  refine ⟨placement, zeroFill, writeRange_bytes, endOfTask, saveOfTask, savedFields, restoreOfTask, leavesTiles,
    fun s x k htask hkill hsave => ?_⟩
  obtain ⟨hquantum, hnoQuantum, hprio, hnoPrio⟩ := preemption s x k htask hkill hsave
  exact ⟨hquantum, hnoQuantum, hprio, hnoPrio, fun _ _ _ _ _ hrun htype hready haff => mem_readyWants hrun htype hready haff⟩

end Sys2Proof.Machine

/-! PROOFS. The arithmetic slots of class A: their words, and what each writes (R87 to R95). -/

namespace Sys2Proof.Machine

/-! ## Words of a major opcode -/

section
variable {w : Word32} {op : Nat}

/-- Only NOP has the word 0, whose major opcode is 0 (R64). -/
theorem ne_zero_of_op (hop : fldN w 27 5 = op) (h : op ≠ 0) : w ≠ 0 := by
  rintro rfl
  exact h (hop.symm.trans (by decide))

/-- Major opcodes 0x00 to 0x0F are of class A (R65). -/
theorem classOf_a (hop : fldN w 27 5 = op) (h : op < 16) : classOf w = .a := if_pos (show fldN w 27 5 < 16 from hop ▸ h)

/-- What the decoder makes of a word of each major opcode of class A (R64, R87 to R95). -/
def classAWords (w : Word32) : List (Nat × Except Reject Instr) :=
  let g := guardOf w
  [(1, decodeOp01 g w), (2, Sys2Proof.keep (.addi g (fld w 17 5) (fld w 12 5) (fld w 0 12))),
    (3, Sys2Proof.keep (.andi g (fld w 17 5) (fld w 12 5) (fld w 0 12))), (4, Sys2Proof.keep (.ori g (fld w 17 5) (fld w 12 5) (fld w 0 12))),
    (5, Sys2Proof.keep (.xori g (fld w 17 5) (fld w 12 5) (fld w 0 12))), (6, decodeOp06 g w),
    (7, Sys2Proof.keep (.movi g (fld w 17 5) (fld w 0 17))), (8, decodeOp08 g w), (9, decodeOp09 g w),
    (0x0A, if fld w 0 3 = 0 then Sys2Proof.keep (.sel g (fld w 17 5) (fld w 12 5) (fld w 7 5) (fld w 3 4)) else .error .field),
    (0x0B, Sys2Proof.keep (.bfx g (fld w 17 5) (fld w 12 5) (fld w 6 6) (fld w 0 6))),
    (0x0C, Sys2Proof.keep (.bfxs g (fld w 17 5) (fld w 12 5) (fld w 6 6) (fld w 0 6))),
    (0x0D, Sys2Proof.keep (.bfi g (fld w 17 5) (fld w 12 5) (fld w 6 6) (fld w 0 6))), (0x0E, decodeOp0E g w)]

/-- The decoder goes by the major opcode (R63 to R65). -/
theorem decodeCp_of_op {r : Except Reject Instr} (hop : fldN w 27 5 = op) (hr : (classAWords w).lookup op = some r) : decodeCp w = r := by
  have hdec : op ≠ 0 → decodeCp w = _ := fun h0 => if_neg (ne_zero_of_op hop h0)
  simp only [show (fld w 27 5).toNat = op from hop] at hdec
  obtain ⟨xs, ys, hsplit, -⟩ := List.lookup_eq_some_iff.1 hr
  have hmem : (op, r) ∈ classAWords w := hsplit ▸ List.mem_append_right xs (.head ys)
  simp only [classAWords, List.mem_cons, Prod.mk.injEq, List.not_mem_nil, or_false] at hmem
  rcases hmem with ⟨rfl, rfl⟩ | ⟨rfl, rfl⟩ | ⟨rfl, rfl⟩ | ⟨rfl, rfl⟩ | ⟨rfl, rfl⟩ | ⟨rfl, rfl⟩ | ⟨rfl, rfl⟩ | ⟨rfl, rfl⟩ | ⟨rfl, rfl⟩ |
    ⟨rfl, rfl⟩ | ⟨rfl, rfl⟩ | ⟨rfl, rfl⟩ | ⟨rfl, rfl⟩ | ⟨rfl, rfl⟩ <;> exact hdec (by decide)

end

/-! ## Slots that write one register -/

section
variable {s : State} {g : Guard} {d a b : BitVec 5} {r : Word}

/-- A slot of class A, B or M that has its own effect. -/
theorem slotABM_of_slotRuns {rs : List (BitVec 5)} (f : State → SlotRes) (h : slotRuns s g (rs.map (·.toNat))) :
    slotABM g rs f s = .next (settle (f s)) := by
  obtain ⟨is, hissue, hg, hl⟩ := h
  exact slotABM_run g rs f s is hissue hg hl

/-- A register operation writes its result (R84, R87). -/
theorem aluRR_writes (h : slotRuns s g [d.toNat, a.toNat, b.toNat]) {v : Word → Word → Word} (hv : v (s.rx a) (s.rx b) = r) :
    aluRR g d a b v s = .next (perform (s.wx d r)) := by
  rw [aluRR, slotABM_of_slotRuns (rs := [d, a, b]) _ h, setX, hv]
  rfl

/-- An operation of one register writes its result (R84, R87 to R89). -/
theorem aluR_writes (h : slotRuns s g [d.toNat, a.toNat]) {v : Word → Word} (hv : v (s.rx a) = r) :
    aluR g d a v s = .next (perform (s.wx d r)) := by
  rw [aluR, slotABM_of_slotRuns (rs := [d, a]) _ h, setX, hv]
  rfl

end

/-! ## Register operations -/

theorem shiftBy_eq (b : Word) : shiftBy b = b.toNat % 64 := by
  rw [shiftBy, fldN_eq, Nat.pow_zero, Nat.div_one]
  rfl

/-- The lower word of a product (R87). -/
theorem mul_eq_ofNat (a b : Word) : a * b = BitVec.ofNat 64 (a.toNat * b.toNat) := by
  rw [BitVec.ofNat_mul, BitVec.ofNat_toNat, BitVec.ofNat_toNat, BitVec.setWidth_eq, BitVec.setWidth_eq]

/-- The lesser and the greater of two words, read as signed and as unsigned (R87). -/
theorem slt_min (a b : Word) : (if b.slt a then b else a) = BitVec.ofInt 64 (min a.toInt b.toInt) := by
  by_cases h : b.toInt < a.toInt
  · rw [if_pos (BitVec.slt_iff_toInt_lt.2 h), min_eq_right h.le, BitVec.ofInt_toInt]
  · rw [if_neg (mt BitVec.slt_iff_toInt_lt.1 h), min_eq_left (not_lt.1 h), BitVec.ofInt_toInt]

theorem slt_max (a b : Word) : (if a.slt b then b else a) = BitVec.ofInt 64 (max a.toInt b.toInt) := by
  by_cases h : a.toInt < b.toInt
  · rw [if_pos (BitVec.slt_iff_toInt_lt.2 h), max_eq_right h.le, BitVec.ofInt_toInt]
  · rw [if_neg (mt BitVec.slt_iff_toInt_lt.1 h), max_eq_left (not_lt.1 h), BitVec.ofInt_toInt]

theorem ult_min (a b : Word) : (if b.ult a then b else a) = BitVec.ofNat 64 (min a.toNat b.toNat) := by
  by_cases h : b.toNat < a.toNat
  · rw [if_pos (BitVec.ult_iff_lt.2 h), min_eq_right h.le, BitVec.ofNat_toNat, BitVec.setWidth_eq]
  · rw [if_neg (mt BitVec.ult_iff_lt.1 h), min_eq_left (not_lt.1 h), BitVec.ofNat_toNat, BitVec.setWidth_eq]

theorem ult_max (a b : Word) : (if a.ult b then b else a) = BitVec.ofNat 64 (max a.toNat b.toNat) := by
  by_cases h : a.toNat < b.toNat
  · rw [if_pos (BitVec.ult_iff_lt.2 h), max_eq_right h.le, BitVec.ofNat_toNat, BitVec.setWidth_eq]
  · rw [if_neg (mt BitVec.ult_iff_lt.1 h), max_eq_left (not_lt.1 h), BitVec.ofNat_toNat, BitVec.setWidth_eq]

/-- The FNs of the register operations of two operands (R66, R87). -/
theorem decodeOp01_of_two {w : Word32} {g : Guard} (hg : g.wf = true) :
    ∀ k ∈ [(0, Instr.add), (1, .sub), (2, .and), (3, .or), (4, .xor), (5, .andn), (6, .shl), (7, .shr), (8, .sar), (9, .ror), (10, .mul),
        (11, .mulhu), (12, .mulhs), (13, .min), (14, .max), (15, .minu), (16, .maxu)],
      fldN w 0 7 = k.1 → decodeOp01 g w = .ok (k.2 g (fld w 17 5) (fld w 12 5) (fld w 7 5)) := by
  simp only [List.forall_mem_cons, List.not_mem_nil, false_implies, implies_true, and_true]
  and_intros
  all_goals
    intro hfn
    rw [decodeOp01, show (fld w 0 7).toNat = _ from hfn]
    exact keep_of_wf hg

/-- The FNs of the register operations of one operand, whose XB is zero (R62, R66, R87). -/
theorem decodeOp01_of_one {w : Word32} {g : Guard} (hg : g.wf = true) :
    ∀ k ∈ [(0x11, Instr.clz), (0x12, .ctz), (0x13, .popc)], fldN w 0 7 = k.1 →
      decodeOp01 g w = if fld w 7 5 = 0 then .ok (k.2 g (fld w 17 5) (fld w 12 5)) else .error .field := by
  simp only [List.forall_mem_cons, List.not_mem_nil, false_implies, implies_true, and_true]
  and_intros
  all_goals
    intro hfn
    rw [decodeOp01, show (fld w 0 7).toNat = _ from hfn]
    refine ite_congr rfl (fun _ => ?_) fun _ => rfl
    exact keep_of_wf hg

/-- Settles O11: the decoder's table, and each operation as a register operation with its result. -/
theorem aluRegisterResults : Obligations.AluRegisterResults := by
  refine ⟨fun w hop hg => ⟨classOf_a hop (by decide), ?_, ?_⟩, fun s g d a b => ⟨fun h => ?_, fun h => ?_⟩⟩
  · rw [decodeCp_of_op hop rfl]
    exact decodeOp01_of_two hg
  · rw [decodeCp_of_op hop rfl]
    intro k hk hfn
    rw [decodeOp01_of_one hg k hk hfn]
    exact ⟨fun h0 => if_pos h0, fun h0 => ⟨_, if_neg h0⟩⟩
  · simp only [exec_add, exec_sub, exec_and, exec_or, exec_xor, exec_andn, exec_shl, exec_shr, exec_sar, exec_ror, exec_mul, exec_mulhu,
      exec_mulhs, exec_min, exec_max, exec_minu, exec_maxu, ← shiftBy_eq, ← mul_eq_ofNat, ← slt_min, ← slt_max, ← ult_min,
      ← ult_max]
    and_intros <;> exact aluRR_writes h rfl
  · simp only [exec_clz, exec_ctz, exec_popc]
    and_intros <;> exact aluR_writes h rfl

/-! ## Immediates, shifts by a count and MOVI -/

/-- The FNs of the shifts by a count (R89). -/
theorem decodeOp06_of_fn {w : Word32} {g : Guard} (hg : g.wf = true) :
    ∀ k ∈ [(0, Instr.shli), (1, .shri), (2, .sari), (3, .rori)], fldN w 0 6 = k.1 →
      decodeOp06 g w = .ok (k.2 g (fld w 17 5) (fld w 12 5) (fld w 6 6)) := by
  simp only [List.forall_mem_cons, List.not_mem_nil, false_implies, implies_true, and_true]
  and_intros
  all_goals
    intro hfn
    rw [decodeOp06, show (fld w 0 6).toNat = _ from hfn]
    exact keep_of_wf hg

theorem decodeOp06_reserved {w : Word32} (g : Guard) (h : 4 ≤ fldN w 0 6) : decodeOp06 g w = .error .sub := by
  have hfn : 4 ≤ (fld w 0 6).toNat := h
  unfold decodeOp06
  split
  case h_5 => rfl
  all_goals omega

/-- The sign-extended constant of MOVI (R8, R90). -/
theorem signExtend_eq_sextN (m : BitVec 17) : m.signExtend 64 = BitVec.ofInt 64 (sextN m.toNat 17) := by
  have hlt : m.toNat % 2 ^ 17 = m.toNat := Nat.mod_eq_of_lt m.isLt
  rw [BitVec.signExtend, sextN, hlt, BitVec.toInt_eq_toNat_cond]
  congr 1
  split <;> split <;> omega

/-- Settles O12: the decoder's opcodes, and each operation as one on its register and its immediate. -/
theorem aluImmediateResults : Obligations.AluImmediateResults := by
  refine ⟨fun w hg => ⟨?_, fun hop => ⟨classOf_a hop (by decide), ?_, fun hfn => ?_⟩,
    fun hop => ⟨classOf_a hop (by decide), ?_⟩⟩, fun s g d a i n m => ⟨fun h => ?_, fun h => ?_⟩⟩
  · simp only [List.forall_mem_cons, List.not_mem_nil, false_implies, implies_true, and_true]
    and_intros
    all_goals
      intro hop
      refine ⟨classOf_a hop (by decide), (decodeCp_of_op hop rfl).trans ?_⟩
      exact keep_of_wf hg
  · rw [decodeCp_of_op hop rfl]
    exact decodeOp06_of_fn hg
  · exact ⟨_, (decodeCp_of_op hop rfl).trans (decodeOp06_reserved _ hfn)⟩
  · exact (decodeCp_of_op hop rfl).trans (keep_of_wf hg)
  · simp only [exec_addi, exec_andi, exec_ori, exec_xori, exec_shli, exec_shri, exec_sari, exec_rori]
    and_intros <;> exact aluR_writes h rfl
  · rw [exec_movi, execMovi, slotABM_of_slotRuns (rs := [d]) _ h, ← signExtend_eq_sextN]
    rfl

/-! ## Compares -/

/-- The tests of the register compares (R91). -/
theorem decodeOp08_of_cc {w : Word32} {g : Guard} (hg : g.wf = true) (hp : predDst (fld w 18 4) = true) (hz : fld w 0 4 = 0) :
    ∀ k ∈ [(0, Instr.cmpeq), (1, .cmpne), (2, .cmplt), (3, .cmpge), (4, .cmpltu), (5, .cmpgeu), (6, .cmptst)], fldN w 9 4 = k.1 →
      decodeOp08 g w = .ok (k.2 g (fld w 18 4) (fld w 13 5) (fld w 4 5)) := by
  have hwf : (g.wf && predDst (fld w 18 4)) = true := by rw [hg, hp]; rfl
  simp only [List.forall_mem_cons, List.not_mem_nil, false_implies, implies_true, and_true]
  and_intros
  all_goals
    intro hcc
    rw [decodeOp08, show (fld w 9 4).toNat = _ from hcc]
    refine (if_pos hz).trans ?_
    exact keep_of_wf hwf

/-- The tests of the immediate compares (R91). -/
theorem decodeOp09_of_cc {w : Word32} {g : Guard} (hg : g.wf = true) (hp : predDst (fld w 18 4) = true) :
    ∀ k ∈ [(0, Instr.cmpeqi), (1, .cmpnei), (2, .cmplti), (3, .cmpgei), (4, .cmpltui), (5, .cmpgeui), (6, .cmptsti)],
      fldN w 9 4 = k.1 → decodeOp09 g w = .ok (k.2 g (fld w 18 4) (fld w 13 5) (fld w 0 9)) := by
  have hwf : (g.wf && predDst (fld w 18 4)) = true := by rw [hg, hp]; rfl
  simp only [List.forall_mem_cons, List.not_mem_nil, false_implies, implies_true, and_true]
  and_intros
  all_goals
    intro hcc
    rw [decodeOp09, show (fld w 9 4).toNat = _ from hcc]
    exact keep_of_wf hwf

/-- The tests that are not below (R91). -/
theorem not_slt_eq {n : Nat} (a b : BitVec n) : (!a.slt b) = decide (b.toInt ≤ a.toInt) := by
  rw [BitVec.slt, ← decide_not, decide_eq_decide, not_lt]

theorem not_ult_eq {n : Nat} (a b : BitVec n) : (!a.ult b) = decide (b.toNat ≤ a.toNat) := by
  rw [BitVec.ult, ← decide_not, decide_eq_decide, not_lt]

/-- A register compare writes its test (R91). -/
theorem cmpRR_writes {s : State} {g : Guard} {p : BitVec 4} {a b : BitVec 5} {cc : Nat} {v : Bool}
    (h : slotRuns s g [a.toNat, b.toNat]) (hv : cmpTest cc (s.rx a) (s.rx b) = v) :
    cmpRR g p a b cc s = .next (perform (s.wg p v)) := by
  rw [cmpRR, slotABM_of_slotRuns (rs := [a, b]) _ h, hv]
  rfl

/-- An immediate compare writes its test (R91). -/
theorem cmpRI_writes {s : State} {g : Guard} {p : BitVec 4} {a : BitVec 5} {i : BitVec 9} {cc : Nat} {v : Bool}
    (h : slotRuns s g [a.toNat]) (hv : cmpTest cc (s.rx a) (i.signExtend 64) = v) :
    cmpRI g p a i cc s = .next (perform (s.wg p v)) := by
  rw [cmpRI, slotABM_of_slotRuns (rs := [a]) _ h, hv]
  rfl

/-- Settles O13: the decoder's tests, and each compare as its test of two words. -/
theorem compareResults : Obligations.CompareResults := by
  refine ⟨fun w hg hp => ⟨fun hop => ⟨classOf_a hop (by decide), fun hz => ?_⟩, fun hop => ⟨classOf_a hop (by decide), ?_⟩⟩,
    fun s g p a b i => ⟨fun h => ?_, fun h => ?_⟩⟩
  · rw [decodeCp_of_op hop rfl]
    exact decodeOp08_of_cc hg hp hz
  · rw [decodeCp_of_op hop rfl]
    exact decodeOp09_of_cc hg hp
  · simp only [exec_cmpeq, exec_cmpne, exec_cmplt, exec_cmpge, exec_cmpltu, exec_cmpgeu, exec_cmptst, ← not_slt_eq, ← not_ult_eq]
    and_intros <;> exact cmpRR_writes h rfl
  · have hi : i.toInt = (i.signExtend 64).toInt := (BitVec.toInt_signExtend_of_le (by decide)).symm
    simp only [exec_cmpeqi, exec_cmpnei, exec_cmplti, exec_cmpgei, exec_cmpltui, exec_cmpgeui, exec_cmptsti, hi, ← not_slt_eq,
      ← not_ult_eq]
    and_intros <;> exact cmpRI_writes h rfl

/-! ## SEL and the predicate operations -/

/-- The FNs of the predicate operations of two sources (R93). -/
theorem decodeOp0E_of_two {w : Word32} {g : Guard} (hg : g.wf = true) (hd : predDst (fld w 18 4) = true)
    (ha : predSrc (fld w 14 4) = true) (hz : fld w 3 7 = 0) :
    ∀ k ∈ [(0, Instr.pand), (1, .por), (2, .pxor), (3, .pandn)], fldN w 0 3 = k.1 → predSrc (fld w 10 4) = true →
      decodeOp0E g w = .ok (k.2 g (fld w 18 4) (fld w 14 4) (fld w 10 4)) := by
  simp only [List.forall_mem_cons, List.not_mem_nil, false_implies, implies_true, and_true]
  and_intros
  all_goals
    intro hfn hb
    have hwf : (g.wf && predDst (fld w 18 4) && predSrc (fld w 14 4) && predSrc (fld w 10 4)) = true := by rw [hg, hd, ha, hb]; rfl
    rw [decodeOp0E, show (fld w 0 3).toNat = _ from hfn]
    refine (if_pos hz).trans ?_
    exact keep_of_wf hwf

/-- PNOT has GB and the bits below it zero (R93). -/
theorem decodeOp0E_pnot {w : Word32} (g : Guard) (hfn : fldN w 0 3 = 4) : decodeOp0E g w =
    if fld w 3 11 = 0 then Sys2Proof.keep (.pnot g (fld w 18 4) (fld w 14 4)) else .error .field := by
  rw [decodeOp0E, show (fld w 0 3).toNat = _ from hfn]
  rfl

theorem decodeOp0E_reserved {w : Word32} (g : Guard) (h : 5 ≤ fldN w 0 3) : decodeOp0E g w = .error .sub := by
  have hfn : 5 ≤ (fld w 0 3).toNat := h
  unfold decodeOp0E
  split
  case h_6 => rfl
  all_goals omega

/-- A predicate operation writes its function (R93). -/
theorem predOps_writes {s : State} {g : Guard} {p a b : BitVec 4} {fn : Nat} {v : Bool} (h : slotRuns s g [])
    (hv : predOp fn (s.rg a) (s.rg b) = v) : predOps g p a b fn s = .next (perform (s.wg p v)) := by
  rw [predOps, slotABM_of_slotRuns (rs := []) _ h, hv]
  rfl

/-- Settles O14: the decoder's FNs, SEL as a choice of two registers, and each predicate operation as its function. -/
theorem selectAndPredicateResults : Obligations.SelectAndPredicateResults := by
  refine ⟨fun w hg => ⟨fun hop => ⟨classOf_a hop (by decide), fun hz hp => ?_⟩, fun hop => ⟨classOf_a hop (by decide), ?_⟩⟩,
    fun s g d a b p q r => ⟨fun h => ?_, fun h => ?_⟩⟩
  · have hwf : ((guardOf w).wf && predSrc (fld w 3 4)) = true := by rw [hg, hp]; rfl
    exact (decodeCp_of_op hop rfl).trans ((if_pos hz).trans (keep_of_wf hwf))
  · rw [decodeCp_of_op hop rfl]
    refine ⟨fun hd ha hz => ⟨decodeOp0E_of_two hg hd ha hz, fun hfn hb => ?_⟩, fun hfn hb => ⟨.field, ?_⟩,
      fun hfn => ⟨_, decodeOp0E_reserved _ hfn⟩⟩
    · have hwf : ((guardOf w).wf && predDst (fld w 18 4) && predSrc (fld w 14 4)) = true := by rw [hg, hd, ha]; rfl
      have hz' : fld w 3 11 = 0 := fld_join (m := 4) (n := 7) hb hz
      rw [decodeOp0E_pnot _ hfn, if_pos hz']
      exact keep_of_wf hwf
    · have hz' : fld w 3 11 ≠ 0 := fld_ne_zero_of_part 7 4 (by decide) hb
      exact (decodeOp0E_pnot _ hfn).trans (if_neg hz')
  · rw [exec_sel, execSel, slotABM_of_slotRuns (rs := [d, a, b]) _ h]
    rfl
  · simp only [exec_pand, exec_por, exec_pxor, exec_pandn, exec_pnot]
    and_intros <;> exact predOps_writes h rfl

/-! ## Bit fields -/

/-- Settles O15: the decoder's opcodes, and each field as it is read or inserted. -/
theorem bitFieldResults : Obligations.BitFieldResults := by
  refine ⟨fun w hg => ?_, fun s g d a p l _ h => ?_⟩
  · have hwf : ((guardOf w).wf && decide ((fld w 6 6).toNat + (fld w 0 6).toNat < 64)) = decide (fldN w 6 6 + fldN w 0 6 < 64) := by
      rw [hg, Bool.true_and]
      rfl
    simp only [List.forall_mem_cons, List.not_mem_nil, false_implies, implies_true, and_true]
    and_intros
    all_goals
      intro hop
      refine ⟨classOf_a hop (by decide), fun hfit => (decodeCp_of_op hop rfl).trans ?_, fun hover =>
        ⟨.field, (decodeCp_of_op hop rfl).trans ?_⟩⟩
      · exact if_pos (hwf.trans (decide_eq_true hfit))
      · refine if_neg (Bool.eq_false_iff.1 ?_)
        exact hwf.trans (decide_eq_false (Nat.not_lt.2 hover))
  · simp only [exec_bfx, exec_bfxs, exec_bfi]
    refine ⟨aluR_writes h rfl, aluR_writes h rfl, ?_⟩
    rw [execBfi, slotABM_of_slotRuns (rs := [d, a]) _ h]
    rfl

end Sys2Proof.Machine

/-! PROOFS. What stops a load or a store (R99, R281, R285, R288, R289, R293). -/

namespace Sys2Proof.Machine

/-! ## What stops an access -/

/-- The first failed answer that matches an access of a reissued bundle is the one that it meets (R288). -/
theorem pagerHit_of_first {c : Ctx} {is : Issue} {pre post : List PagerFail} {p : PagerFail} {va kind : Nat} (hissue : c.issue = some is)
    (hre : is.re = true) (hfail : c.pagerFail = pre ++ p :: post) (hp : p.slot = true ∧ p.va = va ∧ (p.kind = kind ∨ p.kind = 7))
    (hpre : ∀ q ∈ pre, ¬ (q.slot = true ∧ q.va = va ∧ (q.kind = kind ∨ q.kind = 7))) : pagerHit c true va kind = some p := by
  have hany : c.issue.any (·.re) = true := by rw [hissue]; exact hre
  rw [pagerHit, hfail, List.find?_append, List.find?_eq_none.2 fun q hq => ?_, Option.none_or, List.find?_cons_of_pos]
  · simpa [hany, and_assoc] using hp
  · simpa [hany, and_assoc] using hpre q hq

/-- The failed answer that an access has met is met no more (R288). -/
theorem dropFail_of_first {c : Ctx} {pre post : List PagerFail} {p : PagerFail} (hfail : c.pagerFail = pre ++ p :: post) (hp : p ∉ pre) :
    c.dropFail p = { c with pagerFail := pre ++ post } := by
  rw [Ctx.dropFail, hfail, List.erase_append_right _ hp, List.erase_cons_head]

/-- An access whose answer the pager has failed (R288). -/
theorem withPlace_failed {s : State} {va : Word} {kind : Nat} {k : Place → State → SlotRes} {p : PagerFail}
    (h : pagerHit s.me true va.toNat kind = some p) : withPlace s va kind k = .fault p.flt (s.modMe (·.dropFail p)) := by
  simp only [withPlace, h]

/-- What stops a slot that accesses an aligned address: its own alignment, the end of its translation, or the pager (R99, R281, R285, R288,
R289). -/
theorem aligned_outcome {s t : State} {ea : Word} {sz kind : Nat} {k : State → Place → State → SlotRes} {out : Out}
    (hout : out = .next (settle (aligned ea sz (fun s => withPlace s ea kind (k s)) s))) :
    let tr := translation s ea kind
    (ea.toNat % 2 ^ sz ≠ 0 → out = .next (takeFault s ⟨0x05, 1, ea.toNat, sz, 0⟩)) ∧
    (ea.toNat % 2 ^ sz = 0 → unfailed s ea kind →
      (∀ code detail, tr = .fault code detail t → out = .next (takeFault t ⟨code, 1, ea.toNat, detail, 0⟩)) ∧
      (∀ kind node region level, tr = .serviced kind node region level t → out = .next (takeServiced t
        ⟨missCode node, 1, ea.toNat, trDetail kind level, 0⟩ ea.toNat kind node region level)) ∧
      (∀ f, tr = .check f t → out = .next (machineCheck t t.cur.x f)) ∧
      (tr = .locked t → out = .next t)) ∧
    (∀ (why far : Nat) (is : Issue) (pre post : List PagerFail), ea.toNat % 2 ^ sz = 0 → s.me.issue = some is → is.re = true →
      (far = kind ∨ far = 7) → s.me.pagerFail = pre ++ ⟨why, ea.toNat, far, true⟩ :: post →
      (∀ q ∈ pre, ¬ (q.slot = true ∧ q.va = ea.toNat ∧ (q.kind = kind ∨ q.kind = 7))) →
      out = .next (takeFault (s.modMe (fun c => { c with pagerFail := pre ++ post }))
        ⟨0x87, 1, ea.toNat, far * 2 ^ 16 + why % 2 ^ 16, 0⟩)) := by
  intro tr
  subst hout
  refine ⟨fun h => ?_, fun h hun => ?_, fun why far is pre post h hissue hre hfar hfail hpre => ?_⟩
  · rw [aligned, if_pos h]
    rfl
  · rw [aligned, if_neg (not_not.2 h), withPlace_of_unfailed hun]
    refine ⟨fun code detail htr => ?_, fun kind node region level htr => ?_, fun f htr => ?_, fun htr => ?_⟩ <;>
      rw [show translation s ea _ = _ from htr] <;> rfl
  · have hp : (⟨why, ea.toNat, far, true⟩ : PagerFail) ∉ pre := fun hmem => hpre _ hmem ⟨rfl, rfl, hfar⟩
    have hhit := pagerHit_of_first hissue hre hfail ⟨rfl, rfl, hfar⟩ hpre
    rw [aligned, if_neg (not_not.2 h), withPlace_failed hhit]
    exact congrArg (fun c => (.next (takeFault (s.setCtx s.cur.x c) _) : Out)) (dropFail_of_first hfail hp)

section
variable {s : State} {g : Guard} {d a : BitVec 5} (o : BitVec 10) (sz : Nat)

/-- A load is an aligned access that reads (R99). -/
theorem loadOp_eq (signed : Bool) (h : slotRuns s g [d.toNat, a.toNat]) : loadOp g d a o sz signed s = .next (settle
    (aligned (eaOf s a o sz) sz (fun s' => withPlace s' (eaOf s a o sz) 0 (loadFrom (eaOf s a o sz) d.toNat (2 ^ sz) signed)) s)) := by
  rw [loadOp, slotABM_of_slotRuns (rs := [d, a]) _ h]

/-- A store is an aligned access that writes (R99). -/
theorem storeOp_eq (h : slotRuns s g [d.toNat, a.toNat]) : storeOp g d a o sz s = .next (settle
    (aligned (eaOf s a o sz) sz (fun s' => withPlace s' (eaOf s a o sz) 1 (storeTo (eaOf s a o sz) (2 ^ sz) (s'.rx d))) s)) := by
  rw [storeOp, slotABM_of_slotRuns (rs := [d, a]) _ h]

end

/-- Settles O26: each load and store is one aligned access. -/
theorem loadAndStoreFaults : Obligations.LoadAndStoreFaults := by
  intro s t g d a o
  simp only [List.forall_mem_cons, List.not_mem_nil, false_implies, implies_true, and_true, exec_ldub, exec_lduh, exec_lduw, exec_ldd,
    exec_ldsb, exec_ldsh, exec_ldsw, exec_stb, exec_sth, exec_stw, exec_std]
  refine ⟨?_, ?_, ?_, ?_, ?_, ?_, ?_, ?_, ?_, ?_, ?_⟩ <;> intro h
  iterate 7 exact aligned_outcome (loadOp_eq o _ _ h)
  all_goals exact aligned_outcome (storeOp_eq o _ h)

end Sys2Proof.Machine

/-! PROOFS. FENCE, BAR and the waits SWAIT and LWAIT (R103 to R107, R111, R139). -/

namespace Sys2Proof.Machine

/-! ## FENCE -/

section
variable {s : State} {x n : Nat}

/-- While a FENCE waits, no word of class M or E is ready (R103). -/
theorem wordReady_fenced {w : Word32} (hf : (s.ctx x).fence = some n) (hw : classOf w = .m ∨ classOf w = .e) :
    wordReady s x w = false := by
  have hlater : (decide (classOf w = .m) || decide (classOf w = .e)) = true := by simpa using hw
  simp only [wordReady, hf, hlater, Option.isSome_some, Bool.true_or, Bool.and_self, Bool.not_true, Bool.and_false, Bool.false_and]

/-- A FENCE waits while an earlier access is not performed (R103). -/
theorem fenceCheck_waits (hf : (s.ctx x).fence = some n) (hout : plainOut s x = true) : fenceCheck s x = s := by
  simp only [fenceCheck, hf, hout, if_true]

/-- A FENCE ends when every earlier access is performed (R103). -/
theorem fenceCheck_ends (hf : (s.ctx x).fence = some n) (hout : plainOut s x = false) :
    fenceCheck s x = acquire (s.modCtx x (fun c => { c with fence := none })) (coreOf x) n := by
  simp only [fenceCheck, hf, hout, Bool.false_eq_true, if_false]

theorem fence_fenceCheck (hf : (s.ctx x).fence = some n) (hout : plainOut s x = false) : ((fenceCheck s x).ctx x).fence = none := by
  rw [fenceCheck_ends hf hout, (onlyDrops_acquire _ _ _).ctx, State.modCtx_eq, State.ctx_setCtx_same]

/-- At scope stable and above the end of a FENCE leaves the data cache empty (R103). -/
theorem dc_fenceCheck (hf : (s.ctx x).fence = some n) (hout : plainOut s x = false) (hn : n ≠ 0) :
    ((fenceCheck s x).core (coreOf x)).dc = [] := by
  rw [fenceCheck_ends hf hout, acquire, if_neg hn, core_dcInvalidate_same]

end

/-! ## BAR -/

/-- A bundle in the replay buffer is reissued as it stands, its BAR with it (R75, R105). -/
theorem nextBundle_reissue {s : State} {x : Nat} {is : Issue} (hissue : (s.ctx x).issue = none) (hmay : mayIssue s x = true)
    (hre : (s.ctx x).reissue = true) (hrb : (s.ctx x).rb = some is) :
    nextBundle s x = (some { is with re := true, sync := (s.ctx x).pend.isSome, ld := none }, s) := by
  simp [nextBundle, hissue, hmay, hre, hrb]

section
variable {s : State} {is : Issue} (hissue : s.me.issue = some is) (hno : entriesOf s s.cur.x = []) (o : BitVec 2) (a : BitVec 5)
include hissue hno

/-- A BAR without earlier entries at which a record is pending delivers it (R27, R105). -/
theorem barBody_delivers (hsync : (is.sync && s.me.pend.isSome) = true) : barBody o a s = .wait (deliverPending s s.cur.x) := by
  simp only [barBody, hissue, hno, hsync, List.isEmpty_nil, Bool.not_true, Bool.false_eq_true, if_false, if_true]

variable (hsync : (is.sync && s.me.pend.isSome) = false)
include hsync

/-- A BAR whose arrival is on its way, or has arrived, waits (R105). -/
theorem barBody_waits (hbar : is.bar ≠ .none) : barBody o a s = .wait s := by
  simp only [barBody, hissue, hno, hsync, List.isEmpty_nil, Bool.not_true, Bool.false_eq_true, if_false]

variable (hbar : is.bar = .none)
include hbar

/-- A BAR at a misaligned address (R104). -/
theorem barBody_misaligned (hal : (s.rx a).toNat % 8 ≠ 0) : barBody o a s = .fault ⟨0x05, 1, (s.rx a).toNat, 3, 0⟩ s := by
  simp only [barBody, hissue, hno, hsync, hbar, List.isEmpty_nil, Bool.not_true, Bool.false_eq_true, if_false]
  exact if_pos hal

/-- A BAR sends its arrival to the home of its word (R105). -/
theorem barBody_arrives {t : State} {p : Place} (hal : (s.rx a).toNat % 8 = 0) (htr : translates s (s.rx a) 2 p t) :
    barBody o a s = .wait ((t.addReq (mkReq t (s.rx a) p .bar (o.getLsbD 0) none)).modIssue t.cur.x
      (fun is => { is with bar := .sent })) := by
  simp only [barBody, hissue, hno, hsync, hbar, List.isEmpty_nil, Bool.not_true, Bool.false_eq_true, if_false]
  exact (if_neg (not_not.2 hal)).trans (withPlace_translates htr)

end

/-- The departure of a BAR: it waits while the generation is that of its arrival, and is performed once it has moved on (R105, R106). -/
theorem departure_of_reaches {v t u : State} {w : Word32} {gen : Nat} {p : Place}
    (hr : reaches v (v.rxn (fldN w 12 5)) 0 p t) (hread : serveRead t (dieOfCtx t.cur.x) p 8 = (u, none)) :
    let y := dcDrop u (coreOf u.cur.x) p.pa
    departure w gen v = if u.readPhys p.pkg (p.pl = 2) p.pa 8 / 2 ^ 32 = gen then u
      else perform (if bit w 18 then acquire y (coreOf y.cur.x) (fldN w 19 3) else y) := by
  intro y
  rw [departure, withGate_reaches hr]
  simp only [hread]
  split <;> rfl

/-! ## SWAIT and LWAIT -/

section
variable {s : State} {g : Guard}

/-- A slot of class E that has its own effect. -/
theorem slotE_of_slotRuns {rs : List Nat} (f : State → SlotRes) (h : slotRuns s g rs) : slotE g rs f s = .next (settle (f s)) := by
  obtain ⟨is, hissue, hg, hl⟩ := h
  exact slotE_run g rs f s is hissue hg hl

/-- LWAIT is performed once its lease has ended (R111). -/
theorem execLwait_eq (n : BitVec 5) (h : slotRuns s g []) :
    execLwait g n s = .next (if lwaitReady s.me n.toNat = true then perform s else s) := by
  rw [execLwait, slotE_of_slotRuns _ h]
  split <;> rfl

theorem lwaitReady_iff (c : Ctx) (n : BitVec 5) :
    lwaitReady c n.toNat = true ↔ if n = 0 then c.lease = 0 ∧ c.out0 = 0 else bit c.lease n.toNat = false := by
  have hz : n.toNat = 0 ↔ n = 0 := BitVec.toNat_inj (y := 0)
  by_cases hn : n = 0
  · simp [lwaitReady, hn]
  · simp [lwaitReady, hz]

/-- A slot that waits for a condition of SWAIT is a sync point once it holds (R27, R139). -/
theorem swait_outcome {is : Issue} {all : Bool} {n : Nat} {out : Out} (hissue : s.me.issue = some is)
    (hout : out = .next (settle (if swaitReady s s.cur.x all n = true then syncPoint s else .wait s))) :
    (swaitReady s s.cur.x all n = true → (is.sync && s.me.pend.isSome) = false → out = .next (perform s)) ∧
    (swaitReady s s.cur.x all n = true → (is.sync && s.me.pend.isSome) = true → out = .next (deliverPending s s.cur.x)) ∧
    (swaitReady s s.cur.x all n = false → out = .next s) := by
  subst hout
  refine ⟨fun hr hsync => ?_, fun hr hsync => ?_, fun hr => ?_⟩
  · simp only [hr, if_true, syncPoint, hissue, hsync, Bool.false_eq_true, if_false]
    rfl
  · simp only [hr, if_true, syncPoint, hissue, hsync]
    rfl
  · simp only [hr, Bool.false_eq_true, if_false]
    rfl

/-- A command whose one handle is valid goes on (R129). -/
theorem needHandles_of_valid {k : State → SlotRes} {h : Nat} (hv : hV (s.rh h) = true) : needHandles [h] k s = k s := by
  simp [needHandles, hv]

end

/-- Settles O28: FENCE by its readiness and its end, BAR by its steps up to the arrival and by its departure, the waits by their
conditions. -/
theorem orderingAndWaits : Obligations.OrderingAndWaits := by
  refine ⟨fun s t g sc o a p is => ⟨fun h => ?_, fun x n hf => ⟨fun i hi hw hg => ?_, fenceCheck_waits hf, fun hout =>
    ⟨fence_fenceCheck hf hout, dc_fenceCheck hf hout⟩⟩, fun h hissue hno => ?_, fun x => nextBundle_reissue,
    fun h hissue hbar hsync hno => ?_, fun x gen is u hissue hbar hperf hstop => ?_⟩, fun s g n is hissue h => ⟨?_, ?_⟩⟩
  · rw [exec_fence, execFence, slotABM_of_slotRuns (rs := []) _ h]
    rfl
  · exact bundleReady_of_wordReady hi hg (wordReady_fenced hf hw)
  · rw [exec_bar, execBar, slotABM_of_slotRuns (rs := [a]) _ h]
    refine ⟨fun hsync => ?_, fun hsync hbar => ?_⟩
    · rw [barBody_delivers hissue hno o a hsync]
      rfl
    · rw [barBody_waits hissue hno o a hsync hbar]
      rfl
  · rw [exec_bar, execBar, slotABM_of_slotRuns (rs := [a]) _ h]
    refine ⟨fun hal htr => ?_, fun hal => ?_⟩
    · rw [barBody_arrives hissue hno o a hsync hbar hal htr]
      rfl
    · rw [barBody_misaligned hissue hno o a hsync hbar hal]
      rfl
  · intro v w y hr hread
    rw [exec_barDeparture, execBarDeparture]
    simp only [hissue, hbar, hperf, hstop, Bool.or_self, Bool.false_eq_true, if_false]
    exact congrArg (fun z => (.next (closeBundle z x) : Out)) (departure_of_reaches hr hread)
  · rw [exec_lwait, execLwait_eq n h]
    exact congrArg Host.Outcome.next (if_congr (lwaitReady_iff s.me n) rfl rfl)
  · refine List.forall_mem_cons.2 ⟨fun hv => swait_outcome hissue ?_, List.forall_mem_cons.2
      ⟨fun _ => swait_outcome hissue ?_, List.forall_mem_nil _⟩⟩
    · rw [exec_swait, execSwait, slotE_of_slotRuns _ h, needHandles_of_valid (hv rfl)]
    · rw [exec_swaitAll, execSwaitAll, slotE_of_slotRuns _ h]

end Sys2Proof.Machine

/-! PROOFS. What the home does with a request, and its counters (R105, R254, R257, R258, R271, R273, R291, R295). -/

namespace Sys2Proof.Machine

/-! ## Requests at their home -/

/-- Once bytes have been written at a place, they read back, and every other byte of memory reads as before. -/
theorem place_written {w t : State} {p pa : Nat} {host : Bool} {bs : List Byte} (hm : t.mem = (w.writePhys p host pa bs).mem)
    (hh : t.host = (w.writePhys p host pa bs).host) : readsBack w t p host pa bs ∧
      ∀ q h a, (h ≠ host ∨ placeKey h q a < placeKey host p pa ∨ placeKey host p pa + bs.length ≤ placeKey h q a) →
        readByte t q h a = readByte w q h a := by
  refine ⟨?_, fun q h a hout => ?_⟩
  · rw [readsBack, readBytes_congr hm hh]
    exact readsBack_writePhys w p host pa bs
  · exact (congrArg ofLe (readBytes_congr hm hh q h a 1)).trans (readByte_writePhys_outside hout)

/-- A request of the core's own die, or of host memory, is not counted (R271). -/
theorem countHome_of_not_converted {q : Req} (s : State) (hc : q.converted = false) : countHome s (dieOfCtx q.x) q.place = s := by
  rw [countHome]
  split
  case isTrue => rfl
  case isFalse hpl =>
    have hhome : homeDieOf q.place = dieOfCtx q.x := by
      have hlt : q.pl < 2 := Nat.not_le.1 hpl
      simpa [Req.converted, hlt] using hc
    rw [hotTouch, hotTouchN, hhome, hotClass, if_pos rfl]

section
variable {s : State} {r : Nat} {q : Req}

/-- The home performs a plain request by the event of its kind of home (R254, R295). -/
theorem exec_performPlain (hready : reqReady s r = some q) (hplain : q.kind.plain = true) :
    exec (if q.converted = true then .convertedAccess r else .homePlainAccess (.cp r)) s = .next (performPlain s r q) := by
  cases hc : q.converted with
  | true =>
    rw [if_pos rfl, exec_convertedAccess, execConvertedAccess]
    simp only [hready, hplain, hc, Bool.and_self, if_true]
  | false =>
    rw [if_neg Bool.false_ne_true, exec_homePlainAccess, execHomePlainAccess]
    simp only [cpPlainAccess, hready, hplain, hc, Bool.not_false, Bool.and_self, if_true]

/-- A store at its home leaves no request, and its bytes in memory (R254). -/
theorem performPlain_store {n v : Nat} (hkind : q.kind = .store n v) :
    let w := countHome s (dieOfCtx q.x) q.place
    let t := performPlain s r q
    t.req r = none ∧ t.mem = (w.writePhys q.pkg (q.pl = 2) q.pa (leBytes n v)).mem ∧
      t.host = (w.writePhys q.pkg (q.pl = 2) q.pa (leBytes n v)).host := by
  intro w t
  have ht : t = fenceCheck ((w.writePhys q.pkg (q.pl = 2) q.pa (leBytes n v)).setReq r none) q.x := by
    simp only [t, performPlain, hkind]
    rfl
  obtain ⟨hmem, hhost, hreq, -⟩ := fenceCheck_frame ((w.writePhys q.pkg (q.pl = 2) q.pa (leBytes n v)).setReq r none) q.x
  rw [ht]
  exact ⟨hreq r (State.req_setReq_same _ _ _), hmem, hhost⟩

variable (herrs : s.errs = [])
include herrs

/-- A load at its home is answered with the place's bytes (R254). -/
theorem performPlain_load {xd n : Nat} {sg : Bool} (hkind : q.kind = .load xd n sg) :
    let w := countHome s (dieOfCtx q.x) q.place
    performPlain s r q = w.setReq r (some { q with
      ans := some [w.readPhys q.pkg (q.pl = 2) q.pa n], line := w.readBytes q.pkg (q.pl = 2) (q.pa / 64 * 64) 64 }) := by
  simp only [performPlain, hkind]
  exact readHome_of_no_errs (countHome_errs herrs _ _) _ _ _ _ _

/-- A BAR at its home counts its arrival (R105). -/
theorem performPlain_bar (hkind : q.kind = .bar) :
    let w := countHome s (dieOfCtx q.x) q.place
    let old := w.readPhys q.pkg (q.pl = 2) q.pa 8
    performPlain s r q = (w.writePhys q.pkg (q.pl = 2) q.pa (leBytes 8 (barArrive old))).setReq r
      (some { q with ans := some [old / 2 ^ 32] }) := by
  simp only [performPlain, hkind]
  exact readHome_of_no_errs (countHome_errs herrs _ _) _ _ _ _ _

/-- An atomic at its home is answered with the old value and leaves the new one (R258). -/
theorem exec_atomicAtHome_eq {fn n op cmp xd : Nat} (hready : reqReady s r = some q) (hkind : q.kind = .atomic fn n op cmp xd)
    (hpl : q.pl ≠ 2) :
    let w := countHome s (dieOfCtx q.x) q.place
    let old := w.readPhys q.pkg (q.pl = 2) q.pa n
    exec (.atomicAtHome r) s = .next ((w.writePhys q.pkg (q.pl = 2) q.pa (leBytes n (amoNew fn n old op cmp))).setReq r
      (some { q with ans := some [old] })) := by
  rw [exec_atomicAtHome, execAtomicAtHome, decide_eq_false hpl]
  simp only [hready, hkind]
  exact congrArg Host.Outcome.next (readHome_of_no_errs (countHome_errs herrs _ _) _ _ _ _ _)

end

theorem leBytes_mod (n v : Nat) : leBytes n (v % 2 ^ (8 * n)) = leBytes n v := by
  induction n generalizing v with
  | zero => rfl
  | succ n ih =>
    have hpow : 2 ^ (8 * (n + 1)) = 256 * 2 ^ (8 * n) := by rw [Nat.mul_succ, pow_add]; ring
    rw [leBytes, leBytes, hpow, Nat.mod_mul_right_mod, Nat.mod_mul_right_div_self, ih]

/-- The value that an atomic leaves is that of its function (R257, R259). -/
theorem leBytes_amoNew {n old op cmp : Nat} : ∀ k ∈ atomicTable n old op cmp, leBytes n (amoNew k.1 n old op cmp) = leBytes n k.2 := by
  simp only [atomicTable, List.forall_mem_cons, List.not_mem_nil, false_implies, implies_true, and_true]
  exact ⟨rfl, rfl, rfl, (leBytes_mod n _).symm, rfl, rfl, rfl, rfl, rfl⟩

/-! ## Hotness counters -/

/-- A home has four counter classes (R271). -/
theorem hotClass_lt {src d cls : Nat} (h : hotClass src d = some cls) : cls < 4 := by
  unfold hotClass at h
  split at h
  · cases h
  · split at h
    · cases h; decide
    · cases h
      split <;> omega

/-- The field of a class that is not full goes up by one (R271). -/
theorem fldN_counted (w : Word) {cls : Nat} (hcls : cls < 4) (hk : fldN w (16 * cls) 16 ≠ 0xFFFF) :
    fldN (BitVec.ofNat 64 (w.toNat + 2 ^ (16 * cls))) (16 * cls) 16 = fldN w (16 * cls) 16 + 1 := by
  have hpow : (2 : Nat) ^ 64 = 2 ^ (16 * cls) * 2 ^ (64 - 16 * cls) := by rw [← pow_add]; congr 1; omega
  have hdvd : (2 : Nat) ^ 16 ∣ 2 ^ (64 - 16 * cls) := pow_dvd_pow 2 (by omega)
  rw [fldN_eq] at hk
  rw [fldN_ofNat, fldN_eq, hpow, Nat.mod_mul_right_div_self, Nat.mod_mod_of_dvd _ hdvd, Nat.add_div_right _ (by positivity)]
  omega

/-- The counter word of a block goes on where no word is in error (R255, R271). -/
theorem readHot_of_no_errs {s : State} (h : s.errs = []) (d blk : Nat) (k : Word → State → State) :
    readHot s d blk k = k (hotWord s d blk) s := by
  simp only [readHot, checkRead_of_no_errs h, readDie_of_no_errs h, ite_self]

/-- A counter word that is cached, or whose page no migration holds, is at hand (R271, R291, log 86). -/
def hotAtHand (s : State) (d blk : Nat) : Prop := (Tab.get none (s.die d).hot blk).isSome = true ∨ gate s (hotPlace s d blk) = .go

theorem hotAtHand_iff (s : State) (d blk : Nat) :
    ((Tab.get none (s.die d).hot blk).isNone && decide (gate s (hotPlace s d blk) ≠ .go)) = true ↔ ¬ hotAtHand s d blk := by
  rw [hotAtHand, Bool.and_eq_true, decide_eq_true_eq, not_or, Option.isNone_iff_eq_none, Option.isSome_iff_ne_none, not_not]

/-- The counter word of a block with one more request of a class (R271). -/
def hotCounted (s : State) (d blk cls : Nat) : Word := BitVec.ofNat 64 ((hotWord s d blk).toNat + 2 ^ (16 * cls))

/-- The die's line store holds a counter word. -/
def hotStored (s : State) (d blk : Nat) (w : Word) : State := s.modDie d (fun v => { v with hot := Tab.set none v.hot blk (some w) })

theorem die_hotStored (s : State) (d blk : Nat) (w : Word) :
    (hotStored s d blk w).die d = { s.die d with hot := Tab.set none (s.die d).hot blk (some w) } := State.die_setDie_same s d _

section
variable {s : State} {src d pa cls : Nat} (hcls : hotClass src d = some cls) (hon : bit (s.die d).hotcfg cls = true)
  (hblk : pa / 2 ^ 16 < hotBlocks)
include hcls hon hblk

/-- A count waits for a counter word that is not at hand (R291, log 86). -/
theorem hotTouch_waits (hfree : ¬ hotAtHand s d (pa / 2 ^ 16)) : hotTouch s src d pa = holdJob s d (.touch src pa) := by
  rw [hotTouch, hotTouchN, hcls]
  simp only [hon, Nat.not_le.2 hblk, decide_false, Bool.not_true, Bool.or_self, Bool.false_eq_true, if_false]
  exact if_pos ((hotAtHand_iff s d _).2 hfree)

/-- A request is counted, unless the counter is full, and a counter that reaches THR notifies (R271, R273). -/
theorem hotTouch_counts (herrs : s.errs = []) (hfree : hotAtHand s d (pa / 2 ^ 16)) :
    let blk := pa / 2 ^ 16
    let k := fldN (hotWord s d blk) (16 * cls) 16
    let w := hotCounted s d blk cls
    let u := hotStored s d blk w
    hotTouch s src d pa = if k = 0xFFFF then s else if k + 1 = fldN (s.die d).hotcfg 32 16 then
      hotNotify (fun s src b => hotTouchN 15 s src (homeDieOf b) b.pa) u d blk cls w else u := by
  intro blk k w u
  have hthr : fldN (u.die d).hotcfg 32 16 = fldN (s.die d).hotcfg 32 16 := by rw [die_hotStored]
  rw [hotTouch, hotTouchN, hcls]
  simp only [hon, Nat.not_le.2 hblk, decide_false, Bool.not_true, Bool.or_self, Bool.false_eq_true, if_false]
  refine (if_neg fun h => (hotAtHand_iff s d _).1 h hfree).trans ?_
  rw [readHot_of_no_errs herrs, ← hthr]
  rfl

end

/-- A die's own request is not counted at its own counters (R271). -/
theorem hotTouchN_own (n : Nat) (s : State) (d pa : Nat) : hotTouchN n s d d pa = s := by
  cases n with
  | zero => rfl
  | succ n => rw [hotTouchN, hotClass, if_pos rfl]

section
variable {count : State → Nat → Place → State} {u : State} {d : Nat} {rec : List Nat}

/-- A notification waits for a queue that a migration holds (R291, log 86). -/
theorem pushNote_waits (hgate : gate u (queuePlaceOf d (fldN (u.die d).hotq 8 36 * 2 ^ 8)) ≠ .go) :
    pushNote count u d rec = holdJob u d (.note rec) := if_pos hgate

/-- A notification is pushed into a sound queue, or dropped and counted where it is full (R273). -/
theorem pushNote_pushes (herrs : u.errs = []) {qa : Nat} (hqa : fldN (u.die d).hotq 8 36 * 2 ^ 8 = qa)
    (hgate : gate u (queuePlaceOf d qa) = .go) (hcount : count u d (queuePlaceOf d qa) = u) (hq : qOk u (pkgOfDie d) qa = true) :
    let push := qPush u (pkgOfDie d) qa rec
    (push.2 = true → pushNote count u d rec = push.1.modDie d (fun v => { v with hotLost := 0 })) ∧
    (push.2 = false → pushNote count u d rec = push.1.modDie d (fun v => { v with
      hotLost := min (v.hotLost + 1) 0xFFFFFFFF, hotdrop := BitVec.ofNat 64 (min (v.hotdrop.toNat + 1) 0xFFFFFFFF) })) := by
  cases hpush : qPush u (pkgOfDie d) qa rec with
  | mk t ok =>
    constructor <;> rintro rfl <;> simp only [pushNote, hqa, hgate, hcount, readDie_of_no_errs herrs, hq, hpush, ne_eq, not_true_eq_false,
      if_false, Bool.not_true, Bool.false_eq_true]

end

/-- Settles O37: a request at its home by its kind, and a counter by what its word, its threshold and its queue say. -/
theorem homePerformsRequests : Obligations.HomePerformsRequests := by
  refine ⟨fun s r q hready herrs => ?_, fun s src d pa cls herrs hcls hon hblk => ?_⟩
  · intro w host key old outside
    refine ⟨fun hc _ => countHome_of_not_converted s hc, ?_, fun fn n op cmp xd hkind hpl _ _ => ?_⟩
    · rintro ins rfl
      refine ⟨fun xd n sg hkind => ?_, fun n v hkind => ?_, fun hkind => ?_⟩ <;>
        rw [exec_performPlain hready (by rw [hkind]; rfl)]
      · rw [performPlain_load herrs hkind]
        exact ⟨_, rfl, sameMemory_of_eq rfl rfl, State.req_setReq_same _ _ _⟩
      · obtain ⟨hreq, hmem, hhost⟩ := performPlain_store (s := s) (r := r) hkind
        obtain ⟨hback, hout⟩ := place_written hmem hhost
        rw [length_leBytes] at hout
        exact ⟨_, rfl, hout, hreq, hback⟩
      · rw [performPlain_bar herrs hkind]
        obtain ⟨hback, hout⟩ := place_written (w := w) (p := q.pkg) (pa := q.pa) (host := host)
          (bs := leBytes 8 (barArrive (old 8))) rfl rfl
        rw [length_leBytes] at hout
        exact ⟨_, rfl, hout, State.req_setReq_same _ _ _, hback⟩
    · have hhost : host = false := decide_eq_false hpl
      obtain ⟨hback, hout⟩ := place_written (w := w) (p := q.pkg) (pa := q.pa) (host := host)
        (bs := leBytes n (amoNew fn n (old n) op cmp)) rfl rfl
      rw [length_leBytes] at hout
      refine ⟨_, exec_atomicAtHome_eq herrs hready hkind hpl, hout, State.req_setReq_same _ _ _, ?_⟩
      rintro k hk rfl
      rw [← leBytes_amoNew k hk, ← hhost]
      exact hback
  · intro blk old k new u qa free
    have hu : u = hotStored s d blk (hotCounted s d blk cls) := rfl
    have hdie : (u.die d).hotq = (s.die d).hotq := by rw [hu, die_hotStored]
    refine ⟨fun hno => hotTouch_waits hcls hon hblk hno, fun hfree hfull => ?_, fun hfree hk =>
      ⟨fldN_counted old (hotClass_lt hcls) hk, fun hquiet => ?_, fun hthr hbit hgate => ?_, fun hthr hbit hgate hhome hq => ?_⟩⟩ <;>
      rw [hotTouch_counts hcls hon hblk herrs hfree]
    · exact if_pos hfull
    · refine (if_neg hk).trans ?_
      split
      case isTrue hthr => exact if_neg (by rw [← hu, hdie, hquiet.resolve_left (not_not.2 hthr)]; decide)
      case isFalse => rfl
    · refine (if_neg hk).trans ((if_pos hthr).trans ?_)
      rw [hotNotify, ← hu, hdie, if_pos hbit]
      refine pushNote_waits ?_
      rw [hdie]
      exact hgate
    · rw [if_neg hk, if_pos hthr, hotNotify, ← hu, hdie, if_pos hbit]
      have hcount : hotTouchN 15 u d (homeDieOf (queuePlaceOf d qa)) (queuePlaceOf d qa).pa = u := by rw [hhome, hotTouchN_own]
      have hqa : fldN (u.die d).hotq 8 36 * 2 ^ 8 = qa := by rw [hdie]
      exact pushNote_pushes (count := fun s src b => hotTouchN 15 s src (homeDieOf b) b.pa) (rec := hotRecord u d blk cls new) (u := u)
        herrs hqa hgate hcount hq

end Sys2Proof.Machine
